-- ==== Sys2Proof/Word.lean ====
section
/-! DEFINITION. The word types of the SZ-9680 and the shape of one register field (00_scope.md R6). -/

namespace Sys2Proof

/-- A register word: registers are 32 bits wide (00_scope.md, Register tables). -/
abbrev Word := BitVec 32

/-- One byte. -/
abbrev Byte := BitVec 8

/-- A sparse table: pairs of key and value, keys rising, no entry equal to what an unlisted key reads as. -/
abbrev Tab (α : Type) := List (Nat × α)

/-- Field types of the register tables (00_scope.md R6). -/
inductive FTy where
  | rw | ro | rwl | w1c | w1s | wo
  deriving DecidableEq, Repr

/-- One field of a register table: offset in its window, lowest bit, width, type, reset value. -/
structure Fld where
  off : Nat
  lo : Nat
  wd : Nat
  ty : FTy
  rst : Nat
  deriving DecidableEq, Repr

end Sys2Proof
end

