-- ==== Sys2Proof/Syntax.lean ====
section
/-! DEFINITION. The commands: one constructor of `Instr` per row of spec/opcode_table.json, with the operands its rule names.
An operand that is a measurement, an answer of the board or of a link partner, or the outcome of cryptography on given bytes
is an input from outside (notes/assumptions/8.md). -/

namespace Sys2Proof

/-- A signal engine Fd.Ee.k (05 R130). -/
structure Eng where
  d : Fin 8
  e : Fin 10
  k : Fin 16
  deriving DecidableEq, Repr

/-- A lane: quad 0 to 31 is Fd.Qq with 4d + q, 32 to 39 is H.Qq (12 R336). -/
structure Lane where
  q : Fin 40
  l : Fin 4
  deriving DecidableEq, Repr

/-- The requester of a CSR access: the partition stamped on it and its source node, die code times 256 plus node
(08 R224, R227; 13 R382). -/
structure Who where
  part : BitVec 5
  node : BitVec 12
  deriving DecidableEq, Repr

/-- Island edges in the order of 14 R405: N, E, S, W. -/
inductive Edge where
  | north | east | south | west
  deriving DecidableEq, Repr

/-- A domain with margin monitors: a logic island, or an engine island (07 R201). -/
inductive ClkDom where
  | island (d : Fin 8) (i : Fin 48)
  | engines (d : Fin 8) (e : Fin 10)
  deriving DecidableEq, Repr

/-- The signals of one block memory port at one edge (04 R106). -/
structure BramIn where
  addr : BitVec 16
  din : BitVec 36
  we : BitVec 4
  en : Bool
  rst : Bool
  deriving DecidableEq, Repr

/-- A NoC packet: the header of 08 R224 and its data bytes; `rsvd` says that a reserved header field is not 0. -/
structure Packet where
  dstDie : BitVec 4
  dstNode : BitVec 8
  dstUnit : BitVec 4
  srcDie : BitVec 4
  srcNode : BitVec 8
  srcUnit : BitVec 4
  part : BitVec 5
  prio : BitVec 2
  vn : BitVec 2
  op : BitVec 6
  len : BitVec 4
  tag : BitVec 12
  nw : Bool
  rsv : BitVec 7
  resp : BitVec 3
  size : BitVec 10
  addr : BitVec 48
  firstBe : BitVec 64
  lastBe : BitVec 64
  rsvd : Bool
  poisoned : Bool
  data : List Byte
  deriving DecidableEq, Repr

/-- An access path (13 R382): a PCIe function f of link k of controller c, a host port, I2C, or a logic island. -/
inductive Path where
  | pcie (c : Fin 2) (k : Fin 4) (f : Fin 8)
  | hpar
  | hspi
  | i2c
  | fabric (d : Fin 8) (i : Fin 48)
  deriving DecidableEq, Repr

/-- How a PCIe path is lost (13 R396): the link goes down, `PERSTn_N` is asserted, or a Function Level Reset. -/
inductive LossKind where
  | linkDown | perst | flr
  deriving DecidableEq, Repr

/-- A command as submitted through a mailbox: the header words of 13 R374 and the payload bytes. -/
structure MbReq where
  mb : Fin 32
  path : Path
  len : BitVec 8
  session : BitVec 16
  seq : BitVec 16
  payload : List Byte
  deriving DecidableEq, Repr

/-- One line request of the memory security engine to a DDR controller (10 R284). -/
structure McReq where
  id : Nat
  line : BitVec 30
  write : Bool
  mask : BitVec 64
  data : BitVec 512
  prio : BitVec 2
  deriving DecidableEq, Repr

/-- What a channel finds fitted (10 R278): kind 1 RDIMM, 2 components; width 0 x4, 1 x8, 2 x16; density 0 16 Gb, 1 32 Gb;
`spdRate` is the fastest rate index the SPD allows; `ecc` whether it reports check bits; `serial` its serial number. -/
structure Fit where
  kind : BitVec 2
  width : BitVec 2
  density : Bool
  ranks2 : Bool
  spdRate : BitVec 2
  slow : Bool
  ecc : Bool
  serial : Nat
  deriving DecidableEq, Repr

/-- What training a channel gave: passed, or the first failing step, or the time limit with the step in progress (10 R298), or that it
goes on, step by step, in the rows that follow. -/
inductive TrainOutcome where
  | pass
  | goesOn
  | failStep (step : BitVec 4)
  | timeLimit (step : BitVec 4)
  deriving DecidableEq, Repr

/-- What a start finds on one hawser (09 R259): wires 0 to 73 bad in steps 3 and 4, clocks bad (CKA, CKB), sidebands bad
(SB0 to SB3). -/
structure HawserTest where
  badStatic : List (Fin 70)
  badPrbs : List (Fin 70)
  badClk : BitVec 2
  badSb : BitVec 4
  deriving DecidableEq, Repr

/-- What a start finds on one die (09 R259, R43): whether it answers, its stepping code and its feature level. -/
structure DieFound where
  present : Bool
  stepping : BitVec 4
  fl : BitVec 4
  deriving DecidableEq, Repr

/-- Outcomes of an image header's signature (14 R409) and of one segment's hash and GCM tag (R409, R410). -/
structure ImageCheck where
  keyOk : Bool
  sigOk : Bool
  hashOk : BitVec 8
  tagOk : BitVec 8
  deriving DecidableEq, Repr

/-- Outcomes of the checks of a slot that rest on signatures (16 R489, R504): the manifest's key hash and signature, and the
checks of the operational and the golden image. -/
structure SlotCheck where
  keyOk : Bool
  sigOk : Bool
  op : ImageCheck
  golden : ImageCheck
  deriving DecidableEq, Repr

/-- What happens to stored bits in the field (row MEMORY_UPSET). -/
inductive UpsetAt where
  | bram (d : Fin 8) (i : Fin 48) (n : Fin 50) (row : Fin 1024) (mask : BitVec 36)
  | engineDm (g : Eng) (addr : BitVec 15) (mask : BitVec 13)
  | enginePm (g : Eng) (addr : BitVec 13) (mask : BitVec 13)
  | dram (line : BitVec 33) (data : BitVec 512) (chk : BitVec 128)
  | cache (level : BitVec 4) (index : BitVec 24) (byte : Fin 64) (mask : BitVec 13)
  | granule (g : BitVec 22) (mask : BitVec 13)
  /-- a word of a flit of a packet on its way, with its 8 check bits above its 64 bits (08 R223) -/
  | link (p : Packet) (flit : Fin 9) (word : Fin 8) (mask : BitVec 72)
  | dmcSram
  deriving DecidableEq, Repr

/-- Summary of what ran in a die over one period of the voltage loop (15 R466): whether an island runs, lowest slack,
stretched and exhausted periods, all periods, and the hottest junction's rise within 1 s in degrees. -/
structure LoopReport where
  running : Bool
  lowest : BitVec 6
  stretched : Nat
  exhausted : Nat
  periods : Nat
  rise : Nat
  deriving DecidableEq, Repr

/-- Sensors of 15 R459 with the value sampled. Rail 0 is the hub's, 1 to 8 are F0 to F7. -/
inductive Sensor where
  | junction (die : Fin 9) (idx : Fin 6) (eighths : BitVec 16)
  | rail (r : Fin 9) (mv : BitVec 10)
  | regulator (r : Fin 9) (mv : BitVec 10) (deciAmp : BitVec 16) (power : BitVec 16)
  | margin (die : Fin 8) (lowest : BitVec 6) (stretched : BitVec 16) (exhausted : BitVec 16)
  deriving DecidableEq, Repr

/-- Data by which a deferred mailbox command completes: an outcome of the hardware, and response bytes read from it. -/
inductive Finish where
  | ok
  | failed (source : BitVec 8) (code : BitVec 8) (index : BitVec 16)
  deriving DecidableEq, Repr

/-- The commands of the block: one constructor per row of spec/opcode_table.json, in the table's order. -/
inductive Instr where
  | csrWr (p : Packet)
  | usLo (w : Who)
  | configUpset (d : Fin 8) (i : Fin 48) (f : Fin 2000) (bits : List (Fin 4110))
  | selClr (w : Who) (d : Fin 8) (v : Word)
  | generatorWrite (w : Who) (d : Fin 8) (i : Fin 48) (v : Word)
  | generatorLock (d : Fin 8) (i : Fin 48)
  | treeSwitch (w : Who) (d : Fin 8) (i : Fin 48) (x : Fin 4) (v : Word)
  | switchComplete (d : Fin 8) (i : Fin 48) (x : Fin 4)
  | switchForce (d : Fin 8) (i : Fin 48) (x : Fin 4)
  | stretchRequest (c : ClkDom) (slack : BitVec 6)
  | stretchRelease (c : ClkDom) (slack : BitVec 6)
  | marginClr (w : Who) (c : ClkDom) (v : Word)
  | hitchWrite (d : Fin 8) (i : Fin 48) (e : Edge) (k : Fin 24) (data : BitVec 36)
  | hitchArrive (d : Fin 8) (i : Fin 48) (e : Edge) (k : Fin 24)
  | hitchTake (d : Fin 8) (i : Fin 48) (e : Edge) (k : Fin 24)
  | hitchSlotFree (d : Fin 8) (i : Fin 48) (e : Edge) (k : Fin 24)
  | bramPortAccess (d : Fin 8) (i : Fin 48) (n : Fin 50) (a : Option BramIn) (b : Option BramIn)
  | bramScrubStep (d : Fin 8) (i : Fin 48) (n : Fin 50)
  | bramScrubWriteback (d : Fin 8) (i : Fin 48) (n : Fin 50)
  | bramScrubSkip (d : Fin 8) (i : Fin 48) (n : Fin 50)
  | bramRawGo (w : Who) (d : Fin 8) (i : Fin 48) (v : Word)
  | bramRawAccess (d : Fin 8) (i : Fin 48)
  | bramRawTimeout (d : Fin 8) (i : Fin 48)
  | memClr (w : Who) (d : Fin 8) (i : Fin 48) (v : Word)
  | slotANop (g : Eng)
  | addW (g : Eng) (rd rs rt : BitVec 4)
  | subW (g : Eng) (rd rs rt : BitVec 4)
  | cmpW (g : Eng) (rs rt : BitVec 4)
  | addH (g : Eng) (rd rs rt : BitVec 4)
  | subH (g : Eng) (rd rs rt : BitVec 4)
  | addsH (g : Eng) (rd rs rt : BitVec 4)
  | subsH (g : Eng) (rd rs rt : BitVec 4)
  | andW (g : Eng) (rd rs rt : BitVec 4)
  | orW (g : Eng) (rd rs rt : BitVec 4)
  | xorW (g : Eng) (rd rs rt : BitVec 4)
  | andnW (g : Eng) (rd rs rt : BitVec 4)
  | shlW (g : Eng) (rd rs : BitVec 4) (sh : BitVec 6)
  | shrW (g : Eng) (rd rs : BitVec 4) (sh : BitVec 6)
  | sraW (g : Eng) (rd rs : BitVec 4) (sh : BitVec 6)
  | sraH (g : Eng) (rd rs : BitVec 4) (sh : BitVec 6)
  | movX (g : Eng) (rd rs : BitVec 4)
  | mvl (g : Eng) (rd : BitVec 4) (imm : BitVec 16)
  | mvh (g : Eng) (rd : BitVec 4) (imm : BitVec 16)
  | conj (g : Eng) (rd rs : BitVec 4)
  | mulj (g : Eng) (rd rs : BitVec 4)
  | packH (g : Eng) (rd rs rt : BitVec 4)
  | rdst (g : Eng) (rd : BitVec 4)
  | wrst (g : Eng) (rs : BitVec 4)
  | accClr (g : Eng) (ad : BitVec 2)
  | accSet (g : Eng) (ad : BitVec 2) (rs : BitVec 4) (sh : BitVec 6)
  | accAdd (g : Eng) (ad sa ta : BitVec 2)
  | accSub (g : Eng) (ad sa ta : BitVec 2)
  | mvfa (g : Eng) (rd : BitVec 4) (sa : BitVec 2) (c h : Bool)
  | mvta (g : Eng) (ad : BitVec 2) (rs : BitVec 4) (c h : Bool)
  | ext (g : Eng) (rd : BitVec 4) (sa : BitVec 2) (sh : BitVec 6)
  | extr (g : Eng) (rd : BitVec 4) (sa : BitVec 2) (c : Bool) (sh : BitVec 6)
  | norm (g : Eng) (ad : BitVec 2) (rt : BitVec 4)
  | ashift (g : Eng) (ad : BitVec 2) (rs : BitVec 4)
  | expx (g : Eng) (rd rs : BitVec 4) (c : Bool)
  | bfscan (g : Eng) (rs : BitVec 4) (c : Bool)
  | bfpack (g : Eng) (rd : BitVec 4) (sa : BitVec 2)
  | bfcls (g : Eng)
  | bfxa (g : Eng)
  | cmac (g : Eng) (ad : BitVec 2) (rs rt : BitVec 4)
  | cmsc (g : Eng) (ad : BitVec 2) (rs rt : BitVec 4)
  | cmacc (g : Eng) (ad : BitVec 2) (rs rt : BitVec 4)
  | cmscc (g : Eng) (ad : BitVec 2) (rs rt : BitVec 4)
  | cmul (g : Eng) (ad : BitVec 2) (rs rt : BitVec 4)
  | cmulc (g : Eng) (ad : BitVec 2) (rs rt : BitVec 4)
  | rmac (g : Eng) (ad : BitVec 2) (rs rt : BitVec 4)
  | rmsc (g : Eng) (ad : BitVec 2) (rs rt : BitVec 4)
  | rmul (g : Eng) (ad : BitVec 2) (rs rt : BitVec 4)
  | mulW (g : Eng) (rd rs rt : BitVec 4)
  | slotBNop (g : Eng)
  | ld16Re (g : Eng) (rd : BitVec 6) (ai : BitVec 3) (mode : BitVec 2) (md : BitVec 15)
  | ld16Im (g : Eng) (rd : BitVec 6) (ai : BitVec 3) (mode : BitVec 2) (md : BitVec 15)
  | ld16s (g : Eng) (rd : BitVec 6) (ai : BitVec 3) (mode : BitVec 2) (md : BitVec 15)
  | ld32 (g : Eng) (rd : BitVec 6) (ai : BitVec 3) (mode : BitVec 2) (md : BitVec 15)
  | ld64 (g : Eng) (rd : BitVec 6) (ai : BitVec 3) (mode : BitVec 2) (md : BitVec 15)
  | st16Re (g : Eng) (rs : BitVec 6) (ai : BitVec 3) (mode : BitVec 2) (md : BitVec 15)
  | st16Im (g : Eng) (rs : BitVec 6) (ai : BitVec 3) (mode : BitVec 2) (md : BitVec 15)
  | st32 (g : Eng) (rs : BitVec 6) (ai : BitVec 3) (mode : BitVec 2) (md : BitVec 15)
  | st64 (g : Eng) (rs : BitVec 6) (ai : BitVec 3) (mode : BitVec 2) (md : BitVec 15)
  | upd (g : Eng) (ai : BitVec 3) (mode : BitVec 2) (md : BitVec 15)
  | movi (g : Eng) (rd : BitVec 6) (imm : BitVec 20)
  | mov (g : Eng) (rd rs : BitVec 6)
  | stset (g : Eng) (mask : BitVec 12)
  | stclr (g : Eng) (mask : BitVec 12)
  | bCc (g : Eng) (cond : BitVec 4) (target : BitVec 10)
  | loop (g : Eng) (target : BitVec 10)
  | bl (g : Eng) (rd : BitVec 6) (target : BitVec 10)
  | brr (g : Eng) (rs : BitVec 6)
  | reti (g : Eng)
  | rpt (g : Eng) (csrc : Bool) (cnt : BitVec 12)
  | commit (g : Eng)
  | done (g : Eng)
  | illegalOp (g : Eng) (bundle : BitVec 64)
  | pmDbe (g : Eng)
  | dmWriteback (g : Eng)
  | resultRetire (g : Eng)
  | sharedStoreArrive (g : Eng) (src : Fin 16)
  | timerFire (g : Eng)
  | interruptAccept (g : Eng)
  | engineErrClr (w : Who) (g : Eng) (v : Word)
  | rawGo (w : Who) (g : Eng) (v : Word)
  | engineRawAccess (g : Eng)
  | engineRawTimeout (g : Eng)
  | setGo (w : Who) (v : Word)
  | timeStep
  | tick
  | tickLoss (d : Fin 8) (e : Fin 10)
  | frameInEdge
  | ppsInEdge
  | frameLoss
  | ppsLoss
  | ppsOutRise
  | ppsOutFall
  | eclkNWrite (w : Who) (d : Fin 8) (e : Fin 10) (v : Word)
  | eclkLock (d : Fin 8) (e : Fin 10)
  | stagedDrain (g : Eng)
  | schedClr (w : Who) (g : Eng) (v : Word)
  | packetInject (p : Packet)
  | rd (p : Packet)
  | wr (p : Packet)
  | csrRd (p : Packet)
  | msg (p : Packet)
  | evt (p : Packet)
  | responseArrive (p : Packet)
  | rspTimeout (node : BitVec 12) (id : BitVec 7)
  | rsvGenerationReturn (node : BitVec 12) (id : BitVec 7)
  | islandResponse (d : Fin 8) (i : Fin 48) (resp : BitVec 3) (data : List Byte)
  | drainEnd (d : Fin 8) (i : Fin 48)
  | drainTimeout (d : Fin 8) (i : Fin 48)
  | islandOff (d : Fin 8) (i : Fin 48)
  | wakeFail (d : Fin 8) (i : Fin 48)
  | nocClr (w : Who) (d : Fin 8) (v : Word)
  | hawserBlock (d : Fin 8) (n : Fin 16) (block : List Byte)
  | hawserAck (d : Fin 8) (n : Fin 16) (seq : BitVec 8)
  | hawserNak (d : Fin 8) (n : Fin 16) (seq : BitVec 8)
  | wireFail (d : Fin 8) (n : Fin 16) (wire : Fin 76)
  | wireWinExpire (d : Fin 8) (n : Fin 16)
  | repairRequest (d : Fin 8) (n : Fin 16)
  | repairMarker (d : Fin 8) (n : Fin 16)
  | repairConfirm (d : Fin 8) (n : Fin 16)
  | dieSelfFence (d : Fin 8)
  | hwClr (w : Who) (d : Fin 8) (n : Fin 16) (v : Word)
  | testGo (w : Who) (d : Fin 8) (n : Fin 16) (v : Word)
  | mcRequest (n : Fin 8) (r : McReq)
  | mcCommand (n : Fin 8)
  | mcReadData (n : Fin 8)
  | refreshDue (n : Fin 8) (rank : Fin 2)
  | rowClose (n : Fin 8) (bank : Nat)
  | mr4Poll (n : Fin 8) (rank : Fin 2) (mr4 : Byte)
  | zqCal (n : Fin 8)
  | srEntry (n : Fin 8) (meet : Option McReq)
  | patrolStep (n : Fin 8)
  | trnGo (w : Who) (n : Fin 8) (v : Word)
  | trnDone (n : Fin 8) (a b : List (BitVec 16 × BitVec 512)) (chk : List (Fin 2 × BitVec 16 × BitVec 128))
  | mrGo (w : Who) (n : Fin 8) (v : Word)
  | mrAccessDone (n : Fin 8) (cap : List (BitVec 40))
  | runGo (w : Who) (n : Fin 8) (v : Word)
  | disableGo (w : Who) (n : Fin 8) (v : Word)
  | trainingTimeLimit (n : Fin 8) (step : BitVec 4)
  | phyWrite (w : Who) (n : Fin 8) (off : BitVec 16) (v : Word)
  | mcErrClr (w : Who) (n : Fin 8) (v : Word)
  | zeroFillDone (g : BitVec 22)
  | rekeyDone (page : BitVec 27)
  | winEn (w : Who) (v : Word)
  | escalationZeroizeDone (p : BitVec 5)
  | gtRestore (g : BitVec 22)
  | subtreeResetDone
  | secClr (w : Who) (v : Word)
  | secCntClr (w : Who) (v : Word)
  | txWord (l : Lane) (data : BitVec 512) (hdr : BitVec 16) (tsreq : Bool)
  | rxWord (l : Lane) (data : BitVec 512) (hdr : BitVec 16) (startSeen : Bool)
  | anComplete (l : Lane) (mode : Byte)
  | trainComplete (l : Lane)
  | acquireLock (l : Lane)
  | trainWaitTimeout (l : Lane) (locked : Bool)
  | acquireTimeout (l : Lane) (signal : Bool)
  | signalLoss (l : Lane)
  | validateWindow (l : Lane) (locked clean : Bool)
  | linkDown (l : Lane)
  | backoffExpire (l : Lane)
  | signalDetectRise (l : Lane)
  | mcuReload (q : Fin 40) (hashOk : Bool)
  | ctleAdapt (l : Lane) (peak : BitVec 5) (converged : Bool)
  | recentre (l : Lane) (eyeH eyeV : BitVec 16)
  | injGo (w : Who) (l : Lane) (v : Word)
  | injectRateFire (l : Lane)
  | laneClr (w : Who) (l : Lane) (v : Word)
  | timeMarker (q : Fin 40)
  | tsUnsync (q : Fin 40)
  | txTimestamp (l : Lane)
  | bightLaneUp (b : Bool)
  | bightRelease (b : Bool)
  | bightLaneLost (b : Bool)
  | bightWatchdog
  | ringFrameReceive (b : Bool) (frame : List Byte)
  | ringFrameInsert (elasticEmpty : Bool)
  | txGo (w : Who) (v : Word)
  | rxPop (w : Who) (v : Word)
  | badOpcode (r : MbReq) (opcode : BitVec 16)
  | devInfo (r : MbReq)
  | ifLevel (r : MbReq)
  | attach (r : MbReq)
  | detach (r : MbReq)
  | partInfo (r : MbReq)
  | regionLoad (r : MbReq)
  | regionUnload (r : MbReq)
  | regionStatus (r : MbReq)
  | engineLoad (r : MbReq)
  | periodSet (r : MbReq)
  | engineStats (r : MbReq)
  | linkSet (r : MbReq)
  | linkStatus (r : MbReq)
  | linkTest (r : MbReq)
  | powerSet (r : MbReq)
  | deviceState (r : MbReq)
  | healthRead (r : MbReq)
  | policySet (r : MbReq)
  | memAlloc (r : MbReq)
  | memRelease (r : MbReq)
  | subtreeReset (r : MbReq)
  | updateStage (r : MbReq)
  | updateStatus (r : MbReq)
  | ownerLock (r : MbReq)
  | journalRead (r : MbReq)
  | alarmRead (r : MbReq)
  | alarmAck (r : MbReq)
  | journalClear (r : MbReq)
  | abort (r : MbReq)
  | echo (r : MbReq)
  | commandComplete (mb : Fin 32) (fin : Finish)
  | commandTimeout (mb : Fin 32)
  | objectWaitTimeout (mb : Fin 32)
  | leaseExpire (session : BitVec 16)
  | pathLoss (p : Path) (how : LossKind)
  | protLock (w : Who) (v : Word)
  | lockWait
  | dmcRestart (sram : Bool)
  | perstRelease (c : Fin 2)
  | pcieConfigRequest (c : Fin 2) (k : Fin 4) (f : Fin 8)
  | pcieBarAccess (c : Fin 2) (k : Fin 4) (f : Fin 8) (bar : Fin 6) (off : BitVec 39) (write : Bool) (data : List Byte) (size : BitVec 10)
  | pcieClr (w : Who) (c : Fin 2) (k : Fin 4) (v : Word)
  | i2cTransaction (mb : Byte) (off : Byte) (write : Bool) (data : List Byte) (count : Nat)
  | hostRegisterAccess (hspi : Bool) (write : Bool) (addr : Word) (v : Word)
  | imageHeader (bytes : List Byte) (chk : ImageCheck)
  | frames (n : BitVec 24) (addr : Word)
  | frameRecord (words : List Word)
  | zero (n : BitVec 24) (addr : Word)
  | dieRec (n : BitVec 24) (words : List Word)
  | segmentNop (arg : BitVec 24)
  | endRecord (arg : BitVec 24)
  | hparWord (v : Word)
  | hspiByte (b : Byte)
  | sourceTimeout
  | lockFail (d : Fin 8) (i : Fin 48)
  | stagedRelease
  | scrubFrame (d : Fin 8)
  | frameRepair (d : Fin 8) (i : Fin 48) (f : Fin 2000) (source : Option (BitVec 4096))
  | scrubStall (d : Fin 8)
  | csRestart (w : Who) (d : Fin 8) (v : Word)
  | csClr (w : Who) (d : Fin 8) (v : Word)
  | cfgErrClr (w : Who) (v : Word)
  | rawfGo (w : Who) (v : Word)
  | rawfAccess
  | standbyEntryDone
  | supplyTimeout
  | wakeN
  | i2cWakeMatch (addr : BitVec 7)
  | aoTimer
  | autoIdle
  | sensorSample (x : Sensor)
  | policyLoop (die : Fin 9) (x : LoopReport)
  | avsAck (r : Fin 9)
  | avsTimeout (r : Fin 9)
  | railDeviation (r : Fin 9)
  | agingSample (die : Fin 9) (ppm : Nat)
  | tjAlarm (sensor : Fin 52)
  | thermalTrip (sensor : Fin 52)
  | pwrClr (w : Who) (v : Word)
  | suppliesValid
  | phaseB (dies : List DieFound) (tests : List HawserTest)
  | phaseC (chk0 chk1 : SlotCheck) (pcieOk : BitVec 2)
  | phaseD (fits : List (Option Fit)) (train : List TrainOutcome) (quads : BitVec 40) (dsc : BitVec 8) (trng : Bool)
  | phaseE
  | phaseF (locked : List (Fin 8 × Fin 48))
  | startWatchdog
  | aoPowerGood
  | sysRstN (level : Bool)
  | railFault (r : Nat)
  | extest (tdi : BitVec 4878)
  | samplePreload (tdi : BitVec 4878)
  | usercode
  | idcode
  | highz
  | clamp
  | extestPulse (tdi : BitVec 4878)
  | extestTrain (tdi : BitVec 4878)
  | cfgIn (v : Word)
  | bypass (code : BitVec 10)
  | tapReset
  | vccAoLoss
  | refclkOkChange (q : Fin 40) (ok : Bool)
  | dataLinkUp (c : Fin 2) (k : Fin 4) (speed : BitVec 3) (width : BitVec 5) (flit : Bool)
  | responseTake (node : BitVec 12) (id : BitVec 7)
  | memoryUpset (x : UpsetAt)
  deriving DecidableEq, Repr

end Sys2Proof
end

