-- ==== Sys2Proof/Config.lean ====
section
/-! DEFINITION. What an implementation or a unit fixes, and the free values (values the manual leaves open): opaque
constants with no body, so that nothing can be proved of them. -/

namespace Sys2Proof.Config

/-- A free 32-bit word (an unstated register or load value). -/
opaque freeWord : Nat → BitVec 32

/-- The 256-bit memory key that the TRNG draws (11 R307); applied to the state's counter of free values. -/
opaque freeKey : Nat → BitVec 256

/-- What the pins with boundary-scan cells carry when they are sampled (17 R526); applied to the counter of free values. -/
opaque freePins : Nat → BitVec 4878

/-- The cell of a user I/O in the boundary-scan register (17 R527): pin 12 n + j of island n, cell 0 input, 1 output, 2 enable. -/
opaque uioCell : Nat → Nat → Nat

/-- Free bits of user logic: which clock edges fall into a nanosecond, the value of a combinational loop, a signal from outside
(02 R62, 03 R75); applied to the counter of free values and to what the bit is for. -/
opaque freeBit : Nat → Nat → Bool

end Sys2Proof.Config
end

