-- ==== Sys2Proof/Machine/Codes.lean ====
section
/-! DEFINITION. The codes of the device: the SECDED codes (04 R116, 05 R139), CRC-32C and the byte order of words. -/

namespace Sys2Proof.Machine

/-- A power of two among the code positions used (up to 8192). -/
def isPow2 (n : Nat) : Bool := [1, 2, 4, 8, 16, 32, 64, 128, 256, 512, 1024, 2048, 4096, 8192].contains n

/-- The first `n` data positions of a SECDED code: those that are not powers of two, ascending (04 R116). -/
def secPositions (top : Nat) : List Nat := (List.range (top + 1)).filter (fun p => p != 0 && !isPow2 p)

/-- The data positions of the per-byte code, 1 to 12 (05 R139). -/
def pos8 : List Nat := [3, 5, 6, 7, 9, 10, 11, 12]

/-- The data positions of the block memory code, 1 to 71 (04 R116). -/
def pos64 : List Nat := secPositions 71

/-- Check bits below the overall one: bit i is the XOR of the data bits whose position has bit i set, which is the XOR of the
positions of the set data bits. -/
def secSyn (pos : List Nat) (data : Nat) : Nat :=
  (pos.zipIdx.filter (fun p => data.testBit p.2)).foldl (fun c p => c ^^^ p.1) 0

/-- Number of set bits among the lowest `n`, modulo 2. -/
def parityOf (n v : Nat) : Bool := (List.range n).foldl (fun b i => xor b (v.testBit i)) false

/-- The check field of `data`: `k` position checks below one overall parity bit (04 R116, 05 R139). -/
def secCheck (pos : List Nat) (k data : Nat) : Nat :=
  let c := secSyn pos data
  c + (if xor (parityOf pos.length data) (parityOf k c) then 2 ^ k else 0)

/-- Outcome of a SECDED read: the data delivered, corrected, uncorrectable (outcome table of 04 R116). -/
structure SecOut where
  data : Nat
  sbe : Bool
  dbe : Bool
  deriving DecidableEq, Repr

/-- Decode `data` with the stored check field `chk` (04 R116). -/
def secDecode (pos : List Nat) (k data chk : Nat) : SecOut :=
  let s := secSyn pos data ^^^ (chk % 2 ^ k)
  let p := xor (parityOf pos.length data) (parityOf (k + 1) chk)
  if s = 0 ∧ p = false then ⟨data, false, false⟩
  else if p = true ∧ (s = 0 ∨ isPow2 s = true ∧ s < 2 ^ k) then ⟨data, true, false⟩
  else if p = true ∧ pos.contains s then ⟨data ^^^ 2 ^ (pos.findIdx (· == s)), true, false⟩
  else ⟨data, false, true⟩

/-- The 13-bit codeword of a byte (05 R139). -/
def encByte (b : Byte) : BitVec 13 := BitVec.ofNat 13 (b.toNat + 256 * secCheck pos8 4 b.toNat)

/-- Decode a 13-bit codeword (05 R139). -/
def decByte (c : BitVec 13) : SecOut := secDecode pos8 4 (c.toNat % 256) (c.toNat / 256)

/-- Little-endian bytes to a number. -/
def leNat : List Byte → Nat
  | [] => 0
  | b :: t => b.toNat + 256 * leNat t

/-- The lowest `n` bytes of a number, little-endian. -/
def natLe (v : Nat) : Nat → List Byte
  | 0 => []
  | n + 1 => BitVec.ofNat 8 v :: natLe (v / 256) n

/-- One bit of CRC-32C, reflected polynomial 0x82F63B78 (14). -/
def crcBit (c : BitVec 32) : BitVec 32 := if c.getLsbD 0 then (c >>> 1) ^^^ 0x82F63B78 else c >>> 1

/-- One byte of CRC-32C. -/
def crcByte (c : BitVec 32) (b : Byte) : BitVec 32 :=
  crcBit (crcBit (crcBit (crcBit (crcBit (crcBit (crcBit (crcBit (c ^^^ b.setWidth 32))))))))

/-- CRC-32C of bytes: initial value and final XOR of all ones. -/
def crc32c (bs : List Byte) : BitVec 32 := (bs.foldl crcByte 0xFFFFFFFF) ^^^ 0xFFFFFFFF

/-- A little-endian field of `n` bytes at offset `o`. -/
def leAt (bs : List Byte) (o n : Nat) : Nat := leNat ((bs.drop o).take n)

/-! ### JTAG instructions (17 R526) -/

/-- The codes of R526. -/
def irExtest : Nat := 0x000
def irSample : Nat := 0x001
def irUsercode : Nat := 0x008
def irIdcode : Nat := 0x009
def irHighz : Nat := 0x00A
def irClamp : Nat := 0x00B
def irPulse : Nat := 0x02C
def irTrain : Nat := 0x02D
def irCfgIn : Nat := 0x0C5
/-- The codes that the TAP implements by name. -/
def irCodes : List Nat := [irExtest, irSample, irUsercode, irIdcode, irHighz, irClamp, irPulse, irTrain, irCfgIn]
/-- Under these instructions the TAP holds the pins with cells (R528). -/
def irHolds (c : Nat) : Bool := [irExtest, irHighz, irClamp, irPulse, irTrain].contains c

end Sys2Proof.Machine
end

