-- ==== Sys2Proof/Machine/Regs.lean ====
section
/-! DEFINITION. The register tables of the spec, field by field: offset in its window, lowest bit, width, type (R6) and the
reset value of the Reset column. A field whose Reset column says fuse, strap, image, manifest, flash or grade maximum stands
at 0 here and takes its value from the command that loads it (notes/assumptions/3.md). -/

namespace Sys2Proof.Machine.Reg

/-- The fields at one offset of an array of registers: `mk` of the index where `off` is `base + stride * index`. -/
def at1 (base stride count : Nat) (mk : Nat → List Fld) (off : Nat) : List Fld :=
  if base ≤ off ∧ off < base + stride * count ∧ (off - base) % stride = 0 then mk ((off - base) / stride) else []

namespace Hub

def IDCODE : Fld := ⟨0x0, 0, 32, .ro, 0x0⟩
def SPEED : Fld := ⟨0x4, 0, 4, .ro, 0x0⟩
def TEMP : Fld := ⟨0x4, 4, 4, .ro, 0x0⟩
def FL : Fld := ⟨0x4, 8, 4, .ro, 0x0⟩
def DIES_PRESENT : Fld := ⟨0x4, 16, 8, .ro, 0x0⟩
def DIES_FENCED : Fld := ⟨0x4, 24, 8, .ro, 0x0⟩
def OFF_ACCESS : Fld := ⟨0x8, 0, 1, .w1c, 0x0⟩
def PROT_LOCK : Fld := ⟨0xC, 0, 1, .w1s, 0x0⟩
def PLAN_BAD : Fld := ⟨0xC, 1, 1, .ro, 0x0⟩
def BOOT_PHASE : Fld := ⟨0x10, 0, 3, .ro, 0x0⟩
def RUN_SLOT : Fld := ⟨0x10, 8, 1, .ro, 0x0⟩
def ACTIVE_SLOT : Fld := ⟨0x10, 9, 1, .ro, 0x0⟩
def UNSECURED : Fld := ⟨0x10, 10, 1, .ro, 0x0⟩
def JS_CODE : Fld := ⟨0x14, 0, 8, .ro, 0x0⟩
def JS_ARG : Fld := ⟨0x14, 8, 16, .ro, 0x0⟩
def JS_DONE : Fld := ⟨0x14, 24, 1, .ro, 0x0⟩
def JS_ALT : Fld := ⟨0x14, 25, 1, .ro, 0x0⟩
def START_CNT : Fld := ⟨0x18, 0, 16, .ro, 0x0⟩
def WD_RESTART_CNT : Fld := ⟨0x18, 16, 16, .ro, 0x0⟩
def GENERATION : Fld := ⟨0x1C, 0, 32, .ro, 0x0⟩
def RB_FUSE : Fld := ⟨0x20, 0, 7, .ro, 0x0⟩
def PHASE_MS (p : Nat) : Fld := ⟨0x24 + 0x4 * p, 0, 16, .ro, 0x0⟩

def tab0 : List Fld := [IDCODE, SPEED, TEMP, FL, DIES_PRESENT, DIES_FENCED, OFF_ACCESS, PROT_LOCK, PLAN_BAD, BOOT_PHASE, RUN_SLOT, ACTIVE_SLOT, UNSECURED, JS_CODE, JS_ARG, JS_DONE, JS_ALT, START_CNT, WD_RESTART_CNT, GENERATION, RB_FUSE]

/-- The fields at an offset. Device identity window, base 0 (R42, R391, R508). -/
def fields (off : Nat) : List Fld :=
  (tab0).filter (fun f => f.off == off) ++
  at1 0x24 0x4 6 (fun p => [PHASE_MS p]) off

end Hub

namespace Die

def POSITION : Fld := ⟨0x0, 0, 4, .ro, 0x0⟩
def STEPPING : Fld := ⟨0x0, 4, 4, .ro, 0x0⟩
def DIE_FL : Fld := ⟨0x0, 8, 4, .ro, 0x0⟩
def OFF_ACCESS : Fld := ⟨0x4, 0, 1, .w1c, 0x0⟩
def FENCED : Fld := ⟨0x4, 1, 1, .ro, 0x0⟩
def SEL_UPSET_CNT : Fld := ⟨0x100, 0, 32, .ro, 0x0⟩
def FRAME : Fld := ⟨0x104, 0, 11, .ro, 0x0⟩
def ISLAND : Fld := ⟨0x104, 11, 6, .ro, 0x0⟩
def BIT : Fld := ⟨0x104, 17, 12, .ro, 0x0⟩
def VALID : Fld := ⟨0x104, 31, 1, .ro, 0x0⟩
def SEL_CLR : Fld := ⟨0x108, 0, 1, .wo, 0x0⟩
def SPINE_N (n : Nat) : Fld := ⟨0x200 + 0x4 * n, 0, 8, .rwl, 0x0⟩
def SPINE_EN (n : Nat) : Fld := ⟨0x200 + 0x4 * n, 8, 1, .rwl, 0x0⟩
def SPINE_LOCK (n : Nat) : Fld := ⟨0x200 + 0x4 * n, 9, 1, .ro, 0x0⟩
def W1 : Fld := ⟨0x1000, 0, 8, .rwl, 0x8⟩
def W2 : Fld := ⟨0x1000, 8, 8, .rwl, 0x4⟩
def W3 : Fld := ⟨0x1000, 16, 8, .rwl, 0x1⟩
def AGE_MAX : Fld := ⟨0x1004, 0, 16, .rwl, 0x100⟩
def RSP_TIMEOUT : Fld := ⟨0x1008, 0, 16, .rwl, 0x3E8⟩
def DRAIN_MAX : Fld := ⟨0x1008, 16, 16, .rwl, 0x64⟩
def FLIT_SBE_CNT : Fld := ⟨0x1010, 0, 32, .ro, 0x0⟩
def FLIT_DBE_CNT : Fld := ⟨0x1014, 0, 32, .ro, 0x0⟩
def HOLD_FULL_CNT : Fld := ⟨0x1018, 0, 16, .ro, 0x0⟩
def LATE_RSP_CNT : Fld := ⟨0x1018, 16, 16, .ro, 0x0⟩
def RSP_TMO_CNT : Fld := ⟨0x101C, 0, 16, .ro, 0x0⟩
def AGE_GUARD_CNT : Fld := ⟨0x101C, 16, 16, .ro, 0x0⟩
def PART_ERR_CNT : Fld := ⟨0x1020, 0, 16, .ro, 0x0⟩
def TGT_FULL_CNT : Fld := ⟨0x1020, 16, 16, .ro, 0x0⟩
def NOC_CLR : Fld := ⟨0x1024, 0, 1, .wo, 0x0⟩
def I_STATE (i : Nat) : Fld := ⟨0x1100 + 0x4 * i, 0, 3, .ro, 0x3⟩
def I_HELD (i : Nat) : Fld := ⟨0x1100 + 0x4 * i, 8, 5, .ro, 0x0⟩
def I_WAKE_CNT (i : Nat) : Fld := ⟨0x1100 + 0x4 * i, 16, 8, .ro, 0x0⟩
def I_WAKE_FAIL_CNT (i : Nat) : Fld := ⟨0x1100 + 0x4 * i, 24, 8, .ro, 0x0⟩
def CS_EN : Fld := ⟨0x300, 0, 1, .rwl, 0x1⟩
def CS_LAP : Fld := ⟨0x304, 0, 24, .ro, 0x0⟩
def CS_LAPS : Fld := ⟨0x308, 0, 32, .ro, 0x0⟩
def CS_CE_CNT : Fld := ⟨0x30C, 0, 32, .ro, 0x0⟩
def CS_UE_CNT : Fld := ⟨0x310, 0, 16, .ro, 0x0⟩
def CS_STALL_CNT : Fld := ⟨0x310, 16, 16, .ro, 0x0⟩
def CS_FRAME : Fld := ⟨0x314, 0, 17, .ro, 0x0⟩
def CS_UE : Fld := ⟨0x314, 17, 1, .ro, 0x0⟩
def CS_VALID : Fld := ⟨0x314, 31, 1, .ro, 0x0⟩
def CS_RESTART : Fld := ⟨0x318, 0, 1, .wo, 0x0⟩
def CS_CLR : Fld := ⟨0x318, 1, 1, .wo, 0x0⟩

def tab0 : List Fld := [POSITION, STEPPING, DIE_FL, OFF_ACCESS, FENCED, SEL_UPSET_CNT, FRAME, ISLAND, BIT, VALID, SEL_CLR, W1, W2, W3, AGE_MAX, RSP_TIMEOUT, DRAIN_MAX, FLIT_SBE_CNT, FLIT_DBE_CNT, HOLD_FULL_CNT, LATE_RSP_CNT, RSP_TMO_CNT, AGE_GUARD_CNT, PART_ERR_CNT, TGT_FULL_CNT]
def tab1 : List Fld := [NOC_CLR, CS_EN, CS_LAP, CS_LAPS, CS_CE_CNT, CS_UE_CNT, CS_STALL_CNT, CS_FRAME, CS_UE, CS_VALID, CS_RESTART, CS_CLR]

/-- The fields at an offset. Die common window (R43, R69, R73, R248, R437). -/
def fields (off : Nat) : List Fld :=
  (tab0 ++ tab1).filter (fun f => f.off == off) ++
  at1 0x200 0x4 8 (fun n => [SPINE_N n, SPINE_EN n, SPINE_LOCK n]) off ++
  at1 0x1100 0x4 48 (fun i => [I_STATE i, I_HELD i, I_WAKE_CNT i, I_WAKE_FAIL_CNT i]) off

end Die

namespace Isl

def SPINE_SEL : Fld := ⟨0x0, 0, 3, .rw, 0x0⟩
def GEN_MUL : Fld := ⟨0x0, 4, 6, .rw, 0x0⟩
def GEN_DIV : Fld := ⟨0x0, 10, 6, .rw, 0x0⟩
def LOCKED : Fld := ⟨0x4, 0, 1, .ro, 0x0⟩
def GEN_BAD : Fld := ⟨0x4, 1, 1, .w1c, 0x0⟩
def SEL_REJECT : Fld := ⟨0x4, 2, 1, .w1c, 0x0⟩
def SRC (x : Nat) : Fld := ⟨0x10 + 0x4 * x, 0, 16, .rw, 0x0⟩
def DIV (x : Nat) : Fld := ⟨0x10 + 0x4 * x, 16, 8, .rw, 0x0⟩
def SW_BUSY : Fld := ⟨0x20, 0, 4, .ro, 0x0⟩
def SW_HELD : Fld := ⟨0x20, 4, 4, .ro, 0x0⟩
def SW_FORCED : Fld := ⟨0x20, 8, 4, .w1c, 0x0⟩
def THR : Fld := ⟨0x30, 0, 5, .rw, 0x4⟩
def REL : Fld := ⟨0x30, 8, 6, .rw, 0x8⟩
def STRETCH_EN : Fld := ⟨0x30, 16, 1, .rwl, 0x1⟩
def SLACK_NOW : Fld := ⟨0x34, 0, 6, .ro, 0x0⟩
def SLACK_MIN : Fld := ⟨0x34, 8, 6, .ro, 0x3F⟩
def STEPS : Fld := ⟨0x34, 16, 3, .ro, 0x0⟩
def EXHAUSTED : Fld := ⟨0x34, 24, 1, .w1c, 0x0⟩
def STRETCH_CNT : Fld := ⟨0x38, 0, 32, .ro, 0x0⟩
def EXHAUST_CNT : Fld := ⟨0x3C, 0, 32, .ro, 0x0⟩
def MARGIN_CLR : Fld := ⟨0x40, 0, 1, .wo, 0x0⟩
def SPLICE_ID : Fld := ⟨0x50, 0, 4, .ro, 0x0⟩
def ROOT : Fld := ⟨0x50, 4, 1, .ro, 0x0⟩
def MEMBERS : Fld := ⟨0x50, 8, 4, .ro, 0x0⟩
def HITCH_DROP : Fld := ⟨0x60, 0, 32, .ro, 0x0⟩
def SCRUB_EN : Fld := ⟨0x100, 0, 1, .rw, 0x1⟩
def SCRUB_RATE : Fld := ⟨0x100, 4, 4, .rw, 0xA⟩
def SCRUB_LAP : Fld := ⟨0x104, 0, 24, .ro, 0x0⟩
def SCRUB_SKIP : Fld := ⟨0x104, 24, 8, .ro, 0x0⟩
def SBE_CNT : Fld := ⟨0x108, 0, 32, .ro, 0x0⟩
def DBE_CNT : Fld := ⟨0x10C, 0, 32, .ro, 0x0⟩
def ERR_BLOCK : Fld := ⟨0x110, 0, 6, .ro, 0x0⟩
def ERR_ROW : Fld := ⟨0x110, 6, 10, .ro, 0x0⟩
def ERR_KIND : Fld := ⟨0x110, 16, 2, .ro, 0x0⟩
def BY_SCRUB : Fld := ⟨0x110, 18, 1, .ro, 0x0⟩
def ERR_VALID : Fld := ⟨0x110, 31, 1, .ro, 0x0⟩
def BWE_CNT : Fld := ⟨0x114, 0, 16, .ro, 0x0⟩
def MEM_CLR : Fld := ⟨0x118, 0, 1, .wo, 0x0⟩
def BLOCK : Fld := ⟨0x120, 0, 6, .rw, 0x0⟩
def ROW : Fld := ⟨0x120, 6, 10, .rw, 0x0⟩
def WRITE : Fld := ⟨0x120, 16, 1, .rw, 0x0⟩
def GO : Fld := ⟨0x120, 31, 1, .wo, 0x0⟩
def RAW_BUSY : Fld := ⟨0x124, 0, 1, .ro, 0x0⟩
def RAW_TIMEOUT : Fld := ⟨0x124, 1, 1, .w1c, 0x0⟩
def RAW_DONE : Fld := ⟨0x124, 2, 1, .w1c, 0x0⟩
def RAW_D : Fld := ⟨0x128, 0, 32, .rw, 0x0⟩
def RAW_P : Fld := ⟨0x12C, 0, 4, .rw, 0x0⟩
def DRIVE (j : Nat) : Fld := ⟨0x200 + 0x4 * j, 0, 2, .rw, 0x2⟩
def SLEW (j : Nat) : Fld := ⟨0x200 + 0x4 * j, 2, 1, .rw, 0x0⟩
def PULL (j : Nat) : Fld := ⟨0x200 + 0x4 * j, 3, 2, .rw, 0x1⟩
def HYST (j : Nat) : Fld := ⟨0x200 + 0x4 * j, 5, 1, .rw, 0x1⟩
def IN_NOW (j : Nat) : Fld := ⟨0x200 + 0x4 * j, 8, 1, .ro, 0x0⟩
def BANK_V (j : Nat) : Fld := ⟨0x200 + 0x4 * j, 9, 2, .ro, 0x0⟩

def tab0 : List Fld := [SPINE_SEL, GEN_MUL, GEN_DIV, LOCKED, GEN_BAD, SEL_REJECT, SW_BUSY, SW_HELD, SW_FORCED, THR, REL, STRETCH_EN, SLACK_NOW, SLACK_MIN, STEPS, EXHAUSTED, STRETCH_CNT, EXHAUST_CNT, MARGIN_CLR, SPLICE_ID, ROOT, MEMBERS, HITCH_DROP, SCRUB_EN, SCRUB_RATE]
def tab1 : List Fld := [SCRUB_LAP, SCRUB_SKIP, SBE_CNT, DBE_CNT, ERR_BLOCK, ERR_ROW, ERR_KIND, BY_SCRUB, ERR_VALID, BWE_CNT, MEM_CLR, BLOCK, ROW, WRITE, GO, RAW_BUSY, RAW_TIMEOUT, RAW_DONE, RAW_D, RAW_P]

/-- The fields at an offset. Logic island window (R102, R127, R524). -/
def fields (off : Nat) : List Fld :=
  (tab0 ++ tab1).filter (fun f => f.off == off) ++
  at1 0x10 0x4 4 (fun x => [SRC x, DIV x]) off ++
  at1 0x200 0x4 12 (fun j => [DRIVE j, SLEW j, PULL j, HYST j, IN_NOW j, BANK_V j]) off

/-- The margin fields, at the same offsets in an engine island window (R201). -/
def margin : List Fld := [THR, REL, STRETCH_EN, SLACK_NOW, SLACK_MIN, STEPS, EXHAUSTED, STRETCH_CNT, EXHAUST_CNT, MARGIN_CLR]

end Isl

namespace Eng

def STATE : Fld := ⟨0x0, 0, 2, .ro, 0x0⟩
def BANK : Fld := ⟨0x0, 2, 1, .ro, 0x0⟩
def FAULT_CAUSE : Fld := ⟨0x0, 8, 8, .ro, 0x0⟩
def FAULT_PC : Fld := ⟨0x0, 16, 10, .ro, 0x0⟩
def PC_NOW : Fld := ⟨0x4, 0, 10, .ro, 0x0⟩
def DM_SBE_CNT : Fld := ⟨0x8, 0, 16, .ro, 0x0⟩
def PM_SBE_CNT : Fld := ⟨0x8, 16, 16, .ro, 0x0⟩
def DM_DBE_CNT : Fld := ⟨0xC, 0, 16, .ro, 0x0⟩
def PM_DBE_CNT : Fld := ⟨0xC, 16, 16, .ro, 0x0⟩
def ERR_ADDR : Fld := ⟨0x10, 0, 15, .ro, 0x0⟩
def ERR_MEM : Fld := ⟨0x10, 15, 1, .ro, 0x0⟩
def ERR_DBE : Fld := ⟨0x10, 16, 1, .ro, 0x0⟩
def ERR_VALID : Fld := ⟨0x10, 31, 1, .ro, 0x0⟩
def ERR_CLR : Fld := ⟨0x14, 0, 1, .wo, 0x0⟩
def RAW_ADDR : Fld := ⟨0x20, 0, 15, .rw, 0x0⟩
def RAW_MEM : Fld := ⟨0x20, 15, 1, .rw, 0x0⟩
def RAW_WRITE : Fld := ⟨0x20, 16, 1, .rw, 0x0⟩
def RAW_GO : Fld := ⟨0x20, 31, 1, .wo, 0x0⟩
def RAW_BUSY : Fld := ⟨0x24, 0, 1, .ro, 0x0⟩
def RAW_DONE : Fld := ⟨0x24, 1, 1, .w1c, 0x0⟩
def RAW_TIMEOUT : Fld := ⟨0x24, 2, 1, .w1c, 0x0⟩
def RAW_REFUSED : Fld := ⟨0x24, 3, 1, .w1c, 0x0⟩
def RAW_DATA : Fld := ⟨0x28, 0, 8, .rw, 0x0⟩
def RAW_CHK : Fld := ⟨0x28, 8, 5, .rw, 0x0⟩
def CLASS : Fld := ⟨0x40, 0, 3, .ro, 0x0⟩
def BOUND : Fld := ⟨0x40, 3, 1, .ro, 0x0⟩
def ENTRY : Fld := ⟨0x40, 16, 10, .ro, 0x0⟩
def FRAME_ADDR : Fld := ⟨0x44, 0, 15, .ro, 0x0⟩
def PERS_BASE : Fld := ⟨0x48, 0, 15, .ro, 0x0⟩
def PERS_LEN : Fld := ⟨0x4C, 0, 16, .ro, 0x0⟩
def STARTS : Fld := ⟨0x50, 0, 32, .ro, 0x0⟩
def OVERRUN : Fld := ⟨0x54, 0, 32, .ro, 0x0⟩
def COMMITS : Fld := ⟨0x58, 0, 32, .ro, 0x0⟩
def COMMIT_DROP : Fld := ⟨0x5C, 0, 16, .ro, 0x0⟩
def DONE_DROP : Fld := ⟨0x5C, 16, 16, .ro, 0x0⟩
def IN_DROP : Fld := ⟨0x60, 0, 16, .ro, 0x0⟩
def MSG_ERR : Fld := ⟨0x60, 16, 16, .ro, 0x0⟩
def LAST_END : Fld := ⟨0x64, 0, 3, .ro, 0x0⟩
def DONE_TICKS : Fld := ⟨0x64, 16, 16, .ro, 0x0⟩
def SCHED_CLR : Fld := ⟨0x68, 0, 1, .wo, 0x0⟩

def tab0 : List Fld := [STATE, BANK, FAULT_CAUSE, FAULT_PC, PC_NOW, DM_SBE_CNT, PM_SBE_CNT, DM_DBE_CNT, PM_DBE_CNT, ERR_ADDR, ERR_MEM, ERR_DBE, ERR_VALID, ERR_CLR, RAW_ADDR, RAW_MEM, RAW_WRITE, RAW_GO, RAW_BUSY, RAW_DONE, RAW_TIMEOUT, RAW_REFUSED, RAW_DATA, RAW_CHK, CLASS]
def tab1 : List Fld := [BOUND, ENTRY, FRAME_ADDR, PERS_BASE, PERS_LEN, STARTS, OVERRUN, COMMITS, COMMIT_DROP, DONE_DROP, IN_DROP, MSG_ERR, LAST_END, DONE_TICKS, SCHED_CLR]

/-- The fields at an offset. Engine registers, offsets from 0x1000 + k * 0x800 of the engine island window (R169, R221). -/
def fields (off : Nat) : List Fld :=
  (tab0 ++ tab1).filter (fun f => f.off == off)

end Eng

namespace Tim

def US_LO : Fld := ⟨0x0, 0, 32, .ro, 0x0⟩
def NS : Fld := ⟨0x4, 0, 32, .ro, 0x0⟩
def FRAC : Fld := ⟨0x8, 0, 16, .ro, 0x0⟩
def SEC_LO : Fld := ⟨0xC, 0, 32, .ro, 0x0⟩
def SEC_HI : Fld := ⟨0x10, 0, 16, .ro, 0x0⟩
def RATE_ADJ : Fld := ⟨0x20, 0, 32, .rw, 0x0⟩
def SET_NS : Fld := ⟨0x24, 0, 30, .rw, 0x0⟩
def SET_SEC_LO : Fld := ⟨0x28, 0, 32, .rw, 0x0⟩
def SET_SEC_HI : Fld := ⟨0x2C, 0, 16, .rw, 0x0⟩
def SET_GO : Fld := ⟨0x2C, 31, 1, .wo, 0x0⟩
def FRAME_NS : Fld := ⟨0x30, 0, 32, .ro, 0x0⟩
def FRAME_FRAC : Fld := ⟨0x34, 0, 16, .ro, 0x0⟩
def FRAME_SEC : Fld := ⟨0x34, 16, 16, .ro, 0x0⟩
def PPS_NS : Fld := ⟨0x38, 0, 32, .ro, 0x0⟩
def PPS_FRAC : Fld := ⟨0x3C, 0, 16, .ro, 0x0⟩
def PPS_SEC : Fld := ⟨0x3C, 16, 16, .ro, 0x0⟩
def FRAME_SEEN : Fld := ⟨0x40, 0, 1, .w1c, 0x0⟩
def FRAME_LOSS : Fld := ⟨0x40, 1, 1, .w1c, 0x0⟩
def PPS_SEEN : Fld := ⟨0x40, 2, 1, .w1c, 0x0⟩
def PPS_LOSS : Fld := ⟨0x40, 3, 1, .w1c, 0x0⟩
def SET_PENDING : Fld := ⟨0x40, 4, 1, .ro, 0x0⟩
def PPS_OFFSET : Fld := ⟨0x48, 0, 30, .rw, 0x0⟩
def PPS_WIDTH : Fld := ⟨0x4C, 0, 20, .rw, 0x186A0⟩
def PPS_EN : Fld := ⟨0x4C, 31, 1, .rw, 0x0⟩

def tab0 : List Fld := [US_LO, NS, FRAC, SEC_LO, SEC_HI, RATE_ADJ, SET_NS, SET_SEC_LO, SET_SEC_HI, SET_GO, FRAME_NS, FRAME_FRAC, FRAME_SEC, PPS_NS, PPS_FRAC, PPS_SEC, FRAME_SEEN, FRAME_LOSS, PPS_SEEN, PPS_LOSS, SET_PENDING, PPS_OFFSET, PPS_WIDTH, PPS_EN]

/-- The fields at an offset. Timing unit (R199). -/
def fields (off : Nat) : List Fld :=
  (tab0).filter (fun f => f.off == off)

end Tim

namespace Eisl

def ECLK_N : Fld := ⟨0x0, 0, 6, .rwl, 0x0⟩
def ECLK_LOCK : Fld := ⟨0x0, 8, 1, .ro, 0x0⟩
def TICK_LOSS : Fld := ⟨0x0, 9, 1, .w1c, 0x0⟩
def LAST_TICK : Fld := ⟨0x4, 0, 32, .ro, 0x0⟩
def PERIOD (c : Nat) : Fld := ⟨0x100 + 0x8 * c, 0, 16, .ro, 0x0⟩
def PHASE (c : Nat) : Fld := ⟨0x100 + 0x8 * c, 16, 16, .ro, 0x0⟩
def BUDGET (c : Nat) : Fld := ⟨0x104 + 0x8 * c, 0, 16, .ro, 0x0⟩

def tab0 : List Fld := [ECLK_N, ECLK_LOCK, TICK_LOSS, LAST_TICK]

/-- The fields at an offset. Engine island window (R220). -/
def fields (off : Nat) : List Fld :=
  (tab0).filter (fun f => f.off == off) ++
  at1 0x100 0x8 8 (fun c => [PERIOD c, PHASE c]) off ++
  at1 0x104 0x8 8 (fun c => [BUDGET c]) off

end Eisl

namespace Hw

def STATE : Fld := ⟨0x0, 0, 2, .ro, 0x0⟩
def HALF_SEL : Fld := ⟨0x0, 2, 1, .ro, 0x0⟩
def CLK_SEL : Fld := ⟨0x0, 3, 1, .ro, 0x0⟩
def COMP : Fld := ⟨0x0, 4, 1, .ro, 0x0⟩
def SB_CTL : Fld := ⟨0x0, 5, 1, .ro, 0x0⟩
def CHANGING : Fld := ⟨0x0, 6, 1, .ro, 0x0⟩
def ROWS : Fld := ⟨0x0, 8, 8, .ro, 0x0⟩
def SPARES_FREE : Fld := ⟨0x4, 0, 3, .ro, 0x0⟩
def SPARES_FUSED : Fld := ⟨0x4, 3, 3, .ro, 0x0⟩
def REPL (x : Nat) : Fld := ⟨0x10 + 0x4 * x, 0, 6, .ro, 0x0⟩
def IN_USE (x : Nat) : Fld := ⟨0x10 + 0x4 * x, 6, 1, .ro, 0x0⟩
def FUSED (x : Nat) : Fld := ⟨0x10 + 0x4 * x, 7, 1, .ro, 0x0⟩
def SPARE_BAD (x : Nat) : Fld := ⟨0x10 + 0x4 * x, 8, 1, .ro, 0x0⟩
def BAD_LO : Fld := ⟨0x30, 0, 32, .ro, 0x0⟩
def BAD_HI : Fld := ⟨0x34, 0, 32, .ro, 0x0⟩
def BAD_SPARE : Fld := ⟨0x38, 0, 6, .ro, 0x0⟩
def BAD_CLK : Fld := ⟨0x38, 6, 2, .ro, 0x0⟩
def BAD_SB : Fld := ⟨0x38, 8, 4, .ro, 0x0⟩
def WIRE_ERR_THR : Fld := ⟨0x40, 0, 16, .rwl, 0x8⟩
def WIRE_WIN : Fld := ⟨0x40, 16, 16, .rwl, 0x64⟩
def CRC_ERR_CNT : Fld := ⟨0x44, 0, 32, .ro, 0x0⟩
def REPLAY_CNT : Fld := ⟨0x48, 0, 32, .ro, 0x0⟩
def SWAP_CNT : Fld := ⟨0x4C, 0, 8, .ro, 0x0⟩
def FLIT_CNT : Fld := ⟨0x50, 0, 32, .ro, 0x0⟩
def LIT_CNT : Fld := ⟨0x54, 0, 32, .ro, 0x0⟩
def HW_CLR : Fld := ⟨0x60, 0, 1, .wo, 0x0⟩
def TEST_WIRE : Fld := ⟨0x64, 0, 6, .rw, 0x0⟩
def TEST_REJECT : Fld := ⟨0x64, 30, 1, .w1c, 0x0⟩
def TEST_GO : Fld := ⟨0x64, 31, 1, .wo, 0x0⟩
def WIN_ERR (w : Nat) : Fld := ⟨0x100 + 0x4 * w, 0, 16, .ro, 0x0⟩
def TOT_ERR (w : Nat) : Fld := ⟨0x100 + 0x4 * w, 16, 16, .ro, 0x0⟩

def tab0 : List Fld := [STATE, HALF_SEL, CLK_SEL, COMP, SB_CTL, CHANGING, ROWS, SPARES_FREE, SPARES_FUSED, BAD_LO, BAD_HI, BAD_SPARE, BAD_CLK, BAD_SB, WIRE_ERR_THR, WIRE_WIN, CRC_ERR_CNT, REPLAY_CNT, SWAP_CNT, FLIT_CNT, LIT_CNT, HW_CLR, TEST_WIRE, TEST_REJECT, TEST_GO]

/-- The fields at an offset. Hawser window (R275). -/
def fields (off : Nat) : List Fld :=
  (tab0).filter (fun f => f.off == off) ++
  at1 0x10 0x4 6 (fun x => [REPL x, IN_USE x, FUSED x, SPARE_BAD x]) off ++
  at1 0x100 0x4 76 (fun w => [WIN_ERR w, TOT_ERR w]) off

end Hw

namespace Mc

def STATE : Fld := ⟨0x0, 0, 3, .ro, 0x0⟩
def RATE_IDX : Fld := ⟨0x0, 4, 2, .ro, 0x0⟩
def DISABLE_CAUSE : Fld := ⟨0x0, 8, 4, .ro, 0x0⟩
def FAIL_STEP : Fld := ⟨0x0, 12, 4, .ro, 0x0⟩
def KIND : Fld := ⟨0x4, 0, 2, .rw, 0x0⟩
def WIDTH : Fld := ⟨0x4, 2, 2, .rw, 0x0⟩
def DENSITY : Fld := ⟨0x4, 4, 1, .rw, 0x0⟩
def RANKS2 : Fld := ⟨0x4, 5, 1, .rw, 0x0⟩
def REF_2X : Fld := ⟨0x4, 6, 1, .rw, 0x0⟩
def BANK_HASH : Fld := ⟨0x4, 7, 1, .rw, 0x1⟩
def RUN_GO : Fld := ⟨0x8, 0, 1, .wo, 0x0⟩
def DISABLE_GO : Fld := ⟨0x8, 1, 1, .wo, 0x0⟩
def STEP : Fld := ⟨0x8, 4, 4, .wo, 0x0⟩
def WQ_HIGH : Fld := ⟨0x100, 0, 7, .rw, 0x30⟩
def WQ_LOW : Fld := ⟨0x100, 8, 7, .rw, 0x10⟩
def AGE_CAP : Fld := ⟨0x100, 16, 16, .rw, 0x400⟩
def IDLE_CLOSE : Fld := ⟨0x104, 0, 16, .rw, 0x20⟩
def WR_AGE_MAX : Fld := ⟨0x104, 16, 16, .rw, 0x1000⟩
def POSTPONE_MAX : Fld := ⟨0x108, 0, 4, .rw, 0x8⟩
def AUTO_SR : Fld := ⟨0x10C, 0, 1, .ro, 0x0⟩
def SR_IDLE : Fld := ⟨0x10C, 8, 16, .rw, 0x64⟩
def P_RANK0 : Fld := ⟨0x110, 0, 4, .ro, 0x0⟩
def P_RANK1 : Fld := ⟨0x110, 4, 4, .ro, 0x0⟩
def REF_FORCE_CNT : Fld := ⟨0x110, 16, 16, .ro, 0x0⟩
def SR_ENTRY_CNT : Fld := ⟨0x114, 0, 32, .ro, 0x0⟩
def FWD_CNT : Fld := ⟨0x118, 0, 32, .ro, 0x0⟩
def SR_ABORT_CNT : Fld := ⟨0x11C, 0, 16, .ro, 0x0⟩
def RAW_WAIT_CNT : Fld := ⟨0x11C, 16, 16, .ro, 0x0⟩
def CE_CNT : Fld := ⟨0x200, 0, 32, .ro, 0x0⟩
def UE_CNT : Fld := ⟨0x204, 0, 32, .ro, 0x0⟩
def ERR_LINE : Fld := ⟨0x208, 0, 30, .ro, 0x0⟩
def ERR_UE : Fld := ⟨0x208, 30, 1, .ro, 0x0⟩
def ERR_VALID : Fld := ⟨0x208, 31, 1, .ro, 0x0⟩
def ERR_NIB : Fld := ⟨0x20C, 0, 10, .ro, 0x0⟩
def BY_PATROL : Fld := ⟨0x20C, 10, 1, .ro, 0x0⟩
def ERR_CLR : Fld := ⟨0x210, 0, 1, .wo, 0x0⟩
def NIB_CE (g : Nat) : Fld := ⟨0x220 + 0x4 * g, 0, 16, .ro, 0x0⟩
def PATROL_EN : Fld := ⟨0x280, 0, 1, .rw, 0x1⟩
def PATROL_RATE : Fld := ⟨0x280, 4, 4, .rw, 0x6⟩
def PATROL_LAP : Fld := ⟨0x284, 0, 32, .ro, 0x0⟩
def PATROL_POS : Fld := ⟨0x288, 0, 30, .ro, 0x0⟩
def T_CL : Fld := ⟨0x300, 0, 16, .rw, 0x0⟩
def T_CWL : Fld := ⟨0x300, 16, 16, .rw, 0x0⟩
def T_RCD : Fld := ⟨0x304, 0, 16, .rw, 0x0⟩
def T_RP : Fld := ⟨0x304, 16, 16, .rw, 0x0⟩
def T_RAS : Fld := ⟨0x308, 0, 16, .rw, 0x0⟩
def T_RTP : Fld := ⟨0x308, 16, 16, .rw, 0x0⟩
def T_WR : Fld := ⟨0x30C, 0, 16, .rw, 0x0⟩
def T_FAW : Fld := ⟨0x30C, 16, 16, .rw, 0x0⟩
def T_RRD_S : Fld := ⟨0x310, 0, 16, .rw, 0x0⟩
def T_RRD_L : Fld := ⟨0x310, 16, 16, .rw, 0x0⟩
def T_CCD_S : Fld := ⟨0x314, 0, 16, .rw, 0x0⟩
def T_CCD_L : Fld := ⟨0x314, 16, 16, .rw, 0x0⟩
def T_CCD_L_WR : Fld := ⟨0x318, 0, 16, .rw, 0x0⟩
def T_WTR_S : Fld := ⟨0x318, 16, 16, .rw, 0x0⟩
def T_WTR_L : Fld := ⟨0x31C, 0, 16, .rw, 0x0⟩
def T_XS : Fld := ⟨0x31C, 16, 16, .rw, 0x0⟩
def T_RFC : Fld := ⟨0x320, 0, 16, .rw, 0x0⟩
def T_REFI : Fld := ⟨0x320, 16, 16, .rw, 0x0⟩
def TRN_GO : Fld := ⟨0x400, 0, 1, .wo, 0x0⟩
def TRN_PAT : Fld := ⟨0x400, 1, 1, .rw, 0x0⟩
def TRN_SUB : Fld := ⟨0x400, 2, 2, .rw, 0x3⟩
def TRN_RANK : Fld := ⟨0x400, 4, 1, .rw, 0x0⟩
def TRN_RDONLY : Fld := ⟨0x400, 5, 1, .rw, 0x0⟩
def TRN_COUNT : Fld := ⟨0x400, 16, 16, .rw, 0x0⟩
def TRN_BG : Fld := ⟨0x404, 0, 3, .rw, 0x0⟩
def TRN_BA : Fld := ⟨0x404, 3, 2, .rw, 0x0⟩
def TRN_ROW : Fld := ⟨0x404, 5, 17, .rw, 0x0⟩
def TRN_COL : Fld := ⟨0x404, 22, 7, .rw, 0x0⟩
def LFSR_SEED : Fld := ⟨0x408, 0, 23, .rw, 0x1⟩
def TRN_BUSY : Fld := ⟨0x40C, 0, 1, .ro, 0x0⟩
def TRN_DONE : Fld := ⟨0x40C, 1, 1, .w1c, 0x0⟩
def TRN_REJECT : Fld := ⟨0x40C, 2, 1, .w1c, 0x0⟩
def FF_BURST : Fld := ⟨0x410, 0, 16, .ro, 0x0⟩
def FF_BEAT : Fld := ⟨0x410, 16, 4, .ro, 0x0⟩
def FF_LANE : Fld := ⟨0x410, 20, 7, .ro, 0x0⟩
def FF_VALID : Fld := ⟨0x410, 31, 1, .ro, 0x0⟩
def MR_ADDR : Fld := ⟨0x440, 0, 8, .rw, 0x0⟩
def MR_DATA : Fld := ⟨0x440, 8, 8, .rw, 0x0⟩
def MR_RANK : Fld := ⟨0x440, 16, 1, .rw, 0x0⟩
def MR_SUB : Fld := ⟨0x440, 17, 2, .rw, 0x3⟩
def MR_WRITE : Fld := ⟨0x440, 19, 1, .rw, 0x0⟩
def MR_RCD : Fld := ⟨0x440, 20, 1, .rw, 0x0⟩
def MR_GO : Fld := ⟨0x440, 31, 1, .wo, 0x0⟩
def PAT_DQ (b : Nat) : Fld := ⟨0x500 + 0x8 * b, 0, 32, .rw, 0x0⟩
def PAT_CB (b : Nat) : Fld := ⟨0x504 + 0x8 * b, 0, 8, .rw, 0x0⟩
def ERR_CNT_E (i : Nat) : Fld := ⟨0x600 + 0x4 * i, 0, 16, .ro, 0x0⟩
def ERR_CNT_O (i : Nat) : Fld := ⟨0x600 + 0x4 * i, 16, 16, .ro, 0x0⟩
def CAP_DQ (x b : Nat) : Fld := ⟨0x700 + 0x80 * x + 0x8 * b, 0, 32, .ro, 0x0⟩
def CAP_CB (x b : Nat) : Fld := ⟨0x704 + 0x80 * x + 0x8 * b, 0, 8, .ro, 0x0⟩
def TX_DLY (r x l : Nat) : Fld := ⟨0x1000 + 0x800 * r + 0x400 * x + 0x4 * l, 0, 9, .rw, 0x0⟩
def RX_DLY (r x l : Nat) : Fld := ⟨0x1000 + 0x800 * r + 0x400 * x + 0x4 * l, 16, 8, .rw, 0x0⟩
def RX_VREF (r x g : Nat) : Fld := ⟨0x1200 + 0x800 * r + 0x400 * x + 0x4 * g, 0, 7, .rw, 0x28⟩
def DQS_TX_DLY (r x g : Nat) : Fld := ⟨0x1200 + 0x800 * r + 0x400 * x + 0x4 * g, 8, 9, .rw, 0x0⟩
def CA_DLY (x c : Nat) : Fld := ⟨0x2000 + 0x100 * x + 0x4 * c, 0, 9, .rw, 0x0⟩

def tab0 : List Fld := [STATE, RATE_IDX, DISABLE_CAUSE, FAIL_STEP, KIND, WIDTH, DENSITY, RANKS2, REF_2X, BANK_HASH, RUN_GO, DISABLE_GO, STEP, WQ_HIGH, WQ_LOW, AGE_CAP, IDLE_CLOSE, WR_AGE_MAX, POSTPONE_MAX, AUTO_SR, SR_IDLE, P_RANK0, P_RANK1, REF_FORCE_CNT, SR_ENTRY_CNT]
def tab1 : List Fld := [FWD_CNT, SR_ABORT_CNT, RAW_WAIT_CNT, CE_CNT, UE_CNT, ERR_LINE, ERR_UE, ERR_VALID, ERR_NIB, BY_PATROL, ERR_CLR, PATROL_EN, PATROL_RATE, PATROL_LAP, PATROL_POS, T_CL, T_CWL, T_RCD, T_RP, T_RAS, T_RTP, T_WR, T_FAW, T_RRD_S, T_RRD_L]
def tab2 : List Fld := [T_CCD_S, T_CCD_L, T_CCD_L_WR, T_WTR_S, T_WTR_L, T_XS, T_RFC, T_REFI, TRN_GO, TRN_PAT, TRN_SUB, TRN_RANK, TRN_RDONLY, TRN_COUNT, TRN_BG, TRN_BA, TRN_ROW, TRN_COL, LFSR_SEED, TRN_BUSY, TRN_DONE, TRN_REJECT, FF_BURST, FF_BEAT, FF_LANE]
def tab3 : List Fld := [FF_VALID, MR_ADDR, MR_DATA, MR_RANK, MR_SUB, MR_WRITE, MR_RCD, MR_GO]

/-- The fields at an offset. DDR controller window (R300 to R302). -/
def fields (off : Nat) : List Fld :=
  (tab0 ++ tab1 ++ tab2 ++ tab3).filter (fun f => f.off == off) ++
  at1 0x220 0x4 20 (fun g => [NIB_CE g]) off ++
  at1 0x500 0x8 16 (fun b => [PAT_DQ b]) off ++
  at1 0x504 0x8 16 (fun b => [PAT_CB b]) off ++
  at1 0x600 0x4 40 (fun i => [ERR_CNT_E i, ERR_CNT_O i]) off ++
  at1 0x700 0x8 16 (fun b => [CAP_DQ 0 b]) off ++
  at1 0x780 0x8 16 (fun b => [CAP_DQ 1 b]) off ++
  at1 0x704 0x8 16 (fun b => [CAP_CB 0 b]) off ++
  at1 0x784 0x8 16 (fun b => [CAP_CB 1 b]) off ++
  at1 0x1000 0x4 40 (fun l => [TX_DLY 0 0 l, RX_DLY 0 0 l]) off ++
  at1 0x1400 0x4 40 (fun l => [TX_DLY 0 1 l, RX_DLY 0 1 l]) off ++
  at1 0x1800 0x4 40 (fun l => [TX_DLY 1 0 l, RX_DLY 1 0 l]) off ++
  at1 0x1C00 0x4 40 (fun l => [TX_DLY 1 1 l, RX_DLY 1 1 l]) off ++
  at1 0x1200 0x4 10 (fun g => [RX_VREF 0 0 g, DQS_TX_DLY 0 0 g]) off ++
  at1 0x1600 0x4 10 (fun g => [RX_VREF 0 1 g, DQS_TX_DLY 0 1 g]) off ++
  at1 0x1A00 0x4 10 (fun g => [RX_VREF 1 0 g, DQS_TX_DLY 1 0 g]) off ++
  at1 0x1E00 0x4 10 (fun g => [RX_VREF 1 1 g, DQS_TX_DLY 1 1 g]) off ++
  at1 0x2000 0x4 16 (fun c => [CA_DLY 0 c]) off ++
  at1 0x2100 0x4 16 (fun c => [CA_DLY 1 c]) off

end Mc

namespace Sec

def KEY_READY : Fld := ⟨0x0, 0, 1, .ro, 0x0⟩
def TRNG_FAIL : Fld := ⟨0x0, 1, 1, .ro, 0x0⟩
def WIN_ACTIVE : Fld := ⟨0x0, 2, 1, .ro, 0x0⟩
def WIN_POISONED : Fld := ⟨0x0, 3, 1, .ro, 0x0⟩
def WIN_REJECT : Fld := ⟨0x0, 4, 1, .w1c, 0x0⟩
def WIN_BASE_G : Fld := ⟨0x10, 0, 9, .rwl, 0x0⟩
def WIN_SIZE : Fld := ⟨0x10, 9, 3, .rwl, 0x0⟩
def WIN_EN : Fld := ⟨0x10, 12, 1, .rwl, 0x0⟩
def META_GRAN : Fld := ⟨0x14, 0, 22, .rwl, 0x0⟩
def ESC_N : Fld := ⟨0x20, 0, 8, .rwl, 0x0⟩
def MAJOR_FLOOR_LO : Fld := ⟨0x24, 0, 32, .ro, 0x0⟩
def MAJOR_FLOOR_HI : Fld := ⟨0x28, 0, 32, .ro, 0x0⟩
def TREE_FLOOR_LO : Fld := ⟨0x2C, 0, 32, .ro, 0x0⟩
def TREE_FLOOR_HI : Fld := ⟨0x30, 0, 23, .ro, 0x0⟩
def TAG_FAIL_CNT : Fld := ⟨0x40, 0, 16, .ro, 0x0⟩
def POISON_CNT : Fld := ⟨0x40, 16, 16, .ro, 0x0⟩
def REKEY_CNT : Fld := ⟨0x44, 0, 32, .ro, 0x0⟩
def ZFILL_CNT : Fld := ⟨0x48, 0, 32, .ro, 0x0⟩
def TREE_CE_CNT : Fld := ⟨0x4C, 0, 16, .ro, 0x0⟩
def TREE_UE_CNT : Fld := ⟨0x4C, 16, 16, .ro, 0x0⟩
def CACHE_CE_CNT : Fld := ⟨0x50, 0, 16, .ro, 0x0⟩
def CACHE_UE_CNT : Fld := ⟨0x50, 16, 16, .ro, 0x0⟩
def GT_CE_CNT : Fld := ⟨0x54, 0, 16, .ro, 0x0⟩
def GT_UE_CNT : Fld := ⟨0x54, 16, 16, .ro, 0x0⟩
def DRAM_UE_CNT : Fld := ⟨0x58, 0, 32, .ro, 0x0⟩
def CAUSE : Fld := ⟨0x80, 0, 4, .ro, 0x0⟩
def SEC_PART : Fld := ⟨0x80, 4, 5, .ro, 0x0⟩
def SEC_VALID : Fld := ⟨0x80, 31, 1, .ro, 0x0⟩
def SEC_ADDR_LO : Fld := ⟨0x84, 0, 32, .ro, 0x0⟩
def SEC_ADDR_HI : Fld := ⟨0x88, 0, 7, .ro, 0x0⟩
def SEC_CNT (p : Nat) : Fld := ⟨0xC0 + 0x4 * p, 0, 8, .ro, 0x0⟩
def SEC_CLR : Fld := ⟨0x100, 0, 1, .wo, 0x0⟩
def SEC_CNT_CLR : Fld := ⟨0x104, 0, 17, .wo, 0x0⟩
def PS_LEVEL (i : Nat) : Fld := ⟨0x200 + 0x8 * i, 0, 4, .ro, 0x0⟩
def PS_VALID (i : Nat) : Fld := ⟨0x200 + 0x8 * i, 31, 1, .ro, 0x0⟩
def PS_INDEX (i : Nat) : Fld := ⟨0x204 + 0x8 * i, 0, 24, .ro, 0x0⟩

def tab0 : List Fld := [KEY_READY, TRNG_FAIL, WIN_ACTIVE, WIN_POISONED, WIN_REJECT, WIN_BASE_G, WIN_SIZE, WIN_EN, META_GRAN, ESC_N, MAJOR_FLOOR_LO, MAJOR_FLOOR_HI, TREE_FLOOR_LO, TREE_FLOOR_HI, TAG_FAIL_CNT, POISON_CNT, REKEY_CNT, ZFILL_CNT, TREE_CE_CNT, TREE_UE_CNT, CACHE_CE_CNT, CACHE_UE_CNT, GT_CE_CNT, GT_UE_CNT, DRAM_UE_CNT]
def tab1 : List Fld := [CAUSE, SEC_PART, SEC_VALID, SEC_ADDR_LO, SEC_ADDR_HI, SEC_CLR, SEC_CNT_CLR]

/-- The fields at an offset. Memory security window (R334). -/
def fields (off : Nat) : List Fld :=
  (tab0 ++ tab1).filter (fun f => f.off == off) ++
  at1 0xC0 0x4 17 (fun p => [SEC_CNT p]) off ++
  at1 0x200 0x8 16 (fun i => [PS_LEVEL i, PS_VALID i]) off ++
  at1 0x204 0x8 16 (fun i => [PS_INDEX i]) off

end Sec

namespace Quad

def PLL_LOCK : Fld := ⟨0x0, 0, 1, .ro, 0x0⟩
def REFCLK_OK : Fld := ⟨0x0, 1, 1, .ro, 0x0⟩
def REFCLK_FREQ : Fld := ⟨0x0, 2, 2, .ro, 0x0⟩
def MCU_RUN : Fld := ⟨0x0, 4, 1, .ro, 0x0⟩
def TS_UNSYNC : Fld := ⟨0x0, 5, 1, .ro, 0x1⟩
def TS_UNSYNC_SEEN : Fld := ⟨0x0, 6, 1, .w1c, 0x0⟩
def UCODE_VER : Fld := ⟨0x4, 0, 16, .ro, 0x0⟩
def PLL_KHZ : Fld := ⟨0x8, 0, 32, .ro, 0x0⟩

def tab0 : List Fld := [PLL_LOCK, REFCLK_OK, REFCLK_FREQ, MCU_RUN, TS_UNSYNC, TS_UNSYNC_SEEN, UCODE_VER, PLL_KHZ]

/-- The fields at an offset. Quad common (R363). -/
def fields (off : Nat) : List Fld :=
  (tab0).filter (fun f => f.off == off)

end Quad

namespace Lane

def LINK_STATE : Fld := ⟨0x0, 0, 4, .ro, 0x0⟩
def MODE : Fld := ⟨0x0, 4, 8, .ro, 0x0⟩
def PSTATE : Fld := ⟨0x0, 12, 2, .ro, 0x2⟩
def GROUP_MEMBER : Fld := ⟨0x0, 14, 1, .ro, 0x0⟩
def FAIL_RUN : Fld := ⟨0x0, 16, 4, .ro, 0x0⟩
def ATTEMPT : Fld := ⟨0x0, 20, 4, .ro, 0x0⟩
def LAST_CAUSE : Fld := ⟨0x0, 24, 4, .ro, 0x0⟩
def WAIT_LEFT : Fld := ⟨0x4, 0, 16, .ro, 0x0⟩
def UP_CNT : Fld := ⟨0x8, 0, 16, .ro, 0x0⟩
def DOWN_CNT : Fld := ⟨0x8, 16, 16, .ro, 0x0⟩
def ABANDON_CNT : Fld := ⟨0xC, 0, 16, .ro, 0x0⟩
def FAIL_CNT : Fld := ⟨0xC, 16, 16, .ro, 0x0⟩
def SIG_DET : Fld := ⟨0x10, 0, 1, .ro, 0x0⟩
def CDR_LOCK : Fld := ⟨0x10, 1, 1, .ro, 0x0⟩
def PCS_LOCK : Fld := ⟨0x10, 2, 1, .ro, 0x0⟩
def ADAPT_CONV : Fld := ⟨0x10, 3, 1, .ro, 0x0⟩
def FEC_CORR_CNT : Fld := ⟨0x14, 0, 32, .ro, 0x0⟩
def FEC_UNCORR_CNT : Fld := ⟨0x18, 0, 32, .ro, 0x0⟩
def EYE_H : Fld := ⟨0x1C, 0, 16, .ro, 0x0⟩
def EYE_V : Fld := ⟨0x1C, 16, 16, .ro, 0x0⟩
def LANE_CLR : Fld := ⟨0x20, 0, 1, .wo, 0x0⟩
def TXC_M3 : Fld := ⟨0x40, 0, 8, .rw, 0x0⟩
def TXC_M2 : Fld := ⟨0x40, 8, 8, .rw, 0x0⟩
def TXC_M1 : Fld := ⟨0x40, 16, 8, .rw, 0x0⟩
def TXC_P1 : Fld := ⟨0x40, 24, 8, .rw, 0x0⟩
def TXC_0 : Fld := ⟨0x44, 0, 7, .rw, 0x40⟩
def TXEQ_REJECT : Fld := ⟨0x44, 8, 1, .w1c, 0x0⟩
def CTLE_PEAK : Fld := ⟨0x48, 0, 5, .rw, 0x0⟩
def CTLE_OVR : Fld := ⟨0x48, 5, 1, .rw, 0x0⟩
def ADAPT_MU : Fld := ⟨0x48, 8, 5, .rw, 0xC⟩
def ADAPT_FREEZE : Fld := ⟨0x48, 16, 1, .rw, 0x0⟩
def DFE_OFF : Fld := ⟨0x48, 17, 1, .rw, 0x0⟩
def TAP_SEL : Fld := ⟨0x4C, 0, 6, .rw, 0x0⟩
def TAP_VAL : Fld := ⟨0x4C, 16, 11, .ro, 0x0⟩
def PRBS_GEN : Fld := ⟨0x60, 0, 4, .rw, 0x0⟩
def PRBS_CHK : Fld := ⟨0x60, 4, 4, .rw, 0x0⟩
def LOOPBACK : Fld := ⟨0x60, 8, 2, .rw, 0x0⟩
def INJ_MODE : Fld := ⟨0x64, 0, 2, .rw, 0x0⟩
def INJ_LEN : Fld := ⟨0x64, 2, 6, .rw, 0x0⟩
def INJ_RATE : Fld := ⟨0x64, 8, 6, .rw, 0x14⟩
def INJ_GO : Fld := ⟨0x64, 31, 1, .wo, 0x0⟩
def CHK_LOCK : Fld := ⟨0x68, 0, 1, .ro, 0x0⟩
def TEST_REJECT : Fld := ⟨0x68, 1, 1, .w1c, 0x0⟩
def CHK_ERR_LO : Fld := ⟨0x70, 0, 32, .ro, 0x0⟩
def CHK_ERR_HI : Fld := ⟨0x74, 0, 16, .ro, 0x0⟩
def CHK_BITS_LO : Fld := ⟨0x78, 0, 32, .ro, 0x0⟩
def CHK_BITS_HI : Fld := ⟨0x7C, 0, 16, .ro, 0x0⟩
def TS_RX_ADJ : Fld := ⟨0x80, 0, 32, .rw, 0x0⟩
def TS_TX_ADJ : Fld := ⟨0x84, 0, 32, .rw, 0x0⟩
def LAT_RX : Fld := ⟨0x88, 0, 16, .ro, 0x0⟩
def LAT_TX : Fld := ⟨0x88, 16, 16, .ro, 0x0⟩
def TX_UNDER_CNT : Fld := ⟨0x90, 0, 16, .ro, 0x0⟩
def RX_OVF_CNT : Fld := ⟨0x90, 16, 16, .ro, 0x0⟩

def tab0 : List Fld := [LINK_STATE, MODE, PSTATE, GROUP_MEMBER, FAIL_RUN, ATTEMPT, LAST_CAUSE, WAIT_LEFT, UP_CNT, DOWN_CNT, ABANDON_CNT, FAIL_CNT, SIG_DET, CDR_LOCK, PCS_LOCK, ADAPT_CONV, FEC_CORR_CNT, FEC_UNCORR_CNT, EYE_H, EYE_V, LANE_CLR, TXC_M3, TXC_M2, TXC_M1, TXC_P1]
def tab1 : List Fld := [TXC_0, TXEQ_REJECT, CTLE_PEAK, CTLE_OVR, ADAPT_MU, ADAPT_FREEZE, DFE_OFF, TAP_SEL, TAP_VAL, PRBS_GEN, PRBS_CHK, LOOPBACK, INJ_MODE, INJ_LEN, INJ_RATE, INJ_GO, CHK_LOCK, TEST_REJECT, CHK_ERR_LO, CHK_ERR_HI, CHK_BITS_LO, CHK_BITS_HI, TS_RX_ADJ, TS_TX_ADJ, LAT_RX]
def tab2 : List Fld := [LAT_TX, TX_UNDER_CNT, RX_OVF_CNT]

/-- The fields at an offset. Lane registers, offsets from 0x1000 + l * 0x1000 of the quad window (R363). -/
def fields (off : Nat) : List Fld :=
  (tab0 ++ tab1 ++ tab2).filter (fun f => f.off == off)

end Lane

namespace Bight

def A_EN : Fld := ⟨0x80000, 0, 1, .rwl, 0x0⟩
def B_EN : Fld := ⟨0x80000, 1, 1, .rwl, 0x0⟩
def RING_RATE : Fld := ⟨0x80000, 2, 1, .rwl, 0x0⟩
def RING_ADDR : Fld := ⟨0x80000, 8, 8, .rwl, 0x0⟩
def A_UP : Fld := ⟨0x80004, 0, 1, .ro, 0x0⟩
def B_UP : Fld := ⟨0x80004, 1, 1, .ro, 0x0⟩
def A_OPEN : Fld := ⟨0x80004, 2, 1, .ro, 0x0⟩
def B_OPEN : Fld := ⟨0x80004, 3, 1, .ro, 0x0⟩
def RX_LEN : Fld := ⟨0x80010, 0, 9, .ro, 0x0⟩
def RX_PORT : Fld := ⟨0x80010, 9, 1, .ro, 0x0⟩
def RX_WAIT : Fld := ⟨0x80010, 12, 4, .ro, 0x0⟩
def RX_POP : Fld := ⟨0x80010, 31, 1, .wo, 0x0⟩
def TX_LEN : Fld := ⟨0x80014, 0, 9, .rw, 0x0⟩
def TX_PORT : Fld := ⟨0x80014, 9, 1, .rw, 0x0⟩
def TX_BUSY : Fld := ⟨0x80014, 30, 1, .ro, 0x0⟩
def TX_GO : Fld := ⟨0x80014, 31, 1, .wo, 0x0⟩
def RX_CRC_CNT : Fld := ⟨0x80018, 0, 16, .ro, 0x0⟩
def RX_DROP_CNT : Fld := ⟨0x80018, 16, 16, .ro, 0x0⟩
def CLOSE_CNT : Fld := ⟨0x8001C, 0, 16, .ro, 0x0⟩
def RX_BUF (w : Nat) : Fld := ⟨0x80100 + 0x4 * w, 0, 32, .ro, 0x0⟩
def TX_BUF (w : Nat) : Fld := ⟨0x80200 + 0x4 * w, 0, 32, .rw, 0x0⟩

def tab0 : List Fld := [A_EN, B_EN, RING_RATE, RING_ADDR, A_UP, B_UP, A_OPEN, B_OPEN, RX_LEN, RX_PORT, RX_WAIT, RX_POP, TX_LEN, TX_PORT, TX_BUSY, TX_GO, RX_CRC_CNT, RX_DROP_CNT, CLOSE_CNT]

/-- The fields at an offset. Bight registers of the power and health window (R371). -/
def fields (off : Nat) : List Fld :=
  (tab0).filter (fun f => f.off == off) ++
  at1 0x80100 0x4 64 (fun w => [RX_BUF w]) off ++
  at1 0x80200 0x4 64 (fun w => [TX_BUF w]) off

end Bight

namespace Pcie

def SPEED : Fld := ⟨0x0, 0, 3, .ro, 0x0⟩
def WIDTH : Fld := ⟨0x0, 3, 5, .ro, 0x0⟩
def FLIT : Fld := ⟨0x0, 8, 1, .ro, 0x0⟩
def DL_UP : Fld := ⟨0x0, 9, 1, .ro, 0x0⟩
def IN_L1 : Fld := ⟨0x0, 10, 1, .ro, 0x0⟩
def BIFUR : Fld := ⟨0x0, 11, 2, .ro, 0x0⟩
def CORR_CNT : Fld := ⟨0x4, 0, 16, .ro, 0x0⟩
def UNCORR_CNT : Fld := ⟨0x4, 16, 16, .ro, 0x0⟩
def RRS_CNT : Fld := ⟨0x8, 0, 16, .ro, 0x0⟩
def CA_CNT : Fld := ⟨0x8, 16, 16, .ro, 0x0⟩
def UR_CNT : Fld := ⟨0xC, 0, 16, .ro, 0x0⟩
def DOWN_CNT : Fld := ⟨0xC, 16, 16, .ro, 0x0⟩
def PCIE_CLR : Fld := ⟨0x10, 0, 1, .wo, 0x0⟩

def tab0 : List Fld := [SPEED, WIDTH, FLIT, DL_UP, IN_L1, BIFUR, CORR_CNT, UNCORR_CNT, RRS_CNT, CA_CNT, UR_CNT, DOWN_CNT, PCIE_CLR]

/-- The fields at an offset. PCIe link registers, link window (R388). -/
def fields (off : Nat) : List Fld :=
  (tab0).filter (fun f => f.off == off)

end Pcie

namespace Cfg

def CFG_STATE : Fld := ⟨0x0, 0, 3, .ro, 0x0⟩
def GOLDEN : Fld := ⟨0x0, 3, 1, .ro, 0x0⟩
def SRC_STRAP : Fld := ⟨0x0, 4, 2, .ro, 0x0⟩
def IOHOLD : Fld := ⟨0x0, 6, 1, .ro, 0x0⟩
def NO_READBACK : Fld := ⟨0x0, 7, 1, .ro, 0x0⟩
def ERR_CODE : Fld := ⟨0x4, 0, 8, .ro, 0x0⟩
def ERR_DIE : Fld := ⟨0x4, 8, 3, .ro, 0x0⟩
def ERR_PARTIAL : Fld := ⟨0x4, 11, 1, .ro, 0x0⟩
def ERR_VALID : Fld := ⟨0x4, 31, 1, .ro, 0x0⟩
def ERR_FRAME : Fld := ⟨0x8, 0, 20, .ro, 0x0⟩
def OP_ERR_CODE : Fld := ⟨0xC, 0, 8, .ro, 0x0⟩
def LOAD_US : Fld := ⟨0x10, 0, 32, .ro, 0x0⟩
def DESIGN_ID (k : Nat) : Fld := ⟨0x14 + 0x4 * k, 0, 32, .ro, 0x0⟩
def ERR_CLR : Fld := ⟨0x24, 0, 1, .wo, 0x0⟩
def RAWF_ADDR : Fld := ⟨0x30, 0, 20, .rw, 0x0⟩
def RAWF_WRITE : Fld := ⟨0x30, 20, 1, .rw, 0x0⟩
def RAWF_GO : Fld := ⟨0x30, 31, 1, .wo, 0x0⟩
def RAWF_BUSY : Fld := ⟨0x34, 0, 1, .ro, 0x0⟩
def RAWF_DONE : Fld := ⟨0x34, 1, 1, .w1c, 0x0⟩
def RAWF_REFUSED : Fld := ⟨0x34, 2, 1, .w1c, 0x0⟩
def RAWF_REJECT : Fld := ⟨0x34, 3, 1, .w1c, 0x0⟩
def RAWF_HIDDEN : Fld := ⟨0x38, 0, 14, .rw, 0x0⟩
def RAWF_BUF (w : Nat) : Fld := ⟨0x200 + 0x4 * w, 0, 32, .rw, 0x0⟩

def tab0 : List Fld := [CFG_STATE, GOLDEN, SRC_STRAP, IOHOLD, NO_READBACK, ERR_CODE, ERR_DIE, ERR_PARTIAL, ERR_VALID, ERR_FRAME, OP_ERR_CODE, LOAD_US, ERR_CLR, RAWF_ADDR, RAWF_WRITE, RAWF_GO, RAWF_BUSY, RAWF_DONE, RAWF_REFUSED, RAWF_REJECT, RAWF_HIDDEN]

/-- The fields at an offset. Configuration controller (R435). -/
def fields (off : Nat) : List Fld :=
  (tab0).filter (fun f => f.off == off) ++
  at1 0x14 0x4 4 (fun k => [DESIGN_ID k]) off ++
  at1 0x200 0x4 128 (fun w => [RAWF_BUF w]) off

end Cfg

namespace Pwr

def DEV_STATE : Fld := ⟨0x0, 0, 3, .ro, 0x0⟩
def POLICY : Fld := ⟨0x0, 3, 2, .ro, 0x1⟩
def BELOW_MARGIN : Fld := ⟨0x0, 5, 1, .ro, 0x0⟩
def LAST_WAKE : Fld := ⟨0x0, 8, 4, .ro, 0x0⟩
def THERM_TRIP : Fld := ⟨0x0, 12, 1, .w1c, 0x0⟩
def PG_FAIL : Fld := ⟨0x0, 13, 1, .w1c, 0x0⟩
def WAKE_EN : Fld := ⟨0x4, 0, 4, .rw, 0x1⟩
def I2C_WAKE_ADDR : Fld := ⟨0x4, 4, 7, .ro, 0x4C⟩
def AO_TIMER : Fld := ⟨0x8, 0, 32, .rw, 0x0⟩
def AUTO_IDLE_S : Fld := ⟨0xC, 0, 16, .rw, 0x0⟩
def AUTO_TARGET : Fld := ⟨0xC, 16, 1, .rw, 0x0⟩
def SLEEP_ABORT_CNT : Fld := ⟨0x10, 0, 16, .ro, 0x0⟩
def DORMANT_CNT : Fld := ⟨0x10, 16, 16, .ro, 0x0⟩
def TJ_ALARM : Fld := ⟨0x14, 0, 8, .rw, 0x0⟩
def SLACK_LO : Fld := ⟨0x18, 0, 6, .rw, 0x6⟩
def SLACK_HI : Fld := ⟨0x18, 8, 6, .rw, 0x10⟩
def ECO_STRETCH : Fld := ⟨0x18, 16, 10, .rw, 0xA⟩
def V_LOW : Fld := ⟨0x1C, 0, 10, .ro, 0x2BC⟩
def V_HIGH : Fld := ⟨0x1C, 16, 10, .ro, 0x370⟩
def V_SET (r : Nat) : Fld := ⟨0x20 + 0x4 * r, 0, 10, .ro, 0x0⟩
def V_MEAS (r : Nat) : Fld := ⟨0x20 + 0x4 * r, 10, 10, .ro, 0x0⟩
def FROZEN (r : Nat) : Fld := ⟨0x20 + 0x4 * r, 20, 1, .ro, 0x0⟩
def AVS_RETRY_CNT (r : Nat) : Fld := ⟨0x20 + 0x4 * r, 24, 8, .ro, 0x0⟩
def AGE_OFS (r : Nat) : Fld := ⟨0x60 + 0x4 * r, 0, 6, .ro, 0x0⟩
def PWR_CLR : Fld := ⟨0xA0, 0, 1, .wo, 0x0⟩

def tab0 : List Fld := [DEV_STATE, POLICY, BELOW_MARGIN, LAST_WAKE, THERM_TRIP, PG_FAIL, WAKE_EN, I2C_WAKE_ADDR, AO_TIMER, AUTO_IDLE_S, AUTO_TARGET, SLEEP_ABORT_CNT, DORMANT_CNT, TJ_ALARM, SLACK_LO, SLACK_HI, ECO_STRETCH, V_LOW, V_HIGH, PWR_CLR]

/-- The fields at an offset. Power and health (R472). -/
def fields (off : Nat) : List Fld :=
  (tab0).filter (fun f => f.off == off) ++
  at1 0x20 0x4 9 (fun r => [V_SET r, V_MEAS r, FROZEN r, AVS_RETRY_CNT r]) off ++
  at1 0x60 0x4 9 (fun r => [AGE_OFS r]) off

end Pwr

end Sys2Proof.Machine.Reg
end

