-- ==== Sys2Proof/Machine/Tab.lean ====
section
/-! DEFINITION. Sparse tables: reading and writing one entry. A table lists keys in rising order and no entry equal to the
value that an unlisted key reads as, so equal contents are equal data (notes/assumptions/8.md). -/

namespace Sys2Proof

/-- The entry of key `i`, or `d` where the table lists none. -/
def tget {α : Type} (d : α) : Tab α → Nat → α
  | [], _ => d
  | p :: t, i => if p.1 = i then p.2 else tget d t i

/-- Insert a pair before the first greater key. -/
def tins {α : Type} (p : Nat × α) : Tab α → Tab α
  | [] => [p]
  | q :: t => if p.1 < q.1 then p :: q :: t else q :: tins p t

/-- Remove every entry of key `i`. -/
def tdel {α : Type} (t : Tab α) (i : Nat) : Tab α := t.filter (fun p => p.1 != i)

/-- Set the entry of key `i` to `v`; the default value is not listed. -/
def tset {α : Type} [DecidableEq α] (d : α) (t : Tab α) (i : Nat) (v : α) : Tab α :=
  if v = d then tdel t i else tins (i, v) (tdel t i)

/-- Change the entry of key `i` by `f`. -/
def tmod {α : Type} [DecidableEq α] (d : α) (t : Tab α) (i : Nat) (f : α → α) : Tab α :=
  tset d t i (f (tget d t i))

/-- Remove every entry with a key from `lo` to `hi - 1`. -/
def tclear {α : Type} (t : Tab α) (lo hi : Nat) : Tab α := t.filter (fun p => p.1 < lo || hi ≤ p.1)

/-- Write consecutive entries from key `lo` on. -/
def tput {α : Type} [DecidableEq α] (d : α) (t : Tab α) (lo : Nat) (vs : List α) : Tab α :=
  t.filter (fun p => decide (p.1 < lo)) ++ (vs.zipIdx.map (fun p => (lo + p.2, p.1))).filter (fun p => decide (p.2 ≠ d)) ++
    t.filter (fun p => decide (lo + vs.length ≤ p.1))

/-- The keys strictly rise. -/
def rising {α : Type} (t : Tab α) : Prop := t.Pairwise (fun p q => p.1 < q.1)

/-- The canonical form: keys strictly rising and no entry equal to the default. -/
def twf {α : Type} [DecidableEq α] (d : α) (t : Tab α) : Bool :=
  t.all (fun p => p.2 ≠ d) && decide (t.Pairwise (fun p q => p.1 < q.1))

end Sys2Proof
end

