-- ==== Sys2Proof/Machine/State.lean ====
section
/-! DEFINITION. The machine's state as plain data: every register field of the spec's tables (`csr`, keyed by address and
bit), and the stored state behind the registers, group by group. `State.reset` is the device before `VCC_AO` is good. -/

namespace Sys2Proof.Machine

/-- The reasons for a fault. No command of this model raises one: every command has an effect (safe). -/
inductive Fault where
  /-- Raised by no command of this model; safe. -/
  | stopped
  deriving DecidableEq, Repr

/-- The reasons for a refusal. -/
inductive Refusal where
  /-- Raised by `exec` for a command that has no meaning yet; safe. -/
  | notModelled (mnemonic : String)
  deriving DecidableEq, Repr

/-- The answer codes of the network and of CSR accesses (08 R239). -/
inductive Resp where
  | okay | uninitZero | decodeErr | partErr | domainOff | secErr | poisoned | wakeFail | none
  deriving DecidableEq, Repr

/-- What the last command answered to its sender: a response code, a word and bytes. -/
structure Rsp where
  resp : Resp := .none
  data : Word := 0
  bytes : List Byte := []
  deriving DecidableEq, Repr

/-! ### Signal engines (05, 06, 07) -/

/-- One accumulator: two 48-bit components (05 R142). -/
structure Acc where
  re : BitVec 48 := 0
  im : BitVec 48 := 0
  deriving DecidableEq, Repr

/-- One register bank (05 R142): registers 0 to 49 of 06 R174 in their 32-bit reading form, and the accumulators. -/
structure Bank where
  r : Tab Word := []
  acc : Tab Acc := []
  deriving DecidableEq, Repr

/-- Where a load delivers (06 R184). -/
inductive Dest where
  | lane (n : Nat) (im : Bool)
  | sext (n : Nat)
  | reg (n : Nat)
  | pair (n : Nat)
  deriving DecidableEq, Repr

/-- What a result writes when it retires (05 R145 to R148, 06 R182). -/
inductive ResW where
  /-- a whole register, converted under R175 -/
  | reg (n : Nat) (v : Word)
  /-- one lane of an x register -/
  | lane (n : Nat) (im : Bool) (v : BitVec 16)
  /-- some bits of `st` -/
  | stBits (mask v : Word)
  /-- a hardware setting of sticky bits of `st` -/
  | sticky (mask : Word)
  /-- a whole accumulator -/
  | acc (n : Nat) (v : Acc)
  /-- a multiply: the exact terms, added to the accumulator as it stands in the second cycle, or written -/
  | mac (n : Nat) (add : Bool) (re im : Int)
  /-- a load that reads memory at the end of its issue cycle (R148) -/
  | load (d : Dest) (addr : Nat) (bytes : Nat)
  /-- an uncorrectable load: the fault of R140 at the end of t + 2 -/
  | dbe (pc : Nat)
  /-- a store of `bytes` bytes to the aligned address -/
  | store (addr : Nat) (bytes : Nat) (v : BitVec 64)
  /-- a message staged by a store to `MSG_SEND`, with its payload as it stood at issue -/
  | send (v : BitVec 64) (payload : List Byte)
  /-- the release of staged writes by `commit` (R190) -/
  | commit
  deriving DecidableEq, Repr

/-- A result in flight: cycles left, bank, issuing bundle, slot. -/
structure Res where
  left : Nat
  shadow : Bool
  seq : Nat
  w : ResW
  deriving DecidableEq, Repr

/-- What follows two delay slots (05 R149, R162; 06 R191). -/
inductive After where
  | seq | goto (n : Nat) | ret | stop
  deriving DecidableEq, Repr

/-- Control flow of an engine: sequential, in delay slots, or in a repeat (05 R149, R157). -/
inductive Flow where
  | seq
  | slots (left : Nat) (aft : After)
  | rep (left : Nat)
  deriving DecidableEq, Repr

/-- A staged write (07 R209): a store or a message, and whether a commit has released it. -/
inductive StEnt where
  | store (addr : Nat) (bytes : Nat) (v : BitVec 64)
  | msg (v : BitVec 64) (payload : List Byte)
  deriving DecidableEq, Repr

/-- A message in an inbox (07 R214): source die, node and unit, tag and payload. -/
structure Msg where
  die : BitVec 4
  node : BitVec 8
  unit : BitVec 4
  tag : BitVec 12
  data : List Byte
  deriving DecidableEq, Repr

/-- A store posted through the shared window (R137): the issuing engine, the address and bytes it writes, and the cycles until it
stands at the target's external port. -/
structure Posted where
  src : Nat
  addr : Nat
  width : Nat
  val : BitVec 64
  left : Nat := 0
  deriving DecidableEq, Repr

/-- A signal engine's stored state behind its registers (05, 06, 07). -/
structure EngSt where
  pm : Tab (BitVec 13) := []
  dm : Tab (BitVec 13) := []
  main : Bank := {}
  shadow : Bank := {}
  /-- control registers by their number 50 to 55 (05 R144, 06 R174) -/
  ctl : Tab Word := []
  /-- index of the bundle due next -/
  pc : Nat := 0
  bank : Bool := false
  flow : Flow := .seq
  /-- the next main-bank bundle is the first after a return (R160) -/
  afterRet : Bool := false
  seq : Nat := 0
  fly : List Res := []
  staged : List StEnt := []
  released : List StEnt := []
  ovf : Bool := false
  msgOut : Tab Byte := []
  inbox : List Msg := []
  startUs : Word := 0
  ticksLeft : Nat := 0
  runTicks : Nat := 0
  /-- cycles left of the frame read of a clean start (07 R207); 0 none -/
  starting : Nat := 0
  /-- corrected codewords waiting for the external port: program memory?, byte address, codeword (R140) -/
  wbs : List (Bool × Nat × BitVec 13) := []
  /-- posted shared-window stores on their way to this engine, oldest first (R137) -/
  posted : List Posted := []
  /-- an `ENGINE_LOAD` waits for the end of the run (07 R219) -/
  loadWait : Bool := false
  /-- what has issued in the present cycle: 0 nothing, 1 slot A, 2 the whole bundle (R130) -/
  half : Nat := 0
  /-- TIMER_FIRE has taken this cycle's decrement of `tcnt` (R159) -/
  fired : Bool := false
  /-- bits of `ipend` set in this cycle: a clear of the same cycle acts before them (R159) -/
  pset : Word := 0
  /-- codewords as they stood before the external writes of this cycle (R136) -/
  old : List (Nat × BitVec 13) := []
  /-- banks whose external port has served an access in this cycle; 4 is the program memory's (R135) -/
  used : List Nat := []
  /-- the requester due first at each bank's external port (R135) -/
  turn : Tab Nat := []
  /-- bytes of the frame read so far (07 R207) -/
  frame : List Byte := []
  /-- `RUN_IDX` (07 R214) -/
  runIdx : Nat := 0
  deriving DecidableEq, Repr

/-- Where an engine image came from (15 R455): kind 1 the manifest (flash key), 2 a descriptor; address, length, partition. -/
structure ImgSrc where
  kind : Nat := 0
  addr : Nat := 0
  len : Nat := 0
  part : Nat := 0
  deriving DecidableEq, Repr

/-- An engine island: power state coded as 08 R248 (0 RUN, 3 OFF, 4 OFF_LOCKED, 5 waking), clamp state, the class values as
last set (07 R220), clock phase, and how each engine was last loaded. -/
structure EisSt where
  pst : Nat := 3
  hold : Bool := true
  /-- packets and clock: phase accumulator of the engine clock against the timing unit (idle step) -/
  phase : Nat := 0
  /-- consecutive periods with slack at least `REL` (03 R98) -/
  relRun : Nat := 0
  /-- `PERIOD`, `PHASE`, `BUDGET` of each class as last set, `CLASS` + 8 `BOUND` of each engine, and its image source -/
  periods : Tab (Nat × Nat × Nat) := []
  /-- class values before the changes of the cycle `wasAt` (`up` plus 1): what a tick of that cycle is evaluated with (07 R205) -/
  was : List (Nat × Nat × Nat × Nat) := []
  wasAt : Nat := 0
  binds : Tab Nat := []
  srcs : Tab ImgSrc := []
  /-- `ECLK_N` as the image set it (07 R220) -/
  eclk : Nat := 0
  /-- `up` plus 1 when RUN was asked for last (15 R457) -/
  wakeAt : Nat := 0
  deriving DecidableEq, Repr

/-! ### Timing unit (07 R193 to R199) -/

/-- The time, its accumulator, the latched time step, and the PPS output. -/
structure TimSt where
  sec : Nat := 0
  ns : Nat := 0
  /-- fraction of a nanosecond in units of 2^-48 ns: `FRAC` and the 32 bits behind it (R193) -/
  sub : Nat := 0
  /-- latched target of a pending step (R195) -/
  step : Option (Nat × Nat) := none
  pps : Bool := false
  /-- cycles that PPS_OUT stays high (R197) -/
  ppsLeft : Nat := 0
  deriving DecidableEq, Repr

/-! ### Islands, hitches and block memories (02, 03, 04) -/

/-- A hitch (03 R85, R87, R94). -/
structure HitchSt where
  /-- words written and not yet presented, oldest first, each with the destination edges seen since it was written -/
  flight : List (BitVec 36 × Nat) := []
  /-- words presented, oldest first -/
  head : List (BitVec 36) := []
  /-- slots whose word was taken and whose handshake has not returned -/
  back : Nat := 0
  /-- through mode: `HS_DATA` as registered at a source edge with `HS_VALID` = 0 (R94) -/
  thru : BitVec 36 := 0
  deriving DecidableEq, Repr

/-- What a port presents (04 R109 to R116). -/
structure PortOut where
  dout : BitVec 36 := 0
  collide : Bool := false
  sbe : Bool := false
  dbe : Bool := false
  bwe : Bool := false
  deriving DecidableEq, Repr

/-- A block memory: rows of 36 bits, the output and output-register stage of each port, and its scrubber. -/
structure BramSt where
  rows : Tab (BitVec 36) := []
  outA : PortOut := {}
  outB : PortOut := {}
  /-- the value that enters the output register at the next edge when `DOREG` = 1 (R110) -/
  preA : PortOut := {}
  preB : PortOut := {}
  /-- next word the scrubber reads -/
  scrub : Nat := 0
  /-- a correction waiting: row, its bits, the second row's bits in ECC mode; dropped when a user write reaches it -/
  fix : Option (Nat × BitVec 36 × BitVec 36) := none
  /-- pass over all words complete in this lap, or skipped in it (R125) -/
  lapDone : Bool := false
  skipped : Bool := false
  deriving DecidableEq, Repr

/-- The last access of a port under user logic, kept while an edge of the other port may still meet it (04 R113): when, in quarters of
a nanosecond, its inputs and port B's, the two rows that it touched before and after it, and the port's output and stage before it. -/
structure BramRec where
  time : Nat
  inp : BramIn
  inpB : BramIn
  before : List (BitVec 36)
  after : List (BitVec 36)
  out : PortOut
  pre : PortOut
  deriving DecidableEq, Repr

/-- A clock of a spine synthesizer or an island generator (03 R73, R74): the phase in units of its half period's threshold, the
level, the stretch steps of the period in progress (R97), and whether it has its first edge behind it. -/
structure ClkSt where
  phase : Nat := 0
  lvl : Bool := false
  steps : Nat := 0
  started : Bool := false
  deriving DecidableEq, Repr

/-- A regional tree (03 R76 to R82): the level of its source, the divider's count and the `DIV` in force, the output level; and while
a switch runs, the edges that its step has seen, the rising edges of the new clock since the request, the new clock's level, and
whether the new clock has toggled in step 2. -/
structure TreeSt where
  src : Bool := false
  cnt : Nat := 0
  div : Nat := 0
  out : Bool := false
  edges : Nat := 0
  rises : Nat := 0
  new : Bool := false
  seen : Bool := false
  deriving DecidableEq, Repr

/-- Stored state of a logic island behind its registers (03, 14). -/
structure IslSt where
  /-- in the configuration hold (02 R54) -/
  hold : Bool := true
  /-- an image is in place (14) -/
  image : Bool := false
  /-- source of tree x while its switch runs, key x: the old source (R79) -/
  swOld : Tab Nat := []
  /-- old clock gated off: step 2 reached, key x -/
  swStep2 : Tab Bool := []
  /-- the last held write of tree x (R82) -/
  swHeld : Tab (Option Word) := []
  /-- consecutive periods with slack at least `REL` (R98) -/
  relRun : Nat := 0
  /-- steps that take effect one period later in a splice (R100) -/
  pendSteps : Nat := 0
  /-- a splice has a step to release one period later (R100) -/
  pendDrop : Bool := false
  /-- slack that the splice's members have reported for the period in progress, by island (R100) -/
  reports : Tab Nat := []
  /-- block memory contents kept while OFF (15) -/
  keepBram : Bool := false
  /-- time of the timing unit, in microseconds, at which this lap of the block scrubbers began (04 R125) -/
  lapStart : Nat := 0
  /-- first 4 bytes of the image header's SHA-384 (13 `REGION_STATUS`) -/
  imageHash : Word := 0
  /-- loaded or waking, and waiting for the staged release (14 R425) -/
  pendRel : Bool := false
  /-- region state of `REGION_STATUS`: 0 no image, 1 loading, 2 running, 3 held, 4 failed -/
  region : Nat := 0
  /-- the regional trees, key x; in a splice those of the root run -/
  trees : Tab TreeSt := []
  /-- output values and enables of the attached user I/O at the last rising edge of `RCLK_A`, bit j (14 R426, 17 R522) -/
  ioOut : Nat := 0
  ioOe : Nat := 0
  /-- the generator's clock (R74) -/
  gen : ClkSt := {}
  /-- destination cycles of edge e left until `HS_READY` of its incoming hitches may be 1 again (R90), key e -/
  rxWait : Tab Nat := []
  /-- beats moved of the packet in progress on `RQO` and `RSO`, and the number of beats taken of the packet presented on `RSI` and
  `RQI` (08 R240) -/
  rqo : List (BitVec 128) := []
  rso : List (BitVec 128) := []
  rqoLast : Bool := false
  rsiBeat : Nat := 0
  rqiBeat : Nat := 0
  /-- the last wake failed, and RUN has not been reached since (08 R245) -/
  wakeFailed : Bool := false
  /-- `up` plus 1 when a wake of the island began, or RUN was asked for, last (08 R246, 15 R457) -/
  wakeAt : Nat := 0
  /-- nanoseconds of the staged release left: clocks ungate at 0, raw paths open at 80 (14 R425) -/
  rel : Nat := 0
  /-- the descriptor of the partial image in place, and its sender's partition (14 R428, R433) -/
  src : Option (Nat × Nat × Nat) := none
  deriving DecidableEq, Repr

/-! ### Configuration memory and loads (02, 14) -/

/-- A frame (14 R401): 4,096 bits, 14 hidden check bits, what wrote it (0 nothing, 1 a full load, 2 a partial load, 3 a raw
write), whether a partial image with `NO_READBACK` wrote it, and whether the scrubber has recorded it as uncorrectable. -/
structure Frame where
  data : BitVec 4096 := 0
  chk : BitVec 14 := 0
  origin : Nat := 0
  noRead : Bool := false
  ueSeen : Bool := false
  deriving DecidableEq, Repr

/-- A segment entry of an image header (14 R408). -/
structure Seg where
  die : Nat
  offset : Nat
  length : Nat
  frames : Nat
  islands : Nat
  deriving DecidableEq, Repr

/-- A failed check: its order, code, frame address and die (14 R413). -/
structure LoadFail where
  rank : Nat
  code : Nat
  frame : Nat
  die : Nat
  deriving DecidableEq, Repr

/-- A load in progress (14 R413, R421, R428): full or partial, its header, the segment in progress and what failed. -/
structure LoadSt where
  partialLoad : Bool
  golden : Bool
  /-- partial load: mailbox, die, islands as a mask -/
  mb : Nat
  die : Nat
  islands : Nat
  /-- full load: 0 header expected, 1 segments in progress, 3 every segment passed; partial load: 0 header expected, 1 the reading
  of R428 step 1, 2 DRAIN and then the reading of step 5, 3 passed -/
  stage : Nat
  flags : Nat
  designId : Nat
  hashOk : Nat
  tagOk : Nat
  segs : List Seg
  /-- index of the segment in progress -/
  cur : Nat
  /-- next frame address of the record in progress and frames left in it -/
  addr : Nat
  left : Nat
  written : Nat
  dieRec : Option (List Word)
  fail : Option LoadFail
  /-- microsecond count at the start of the load -/
  startUs : Nat
  imageHash : Word
  /-- a load made while configuration is FAILED (R423) -/
  retry : Bool
  /-- bytes read of the segment in progress (R411) -/
  bytes : Nat
  deriving DecidableEq, Repr

/-! ### Mailboxes, sessions, partitions, alarms (13) -/

/-- A granule range of a partition record (13 R389). -/
structure GRange where
  first : Nat := 0
  count : Nat := 0
  prelock : Bool := false
  deriving DecidableEq, Repr

/-- A partition record (13 R389). -/
structure PartRec where
  valid : Bool := false
  autoSr : Bool := false
  steward : Bool := false
  maxSess : Nat := 0
  fns : Nat := 0
  mailboxes : Nat := 0
  ports : Nat := 0
  islands : List Nat := []
  eisl : List Nat := []
  quads : Nat := 0
  granges : List GRange := []
  deriving DecidableEq, Repr

/-- A partition's run state (13 R392): 0 ABSENT, 1 PENDING, 2 RUNNING, 3 STOPPED; the stop cause; its voltage bounds. -/
structure PartSt where
  state : Nat := 0
  cause : Nat := 0
  vlo : Nat := 700
  vhi : Nat := 880
  /-- escalated (11 R333) -/
  escalated : Bool := false
  /-- `up` plus 1 when it was stopped last: what a restart of that cycle meets (13 R394) -/
  stopAt : Nat := 0
  deriving DecidableEq, Repr

/-- A live session (13 R395): number, partition, path, lease in seconds (0 none), host ID, and `up` plus 1 at its last command. -/
structure Session where
  id : Nat
  part : Nat
  path : Path
  lease : Nat
  host : List Byte := []
  seen : Nat := 0
  deriving DecidableEq, Repr

/-- What a command in service waits for. -/
inductive Wait where
  /-- nothing: not in service -/
  | none
  /-- an object another command holds (13 R377) -/
  | object
  /-- its own operation, ended by COMMAND_COMPLETE -/
  | run
  deriving DecidableEq, Repr

/-- A mailbox: the command slot and the response slot (13 R374), and the command in service. -/
structure MbSt where
  hdr0 : Word := 0
  hdr1 : Word := 0
  pay : Tab Word := []
  /-- a doorbell rung while no firmware runs (R376): the path it came over -/
  bell : Option Path := none
  /-- an in-slot `ABORT` rung behind that doorbell: the path it came over -/
  abortBell : Option Path := none
  state : Nat := 0
  code : Nat := 0
  rseq : Nat := 0
  ropcode : Nat := 0
  rlen : Nat := 0
  abortCode : Nat := 0
  abortSeen : Bool := false
  detail : Word := 0
  rsession : Nat := 0
  doneCnt : Nat := 0
  rsp : List Byte := []
  /-- 0x0000_00F0 was the last word written to the slot while BUSY, at offset 0 (R376) -/
  abortArm : Bool := false
  wait : Wait := .none
  path : Option Path := none
  /-- payload of the command in service -/
  cmd : List Byte := []
  /-- bulk data that the command in service read through its descriptor (13 R380) -/
  data : List Byte := []
  /-- `up` plus 1 when the last command completed: what a meeting in that cycle is told by (00 R10) -/
  doneAt : Nat := 0
  deriving DecidableEq, Repr

/-- An alarm record (13 R399). -/
structure Alarm where
  seq : Nat
  cls : Nat
  cause : Nat
  part : Nat
  acked : Bool
  ns : Nat
  sec : Nat
  loc : List Byte
  deriving DecidableEq, Repr

/-! ### Power and health (15) -/

/-- What the sensors of a die gave within a second (15 R460): lowest slack, stretched and exhausted periods, hottest junction sample. -/
structure SecVals where
  lo : Nat := 0x3F
  st : Nat := 0
  ex : Nat := 0
  hot : Option Nat := none
  deriving DecidableEq, Repr

/-- A rail's request machine (15 R462, R463): the outstanding target and its failed attempts, and the target waiting. -/
structure RailSt where
  out : Option Nat := none
  tries : Nat := 0
  waiting : Option Nat := none
  /-- microsecond count of the last raise for an exhaustion (R469) -/
  raisedUs : Option Nat := none
  /-- regulator readings (R459): output in mV, current in 0.1 A, power in 0.1 W -/
  regMv : Nat := 0
  amp : Nat := 0
  watt : Nat := 0
  /-- what the second in progress has sampled so far, its number, and what the second before it sampled (R460) -/
  now : SecVals := {}
  nowAt : Nat := 0
  last : SecVals := {}
  /-- stretched, exhausted and all periods of each of the last 100 loop periods, the latest first (R466, R468) -/
  hist : List (Nat × Nat × Nat) := []
  /-- the setpoint that MARGIN would give, kept under every policy (R466) -/
  wouldBe : Nat := 0
  deriving DecidableEq, Repr

/-- Stored state of the power and health block behind its registers (15), and the pins that rule power (17). -/
structure PowerSt where
  /-- `VCC_AO` is good -/
  ao : Bool := false
  /-- `MAIN_PWR_EN` is high -/
  mainEn : Bool := false
  /-- hub reset is asserted -/
  hubReset : Bool := true
  /-- `SYS_RST_N` is low -/
  sysRst : Bool := false
  /-- the device is DORMANT -/
  dormant : Bool := false
  /-- a wake sampled after the commit point: its source bit (R444) -/
  wake : Option Nat := none
  /-- the microsecond count plus 1 at which a wake source was last sampled in RUN, by source (R442, R444) -/
  fired : Tab Nat := []
  /-- islands, engine islands and quads that were RUN at the entry to STANDBY (R445) -/
  runIsl : List Nat := []
  runEis : List Nat := []
  runQuads : List Nat := []
  rails : Tab RailSt := []
  /-- junction sensors, 1/8 degree (R459): 0 to 47 die rows 6 d + row, 48 to 51 the hub -/
  junction : Tab Nat := []
  /-- microsecond count plus 1 of the last alarm POWER of cause c and location l, key 256 c + l (R469, R471) -/
  lastAlarm : Tab Nat := []
  /-- policy to take effect at the next loop period (R464) -/
  nextPolicy : Option Nat := none
  /-- device bounds of P0's `POLICY_SET` -/
  vlo : Nat := 700
  vhi : Nat := 880
  /-- bounds to take effect at the next loop period, by partition; key 0 the device's (R464) -/
  bounds : Tab (Nat × Nat) := []
  /-- `PLANT_BATT` asserted, and the supply margin low (16 R502) -/
  plantBatt : Bool := false
  marginLow : Bool := false
  /-- the sensor of a thermal trip, and supplies that did not become valid, to be journalled at the next start (16 R499) -/
  tripEvent : Option Nat := none
  railEvent : Bool := false
  /-- setpoints or targets of the rails at the entry to STANDBY, to which the exit returns them (R445) -/
  runV : List Nat := []
  deriving DecidableEq, Repr

/-! ### Start, flash, journal (16) and fuses -/

/-- What the fuses of this unit hold (01 R42, 15 R466, 16 R476). Chosen values: notes/assumptions/2.md. -/
structure Fuses where
  stepping : Nat := 3
  speed : Nat := 3
  temp : Nat := 1
  dieId : Nat := 0
  keyBlank : Bool := false
  devKeyBlank : Bool := false
  rollback : Nat := 0
  /-- nominal voltage of each rail, 800 where unlisted, and floor of its die for the fastest generator, 700 where unlisted, in mV -/
  nominal : Tab Nat := []
  floor : Tab Nat := []
  /-- straps `CFG_SRC` and `IOHOLD_SEL` as the board ties them -/
  srcStrap : Nat := 0
  iohold : Nat := 0
  /-- every fuse word has a majority (16 R476), and `SYSCLK` is present and within ±100 ppm (17 R516) -/
  majority : Bool := true
  sysclk : Bool := true
  /-- spares fused at assembly: key 8 * hawser + spare, wire plus 1 -/
  spares : Tab Nat := []
  /-- spares fused as faulty, as 8 * hawser + spare (09 R258) -/
  badSpares : List Nat := []
  deriving DecidableEq, Repr

/-- A journal record (16 R495). -/
structure JRec where
  index : Nat
  start : Nat
  code : Nat
  result : Nat
  arg : Nat
  detail : Nat
  time : Nat
  /-- copies that hold the record with a good CRC: bit 0 copy A, bit 1 copy B (R494) -/
  copies : Nat
  deriving DecidableEq, Repr

/-- A copy of the slot selector (16 R484): its CRC is good, its sequence, the active slot and its generation, the stage markers. -/
structure SelCopy where
  good : Bool := true
  seq : Nat := 0
  active : Nat := 0
  generation : Nat := 0
  marker0 : Bool := false
  marker1 : Bool := false
  deriving DecidableEq, Repr

/-- An entry of the step table (16 R498). -/
structure StepRec where
  failRun : Nat := 0
  kept : Bool := false
  lastFailed : Bool := false
  deriving DecidableEq, Repr

/-- A channel's rate-step record (10 R299): serial number of the memory it stands for, the recorded step, and the exhausted mark. -/
structure RateRec where
  serial : Nat := 0
  rate : Nat := 0
  exhausted : Bool := false
  deriving DecidableEq, Repr

/-- Flash and its persistent records (16 R483): they survive every reset and power loss. -/
structure FlashSt where
  /-- slot bytes, key 2^30 * slot + offset; an unlisted byte reads as erased, 0xFF -/
  bytes : Tab Byte := []
  /-- the two copies of the slot selector (R483, R484) -/
  sel0 : SelCopy := {}
  sel1 : SelCopy := {}
  journal : List JRec := []
  nextJ : Nat := 0
  steps : Tab StepRec := []
  /-- wire record (09 R261): for each of the last four runs, the present one first, the data wires that failed in the field,
  as 128 * hawser + wire -/
  wires : List (List Nat) := []
  rates : Tab RateRec := []
  aging : Tab Nat := []
  ownerLock : Bool := false
  /-- results of the last verification per part, 0 to 7 (16 R506) -/
  verify : List Nat := []
  /-- a stage into the inactive slot has begun and is not complete (16 R501) -/
  staging : Bool := false
  /-- slots that a chunk has marked stale, and the 64 KiB sectors erased since (16384 * slot + sector; 16 R501) -/
  marked : List Nat := []
  fresh : List Nat := []
  deriving DecidableEq, Repr

/-- Boot state behind the start registers: the firmware, the manifest in force. -/
structure BootSt where
  /-- phase D has begun, and channels still train (R479) -/
  training : Bool := false
  /-- DMC firmware runs -/
  dmc : Bool := false
  /-- `up` plus 1 when `PROT_LOCK` was set: writes of RWL fields of that cycle are performed (R492) -/
  lockAt : Nat := 0
  halted : Bool := false
  /-- bytes of the manifest in force -/
  manifest : List Byte := []
  /-- microsecond count at DONE -/
  doneUs : Option Nat := none
  /-- the full image in force came from a host port or JTAG (14 R433) -/
  fromPort : Bool := false
  /-- journal records that wait in DMC SRAM for the firmware (R477), or for the load to leave the flash (R480) -/
  buffer : List JRec := []
  deriving DecidableEq, Repr

/-! ### Network (08) -/

/-- An outstanding reservation (R234): its `RSV` value, the response flits reserved, and the request as injected. -/
structure Rsv where
  id : Nat
  flits : Nat
  req : Packet
  deriving DecidableEq, Repr

/-- A network interface (R234 to R236): outstanding reservations, identifiers out of use after a timeout, the generation of each
identifier, and responses waiting in their reserved space for the local user. -/
structure NicSt where
  rsv : List Rsv := []
  dead : List Nat := []
  gens : Tab Nat := []
  got : List Packet := []
  /-- answers that the interface made itself (R228), for the response channel of a logic island -/
  errs : List Packet := []
  deriving DecidableEq, Repr

/-- Where a packet of the network stands (R229 to R231): the link at whose downstream buffer its header is, the NoC cycle from which it
is there, the link before it and the cycle until which its flits still leave that one, and the cycles it has waited at the head of
its buffer. Links are numbered in Machine/Router.lean; 0 is the source's interface. -/
structure HopSt where
  link : Nat := 0
  due : Nat := 0
  old : Nat := 0
  tail : Nat := 0
  wait : Nat := 0
  deriving DecidableEq, Repr

/-- An output's arbiter (R232): the cycle until which it transmits, the last buffer served at each priority, and the packets of
priority 1 to 3 served in this round. -/
structure OutSt where
  busy : Nat := 0
  last : Tab Nat := []
  served : Tab Nat := []
  deriving DecidableEq, Repr

/-- A logic island as its router and port hold it (R241 to R245): requests and messages presented and not yet answered or taken,
in arrival order; the hold buffer; what the power-down in progress leads to; and whether it permits a wake. -/
structure NocSt where
  rqi : List Packet := []
  /-- how many requests at the front of `rqi` user logic has taken over `RQI` -/
  taken : Nat := 0
  hold : List Packet := []
  /-- the transition in progress: 0 none, 1 power-down to OFF, 2 to OFF_LOCKED, 3 a load or unload -/
  kind : Nat := 0
  /-- the power-down belongs to an entry to STANDBY or DORMANT -/
  device : Bool := false
  deriving DecidableEq, Repr

/-! ### Hawsers (09) -/

/-- A change of R265: kind 0 swap, 1 change of half, 2 degrade, 3 clock switch; stage 0 requested, 1 marker sent, 2 applied. -/
structure HwChange where
  kind : Nat
  wire : Nat
  spare : Nat
  stage : Nat
  deriving DecidableEq, Repr

/-- A hawser's stored state (R253, R263 to R266): blocks kept by the transmitting end, the sequence number expected, replay
state, the flit bytes carried over from the last block, and the change in progress with the failures behind it. -/
structure HwSt where
  /-- blocks kept until acknowledged; `none` where the block was damaged on its first way and has not come again -/
  kept : List (Option (List Byte)) := []
  /-- sequence number of the oldest block kept -/
  base : Nat := 0
  rxSeq : Nat := 0
  naked : Bool := false
  /-- the transmitting end re-sends: index in `kept` of the next block to cross -/
  resend : Option Nat := none
  failCopy : Option (List Byte) := none
  failRun : Nat := 0
  carry : List Byte := []
  /-- delivered flits of the packet in progress, and whether one was marked poisoned (R254, R255) -/
  asm : List (List Byte) := []
  asmBad : Bool := false
  /-- PRBS31 of each wire as the receiving end follows it in idle blocks: its last 31 bits, the latest first (R263) -/
  prbs : Tab (List Bool) := []
  change : Option HwChange := none
  /-- failures that wait for the change in progress: when they were sampled, and the wire (R266) -/
  queue : List (Nat × Nat) := []
  deriving DecidableEq, Repr

/-! ### DDR5 controllers and DRAM (10) -/

/-- A line as the DRAM holds it: 64 bytes and 16 check bytes, beat b in bits 8 b. -/
structure DLine where
  data : BitVec 512 := 0
  chk : BitVec 128 := 0
  deriving DecidableEq, Repr

/-- A queued read: identifier, line A[35:6], priority, when it was accepted (`up`), and whether it waits on the partial
write-queue entry of its line (R285). -/
structure MRead where
  id : Nat
  line : Nat
  prio : Nat
  since : Nat
  waits : Bool
  deriving DecidableEq, Repr

/-- A read whose column command was issued: the line as it stood then, and whether a write to the line was accepted since. -/
structure MIss where
  req : MRead
  line : DLine
  stale : Bool
  deriving DecidableEq, Repr

/-- An entry of the write queue (R284, R285): line, mask, data, when it was opened, and the masked writes to acknowledge. -/
structure MWrite where
  line : Nat
  mask : BitVec 64
  data : BitVec 512
  since : Nat
  acks : List Nat
  deriving DecidableEq, Repr

/-- An answer of a controller (R284): status 0 OK, 1 CORRECTED, 2 UNCORRECTABLE, 3 DOMAIN_OFF. -/
structure MAns where
  id : Nat
  write : Bool
  status : Nat
  data : BitVec 512
  deriving DecidableEq, Repr

/-- A DDR5 controller behind its registers. -/
structure McSt where
  fit : Option Fit := none
  reads : List MRead := []
  writes : List MWrite := []
  issued : List MIss := []
  /-- write drain: 0 none, 1 in force, 2 begun on an empty read queue (R286) -/
  drain : Nat := 0
  /-- open rows: bank key to row plus 1 -/
  rows : Tab Nat := []
  /-- ranks with a refresh forced (R288) -/
  forced : List Nat := []
  /-- last mode register 4 value of each rank (R287) -/
  mr4 : Tab Nat := []
  /-- ranks with a ZQ calibration due at their next refresh, as a mask (R288) -/
  zq : Nat := 0
  /-- corrected lines waiting to be written back (R293) -/
  wb : List (Nat × BitVec 512) := []
  /-- PHY writes held until the next refresh (R297) -/
  phy : List (Nat × Word) := []
  out : List MAns := []
  /-- a mode register access is pending (R296) -/
  mr : Bool := false
  /-- when the patrol's pass began, moved on by the time spent in self-refresh; and when self-refresh began (R294) -/
  passStart : Nat := 0
  srAt : Nat := 0
  /-- the channel PLL is stopped for STANDBY (R292) -/
  standby : Bool := false
  deriving DecidableEq, Repr

/-! ### Memory security (11) -/

/-- A granule table entry (R311): its fields, the bits of its stored 13-bit codeword that were inverted since it was written, data in
[7:0], and whether it was found uncorrectable and waits to be restored (R329). -/
structure Gran where
  owner : Nat := 0x1F
  init : Bool := false
  locked : Bool := false
  flip : BitVec 13 := 0
  bad : Bool := false
  deriving DecidableEq, Repr

/-- A write of the granule table that waits for the engine's work on its granule (R312): `OWNER` and `LOCKED` where it sets them, whether
it clears `INIT`, and whether it restores an uncorrectable entry. -/
structure GranWrite where
  g : Nat
  own : Option (Nat × Bool)
  zero : Bool
  restore : Bool
  deriving DecidableEq, Repr

/-- An entry of the counter cache (R324), with the inverted bits of each byte's codeword, as in `Gran`. -/
structure CacheEnt where
  data : BitVec 512
  dirty : Bool
  flips : Tab (BitVec 13)
  deriving DecidableEq, Repr

/-- A root entry (R321). -/
structure RootEnt where
  e : Bool := true
  ctr : Nat := 0
  deriving DecidableEq, Repr

/-- The memory security engine behind its registers: key, granule table, counter cache (key 2^24 level + index), root, the
requests held behind zero-fills (by granule), re-keys (by page) and the reset in progress, and the partitions being zeroized. -/
structure SecSt where
  key : Option (BitVec 256) := none
  gran : Tab Gran := []
  cache : Tab (Option CacheEnt) := []
  root : Tab RootEnt := []
  fills : Tab (List Packet) := []
  rekeys : Tab (List Packet) := []
  reset : Option (Nat × Nat) := none
  held : List Packet := []
  zeroizing : List Nat := []
  /-- table writes that wait (R312) -/
  writes : List GranWrite := []
  deriving DecidableEq, Repr

/-! ### Lanes and the bight (12) -/

/-- A word of the fabric interface (12 R341): its slots, and the timestamp of the first start in it, where it has one (R362). -/
structure LWord where
  data : BitVec 512 := 0
  hdr : BitVec 16 := 0
  ts : Option Nat := none
  deriving DecidableEq, Repr

/-- A lane behind its registers: its `LINK_SET` settings, timestamps and words crossing. -/
structure LaneSt where
  enabled : Bool := false
  fec : Nat := 0
  adv : Nat := 0
  rate : Nat := 0
  /-- received words waiting in the crossing FIFO (R342) -/
  rx : List LWord := []
  /-- words taken from the fabric and not yet sent, the last word that the lane sent, and how far the line is into the next one, in
  10^-6 bits -/
  txq : List (BitVec 512 × BitVec 16) := []
  tx : BitVec 512 × BitVec 16 := (0, 0)
  txPhase : Nat := 0
  /-- the word presented, and `RX_VALID` -/
  rxNow : LWord := {}
  rxValid : Bool := false
  /-- the transmit timestamp presented, and `TX_TSV` -/
  txTs : Nat := 0
  txTsv : Bool := false
  /-- timestamps of requested starts not yet returned -/
  tsq : List Nat := []
  /-- rate injection runs; bits inverted by injection -/
  inj : Bool := false
  flips : Nat := 0
  /-- bits that go by before rate injection inverts the next (R358) -/
  injLeft : Nat := 0
  /-- `up` plus 1 when the wait of R353 began -/
  waitAt : Nat := 0
  /-- how far the line of a test is into the next bit, in 10^-6 bits, and the error-free bits that the checker has seen (R357) -/
  chkPhase : Nat := 0
  chkRun : Nat := 0
  taps : Tab Nat := []
  /-- since when `EYE_H` has been below 10, plus 1 -/
  eyeLow : Nat := 0
  deriving DecidableEq, Repr

/-- A quad: power state coded as 08 R248 (a hub quad is governed by its controller), and its copy of the time (R361). -/
structure QuadSt where
  pst : Nat := 3
  time : TimSt := {}
  /-- `up` plus 1 when RUN, or an enable of one of its lanes, was asked for last (15 R457) -/
  wakeAt : Nat := 0
  /-- `up` at the last marker (R361) -/
  markAt : Nat := 0
  deriving DecidableEq, Repr

/-- The bight node (R366 to R370): receive queue and the frame waiting to be inserted, each with its port (B true). -/
structure BightSt where
  rx : List (Bool × List Byte) := []
  tx : Option (Bool × List Byte) := none
  /-- for each port, 0 where its lane has not been lost since it was first up, else from when it may be released again (R368) -/
  readyA : Nat := 0
  readyB : Nat := 0
  deriving DecidableEq, Repr

/-! ### JTAG, PCIe and load ports (13, 14, 17) -/

/-- The TAP (17 R525 to R528): whether the bypass of 12 R372 is open, the instruction, the boundary-scan register and the cells
last captured. -/
structure TapSt where
  on : Bool := false
  ir : Nat := 0x009
  bsr : BitVec 4878 := 0
  cap : BitVec 4878 := 0
  dr : Word := 0
  deriving DecidableEq, Repr

/-- A PCIe physical function: its MSI-X table words and pending bits (13 R386, R387). -/
structure FnSt where
  table : Tab Word := []
  pba : Nat := 0
  deriving DecidableEq, Repr

/-- A PCIe controller: `PERSTn_N` is asserted, it was configured in phase C, it failed step 0x25. -/
structure PcieSt where
  perst : Bool := true
  up : Bool := false
  failed : Bool := false
  deriving DecidableEq, Repr

/-! ### The machine -/

/-- The machine. -/
structure State where
  /-- every register field of the spec's tables (Machine/Regs.lean), keyed by 8 times its CSR address plus its lowest bit;
  an unlisted field reads as its reset value -/
  csr : Tab Nat := []
  /-- what the device set or counted since the last idle nanosecond, field by field: what a clear sampled in the same cycle
  leaves (00 R532; the model's own bookkeeping, notes/assumptions/10.md) -/
  fresh : Tab Nat := []
  /-- commands waiting, first in, first out -/
  pending : List Instr := []
  rsp : Rsp := {}
  /-- counter of free values (the model's own) -/
  free : Nat := 0
  isl : Tab IslSt := []
  hitch : Tab HitchSt := []
  /-- spine lines, key 8 d + n (03 R73) -/
  spine : Tab ClkSt := []
  bram : Tab BramSt := []
  /-- latest port accesses, key 2 * block key + port (04 R113) -/
  recent : Tab (Option BramRec) := []
  eng : Tab EngSt := []
  eis : Tab EisSt := []
  tim : TimSt := {}
  /-- configuration memory, by frame address (14 R402) -/
  frames : Tab Frame := []
  /-- flip-flops of running islands: key 64 * (800 * island + tile) + 16 * cluster + 2 * cell + n, 1 where Q is 1 (02 R54) -/
  ff : Tab Nat := []
  load : Option LoadSt := none
  pwr : PowerSt := {}
  fuses : Fuses := {}
  flash : FlashSt := {}
  boot : BootSt := {}
  /-- scrubber position of each die: next frame 0 to 95,999, and the start of its lap in microseconds (14 R432) -/
  csPos : Tab Nat := []
  csStart : Tab Nat := []
  mb : Tab MbSt := []
  plan : List PartRec := []
  parts : Tab PartSt := []
  sessions : List Session := []
  nextSession : Nat := 1
  alarms : List Alarm := []
  nextAlarm : Nat := 0
  alarmLost : Bool := false
  lostSeq : Nat := 0
  /-- nanoseconds of the timing clock since supplies valid (the model's own clock for durations) -/
  up : Nat := 0
  /-- packets in the network, in the order sent -/
  net : List Packet := []
  /-- where each packet of `net` stood at the last NoC cycle, and the arbiters of the outputs (08 R229 to R232) -/
  way : List (Packet × HopSt) := []
  outs : Tab OutSt := []
  nic : Tab NicSt := []
  noc : Tab NocSt := []
  hw : Tab HwSt := []
  /-- dies that have fenced themselves (09 R272) -/
  selfFenced : List Nat := []
  /-- `up` plus 1 when a frame of die d was written last: the scrubber uses no cycle in which one is (14 R432), key d -/
  frameAt : Tab Nat := []
  dram : Tab DLine := []
  mc : Tab McSt := []
  sec : SecSt := {}
  lane : Tab LaneSt := []
  quad : Tab QuadSt := []
  bight : BightSt := {}
  tap : TapSt := {}
  fns : Tab FnSt := []
  pcie : Tab PcieSt := []
  /-- MSI-X messages sent: function 8 c + f and vector -/
  msi : List (Nat × Nat) := []
  /-- image bytes taken by a load port and not yet read as records -/
  port : List Byte := []
  deriving DecidableEq, Repr

/-- The machine right after reset: no rail is up, every register at its Reset column, the queue empty. -/
def State.reset : State := {}

end Sys2Proof.Machine
end

