-- ==== Sys2Proof/Machine/Ops.lean ====
section
/-! DEFINITION. Named operations over the state: register fields, window addresses (01 R35), counters, the answer port. -/

namespace Sys2Proof.Machine

abbrev Out := Host.Outcome State Fault Refusal

/-! ### Window bases (01 R35) -/

def dieBase (d : Nat) : Nat := 0x1000000 * (d + 1)
def islBase (n : Nat) : Nat := dieBase (n / 48) + 0x100000 + 0x1000 * (n % 48)
def eisBase (n : Nat) : Nat := dieBase (n / 10) + 0x400000 + 0x10000 * (n % 10)
def engBase (n : Nat) : Nat := eisBase (n / 16) + 0x1000 + 0x800 * (n % 16)
/-- Quad 0 to 31 is Fd.Qq with 4d + q, 32 to 39 is H.Qq. -/
def quadBase (q : Nat) : Nat :=
  if q < 32 then dieBase (q / 4) + 0x800000 + 0x10000 * (q % 4) else 0x380000 + 0x10000 * (q - 32)
def laneBase (q l : Nat) : Nat := quadBase q + 0x1000 + 0x1000 * l
def hwBase (d n : Nat) : Nat := dieBase d + 0xC00000 + 0x1000 * n
def mbBase (n : Nat) : Nat := 0x10000 + 0x100 * n
def mcBase (n : Nat) : Nat := 0x100000 + 0x10000 * n
def secBase : Nat := 0x200000
def pcieBase (c k : Nat) : Nat := 0x300000 + 0x40000 * c + 0x100 * k
def timBase : Nat := 0x400000
def pwrBase : Nat := 0x500000
def cfgBase : Nat := 0x600000

/-- Numbers of islands, engine islands and engines across the device. -/
def islId (d : Fin 8) (i : Fin 48) : Nat := d.val * 48 + i.val
def eisId (d : Fin 8) (e : Fin 10) : Nat := d.val * 10 + e.val
def engId (g : Eng) : Nat := (eisId g.d g.e) * 16 + g.k.val
def eisOfEng (n : Nat) : Nat := n / 16
def dieOfIsl (n : Nat) : Nat := n / 48
def dieOfEis (n : Nat) : Nat := n / 10
/-- Base of the margin registers' window of a clock domain (07 R201). -/
def clkBase : ClkDom → Nat
  | .island d i => islBase (islId d i)
  | .engines d e => eisBase (eisId d e)

/-! ### Register fields -/

/-- The key of a field of the window at `base`. -/
def fkey (base : Nat) (f : Fld) : Nat := (base + f.off) * 8 + f.lo

/-- A field's value. -/
def fget (s : State) (base : Nat) (f : Fld) : Nat := tget f.rst s.csr (fkey base f)

/-- Set a field, reduced to its width; a clear sampled in the same cycle leaves this value (00 R532). -/
def fset (s : State) (base : Nat) (f : Fld) (v : Nat) : State :=
  { s with csr := tset f.rst s.csr (fkey base f) (v % 2 ^ f.wd), fresh := tset f.rst s.fresh (fkey base f) (v % 2 ^ f.wd) }

/-- What the device set the field to since the cycle began: its reset value where it set nothing. -/
def ffresh (s : State) (base : Nat) (f : Fld) : Nat := tget f.rst s.fresh (fkey base f)
/-- A clear acts first, and what the device set or counted in the same cycle then stands (00 R532). -/
def fclr (s : State) (base : Nat) (f : Fld) : State :=
  { s with csr := tset f.rst s.csr (fkey base f) (ffresh s base f) }

/-- A one-bit field as a Bool. -/
def fbit (s : State) (base : Nat) (f : Fld) : Bool := fget s base f != 0

/-- Set or clear a one-bit field. -/
def fflag (s : State) (base : Nat) (f : Fld) (b : Bool) : State := fset s base f (if b then 1 else 0)

/-- Set a field to `v`, where a clear sampled in the same cycle leaves `w`. -/
def fset2 (s : State) (base : Nat) (f : Fld) (v w : Nat) : State :=
  { fset s base f v with fresh := tset f.rst s.fresh (fkey base f) (w % 2 ^ f.wd) }

/-- Add `n` to a counter that stops at its maximum; a clear sampled in the same cycle leaves what this cycle counted. -/
def faddSat (s : State) (base : Nat) (f : Fld) (n : Nat) : State :=
  fset2 s base f (min (fget s base f + n) (2 ^ f.wd - 1)) (min (ffresh s base f + n) (2 ^ f.wd - 1))

/-- Increment a counter that stops at its maximum. -/
def finc (s : State) (base : Nat) (f : Fld) : State := faddSat s base f 1

/-- Add 1 modulo the counter's width. -/
def fincWrap (s : State) (base : Nat) (f : Fld) : State := fset s base f (fget s base f + 1)

/-- A number with bit `i` set to `b`. -/
def natBit (v i : Nat) (b : Bool) : Nat := if b then v ||| 2 ^ i else v - (v &&& 2 ^ i)
/-- Bit `i` of a field set to `b`. -/
def fsetBit (s : State) (base : Nat) (f : Fld) (i : Nat) (b : Bool) : State :=
  fset2 s base f (natBit (fget s base f) i b) (natBit (ffresh s base f) i b)

/-- Return every listed field of a window to its reset value. -/
def freset (s : State) (base : Nat) : List Fld → State
  | [] => s
  | f :: t => freset (fset s base f f.rst) base t

/-- Return every field of the addresses from `lo` to `hi - 1` to its reset value: a reset of the block. -/
def csrClear (s : State) (lo hi : Nat) : State :=
  { s with csr := tclear s.csr (lo * 8) (hi * 8), fresh := tclear s.fresh (lo * 8) (hi * 8) }

/-- A clear of every field of the addresses from `lo` to `hi - 1`, which acts before what the same cycle set or counted (00 R532). -/
def csrWipe (s : State) (lo hi : Nat) : State :=
  let kept := s.fresh.filter (fun p => decide (lo * 8 ≤ p.1) && decide (p.1 < hi * 8))
  { s with csr := kept.foldr (fun p t => tins p (tdel t p.1)) (tclear s.csr (lo * 8) (hi * 8)) }
/-- A clear of the listed fields of a window, likewise. -/
def fwipe (s : State) (base : Nat) (l : List Fld) : State := l.foldl (fun s f => fclr s base f) s

/-- The word that a read of the fields `fs` gives: write-only fields read 0 (00 R6). -/
def readFields (s : State) (base : Nat) (fs : List Fld) : Word :=
  fs.foldl (fun w f => if f.ty = .wo then w else w ||| (BitVec.ofNat 32 (fget s base f) <<< f.lo)) 0

/-- The bits of a written word that fall into field `f`. -/
def wfield (f : Fld) (v : Word) : Nat := (v.toNat >>> f.lo) % 2 ^ f.wd

/-- `PROT_LOCK` (13 R391). -/
def protLocked (s : State) : Bool := fbit s 0 Reg.Hub.PROT_LOCK

/-- RWL fields take a write: before the lock, and in the cycle that sets it (16 R492). -/
def rwlOpen (s : State) : Bool := !protLocked s || s.boot.lockAt == s.up + 1

/-- A write of the word `v` to one field by its type (00 R6, R7). -/
def writeField (s : State) (base : Nat) (f : Fld) (v : Word) : State :=
  match f.ty with
  | .rw => fset s base f (wfield f v)
  | .rwl => if rwlOpen s then fset s base f (wfield f v) else s
  | .w1c =>
    let x := fget s base f
    { s with csr := tset f.rst s.csr (fkey base f) ((x - (x &&& wfield f v)) ||| (x &&& ffresh s base f)) }
  | .w1s => fset s base f (fget s base f ||| wfield f v)
  | .ro => s
  | .wo => s

/-- A write of a whole register. -/
def writeFields (s : State) (base : Nat) (fs : List Fld) (v : Word) : State :=
  fs.foldl (fun s f => writeField s base f v) s

/-! ### Answers -/

def answer (s : State) (r : Resp) (v : Word) : State := { s with rsp := ⟨r, v, []⟩ }
def answerBytes (s : State) (r : Resp) (b : List Byte) : State := { s with rsp := ⟨r, 0, b⟩ }

/-! ### Stored state of the units -/

def islGet (s : State) (n : Nat) : IslSt := tget {} s.isl n
def islUpd (s : State) (n : Nat) (f : IslSt → IslSt) : State := { s with isl := tmod {} s.isl n f }
def engGet (s : State) (n : Nat) : EngSt := tget {} s.eng n
def engUpd (s : State) (n : Nat) (f : EngSt → EngSt) : State := { s with eng := tmod {} s.eng n f }
def engSet (s : State) (n : Nat) (e : EngSt) : State := { s with eng := tset {} s.eng n e }
def eisGet (s : State) (n : Nat) : EisSt := tget {} s.eis n
def eisUpd (s : State) (n : Nat) (f : EisSt → EisSt) : State := { s with eis := tmod {} s.eis n f }
/-- Key of block memory n of island i. -/
def bramKey (i n : Nat) : Nat := i * 64 + n
def bramGet (s : State) (k : Nat) : BramSt := tget {} s.bram k
def bramSet (s : State) (k : Nat) (b : BramSt) : State := { s with bram := tset {} s.bram k b }
def mbGet (s : State) (n : Nat) : MbSt := tget {} s.mb n
def mbUpd (s : State) (n : Nat) (f : MbSt → MbSt) : State := { s with mb := tmod {} s.mb n f }
def partGet (s : State) (p : Nat) : PartSt := tget {} s.parts p
def partUpd (s : State) (p : Nat) (f : PartSt → PartSt) : State := { s with parts := tmod {} s.parts p f }
def planGet (s : State) (p : Nat) : PartRec := s.plan.getD p {}

/-- Take a free word. -/
def freeWord (s : State) : BitVec 32 × State := (Config.freeWord s.free, { s with free := s.free + 1 })

/-- Microseconds of the model's own clock since supplies valid. -/
def upUs (s : State) : Nat := s.up / 1000

def nicGet (s : State) (n : Nat) : NicSt := tget {} s.nic n
def nicUpd (s : State) (n : Nat) (f : NicSt → NicSt) : State := { s with nic := tmod {} s.nic n f }
def nocGet (s : State) (n : Nat) : NocSt := tget {} s.noc n
def nocUpd (s : State) (n : Nat) (f : NocSt → NocSt) : State := { s with noc := tmod {} s.noc n f }
def hwGet (s : State) (n : Nat) : HwSt := tget {} s.hw n
def hwUpd (s : State) (n : Nat) (f : HwSt → HwSt) : State := { s with hw := tmod {} s.hw n f }
def mcGet (s : State) (n : Nat) : McSt := tget {} s.mc n
def mcUpd (s : State) (n : Nat) (f : McSt → McSt) : State := { s with mc := tmod {} s.mc n f }
def laneGet (s : State) (n : Nat) : LaneSt := tget {} s.lane n
def laneUpd (s : State) (n : Nat) (f : LaneSt → LaneSt) : State := { s with lane := tmod {} s.lane n f }
def quadGet (s : State) (q : Nat) : QuadSt := tget {} s.quad q
def quadUpd (s : State) (q : Nat) (f : QuadSt → QuadSt) : State := { s with quad := tmod {} s.quad q f }
def fnGet (s : State) (n : Nat) : FnSt := tget {} s.fns n
def fnUpd (s : State) (n : Nat) (f : FnSt → FnSt) : State := { s with fns := tmod {} s.fns n f }
def pcieGet (s : State) (c : Nat) : PcieSt := tget {} s.pcie c
def pcieUpd (s : State) (c : Nat) (f : PcieSt → PcieSt) : State := { s with pcie := tmod {} s.pcie c f }
def secUpd (s : State) (f : SecSt → SecSt) : State := { s with sec := f s.sec }
def granGet (s : State) (g : Nat) : Gran := tget {} s.sec.gran g
def granSet (s : State) (g : Nat) (x : Gran) : State := secUpd s (fun e => { e with gran := tset {} e.gran g x })

/-! ### Fences and fixed properties -/

/-- Die d is fenced (01 R45). -/
def fenced (s : State) (d : Nat) : Bool := (fget s 0 Reg.Hub.DIES_FENCED).testBit d
/-- Die d was discovered in phase B. -/
def present (s : State) (d : Nat) : Bool := (fget s 0 Reg.Hub.DIES_PRESENT).testBit d
/-- Feature level in force. -/
def featureLevel (s : State) : Nat := fget s 0 Reg.Hub.FL

end Sys2Proof.Machine
end

