-- ==== Sys2Proof/Machine/Fabric.lean ====
section
/-! DEFINITION. The fabric: cells, carry, flip-flops and routing (02 R46 to R62), one-hot selects (R63 to R67), the placement of
every configuration field in frames (14 R401 to R406) and the per-frame checks of the frame verifier (14 R413). -/

namespace Sys2Proof.Machine

/-! ### Cells -/

/-- `O6` (R46): bit 0 of `ins` is `I0`, the most significant index bit. -/
def lutO6 (init : BitVec 64) (i0 i1 i2 i3 i4 i5 : Bool) : Bool :=
  init.getLsbD (32 * i0.toNat + 16 * i1.toNat + 8 * i2.toNat + 4 * i3.toNat + 2 * i4.toNat + i5.toNat)
/-- `O5` (R46): the function `O6` would give with `I0` = 1. -/
def lutO5 (init : BitVec 64) (i1 i2 i3 i4 i5 : Bool) : Bool := lutO6 init true i1 i2 i3 i4 i5
/-- `SUM` and `CO` of a carry stage (R49). -/
def carryStage (p g ci : Bool) : Bool × Bool := (xor p ci, if p then ci else g)
/-- The position a select connects: the single set bit, else nothing (R63, R66). -/
def selected (w sel : Nat) : Option Nat :=
  match (List.range w).filter (fun t => sel.testBit t) with
  | [t] => some t
  | _ => none
/-- The output of a one-hot multiplexer: the source of its single set position, else 0 (R63, R66). The single glitch that R66 allows while
a select changes is never shown (DESIGN CHOICE, notes/assumptions/51.md). -/
def muxOut (w sel : Nat) (src : Nat → Bool) : Bool :=
  match selected w sel with
  | some t => src t
  | none => false
/-- Control signals of a flip-flop at one instant, after inversion (R52, R53). -/
structure FfCtl where
  hold : Bool
  edge : Bool
  ce : Bool
  sr : Bool
  srSync : Bool
  srCe : Bool
  deriving DecidableEq, Repr
/-- Next Q of a flip-flop: the first row of R54 that applies. An asynchronous `SR` that de-asserts inside the recovery-to-removal window
leaves what the rows give at the edge, though R55 allows either value (DESIGN CHOICE, notes/assumptions/51.md). -/
def ffNext (c : FfCtl) (initQ srval d q : Bool) : Bool :=
  if c.hold then initQ
  else if !c.srSync && c.sr then srval
  else if c.edge && c.srSync && c.sr && (!c.srCe || c.ce) then srval
  else if c.edge && c.ce then d
  else q

/-! ### Geometry -/

/-- Length of origin wire k' (R58). -/
def wireLen (k : Nat) : Nat := if k < 12 then 1 else if k < 18 then 2 else if k < 22 then 4 else 12
/-- The tile at distance n from T(c,r) in direction d (0 north, 1 east, 2 south, 3 west), inside the island. -/
def tileAt (c r d n : Nat) : Option (Nat × Nat) :=
  match d with
  | 0 => if r + n < 40 then some (c, r + n) else none
  | 1 => if c + n < 20 then some (c + n, r) else none
  | 2 => if n ≤ r then some (c, r - n) else none
  | _ => if n ≤ c then some (c - n, r) else none
def opposite (d : Nat) : Nat := (d + 2) % 4
/-- Origin wire k' in direction d of T(c,r) is built (R59). -/
def wireBuilt (c r d k : Nat) : Bool := (tileAt c r d (wireLen k)).isSome
/-- Distance from the origin at which readable wire k is read (R60), and its origin wire number. -/
def readDist (k : Nat) : Nat := if k < 24 then wireLen k else if k < 26 then 4 else 8
def readOrigin (k : Nat) : Nat := if k < 24 then k else if k < 26 then k - 2 else k - 4
/-- Readable wire w = 28 d + k exists in T(c,r) (R60). -/
def wireReadable (c r w : Nat) : Bool :=
  let d := w / 28; let k := w % 28
  match tileAt c r (opposite d) (readDist k) with
  | some o => wireBuilt o.1 o.2 d (readOrigin k)
  | none => false
/-- Readable wire at position t of the driver multiplexer of wire k' in direction d (R61). -/
def wmuxWire (d k t : Nat) : Nat := (28 * d + 5 * k + 13 * (t - 4) + 3) % 112
/-- Tile output at positions 0 to 3 of that multiplexer (R61). -/
def wmuxOut (d k t : Nat) : Nat := (32 * t + 8 * d + k) % 128
/-- Readable wire at positions 7 to 11 of the cluster input multiplexer (R62). -/
def imuxWire (K j t : Nat) : Nat := (3 * j + 23 * (t - 7) + 7 * K) % 112
/-- Mask of absent source positions. -/
def absentMask (ts : List Nat) (present : Nat → Bool) : Nat := ((ts.filter (fun t => !present t)).map (2 ^ ·)).sum
/-- The island of the same die across an edge (01 R18; 0 N, 1 E, 2 S, 3 W). -/
def islNbr (i e : Nat) : Option Nat :=
  match e with
  | 0 => if 8 ≤ i then some (i - 8) else none
  | 1 => if i % 8 < 7 then some (i + 1) else none
  | 2 => if i < 40 then some (i + 8) else none
  | _ => if 0 < i % 8 then some (i - 1) else none
def edgeNat : Edge → Nat
  | .north => 0
  | .east => 1
  | .south => 2
  | .west => 3
/-- Position along the edge and cluster of hitch k (03 R88). -/
def hitchPos (e k : Nat) : Nat := if e % 2 = 0 then 5 * k / 6 else 5 * k / 3
def hitchCluster (e k : Nat) : Nat := if e % 2 = 0 then k % 2 else 2
/-- T(c,r) is the attach tile of hitch k of edge e. -/
def hitchTile (c r e k : Nat) : Bool :=
  match e with
  | 0 => r == 39 && c == hitchPos e k
  | 1 => c == 19 && r == hitchPos e k
  | 2 => r == 0 && c == hitchPos e k
  | _ => c == 0 && r == hitchPos e k
/-- Islands that lanes attach to, and their tile row (12 R340). -/
def laneRow (i : Nat) : Option Nat := if i = 6 ∨ i = 7 then some 39 else if i = 46 ∨ i = 47 then some 0 else none
/-- The attach tile of user I/O j of an island with a bank (17 R521). -/
def uioTile (i j : Nat) : Option (Nat × Nat) :=
  if i = 3 then some (4 + j, 39)
  else if i = 15 ∨ i = 23 ∨ i = 31 ∨ i = 39 then some (19, 3 * j + 2)
  else if i = 43 then some (4 + j, 0)
  else none
def hasUio (i : Nat) : Bool := (uioTile i 0).isSome
/-- Cluster input j of cluster K in T(c,r) of island i has a landing signal (03 R88; 04 R106; 08 R240; 12 R340; 17 R522). -/
def hasLanding (i c r K j : Nat) : Bool :=
  ((List.range 4).any (fun e => (islNbr i e).isSome && j < 38 &&
    (List.range 24).any (fun k => hitchTile c r e k && hitchCluster e k == K))) ||
  (K == 3 && c % 4 == 3 && decide (j < 20)) ||
  (K == 3 && c == 0 && ((r == 9 || r == 39) && j == 4 || decide (10 ≤ r) && decide (r < 30) && decide (14 * (r % 10) + j < 130) && decide (j < 14))) ||
  (match laneRow i with
    | some lr => r == lr && decide (j < 64) && decide (K < 3) && decide (192 * (c % 5) + 64 * K + j < 661)
    | none => false) ||
  (K == 0 && j == 0 && (List.range 12).any (fun n => uioTile i n == some (c, r)))

/-! ### Placement of fields in frames (14 R403 to R405) -/

/-- A field of a frame range: lowest bit in the range, width, whether it is a select, and its absent positions. -/
structure CF where
  o : Nat
  w : Nat
  sel : Bool
  absent : Nat
  deriving DecidableEq, Repr

/-- Fields of one cluster of a tile, at bit `b`. -/
def clusterFields (c r K b : Nat) : List CF :=
  (List.range 8).flatMap (fun x =>
    let a := b + 82 * x
    [⟨a, 64, false, 0⟩, ⟨a + 64, 2, true, 0⟩, ⟨a + 66, 2, true, 0⟩, ⟨a + 68, 2, true, 0⟩, ⟨a + 70, 3, true, 0⟩,
      ⟨a + 73, 3, true, 0⟩, ⟨a + 76, 6, false, 0⟩]) ++
  (List.range 68).map (fun j =>
    ⟨b + 656 + 12 * j, 12, true, absentMask [7, 8, 9, 10, 11] (fun t => wireReadable c r (imuxWire K j t))⟩) ++
  [⟨b + 1472, 3, true, if K = 0 ∧ r = 0 then 1 else 0⟩, ⟨b + 1475, 4, true, 0⟩, ⟨b + 1479, 5, false, 0⟩,
    ⟨b + 1484, 4, true, 0⟩, ⟨b + 1488, 5, false, 0⟩]

/-- Fields of the tile record of T(c,r) of island i, at bit `b` (R403); a slot of a wire not built or of an input without a
landing is reserved, so it is no field. -/
def tileFields (i c r b : Nat) : List CF :=
  (List.range 4).flatMap (fun K => clusterFields c r K (b + 1493 * K)) ++
  (List.range 4).flatMap (fun d => ((List.range 24).filter (wireBuilt c r d)).map (fun k =>
    ⟨b + 5972 + 12 * (24 * d + k), 12, true,
      absentMask [4, 5, 6, 7, 8, 9, 10, 11] (fun t => wireReadable c r (wmuxWire d k t))⟩)) ++
  (List.range 4).flatMap (fun K => ((List.range 68).filter (hasLanding i c r K)).map (fun j =>
    ⟨b + 7124 + 2 * (68 * K + j), 2, true, 0⟩))

/-- Fields of a block memory record at bit `b` (R405). -/
def bramFields (b : Nat) : List CF :=
  [⟨b, 17, false, 0⟩, ⟨b + 17, 4, true, 0⟩, ⟨b + 21, 4, true, 0⟩] ++
  (List.range 116).map (fun s => ⟨b + 25 + 4 * s, 4, true, 0⟩)

/-- Frame ranges: first frame and frame count of the record that a frame belongs to. -/
def frameRange (f : Nat) : Nat × Nat :=
  if f < 1500 then (f / 15 * 15, 15)
  else if f < 1950 then (f, 1)
  else if f < 1957 then (1950, 7)
  else if 1965 ≤ f ∧ f < 1968 then (1965, 3)
  else (f, 1)

/-- Absent `SRC` positions of a tree of island i: 15, and 11 to 14 without a neighbour (03 R76). -/
def srcAbsent (i : Nat) : Nat := 2 ^ 15 + (((List.range 4).filter (fun e => (islNbr i e).isNone)).map (fun e => 2 ^ (11 + e))).sum

/-- The fields of the record that frame f of island i belongs to; bit 0 is bit 0 of the range's first frame. -/
def rangeFields (i f : Nat) : List CF :=
  if f < 1500 then (List.range 8).flatMap (fun n =>
    let t := f / 15 * 8 + n
    tileFields i (t / 40) (t % 40) (7680 * n))
  else if f < 1950 then [⟨0, 4096, false, 0⟩]
  else if f < 1957 then (List.range 50).flatMap (fun n => bramFields (512 * n))
  else if 1960 ≤ f ∧ f < 1964 then
    if (islNbr i (f - 1960)).isSome then
      (List.range 24).flatMap (fun k => (List.range 38).map (fun s => (⟨152 * k + 4 * s, 4, true, 0⟩ : CF))) ++
        [⟨3648, 4, true, 0⟩, ⟨3652, 4, true, 0⟩]
    else []
  else if f = 1964 then
    (List.range 130).map (fun s => (⟨4 * s, 4, true, 0⟩ : CF)) ++ [⟨4 * 261, 4, true, 0⟩, ⟨4 * 392, 4, true, 0⟩] ++
      (List.range 130).map (fun s => (⟨4 * (393 + s), 4, true, 0⟩ : CF)) ++ [⟨4 * 524, 4, true, 0⟩]
  else if 1965 ≤ f ∧ f < 1968 then
    if (laneRow i).isSome then
      (List.range 2124).map (fun s => (⟨4 * s, 4, true, 0⟩ : CF)) ++ (List.range 4).map (fun l => (⟨8496 + 2 * l, 2, false, 0⟩ : CF))
    else []
  else if f = 1968 then
    [⟨0, 15, false, 0⟩] ++ (List.range 4).flatMap (fun x => [(⟨32 + 24 * x, 16, true, srcAbsent i⟩ : CF), ⟨48 + 24 * x, 8, false, 0⟩]) ++
      [⟨128, 8, true, 0⟩, ⟨136, 8, true, 0⟩]
  else if f = 1970 then if hasUio i then (List.range 12).map (fun j => (⟨4 * j, 4, false, 0⟩ : CF)) else []
  else if f = 1971 then [⟨0, 5, false, 0⟩]
  else []

/-- `len` bits from bit `o` of a range of frames read by `get` (frame index in the range). -/
def rangeBits (get : Nat → BitVec 4096) (o len : Nat) : Nat :=
  let f := o / 4096; let b := o % 4096
  let lo := (get f).toNat >>> b
  (if b + len ≤ 4096 then lo else lo + (get (f + 1)).toNat * 2 ^ (4096 - b)) % 2 ^ len

/-- The key of a frame in configuration memory (R402). -/
def frameKey (isl f : Nat) : Nat := (isl / 48) * 2 ^ 17 + (isl % 48) * 2 ^ 11 + f
def frameGet (s : State) (k : Nat) : Frame := tget {} s.frames k
def frameSet (s : State) (k : Nat) (x : Frame) : State := { s with frames := tset {} s.frames k x }
/-- A frame write, which the scrubber's next decode of the die waits out (R432). -/
def frameWrite (s : State) (k : Nat) (x : Frame) : State :=
  { frameSet s k x with frameAt := tset 0 s.frameAt (k / 2 ^ 17) (s.up + 1) }
/-- The hidden check bits of a frame (R401). -/
def posFrame : List Nat := secPositions 4109
def frameCheck (d : BitVec 4096) : BitVec 14 := BitVec.ofNat 14 (secCheck posFrame 13 d.toNat)
/-- Decode a frame (R401). -/
def frameDecode (x : Frame) : SecOut := secDecode posFrame 13 x.data.toNat x.chk.toNat

/-- `len` configuration bits of an island from bit `o` of the range that starts at frame `f0`. -/
def cfgBits (s : State) (isl f0 o len : Nat) : Nat := rangeBits (fun n => (frameGet s (frameKey isl (f0 + n))).data) o len

/-! ### Fields read by the machine -/

def cfgSpineSel (s : State) (n : Nat) : Nat := cfgBits s n 1968 0 3
def cfgGenMul (s : State) (n : Nat) : Nat := cfgBits s n 1968 3 6
def cfgGenDiv (s : State) (n : Nat) : Nat := cfgBits s n 1968 9 6
def cfgSrc (s : State) (n x : Nat) : Nat := cfgBits s n 1968 (32 + 24 * x) 16
def cfgDiv (s : State) (n x : Nat) : Nat := cfgBits s n 1968 (48 + 24 * x) 8
def cfgSpliceId (s : State) (n : Nat) : Nat := cfgBits s n 1971 0 4
def cfgSpliceRoot (s : State) (n : Nat) : Bool := cfgBits s n 1971 4 1 == 1
def cfgHtree (s : State) (n e : Nat) (rx : Bool) : Nat := cfgBits s n (1960 + e) (if rx then 3652 else 3648) 4
/-- Block memory fields (04 R107 to R119; 14 R405). -/
structure BramCfg where
  widthA : Nat
  widthB : Nat
  sdp : Bool
  ecc : Bool
  par : Bool
  rdwA : Nat
  rdwB : Nat
  doregA : Bool
  doregB : Bool
  cascade : Nat
  clkA : Nat
  clkB : Nat
  deriving DecidableEq, Repr
/-- Unpack the first 25 bits of a block memory record. -/
def bramCfgOf (v : Nat) : BramCfg :=
  let f (o w : Nat) : Nat := (v / 2 ^ o) % 2 ^ w
  ⟨f 0 3, f 3 3, f 6 1 == 1, f 7 1 == 1, f 8 1 == 1, f 9 2, f 11 2, f 13 1 == 1, f 14 1 == 1, f 15 2, f 17 4, f 21 4⟩
def cfgBram (s : State) (isl n : Nat) : BramCfg := bramCfgOf (cfgBits s isl 1950 (512 * n) 25)
/-- `INIT` bits of a block memory row (04 R121; 14 R404). -/
def cfgBramRow (s : State) (isl n r : Nat) : BitVec 36 := BitVec.ofNat 36 (cfgBits s isl (1500 + 9 * n) (36 * r) 36)
/-- A tile's configuration bits from record bit `o`. -/
def cfgTile (s : State) (isl t o len : Nat) : Nat := cfgBits s isl (t / 8 * 15) (7680 * (t % 8) + o) len

/-! ### Flip-flops (02 R54) -/

/-- Flip-flop f (2 c + n) of cluster K belongs to control set x. -/
def ffSet (s : State) (n t K f : Nat) : Bool := cfgTile s n t (1493 * K + 82 * (f / 2) + 76 + f % 2) 1 == 1
def ffInit (s : State) (n t K f : Nat) : Bool := cfgTile s n t (1493 * K + 82 * (f / 2) + 78 + f % 2) 1 == 1
def ffSrval (s : State) (n t K f : Nat) : Bool := cfgTile s n t (1493 * K + 82 * (f / 2) + 80 + f % 2) 1 == 1
def ffKey (n t K f : Nat) : Nat := 64 * (800 * n + t) + 16 * K + f
/-- Q of a flip-flop: `INIT_Qn` while its island is held. -/
def ffQ (s : State) (n t K f : Nat) : Bool :=
  if (tget {} s.isl n).hold then ffInit s n t K f else tget 0 s.ff (ffKey n t K f) == 1
def ffPut (s : State) (n t K f : Nat) (q : Bool) : State := { s with ff := tset 0 s.ff (ffKey n t K f) q.toNat }
/-- The tiles of island n whose frames are not all zero: the others are inert (R65). Eight tiles of a column share 15 frames. -/
def activeTiles (s : State) (n : Nat) : List Nat :=
  ((List.range 100).filter (fun g =>
    s.frames.any (fun p => p.1 / 2 ^ 11 == frameKey n 0 / 2 ^ 11 && p.1 % 2 ^ 11 / 15 == g && p.2.data != 0))).flatMap
    (fun g => (List.range 8).map (fun t => 8 * g + t))
/-- The flip-flops of one tile: cluster and number. -/
def tileFfs : List (Nat × Nat) := (List.range 4).flatMap (fun K => (List.range 16).map (fun f => (K, f)))
/-- At the release of the hold every flip-flop holds its `INIT_Qn`. -/
def ffLoad (s : State) (n : Nat) : State :=
  (activeTiles s n).foldl (fun s t => tileFfs.foldl (fun s x => if ffInit s n t x.1 x.2 then ffPut s n t x.1 x.2 true else s) s) s

/-! ### Splices (03 R91 to R93) -/

/-- Members of the splice that island n belongs to: the islands of its die with the same nonzero `SPLICE_ID`. -/
def spliceMembers (s : State) (n : Nat) : List Nat :=
  let id := cfgSpliceId s n
  if id = 0 then [n] else (List.range 48).map (fun i => n / 48 * 48 + i) |>.filter (fun m => cfgSpliceId s m == id)
/-- The root of an island's splice: the member with the lowest number; the island itself when not spliced. -/
def spliceRoot (s : State) (n : Nat) : Nat := (spliceMembers s n).headD n
def spliced (s : State) (n : Nat) : Bool := cfgSpliceId s n != 0
/-- Two islands are members of one splice. -/
def sameSplice (s : State) (m n : Nat) : Bool := spliced s m && spliceMembers s m == spliceMembers s n && m / 48 == n / 48
/-- A set of islands of one die is connected through shared edges (R91). -/
def reach (ms : List Nat) : Nat → List Nat → List Nat
  | 0, seen => seen
  | k + 1, seen => reach ms k (ms.filter (fun m => seen.contains m || (List.range 4).any (fun e =>
      match islNbr (m % 48) e with
      | some b => seen.contains (m / 48 * 48 + b)
      | none => false)))
def connected (ms : List Nat) : Bool :=
  match ms with
  | [] => true
  | m :: _ => (reach ms 12 [m]).length == ms.length

/-! ### The frame verifier: checks 10 to 13 of 14 R413 -/

/-- A select is legal (02 R64): at most one bit set, none at an absent position. -/
def selLegal (w v absent : Nat) : Bool :=
  decide (((List.range w).filter (fun t => v.testBit t)).length ≤ 1) && v &&& absent == 0

/-- The range around a frame with the new data in place of the stored frame. -/
def withFrame (s : State) (isl f : Nat) (d : BitVec 4096) (n : Nat) : BitVec 4096 :=
  if (frameRange f).1 + n = f then d else (frameGet s (frameKey isl ((frameRange f).1 + n))).data

/-- Fields of the record that touch frame f. -/
def touching (f : Nat) (fs : List CF) : List CF :=
  let b := 4096 * (f - (frameRange f).1)
  fs.filter (fun x => x.o < b + 4096 && b < x.o + x.w)

/-- Check 10, `ILLEGAL_SELECT`: every select field with a bit in the frame is legal. -/
def selectsOk (s : State) (isl f : Nat) (d : BitVec 4096) : Bool :=
  (touching f (rangeFields (isl % 48) f)).all (fun x => !x.sel || selLegal x.w (rangeBits (withFrame s isl f d) x.o x.w) x.absent)

/-- The bits of frame f that some field uses. -/
def usedMask (isl f : Nat) : Nat :=
  let b := 4096 * (f - (frameRange f).1)
  (touching f (rangeFields (isl % 48) f)).foldl (fun m x =>
    m ||| ((if b ≤ x.o then (2 ^ x.w - 1) * 2 ^ (x.o - b) else (2 ^ x.w - 1) / 2 ^ (b - x.o)) % 2 ^ 4096)) 0

/-- Check 11, `RESERVED_BIT` (14 R406). -/
def reservedOk (isl f : Nat) (d : BitVec 4096) : Bool := d.toNat &&& usedMask isl f == d.toNat

/-- A block memory's modes are legal by themselves (04 R118). -/
def bramModeOk (c : BramCfg) : Bool :=
  c.widthA != 7 && c.widthB != 7 && (c.sdp == (c.widthA == 6)) && (c.sdp == (c.widthB == 6)) &&
  (!c.ecc || (c.sdp && c.doregB)) && c.rdwA != 3 && c.rdwB != 3 && c.cascade != 3

/-- Blocks n and n + 1 pair as 04 R112 requires. -/
def pairOk (lo hi : BramCfg) : Bool :=
  lo.cascade == 1 && hi.cascade == 2 && lo.widthA == hi.widthA && lo.widthB == hi.widthB && lo.sdp == hi.sdp &&
  lo.ecc == hi.ecc && lo.par == hi.par && lo.rdwA == hi.rdwA && lo.rdwB == hi.rdwB && lo.doregA == hi.doregA && lo.doregB == hi.doregB

/-- Check 12, `BRAM_MODE_ILLEGAL`, on the blocks whose records touch the frame. A block's record lies in one frame, and a
pair's two records in one frame. -/
def bramsOk (s : State) (isl f : Nat) (d : BitVec 4096) : Bool :=
  if 1950 ≤ f ∧ f < 1957 then
    let c (n : Nat) : BramCfg := bramCfgOf (rangeBits (withFrame s isl f d) (512 * n) 25)
    ((List.range 50).filter (fun n => n / 8 + 1950 == f)).all (fun n =>
      bramModeOk (c n) && (match (c n).cascade with
        | 0 => true
        | 1 => n % 2 == 0 && pairOk (c n) (c (n + 1))
        | _ => n % 2 == 1 && pairOk (c (n - 1)) (c n)))
  else true

/-- Check 13, `CLEAT_ILLEGAL`: no cleat field holds 0b11. -/
def cleatsOk (f : Nat) (d : BitVec 4096) : Bool :=
  f != 1970 || (List.range 24).all (fun n => (d.toNat / 4 ^ n) % 4 != 3)

/-- Check 14, `PARTIAL_STATIC`: a partial image leaves the static frames as they are. -/
def staticOk (s : State) (isl f : Nat) (d : BitVec 4096) (partialImage : Bool) : Bool :=
  !partialImage || !(f == 1970 || f == 1971) || d == (frameGet s (frameKey isl f)).data

/-- The first of checks 10 to 14 that fails: its order and code. -/
def frameChecks (s : State) (isl f : Nat) (d : BitVec 4096) (partialImage : Bool) : Option (Nat × Nat) :=
  if !selectsOk s isl f d then some (10, 0x0A)
  else if !reservedOk isl f d then some (11, 0x0B)
  else if !bramsOk s isl f d then some (12, 0x0C)
  else if !cleatsOk f d then some (13, 0x0D)
  else if !staticOk s isl f d partialImage then some (14, 0x0E)
  else none

/-- An `SRC` of tree x of island n selects an edge that faces another member of its splice (03 R92, R93). -/
def srcFacesMember (s : State) (n src : Nat) : Bool :=
  (List.range 4).any (fun e => src.testBit (11 + e) && (match islNbr (n % 48) e with
    | some b => sameSplice s n (n / 48 * 48 + b)
    | none => false))

/-- A frame bit lies in a select field (02 R69). -/
def isSelectBit (isl f b : Nat) : Bool :=
  let a := 4096 * (f - (frameRange f).1) + b
  (rangeFields (isl % 48) f).any (fun x => x.sel && decide (x.o ≤ a) && decide (a < x.o + x.w))

end Sys2Proof.Machine
end

