-- ==== Sys2Proof/Machine/Flags.lean ====
section
/-! DEFINITION. Flag computations of the signal engines: `st` bits (05 R143) and the flags of slot A (06 R178). -/

namespace Sys2Proof.Machine

namespace St
def Z : Word := 0x001
def N : Word := 0x002
def C : Word := 0x004
def V : Word := 0x008
def SAT : Word := 0x010
def AOV : Word := 0x020
def AERR : Word := 0x040
def ILLS : Word := 0x080
def RCLIP : Word := 0x100
def EOV : Word := 0x200
/-- The RW fields of `st` (R143): bits 0 to 11, 16 to 21, 24 to 31. -/
def RW : Word := 0xFF3F0FFF
end St

/-- A bit of a status word. -/
def stBit (st m : Word) : Bool := st &&& m != 0

/-- `m` where `b` holds, else 0. -/
def when (b : Bool) (m : Word) : Word := if b then m else 0

/-- `Z` and `N` of a result (R178). -/
def flagsZN (r : Word) : Word := when (r == 0) St.Z ||| when (r.getLsbD 31) St.N

/-- Signed overflow: the exact result lies outside the 32-bit range (R178). -/
def overflow32 (x : Int) : Bool := decide (x < -2147483648) || decide (2147483647 < x)

/-- Flags of `add.w` (R178). -/
def flagsAdd (a b : Word) : Word :=
  flagsZN (a + b) ||| when (decide (2 ^ 32 ≤ a.toNat + b.toNat)) St.C ||| when (overflow32 (a.toInt + b.toInt)) St.V

/-- Flags of `sub.w` and `cmp.w` (R178): C is no borrow. -/
def flagsSub (a b : Word) : Word :=
  flagsZN (a - b) ||| when (decide (b.toNat ≤ a.toNat)) St.C ||| when (overflow32 (a.toInt - b.toInt)) St.V

/-- sat16 (R177). -/
def sat16 (x : Int) : BitVec 16 := if x < -32768 then 0x8000 else if 32767 < x then 0x7FFF else BitVec.ofInt 16 x
/-- sat16 clips. -/
def clips16 (x : Int) : Bool := decide (x < -32768) || decide (32767 < x)
/-- sat32 (R177). -/
def sat32 (x : Int) : Word := if x < -2147483648 then 0x80000000 else if 2147483647 < x then 0x7FFFFFFF else BitVec.ofInt 32 x

/-- The exact value lies outside 48 bits: the accumulator wraps and AOV is set (05 R155). -/
def wraps48 (x : Int) : Bool := decide (x < -(2 ^ 47)) || decide (2 ^ 47 ≤ x)

/-- The bit length of 05 R166. -/
def bitLen (v : Int) : Nat := if v = 0 then 0 else v.natAbs.log2 + 1

/-- Conditions of `b.cc` (06 R186). -/
def condHolds (c : BitVec 4) (st : Word) : Bool :=
  let z := stBit st St.Z; let n := stBit st St.N; let cy := stBit st St.C; let v := stBit st St.V
  match c.toNat with
  | 0 => true
  | 1 => z
  | 2 => !z
  | 3 => n
  | 4 => !n
  | 5 => cy
  | 6 => !cy
  | 7 => v
  | 8 => !v
  | 9 => n != v
  | 10 => n == v
  | 11 => !z && n == v
  | _ => z || n != v

end Sys2Proof.Machine
end

