-- ==== Sys2Proof/Machine/Operands.lean ====
section
/-! DEFINITION. Operand forms of the signal engines: registers and their conversions (06 R174, R175), lanes, accumulators,
the address forms of slot B (05 R151, 06 R183), products exact and truncated (05 R153, R164). -/

namespace Sys2Proof.Machine

/-- Keep the lowest `n` bits. -/
def lowBits (n : Nat) (v : Word) : Word := BitVec.ofNat 32 (v.toNat % 2 ^ n)
/-- Sign-extend the lowest `n` bits of a word. -/
def sextBits (n : Nat) (v : Word) : Word :=
  if v.getLsbD (n - 1) then lowBits n v - BitVec.ofNat 32 (2 ^ n) else lowBits n v

/-- The value that register `n` holds after `v` is written to it, in reading form (R175); `ipend` is apart. -/
def convReg (n : Nat) (v : Word) : Word :=
  if n < 16 then v
  else if n < 24 then lowBits 20 v
  else if n < 32 then sextBits 20 v
  else if n < 48 then lowBits 20 v
  else if n = 48 then lowBits 16 v
  else if n = 49 then v &&& St.RW
  else if n = 50 ∨ n = 51 then lowBits 10 v
  else if n = 53 then lowBits 3 v
  else v

/-- The bank in use. -/
def bankOf (e : EngSt) (shadow : Bool) : Bank := if shadow then e.shadow else e.main
/-- Replace a bank. -/
def setBank (e : EngSt) (shadow : Bool) (b : Bank) : EngSt := if shadow then { e with shadow := b } else { e with main := b }

/-- Read register `n` as a 32-bit value (R175); `st` shows the bank in bit 12. -/
def regRead (e : EngSt) (shadow : Bool) (n : Nat) : Word :=
  if n < 49 then tget 0 (bankOf e shadow).r n
  else if n = 49 then tget 0 (bankOf e shadow).r 49 ||| when shadow 0x1000
  else tget 0 e.ctl n

/-- Write register `n` from a 32-bit value (R175): a write of 1 clears a bit of `ipend`. -/
def regWrite (e : EngSt) (shadow : Bool) (n : Nat) (v : Word) : EngSt :=
  if n < 50 then
    let b := bankOf e shadow
    setBank e shadow { b with r := tset 0 b.r n (convReg n v) }
  else if n = 52 then { e with ctl := tset 0 e.ctl 52 (tget 0 e.ctl 52 &&& ~~~v) }
  else { e with ctl := tset 0 e.ctl n (convReg n v) }

/-- Read an accumulator. -/
def accRead (e : EngSt) (shadow : Bool) (n : Nat) : Acc := tget {} (bankOf e shadow).acc n
/-- Write an accumulator. -/
def accWrite (e : EngSt) (shadow : Bool) (n : Nat) (v : Acc) : EngSt :=
  let b := bankOf e shadow
  setBank e shadow { b with acc := tset {} b.acc n v }

/-- Operands of the bundle being issued. -/
def xr (e : EngSt) (n : BitVec 4) : Word := regRead e e.bank n.toNat
def stOf (e : EngSt) : Word := tget 0 (bankOf e e.bank).r 49
def ac (e : EngSt) (n : BitVec 2) : Acc := accRead e e.bank n.toNat

/-- Lanes of a word (05 R142). -/
def reOf (v : Word) : BitVec 16 := v.setWidth 16
def imOf (v : Word) : BitVec 16 := (v >>> 16).setWidth 16
def packW (re im : BitVec 16) : Word := re.setWidth 32 ||| (im.setWidth 32 <<< 16)

/-- The omitted sum of the truncated array (05 R164). -/
def truncOmega (a b : BitVec 16) : Nat :=
  ((List.range 12).map (fun i => ((List.range (12 - i)).map (fun j =>
    if a.getLsbD i && b.getLsbD j then 2 ^ (i + j) else 0)).sum)).sum

/-- A 16 x 16 product, exact or in the TRUNC mode (05 R153, R164). -/
def mul16 (trunc : Bool) (a b : BitVec 16) : Int :=
  if trunc then a.toInt * b.toInt - truncOmega a b + 22528 else a.toInt * b.toInt

/-- The complex product, or with the second operand conjugated (05 R153, 06 R177). -/
def cprod (trunc conjT : Bool) (x y : Word) : Int × Int :=
  let a := reOf x; let b := imOf x; let c := reOf y; let d := imOf y
  if conjT then (mul16 trunc a c + mul16 trunc b d, mul16 trunc b c - mul16 trunc a d)
  else (mul16 trunc a c - mul16 trunc b d, mul16 trunc a d + mul16 trunc b c)

/-- The two lane products of the real forms (06 R177). -/
def rprod (trunc : Bool) (x y : Word) : Int × Int := (mul16 trunc (reOf x) (reOf y), mul16 trunc (imOf x) (imOf y))

/-- The updated address (05 R151). -/
def addrUpdate (a b l : Nat) (m : Int) : Nat :=
  if l = 0 then (((a : Int) + m) % 2 ^ 20).toNat
  else (((b : Int) + (((a : Int) - b + m) % l)) % 2 ^ 20).toNat

/-- A slot B memory form is legal: unused MOD bits are 0 (R173, R183). -/
def mdLegal (mode : BitVec 2) (md : BitVec 15) : Bool := mode.getLsbD 0 || md.setWidth 12 == 0

/-- The modify of a memory form: a register m or the signed immediate (R183). -/
def modOf (e : EngSt) (mode : BitVec 2) (md : BitVec 15) : Int :=
  if mode.getLsbD 0 then md.toInt else (regRead e e.bank (24 + (md >>> 12).toNat)).toInt

/-- `a_new` of address register ai. -/
def aNew (e : EngSt) (ai : BitVec 3) (mode : BitVec 2) (md : BitVec 15) : Nat :=
  addrUpdate (regRead e e.bank (16 + ai.toNat)).toNat (regRead e e.bank (32 + ai.toNat)).toNat
    (regRead e e.bank (40 + ai.toNat)).toNat (modOf e mode md)

/-- The access address of a memory form (R183), aligned down to `w` bytes (05 R134). -/
def accAddr (e : EngSt) (ai : BitVec 3) (mode : BitVec 2) (md : BitVec 15) (w : Nat) : Nat :=
  let a := if mode.getLsbD 1 then aNew e ai mode md else (regRead e e.bank (16 + ai.toNat)).toNat
  a - a % w

/-- The update a memory form makes: none in the offset modes. -/
def aUpdate (e : EngSt) (ai : BitVec 3) (mode : BitVec 2) (md : BitVec 15) : List (Nat × ResW) :=
  if mode.getLsbD 1 then [] else [(1, .reg (16 + ai.toNat) (BitVec.ofNat 32 (aNew e ai mode md)))]

end Sys2Proof.Machine
end

