-- ==== Sys2Proof/Machine/EngCore.lean ====
section
/-! DEFINITION. Shared operations of the signal engines: memory with its codes, the engine address space, staging, how a run
ends, issue of one bundle and the end of one cycle (05 R133 to R163, 06 R182, 07 R206 to R218). -/

namespace Sys2Proof.Machine

/-- Engine states (R131). -/
def engState (s : State) (n : Nat) : Nat := fget s (engBase n) Reg.Eng.STATE
def setEngState (s : State) (n v : Nat) : State := fset s (engBase n) Reg.Eng.STATE v

/-- An address lies in the engine's persistent region (07 R206). -/
def inPers (s : State) (n a : Nat) : Bool :=
  let b := fget s (engBase n) Reg.Eng.PERS_BASE
  decide (b ≤ a) && decide (a < b + fget s (engBase n) Reg.Eng.PERS_LEN)

/-- Write one byte of data memory through the engine port, with its check bits: a waiting write-back of the byte is dropped (R140),
and an external write of the same cycle is lost (R136). -/
def dmByte (e : EngSt) (a : Nat) (b : Byte) : EngSt :=
  { e with dm := tset 0 e.dm (a % 32768) (encByte b), wbs := e.wbs.filter (fun w => !(w.1 == false && w.2.1 == a % 32768))
           old := e.old.filter (fun p => p.1 != a % 32768) }

/-- Write the bytes of a list from an address on. -/
def dmBytes (e : EngSt) (a : Nat) : List Byte → EngSt
  | [] => e
  | b :: t => dmBytes (dmByte e a b) (a + 1) t

/-- Write one codeword of data memory through the external port: the engine's loads of this cycle still read the codeword before it
(R136). -/
def dmExt (e : EngSt) (a : Nat) (c : BitVec 13) : EngSt :=
  { e with dm := tset 0 e.dm (a % 32768) c, wbs := e.wbs.filter (fun w => !(w.1 == false && w.2.1 == a % 32768))
           old := if e.old.any (fun p => p.1 == a % 32768) then e.old else (a % 32768, tget 0 e.dm (a % 32768)) :: e.old }

/-- Write the bytes of a list through the external port. -/
def dmExts (e : EngSt) (a : Nat) : List Byte → EngSt
  | [] => e
  | b :: t => dmExts (dmExt e a (encByte b)) (a + 1) t

/-- The codeword that the engine port reads in this cycle (R136). -/
def dmCode (e : EngSt) (a : Nat) : BitVec 13 :=
  match e.old.find? (fun p => p.1 == a % 32768) with
  | some p => p.2
  | none => tget 0 e.dm (a % 32768)

/-- Record an engine memory error (R169). -/
def engRecord (s : State) (n : Nat) (pm dbe : Bool) (a : Nat) : State :=
  let b := engBase n
  fflag (fflag (fflag (fset s b Reg.Eng.ERR_ADDR a) b Reg.Eng.ERR_MEM pm) b Reg.Eng.ERR_DBE dbe) b Reg.Eng.ERR_VALID true

/-- The byte of a staged store that covers address `a`, the latest first. -/
def overlayByte : List StEnt → Nat → Option Byte
  | [], _ => none
  | .store a w v :: t, i => if a ≤ i ∧ i < a + w then some (BitVec.ofNat 8 (v.toNat >>> (8 * (i - a)))) else overlayByte t i
  | .msg _ _ :: t, i => overlayByte t i

/-- One data memory byte as the engine reads it: the overlay of the persistent region (07 R213), else the codeword. -/
def dmRead (s : State) (n a : Nat) : SecOut :=
  let e := engGet s n
  let o := if inPers s n a then overlayByte ((e.released ++ e.staged).reverse) a else none
  match o with
  | some b => ⟨b.toNat, false, false⟩
  | none => decByte (dmCode e a)

/-- Read `w` bytes from data memory with the effects of R140: the write-backs of corrected codewords, the counts of this one
read and the record. Answers the bytes and whether one is uncorrectable. -/
def dmReadAcc (s : State) (n a w : Nat) : List Byte × Bool × State :=
  let outs := (List.range w).map (fun i => (a + i, dmRead s n (a + i)))
  let sb := outs.filter (fun p => p.2.sbe)
  let db := outs.filter (fun p => p.2.dbe)
  let s := engUpd s n (fun e => { e with wbs := e.wbs ++ sb.map (fun p => (false, p.1 % 32768, encByte (BitVec.ofNat 8 p.2.data))) })
  let s := if sb.isEmpty then s else finc s (engBase n) Reg.Eng.DM_SBE_CNT
  let s := sb.foldl (fun s p => engRecord s n false false p.1) s
  let s := if db.isEmpty then s else finc s (engBase n) Reg.Eng.DM_DBE_CNT
  let s := db.foldl (fun s p => engRecord s n false true p.1) s
  (outs.map (fun p => BitVec.ofNat 8 p.2.data), !db.isEmpty, s)

/-- Entries a staged write uses (07 R210). -/
def stSize : StEnt → Nat
  | .store _ _ _ => 1
  | .msg v _ => 1 + (((v.toNat >>> 16) % 128) + 15) / 16

/-- Entries in use, released ones included. -/
def stUsed (e : EngSt) : Nat := ((e.released ++ e.staged).map stSize).sum

/-- A staged write enters the buffer (07 R209 to R211): discarded in overflow or when it does not fit, and when no run is in
progress (R218). -/
def stageEnter (s : State) (n : Nat) (x : StEnt) : State :=
  if engState s n ≠ 2 then s
  else engUpd s n (fun e =>
    if e.ovf then e
    else if 256 < stUsed e + stSize x then { e with ovf := true }
    else { e with staged := e.staged ++ [x] })

/-- The release of `commit` (07 R211, R212). -/
def commitRelease (s : State) (n : Nat) : State :=
  let e := engGet s n
  if engState s n ≠ 2 then s
  else if e.ovf then finc (engSet s n { e with staged := [], ovf := false }) (engBase n) Reg.Eng.COMMIT_DROP
  else if e.staged.isEmpty then s
  else finc (engSet s n { e with staged := [], released := e.released ++ e.staged }) (engBase n) Reg.Eng.COMMITS

/-- Discard the uncommitted entries; overflow ends (07 R211). -/
def stageDiscard (e : EngSt) : EngSt := { e with staged := [], ovf := false }

/-- A store at the end of its second cycle (R148): data memory, `MSG_OUT`, `IN_POP`, or the staging buffer. -/
def applyStore (s : State) (n : Nat) (r : Res) : State :=
  match r.w with
  | .store a w v =>
    if a < 0x8000 then
      if inPers s n a then stageEnter s n (.store a w v)
      else engUpd s n (fun e => dmBytes e a (natLe v.toNat w))
    else if a < 0x8040 then
      engUpd s n (fun e =>
        let m := (List.range w).foldl (fun t i => tset 0 t (a - 0x8000 + i) (BitVec.ofNat 8 (v.toNat >>> (8 * i)))) e.msgOut
        { e with msgOut := m })
    else if a = 0x80C8 then engUpd s n (fun e => { e with inbox := e.inbox.drop 1 })
    else if 0x80000 ≤ a then stageEnter s n (.store a w v)
    else s
  | .send v p => stageEnter s n (.msg v p)
  | .commit => commitRelease s n
  | _ => s

/-- A retiring uncorrectable load. -/
def isDbe (r : Res) : Bool :=
  match r.w with
  | .dbe _ => true
  | _ => false

/-- A result that enters the staging buffer or releases it. -/
def isStaging (s : State) (n : Nat) (r : Res) : Bool :=
  match r.w with
  | .store a _ _ => inPers s n a || decide (0x80000 ≤ a)
  | .send _ _ => true
  | .commit => true
  | _ => false

/-- A load in flight meets an uncorrectable byte, or will when it reads memory at the end of this cycle (R140; 07 R218). -/
def dbeAhead (s : State) (n : Nat) : Bool :=
  let e := engGet s n
  let t := (e.fly.filter (fun r => decide (r.left ≤ 1) && !isStaging s n r)).foldl (fun s r => applyStore s n r) s
  e.fly.any (fun r => isDbe r || match r.w with
    | .load _ a w => decide (a < 0x8000) && (List.range w).any (fun i => (dmRead t n (a + i)).dbe)
    | _ => false)

/-- A `commit` of the cycle in which a run is halted stands (07 R218): the staged writes due at the end of the cycle enter, and their
entries are released. -/
def flushCommit (s : State) (n : Nat) : State :=
  let e := engGet s n
  let due (r : Res) : Bool := decide (r.left ≤ 1) && isStaging s n r
  if e.fly.any (fun r => decide (r.left ≤ 1) && r.w == .commit) then
    (e.fly.filter due).foldl (fun s r => applyStore s n r) (engSet s n { e with fly := e.fly.filter (fun r => !due r) })
  else s

/-- End a run into `STOPPED` (07 R217): `LAST_END` is 0 `done`, 1 deadline, 3 tick loss, 4 partition stop. A fault in flight decides
the end of the run instead, and nothing is counted (R218). -/
def endRun (s : State) (n cause : Nat) : State :=
  let e := engGet s n
  let b := engBase n
  let dropped := !e.staged.isEmpty
  let faults := dbeAhead s n
  let s := engSet s n { stageDiscard e with flow := .seq, bank := false, afterRet := false, starting := 0 }
  let s := setEngState s n 1
  if faults then s else
  let s := fset s b Reg.Eng.LAST_END cause
  if cause = 0 then
    let s := fset s b Reg.Eng.DONE_TICKS (min e.runTicks 0xFFFF)
    if dropped then finc s b Reg.Eng.DONE_DROP else s
  else if cause = 1 ∨ cause = 3 then finc s b Reg.Eng.OVERRUN
  else s

/-- The engine has issued `done` (R218). -/
def doneIssued (e : EngSt) : Bool :=
  match e.flow with
  | .slots _ .stop => true
  | _ => false

/-- Halt a run for a deadline, tick loss or partition stop: a `commit` of this cycle stands, and a run whose `done` has issued ends as
`done` does (07 R218). A run whose frame is being read ends too. -/
def haltRun (s : State) (n cause : Nat) : State :=
  let e := engGet s n
  if engState s n ≠ 2 ∧ e.starting = 0 then s
  else endRun (flushCommit s n) n (if engState s n = 2 ∧ doneIssued e then 0 else cause)

/-- Enter `FAULT` (R131): cause 1 `PM_DBE`, 2 `DM_DBE`, 3 `ILLEGAL_OP`. The run ends with `LAST_END` 2. -/
def engFault (s : State) (n cause pc : Nat) : State :=
  let b := engBase n
  let s := engUpd s n (fun e => { stageDiscard e with flow := .seq, starting := 0 })
  let s := setEngState s n 3
  fset (fset (fset s b Reg.Eng.FAULT_CAUSE cause) b Reg.Eng.FAULT_PC pc) b Reg.Eng.LAST_END 2

/-! ### Issue -/

/-- The engine can issue a bundle: it is `RUNNING`, not past the delay slots of a return or `done`, and none has issued in this
cycle (R130). -/
def canIssue (s : State) (n : Nat) : Bool :=
  engState s n == 2 && decide ((engGet s n).half < 2) && (match (engGet s n).flow with
    | .slots 0 _ => false
    | _ => true)

/-- Queue results of slot A of the bundle being issued. -/
def putA (e : EngSt) (ws : List (Nat × ResW)) : EngSt :=
  { e with fly := e.fly ++ ws.map (fun w => ⟨w.1, e.bank, e.seq, w.2⟩) }

/-- Queue results of slot B: before those of slot A of the same bundle, so that slot A stands under R147. -/
def putB (e : EngSt) (ws : List (Nat × ResW)) : EngSt :=
  { e with fly := e.fly.filter (fun r => r.seq != e.seq) ++ ws.map (fun w => ⟨w.1, e.bank, e.seq, w.2⟩) ++
      e.fly.filter (fun r => r.seq == e.seq) }

/-- The bundle at the program counter is refused (R131, R173): neither slot executes. -/
def illegalBundle (s : State) (n : Nat) : State :=
  let e := engGet s n
  engFault (engSet s n { e with fly := e.fly.filter (fun r => r.seq != e.seq) }) n 3 e.pc

/-- Slot A of the bundle at the program counter: its results, or the refusal of the bundle. -/
def slotA (g : Eng) (legal : Bool) (f : EngSt → List (Nat × ResW)) (s : State) : State :=
  let n := engId g
  if canIssue s n && (engGet s n).half == 0 then
    if legal then engUpd s n (fun e => { putA e (f e) with half := 1 }) else illegalBundle s n
  else s

/-- Program counter and flow after the bundle at the program counter has issued (R149, R157). -/
def advanceFlow (e : EngSt) : EngSt :=
  let nxt := (e.pc + 1) % 1024
  match e.flow with
  | .seq => { e with pc := nxt }
  | .slots 1 .seq => { e with pc := nxt, flow := .seq }
  | .slots 1 (.goto t) => { e with pc := t, flow := .seq }
  | .slots 1 a => { e with pc := nxt, flow := .slots 0 a }
  | .slots k a => { e with pc := nxt, flow := .slots (k - 1) a }
  | .rep k => if k ≤ 1 then { e with pc := nxt, flow := .seq } else { e with flow := .rep (k - 1) }

/-- The bundle has issued: its index and bank are shown, and no other issues in this cycle. -/
def bundleDone (s : State) (n pc : Nat) (bank : Bool) : State :=
  let s := engUpd s n (fun e => { e with seq := e.seq + 1, afterRet := e.afterRet && bank, half := 2 })
  fflag (fset s (engBase n) Reg.Eng.PC_NOW pc) (engBase n) Reg.Eng.BANK bank

/-- Slot B of the bundle at the program counter, for an operation that is no control transfer. -/
def slotB (g : Eng) (legal : Bool) (f : EngSt → List (Nat × ResW)) (s : State) : State :=
  let n := engId g
  if canIssue s n then
    if legal then
      let e := engGet s n
      bundleDone (engSet s n (advanceFlow (putB e (f e)))) n e.pc e.bank
    else illegalBundle s n
  else s

/-- A control transfer of slot B: ignored with `ILLS` in a delay slot or a repeated bundle (R150), else `f` gives its results
and the program counter and flow that follow the bundle. -/
def slotCT (g : Eng) (legal : Bool) (f : EngSt → List (Nat × ResW) × Nat × Flow) (s : State) : State :=
  let n := engId g
  if canIssue s n then
    if legal then
      let e := engGet s n
      if e.flow = .seq then
        let r := f e
        bundleDone (engSet s n { putB e r.1 with pc := r.2.1, flow := r.2.2 }) n e.pc e.bank
      else bundleDone (engSet s n (advanceFlow (putB e [(1, .sticky St.ILLS)]))) n e.pc e.bank
    else illegalBundle s n
  else s

/-! ### The end of a cycle -/

/-- Write a register result (06 R182). -/
def applyReg (pre e : EngSt) (r : Res) : EngSt :=
  match r.w with
  | .reg n v => regWrite e r.shadow n v
  | .lane n im v =>
    let old := regRead e r.shadow n
    regWrite e r.shadow n (if im then packW (reOf old) v else packW v (imOf old))
  | .stBits m v =>
    let old := tget 0 (bankOf e r.shadow).r 49
    regWrite e r.shadow 49 ((old &&& ~~~m) ||| (v &&& m))
  | .acc n v => accWrite e r.shadow n v
  | .mac n add re im =>
    let a := accRead pre r.shadow n
    let x := (if add then a.re.toInt else 0) + re
    let y := (if add then a.im.toInt else 0) + im
    accWrite e r.shadow n ⟨BitVec.ofInt 48 x, BitVec.ofInt 48 y⟩
  | _ => e

/-- The sticky setting a retiring result makes, after the writes of the cycle (R143). -/
def applySticky (pre e : EngSt) (r : Res) : EngSt :=
  let setM (m : Word) : EngSt := regWrite e r.shadow 49 (tget 0 (bankOf e r.shadow).r 49 ||| m)
  match r.w with
  | .sticky m => setM m
  | .mac n add re im =>
    let a := accRead pre r.shadow n
    if add && (wraps48 (a.re.toInt + re) || wraps48 (a.im.toInt + im)) then setM St.AOV else e
  | _ => e

/-- `STG_STATE` (07 R214). -/
def stgState (e : EngSt) : Nat :=
  stUsed e + (if e.ovf then 512 else 0) + (if e.released.isEmpty then 0 else 1024)

/-- A byte of the message at the head of the inbox. -/
def inboxByte (e : EngSt) (i : Nat) : Byte :=
  match e.inbox with
  | [] => 0
  | m :: _ => m.data.getD i 0

/-- `IN_HDR` (07 R214). -/
def inHdr (e : EngSt) : Nat :=
  match e.inbox with
  | [] => 0
  | m :: _ => m.die.toNat + 16 * m.node.toNat + 4096 * m.unit.toNat + 65536 * m.data.length + 2 ^ 24 * e.inbox.length

/-- `IN_TAG` (07 R214). -/
def inTag (e : EngSt) : Nat :=
  match e.inbox with
  | [] => 0
  | m :: _ => m.tag.toNat

/-- A word of the I/O page, `none` where the page has none to load at that width (07 R214). -/
def ioLoad (s : State) (n a w : Nat) : Option (List Byte) :=
  let e := engGet s n
  if 0x8000 ≤ a ∧ a < 0x8040 then some ((List.range w).map (fun i => tget 0 e.msgOut (a - 0x8000 + i)))
  else if 0x8080 ≤ a ∧ a < 0x80C0 then some ((List.range w).map (fun i => inboxByte e (a - 0x8080 + i)))
  else if w = 4 then
    if a = 0x8048 then some (natLe (stgState e) 4)
    else if a = 0x80C0 then some (natLe (inHdr e) 4)
    else if a = 0x80C4 then some (natLe (inTag e) 4)
    else if a = 0x8100 then some (natLe e.startUs.toNat 4)
    else if a = 0x8104 then some (natLe e.runIdx 4)
    else if a = 0x8108 then some (natLe (min e.ticksLeft 0xFFFF) 4)
    else none
  else none

/-- What a load's bytes write (06 R184). -/
def loadWrites (d : Dest) (bs : List Byte) : List ResW :=
  match d with
  | .lane n im => [.lane n im (BitVec.ofNat 16 (leNat bs))]
  | .sext n => [.reg n ((BitVec.ofNat 16 (leNat bs)).signExtend 32)]
  | .reg n => [.reg n (BitVec.ofNat 32 (leNat bs))]
  | .pair n => [.reg n (BitVec.ofNat 32 (leNat (bs.take 4))), .reg (n + 1) (BitVec.ofNat 32 (leNat (bs.drop 4)))]

/-- One result that has not retired passes a cycle; a load reads memory at the end of its issue cycle. -/
def passRes (n : Nat) (p : List Res × State) (r : Res) : List Res × State :=
  let s := p.2
  let keep (ws : List ResW) (s : State) : List Res × State := (p.1 ++ ws.map (fun w => { r with left := r.left - 1, w := w }), s)
  match r.w with
  | .load d a w =>
    if a < 0x8000 then
      let x := dmReadAcc s n a w
      keep (loadWrites d x.1 ++ (if x.2.1 then [.dbe (fget s (engBase n) Reg.Eng.PC_NOW)] else [])) x.2.2
    else
      match (if a < 0x9000 then ioLoad s n a w else none) with
      | some bs => keep (loadWrites d bs) s
      | none => keep (loadWrites d (List.replicate w 0) ++ [.sticky St.AERR]) s
  | w => keep [w] s

/-- Flow at the end of the cycle: a return enters the main bank, `done` ends the run (R162, R191). -/
def flowEnd (s : State) (n : Nat) : State :=
  let e := engGet s n
  match e.flow with
  | .slots 0 .ret => engSet s n { e with flow := .seq, bank := false, afterRet := true, pc := (tget 0 e.ctl 51).toNat % 1024 }
  | .slots 0 .stop => endRun s n 0
  | _ => s

/-- Load one bank from the frame bytes (07 R208). -/
def frameBank (fr : List Byte) (o : Nat) : Bank :=
  let w (a n : Nat) : Word := convReg n (BitVec.ofNat 32 (leAt fr (o + a) 4))
  let regs := (List.range 16).map (fun i => (i, w (4 * i) i)) ++
    (List.range 32).map (fun i => (16 + i, w (0x80 + 4 * i) (16 + i))) ++ [(48, w 0x100 48), (49, w 0x104 49)]
  { r := regs.foldl (fun t p => tset 0 t p.1 p.2) [],
    acc := (List.range 4).foldl (fun t i => tset {} t i
      ⟨BitVec.ofNat 48 (leAt fr (o + 0x40 + 16 * i) 8), BitVec.ofNat 48 (leAt fr (o + 0x48 + 16 * i) 8)⟩) [] }

/-- The frame has been read: both banks and the control registers take its values, and the engine runs (07 R207, R208). -/
def frameLoad (s : State) (n : Nat) : State :=
  let fr := (engGet s n).frame
  let c (n a : Nat) : Nat × Word := (n, convReg n (BitVec.ofNat 32 (leAt fr a 4)))
  let ctl (e : EngSt) : List (Nat × Word) :=
    [c 50 0x220, (51, 0), (52, if e.inbox.isEmpty then 0 else 2), c 53 0x224, c 54 0x228, c 55 0x22C]
  let s := engUpd s n (fun e => { e with
    main := frameBank fr 0, shadow := frameBank fr 0x110, fly := [],
    ctl := (ctl e).foldl (fun t p => tset 0 t p.1 p.2) [],
    bank := false, flow := .seq, afterRet := false, pc := fget s (engBase n) Reg.Eng.ENTRY, starting := 0, frame := [] })
  setEngState s n 2

/-- One cycle of the frame read (07 R207): 16 bytes in each of the 35 cycles after the start tick; an uncorrectable byte faults. -/
def frameStep (s : State) (n : Nat) : State :=
  let e := engGet s n
  let b := engBase n
  if e.starting = 0 then s
  else if 35 < e.starting then engSet s n { e with starting := 35 }
  else
    let r := dmReadAcc s n (fget s b Reg.Eng.FRAME_ADDR + 16 * (35 - e.starting)) 16
    let s := engUpd r.2.2 n (fun e => { e with frame := e.frame ++ r.1, starting := e.starting - 1 })
    if r.2.1 then engFault s n 2 (fget s b Reg.Eng.ENTRY)
    else if e.starting = 1 then frameLoad s n
    else s

/-- The timer in one cycle of a running engine (R159): `tcnt` decrements; where it reaches 0, bit 2 of `ipend` is set and `tload` is
loaded. TIMER_FIRE has done so where it came in this cycle. -/
def timerStep (e : EngSt) : EngSt :=
  let c := tget 0 e.ctl 54
  if e.fired || c == 0 then e
  else if c = 1 then { e with ctl := tset 0 e.ctl 54 (tget 0 e.ctl 55), pset := e.pset ||| 4 }
  else { e with ctl := tset 0 e.ctl 54 (c - 1) }

/-- The cycle is over: bits of `ipend` set in it stand against its clears, posted stores come a cycle nearer (R135 to R137, R159). -/
def cycleOver (e : EngSt) : EngSt :=
  { e with ctl := tset 0 e.ctl 52 (tget 0 e.ctl 52 ||| e.pset), pset := 0, half := 0, fired := false, old := [], used := []
           posted := e.posted.map (fun p => { p with left := p.left - 1 }) }

/-- The end of a cycle (R145 to R148, R182): the timer, then the results that retire: registers in issue order, then the hardware
settings of sticky bits, then memory; then the reads of the loads just issued, the fault of an uncorrectable load, the flow, and
the frame read. -/
def retire (s : State) (n : Nat) : State :=
  let pre := engGet s n
  let due := pre.fly.filter (fun r => r.left ≤ 1)
  let rest := pre.fly.filter (fun r => 1 < r.left)
  let e := if engState s n = 2 then timerStep pre else pre
  let e := due.foldl (applySticky pre) (due.foldl (applyReg pre) e)
  let s := engSet s n { e with fly := [] }
  let s := due.foldl (fun s r => applyStore s n r) s
  let p := rest.foldl (passRes n) ([], s)
  let s := engUpd p.2 n (fun e => { e with fly := p.1 })
  let s := if due.any isDbe then engFault s n 2 (fget s (engBase n) Reg.Eng.PC_NOW) else flowEnd s n
  engUpd (frameStep s n) n cycleOver

/-! ### The external port (R135) -/

/-- Banks of an access. -/
def banksOf (a w : Nat) : List Nat := (List.range ((w + 3) / 4)).map (fun i => (a / 4 + i) % 4)

/-- Banks at which a requester waits: 0 the DMC's raw access, 1 inbound messages, 2 the shared-window crossbar, 3 the engine's own
write-backs and drains, a write-back first. -/
def portWaits (s : State) (n r : Nat) : List Nat :=
  let e := engGet s n
  match r with
  | 0 => if fbit s (engBase n) Reg.Eng.RAW_BUSY then
      if fbit s (engBase n) Reg.Eng.RAW_MEM then [4] else banksOf (fget s (engBase n) Reg.Eng.RAW_ADDR) 1
    else []
  | 2 => match e.posted.find? (fun p => p.left == 0) with
    | some p => banksOf p.addr p.width
    | none => []
  | 3 => match e.wbs, e.released with
    | (true, _, _) :: _, _ => [4]
    | (false, a, _) :: _, _ => banksOf a 1
    | [], .store a w _ :: _ => if a < 0x8000 then banksOf a w else []
    | [], _ => []
  | _ => []

/-- How far requester r stands from its turn at a bank. -/
def portRank (e : EngSt) (b r : Nat) : Nat := (r + 4 - tget 0 e.turn b) % 4

/-- The external port serves requester r at these banks now: none has served in this cycle, and at the first of them no requester that
waits stands before it in the round robin. -/
def portServes (s : State) (n r : Nat) (bs : List Nat) : Bool :=
  let e := engGet s n
  bs.all (fun b => !e.used.contains b) &&
    (match bs with
      | [] => true
      | b :: _ => (List.range 4).all (fun q => q == r || !(portWaits s n q).contains b || decide (portRank e b r < portRank e b q)))

/-- The banks have served requester r in this cycle. -/
def portUsed (e : EngSt) (r : Nat) (bs : List Nat) : EngSt :=
  { e with used := e.used ++ bs, turn := bs.foldl (fun t b => tset 0 t b ((r + 1) % 4)) e.turn }

end Sys2Proof.Machine
end

