-- ==== Sys2Proof/Machine/EngineA.lean ====
section
/-! DEFINITION. The slot A operations of the signal engines (06 R176 to R182), in the order of R177. Each row issues its
operation in the bundle at the engine's program counter; the result retires under R145. -/

namespace Sys2Proof.Machine

/-- A word result into xD. -/
def resX (rd : BitVec 4) (v : Word) : List (Nat × ResW) := [(1, .reg rd.toNat v)]
/-- A word result with flags: the bits of `m` of `st` take `fl`. -/
def resXF (rd : BitVec 4) (v m fl : Word) : List (Nat × ResW) := [(1, .reg rd.toNat v), (1, .stBits m fl)]
/-- A sticky setting where `b` holds. -/
def stick (b : Bool) (m : Word) : List (Nat × ResW) := if b then [(1, .sticky m)] else []
/-- Z and N, leaving C and V. -/
def resZN (rd : BitVec 4) (v : Word) : List (Nat × ResW) := resXF rd v 0x003 (flagsZN v)
/-- Two saturated lanes. -/
def resSat (rd : BitVec 4) (re im : Int) : List (Nat × ResW) :=
  resX rd (packW (sat16 re) (sat16 im)) ++ stick (clips16 re || clips16 im) St.SAT
/-- An ALU result into an accumulator, wrapping with AOV (05 R155). -/
def resAcc (ad : BitVec 2) (re im : Int) : List (Nat × ResW) :=
  [(1, .acc ad.toNat ⟨BitVec.ofInt 48 re, BitVec.ofInt 48 im⟩)] ++ stick (wraps48 re || wraps48 im) St.AOV
/-- A multiply into an accumulator, latency 2. -/
def resMac (ad : BitVec 2) (add : Bool) (p : Int × Int) : List (Nat × ResW) := [(2, .mac ad.toNat add p.1 p.2)]
/-- The TRUNC mode as seen at issue (05 R164). -/
def truncOf (e : EngSt) : Bool := (stOf e).getLsbD 10
/-- Rounding right shift with floor, half up (05 R156). -/
def roundShift (v : Int) (sh : Nat) : Int := if sh = 0 then v else (v + 2 ^ (sh - 1)) / 2 ^ sh
/-- The normalising shift q of 06 R179. -/
def normShift (v : Int) : Nat := 47 - bitLen (if v < 0 then -v - 1 else v)
/-- BEXP and BE of `st`. -/
def bexpOf (e : EngSt) : Nat := ((stOf e) >>> 16).toNat % 64
def beOf (e : EngSt) : Int := (((stOf e) >>> 24).setWidth 8).toInt
/-- The shift e of a block (05 R166). -/
def blockE (e : EngSt) : Nat := bexpOf e - 15
/-- Truncated mantissa: sign(v) times floor(|v| / 2^e) (05 R166). -/
def mantissa (v : Int) (sh : Nat) : BitVec 16 := BitVec.ofInt 16 (v.sign * ((v.natAbs / 2 ^ sh : Nat) : Int))
/-- Close a block with the new exponent, clamped with EOV (05 R168). -/
def closeBlock (v : Int) : List (Nat × ResW) :=
  let c := if v < -128 then -128 else if 127 < v then 127 else v
  [(1, .stBits 0xFF3F0000 ((BitVec.ofInt 8 c).setWidth 32 <<< 24))] ++ stick (decide (c ≠ v)) St.EOV
/-- The operand magnitudes of `expx` and `bfscan`: an accumulator or the two lanes of a register. -/
def scanLen (e : EngSt) (rs : BitVec 4) (c : Bool) : Nat :=
  if c then max (bitLen (reOf (xr e rs)).toInt) (bitLen (imOf (xr e rs)).toInt)
  else
    let a := accRead e e.bank (rs.toNat % 4)
    max (bitLen a.re.toInt) (bitLen a.im.toInt)
/-- A component of an accumulator. -/
def comp (a : Acc) (c : Bool) : BitVec 48 := if c then a.im else a.re
/-- Engine feature: `bfxa` needs FL2. -/
def isFl2 (s : State) : Bool := featureLevel s == 2

def opSlotANop (g : Eng) : State → State := slotA g true (fun _ => [])
def opAddW (g : Eng) (rd rs rt : BitVec 4) : State → State :=
  slotA g true (fun e => resXF rd (xr e rs + xr e rt) 0x00F (flagsAdd (xr e rs) (xr e rt)))
def opSubW (g : Eng) (rd rs rt : BitVec 4) : State → State :=
  slotA g true (fun e => resXF rd (xr e rs - xr e rt) 0x00F (flagsSub (xr e rs) (xr e rt)))
def opCmpW (g : Eng) (rs rt : BitVec 4) : State → State :=
  slotA g true (fun e => [(1, .stBits 0x00F (flagsSub (xr e rs) (xr e rt)))])
def opAddH (g : Eng) (rd rs rt : BitVec 4) : State → State :=
  slotA g true (fun e => resX rd (packW (reOf (xr e rs) + reOf (xr e rt)) (imOf (xr e rs) + imOf (xr e rt))))
def opSubH (g : Eng) (rd rs rt : BitVec 4) : State → State :=
  slotA g true (fun e => resX rd (packW (reOf (xr e rs) - reOf (xr e rt)) (imOf (xr e rs) - imOf (xr e rt))))
def opAddsH (g : Eng) (rd rs rt : BitVec 4) : State → State :=
  slotA g true (fun e => resSat rd ((reOf (xr e rs)).toInt + (reOf (xr e rt)).toInt) ((imOf (xr e rs)).toInt + (imOf (xr e rt)).toInt))
def opSubsH (g : Eng) (rd rs rt : BitVec 4) : State → State :=
  slotA g true (fun e => resSat rd ((reOf (xr e rs)).toInt - (reOf (xr e rt)).toInt) ((imOf (xr e rs)).toInt - (imOf (xr e rt)).toInt))
def opAndW (g : Eng) (rd rs rt : BitVec 4) : State → State := slotA g true (fun e => resZN rd (xr e rs &&& xr e rt))
def opOrW (g : Eng) (rd rs rt : BitVec 4) : State → State := slotA g true (fun e => resZN rd (xr e rs ||| xr e rt))
def opXorW (g : Eng) (rd rs rt : BitVec 4) : State → State := slotA g true (fun e => resZN rd (xr e rs ^^^ xr e rt))
def opAndnW (g : Eng) (rd rs rt : BitVec 4) : State → State := slotA g true (fun e => resZN rd (xr e rs &&& ~~~(xr e rt)))
def opShlW (g : Eng) (rd rs : BitVec 4) (sh : BitVec 6) : State → State :=
  slotA g (sh.toNat ≤ 31) (fun e => resZN rd (xr e rs <<< sh.toNat))
def opShrW (g : Eng) (rd rs : BitVec 4) (sh : BitVec 6) : State → State :=
  slotA g (sh.toNat ≤ 31) (fun e => resZN rd (xr e rs >>> sh.toNat))
def opSraW (g : Eng) (rd rs : BitVec 4) (sh : BitVec 6) : State → State :=
  slotA g (sh.toNat ≤ 31) (fun e => resZN rd ((xr e rs).sshiftRight sh.toNat))
def opSraH (g : Eng) (rd rs : BitVec 4) (sh : BitVec 6) : State → State :=
  slotA g (sh.toNat ≤ 15) (fun e => resX rd (packW ((reOf (xr e rs)).sshiftRight sh.toNat) ((imOf (xr e rs)).sshiftRight sh.toNat)))
def opMovX (g : Eng) (rd rs : BitVec 4) : State → State := slotA g true (fun e => resX rd (xr e rs))
def opMvl (g : Eng) (rd : BitVec 4) (imm : BitVec 16) : State → State := slotA g true (fun _ => resX rd (imm.signExtend 32))
def opMvh (g : Eng) (rd : BitVec 4) (imm : BitVec 16) : State → State :=
  slotA g true (fun e => resX rd (packW (reOf (xr e rd)) imm))
def opConj (g : Eng) (rd rs : BitVec 4) : State → State :=
  slotA g true (fun e => resSat rd (reOf (xr e rs)).toInt (-(imOf (xr e rs)).toInt))
def opMulj (g : Eng) (rd rs : BitVec 4) : State → State :=
  slotA g true (fun e => resSat rd (-(imOf (xr e rs)).toInt) (reOf (xr e rs)).toInt)
def opPackH (g : Eng) (rd rs rt : BitVec 4) : State → State :=
  slotA g true (fun e => resX rd (packW (reOf (xr e rs)) (reOf (xr e rt))))
def opRdst (g : Eng) (rd : BitVec 4) : State → State := slotA g true (fun e => resX rd (regRead e e.bank 49))
def opWrst (g : Eng) (rs : BitVec 4) : State → State := slotA g true (fun e => [(1, .stBits St.RW (xr e rs))])
def opAccClr (g : Eng) (ad : BitVec 2) : State → State := slotA g true (fun _ => resAcc ad 0 0)
def opAccSet (g : Eng) (ad : BitVec 2) (rs : BitVec 4) (sh : BitVec 6) : State → State :=
  slotA g (sh.toNat ≤ 32) (fun e => [(1, .acc ad.toNat ⟨BitVec.ofInt 48 ((reOf (xr e rs)).toInt * 2 ^ sh.toNat),
    BitVec.ofInt 48 ((imOf (xr e rs)).toInt * 2 ^ sh.toNat)⟩)])
def opAccAdd (g : Eng) (ad sa ta : BitVec 2) : State → State :=
  slotA g true (fun e => resAcc ad ((ac e sa).re.toInt + (ac e ta).re.toInt) ((ac e sa).im.toInt + (ac e ta).im.toInt))
def opAccSub (g : Eng) (ad sa ta : BitVec 2) : State → State :=
  slotA g true (fun e => resAcc ad ((ac e sa).re.toInt - (ac e ta).re.toInt) ((ac e sa).im.toInt - (ac e ta).im.toInt))
def opMvfa (g : Eng) (rd : BitVec 4) (sa : BitVec 2) (c h : Bool) : State → State :=
  slotA g true (fun e => resX rd (if h then ((comp (ac e sa) c >>> 32).setWidth 16).signExtend 32 else (comp (ac e sa) c).setWidth 32))
/-- A component with one half replaced (`mvta`). -/
def mvtaComp (v : BitVec 48) (x : Word) (h : Bool) : BitVec 48 :=
  if h then (v &&& 0xFFFFFFFF) ||| ((reOf x).setWidth 48 <<< 32) else (v &&& 0xFFFF00000000) ||| x.setWidth 48
def opMvta (g : Eng) (ad : BitVec 2) (rs : BitVec 4) (c h : Bool) : State → State :=
  slotA g true (fun e =>
    let a := ac e ad
    [(1, .acc ad.toNat (if c then { a with im := mvtaComp a.im (xr e rs) h } else { a with re := mvtaComp a.re (xr e rs) h }))])
def opExt (g : Eng) (rd : BitVec 4) (sa : BitVec 2) (sh : BitVec 6) : State → State :=
  slotA g (sh.toNat ≤ 32) (fun e => resSat rd (roundShift (ac e sa).re.toInt sh.toNat) (roundShift (ac e sa).im.toInt sh.toNat))
def opExtr (g : Eng) (rd : BitVec 4) (sa : BitVec 2) (c : Bool) (sh : BitVec 6) : State → State :=
  slotA g (sh.toNat ≤ 32) (fun e =>
    let v := roundShift (comp (ac e sa) c).toInt sh.toNat
    resX rd (sat32 v) ++ stick (overflow32 v) St.SAT)
def opNorm (g : Eng) (ad : BitVec 2) (rt : BitVec 4) : State → State :=
  slotA g true (fun e =>
    let a := ac e ad
    let q := min (normShift a.re.toInt) (normShift a.im.toInt)
    [(1, .acc ad.toNat ⟨a.re <<< q, a.im <<< q⟩), (1, .reg rt.toNat (BitVec.ofNat 32 q))])
/-- A component shifted by a signed amount, exactly (06 R180). -/
def ashiftVal (v : Int) (n : Int) : Int := if 0 ≤ n then v * 2 ^ n.toNat else v / 2 ^ (-n).toNat
def opAshift (g : Eng) (ad : BitVec 2) (rs : BitVec 4) : State → State :=
  slotA g true (fun e =>
    let n := ((xr e rs).setWidth 8).toInt
    resAcc ad (ashiftVal (ac e ad).re.toInt n) (ashiftVal (ac e ad).im.toInt n))
/-- With C = 0 the S field names an accumulator: its bits 3 and 2 must be 0 (R173). -/
def scanLegal (rs : BitVec 4) (c : Bool) : Bool := c || decide (rs.toNat < 4)
def opExpx (g : Eng) (rd rs : BitVec 4) (c : Bool) : State → State :=
  slotA g (scanLegal rs c) (fun e => resX rd (BitVec.ofNat 32 (scanLen e rs c)))
def opBfscan (g : Eng) (rs : BitVec 4) (c : Bool) : State → State :=
  slotA g (scanLegal rs c) (fun e => [(1, .stBits 0x003F0000 (BitVec.ofNat 32 (max (bexpOf e) (scanLen e rs c)) <<< 16))])
def opBfpack (g : Eng) (rd : BitVec 4) (sa : BitVec 2) : State → State :=
  slotA g true (fun e => resX rd (packW (mantissa (ac e sa).re.toInt (blockE e)) (mantissa (ac e sa).im.toInt (blockE e))))
def opBfcls (g : Eng) : State → State := slotA g true (fun e => closeBlock (blockE e))
def opBfxa (g : Eng) (s : State) : State := slotA g (isFl2 s) (fun e => closeBlock (beOf e + blockE e)) s
/-- The complex product with its sign (06 R177). -/
def neg2 (p : Int × Int) : Int × Int := (-p.1, -p.2)
def opCmac (g : Eng) (ad : BitVec 2) (rs rt : BitVec 4) : State → State :=
  slotA g true (fun e => resMac ad true (cprod (truncOf e) false (xr e rs) (xr e rt)))
def opCmsc (g : Eng) (ad : BitVec 2) (rs rt : BitVec 4) : State → State :=
  slotA g true (fun e => resMac ad true (neg2 (cprod (truncOf e) false (xr e rs) (xr e rt))))
def opCmacc (g : Eng) (ad : BitVec 2) (rs rt : BitVec 4) : State → State :=
  slotA g true (fun e => resMac ad true (cprod (truncOf e) true (xr e rs) (xr e rt)))
def opCmscc (g : Eng) (ad : BitVec 2) (rs rt : BitVec 4) : State → State :=
  slotA g true (fun e => resMac ad true (neg2 (cprod (truncOf e) true (xr e rs) (xr e rt))))
def opCmul (g : Eng) (ad : BitVec 2) (rs rt : BitVec 4) : State → State :=
  slotA g true (fun e => resMac ad false (cprod (truncOf e) false (xr e rs) (xr e rt)))
def opCmulc (g : Eng) (ad : BitVec 2) (rs rt : BitVec 4) : State → State :=
  slotA g true (fun e => resMac ad false (cprod (truncOf e) true (xr e rs) (xr e rt)))
def opRmac (g : Eng) (ad : BitVec 2) (rs rt : BitVec 4) : State → State :=
  slotA g true (fun e => resMac ad true (rprod (truncOf e) (xr e rs) (xr e rt)))
def opRmsc (g : Eng) (ad : BitVec 2) (rs rt : BitVec 4) : State → State :=
  slotA g true (fun e => resMac ad true (neg2 (rprod (truncOf e) (xr e rs) (xr e rt))))
def opRmul (g : Eng) (ad : BitVec 2) (rs rt : BitVec 4) : State → State :=
  slotA g true (fun e => resMac ad false (rprod (truncOf e) (xr e rs) (xr e rt)))
def opMulW (g : Eng) (rd rs rt : BitVec 4) : State → State :=
  slotA g true (fun e => [(2, .reg rd.toNat (BitVec.ofInt 32 (mul16 (truncOf e) (reOf (xr e rs)) (reOf (xr e rt)))))])

def execSlotANop (g : Eng) (s : State) : Out := .next (opSlotANop g s)
def execAddW (g : Eng) (rd rs rt : BitVec 4) (s : State) : Out := .next (opAddW g rd rs rt s)
def execSubW (g : Eng) (rd rs rt : BitVec 4) (s : State) : Out := .next (opSubW g rd rs rt s)
def execCmpW (g : Eng) (rs rt : BitVec 4) (s : State) : Out := .next (opCmpW g rs rt s)
def execAddH (g : Eng) (rd rs rt : BitVec 4) (s : State) : Out := .next (opAddH g rd rs rt s)
def execSubH (g : Eng) (rd rs rt : BitVec 4) (s : State) : Out := .next (opSubH g rd rs rt s)
def execAddsH (g : Eng) (rd rs rt : BitVec 4) (s : State) : Out := .next (opAddsH g rd rs rt s)
def execSubsH (g : Eng) (rd rs rt : BitVec 4) (s : State) : Out := .next (opSubsH g rd rs rt s)
def execAndW (g : Eng) (rd rs rt : BitVec 4) (s : State) : Out := .next (opAndW g rd rs rt s)
def execOrW (g : Eng) (rd rs rt : BitVec 4) (s : State) : Out := .next (opOrW g rd rs rt s)
def execXorW (g : Eng) (rd rs rt : BitVec 4) (s : State) : Out := .next (opXorW g rd rs rt s)
def execAndnW (g : Eng) (rd rs rt : BitVec 4) (s : State) : Out := .next (opAndnW g rd rs rt s)
def execShlW (g : Eng) (rd rs : BitVec 4) (sh : BitVec 6) (s : State) : Out := .next (opShlW g rd rs sh s)
def execShrW (g : Eng) (rd rs : BitVec 4) (sh : BitVec 6) (s : State) : Out := .next (opShrW g rd rs sh s)
def execSraW (g : Eng) (rd rs : BitVec 4) (sh : BitVec 6) (s : State) : Out := .next (opSraW g rd rs sh s)
def execSraH (g : Eng) (rd rs : BitVec 4) (sh : BitVec 6) (s : State) : Out := .next (opSraH g rd rs sh s)
def execMovX (g : Eng) (rd rs : BitVec 4) (s : State) : Out := .next (opMovX g rd rs s)
def execMvl (g : Eng) (rd : BitVec 4) (imm : BitVec 16) (s : State) : Out := .next (opMvl g rd imm s)
def execMvh (g : Eng) (rd : BitVec 4) (imm : BitVec 16) (s : State) : Out := .next (opMvh g rd imm s)
def execConj (g : Eng) (rd rs : BitVec 4) (s : State) : Out := .next (opConj g rd rs s)
def execMulj (g : Eng) (rd rs : BitVec 4) (s : State) : Out := .next (opMulj g rd rs s)
def execPackH (g : Eng) (rd rs rt : BitVec 4) (s : State) : Out := .next (opPackH g rd rs rt s)
def execRdst (g : Eng) (rd : BitVec 4) (s : State) : Out := .next (opRdst g rd s)
def execWrst (g : Eng) (rs : BitVec 4) (s : State) : Out := .next (opWrst g rs s)
def execAccClr (g : Eng) (ad : BitVec 2) (s : State) : Out := .next (opAccClr g ad s)
def execAccSet (g : Eng) (ad : BitVec 2) (rs : BitVec 4) (sh : BitVec 6) (s : State) : Out := .next (opAccSet g ad rs sh s)
def execAccAdd (g : Eng) (ad sa ta : BitVec 2) (s : State) : Out := .next (opAccAdd g ad sa ta s)
def execAccSub (g : Eng) (ad sa ta : BitVec 2) (s : State) : Out := .next (opAccSub g ad sa ta s)
def execMvfa (g : Eng) (rd : BitVec 4) (sa : BitVec 2) (c h : Bool) (s : State) : Out := .next (opMvfa g rd sa c h s)
def execMvta (g : Eng) (ad : BitVec 2) (rs : BitVec 4) (c h : Bool) (s : State) : Out := .next (opMvta g ad rs c h s)
def execExt (g : Eng) (rd : BitVec 4) (sa : BitVec 2) (sh : BitVec 6) (s : State) : Out := .next (opExt g rd sa sh s)
def execExtr (g : Eng) (rd : BitVec 4) (sa : BitVec 2) (c : Bool) (sh : BitVec 6) (s : State) : Out := .next (opExtr g rd sa c sh s)
def execNorm (g : Eng) (ad : BitVec 2) (rt : BitVec 4) (s : State) : Out := .next (opNorm g ad rt s)
def execAshift (g : Eng) (ad : BitVec 2) (rs : BitVec 4) (s : State) : Out := .next (opAshift g ad rs s)
def execExpx (g : Eng) (rd rs : BitVec 4) (c : Bool) (s : State) : Out := .next (opExpx g rd rs c s)
def execBfscan (g : Eng) (rs : BitVec 4) (c : Bool) (s : State) : Out := .next (opBfscan g rs c s)
def execBfpack (g : Eng) (rd : BitVec 4) (sa : BitVec 2) (s : State) : Out := .next (opBfpack g rd sa s)
def execBfcls (g : Eng) (s : State) : Out := .next (opBfcls g s)
def execBfxa (g : Eng) (s : State) : Out := .next (opBfxa g s)
def execCmac (g : Eng) (ad : BitVec 2) (rs rt : BitVec 4) (s : State) : Out := .next (opCmac g ad rs rt s)
def execCmsc (g : Eng) (ad : BitVec 2) (rs rt : BitVec 4) (s : State) : Out := .next (opCmsc g ad rs rt s)
def execCmacc (g : Eng) (ad : BitVec 2) (rs rt : BitVec 4) (s : State) : Out := .next (opCmacc g ad rs rt s)
def execCmscc (g : Eng) (ad : BitVec 2) (rs rt : BitVec 4) (s : State) : Out := .next (opCmscc g ad rs rt s)
def execCmul (g : Eng) (ad : BitVec 2) (rs rt : BitVec 4) (s : State) : Out := .next (opCmul g ad rs rt s)
def execCmulc (g : Eng) (ad : BitVec 2) (rs rt : BitVec 4) (s : State) : Out := .next (opCmulc g ad rs rt s)
def execRmac (g : Eng) (ad : BitVec 2) (rs rt : BitVec 4) (s : State) : Out := .next (opRmac g ad rs rt s)
def execRmsc (g : Eng) (ad : BitVec 2) (rs rt : BitVec 4) (s : State) : Out := .next (opRmsc g ad rs rt s)
def execRmul (g : Eng) (ad : BitVec 2) (rs rt : BitVec 4) (s : State) : Out := .next (opRmul g ad rs rt s)
def execMulW (g : Eng) (rd rs rt : BitVec 4) (s : State) : Out := .next (opMulW g rd rs rt s)

/-- Fields of a slot A word (06 R176). -/
def fD (w : Word) : BitVec 4 := (w >>> 22).setWidth 4
def fS (w : Word) : BitVec 4 := (w >>> 18).setWidth 4
def fT (w : Word) : BitVec 4 := (w >>> 14).setWidth 4
def fSh (w : Word) : BitVec 6 := w.setWidth 6
def fC (w : Word) : Bool := w.getLsbD 13
def fH (w : Word) : Bool := w.getLsbD 12
def aD (w : Word) : BitVec 2 := (w >>> 22).setWidth 2
def aS (w : Word) : BitVec 2 := (w >>> 18).setWidth 2
def aT (w : Word) : BitVec 2 := (w >>> 14).setWidth 2

/-- The bits of a slot A word that its form uses; a bit outside the mask must be 0 (R173). D, S, T whole: 4 bits each; an
accumulator field: its two low bits. -/
def useD : Word := 0x03C00000
def useS : Word := 0x003C0000
def useT : Word := 0x0003C000
def useAD : Word := 0x00C00000
def useAS : Word := 0x000C0000
def useAT : Word := 0x0000C000
def useC : Word := 0x2000
def useH : Word := 0x1000
def useSh : Word := 0x3F

/-- `f` where no bit outside the mask is set. -/
def chk (w m : Word) (f : State → State) : Option (State → State) := if w &&& 0x03FFFFFF &&& ~~~m = 0 then some f else none

/-- Decode slot A of a bundle (06 R176, R177): `none` for a reserved OPA or an unused bit set. -/
def decodeA (g : Eng) (w : Word) : Option (State → State) :=
  match (w >>> 26).toNat with
  | 0x00 => chk w 0 (opSlotANop g)
  | 0x01 => chk w (useD ||| useS ||| useT) (opAddW g (fD w) (fS w) (fT w))
  | 0x02 => chk w (useD ||| useS ||| useT) (opSubW g (fD w) (fS w) (fT w))
  | 0x03 => chk w (useS ||| useT) (opCmpW g (fS w) (fT w))
  | 0x04 => chk w (useD ||| useS ||| useT) (opAddH g (fD w) (fS w) (fT w))
  | 0x05 => chk w (useD ||| useS ||| useT) (opSubH g (fD w) (fS w) (fT w))
  | 0x06 => chk w (useD ||| useS ||| useT) (opAddsH g (fD w) (fS w) (fT w))
  | 0x07 => chk w (useD ||| useS ||| useT) (opSubsH g (fD w) (fS w) (fT w))
  | 0x08 => chk w (useD ||| useS ||| useT) (opAndW g (fD w) (fS w) (fT w))
  | 0x09 => chk w (useD ||| useS ||| useT) (opOrW g (fD w) (fS w) (fT w))
  | 0x0A => chk w (useD ||| useS ||| useT) (opXorW g (fD w) (fS w) (fT w))
  | 0x0B => chk w (useD ||| useS ||| useT) (opAndnW g (fD w) (fS w) (fT w))
  | 0x0C => chk w (useD ||| useS ||| useSh) (opShlW g (fD w) (fS w) (fSh w))
  | 0x0D => chk w (useD ||| useS ||| useSh) (opShrW g (fD w) (fS w) (fSh w))
  | 0x0E => chk w (useD ||| useS ||| useSh) (opSraW g (fD w) (fS w) (fSh w))
  | 0x0F => chk w (useD ||| useS ||| useSh) (opSraH g (fD w) (fS w) (fSh w))
  | 0x10 => chk w (useD ||| useS) (opMovX g (fD w) (fS w))
  | 0x11 => chk w (useD ||| 0xFFFF) (opMvl g (fD w) (w.setWidth 16))
  | 0x12 => chk w (useD ||| 0xFFFF) (opMvh g (fD w) (w.setWidth 16))
  | 0x13 => chk w (useD ||| useS) (opConj g (fD w) (fS w))
  | 0x14 => chk w (useD ||| useS) (opMulj g (fD w) (fS w))
  | 0x15 => chk w (useD ||| useS ||| useT) (opPackH g (fD w) (fS w) (fT w))
  | 0x16 => chk w useD (opRdst g (fD w))
  | 0x17 => chk w useS (opWrst g (fS w))
  | 0x18 => chk w useAD (opAccClr g (aD w))
  | 0x19 => chk w (useAD ||| useS ||| useSh) (opAccSet g (aD w) (fS w) (fSh w))
  | 0x1A => chk w (useAD ||| useAS ||| useAT) (opAccAdd g (aD w) (aS w) (aT w))
  | 0x1B => chk w (useAD ||| useAS ||| useAT) (opAccSub g (aD w) (aS w) (aT w))
  | 0x1C => chk w (useD ||| useAS ||| useC ||| useH) (opMvfa g (fD w) (aS w) (fC w) (fH w))
  | 0x1D => chk w (useAD ||| useS ||| useC ||| useH) (opMvta g (aD w) (fS w) (fC w) (fH w))
  | 0x1E => chk w (useD ||| useAS ||| useSh) (opExt g (fD w) (aS w) (fSh w))
  | 0x1F => chk w (useD ||| useAS ||| useC ||| useSh) (opExtr g (fD w) (aS w) (fC w) (fSh w))
  | 0x20 => chk w (useAD ||| useT) (opNorm g (aD w) (fT w))
  | 0x21 => chk w (useAD ||| useS) (opAshift g (aD w) (fS w))
  | 0x22 => chk w (useD ||| useS ||| useC) (opExpx g (fD w) (fS w) (fC w))
  | 0x23 => chk w (useS ||| useC) (opBfscan g (fS w) (fC w))
  | 0x24 => chk w (useD ||| useAS) (opBfpack g (fD w) (aS w))
  | 0x25 => chk w 0 (opBfcls g)
  | 0x26 => chk w 0 (opBfxa g)
  | 0x28 => chk w (useAD ||| useS ||| useT) (opCmac g (aD w) (fS w) (fT w))
  | 0x29 => chk w (useAD ||| useS ||| useT) (opCmsc g (aD w) (fS w) (fT w))
  | 0x2A => chk w (useAD ||| useS ||| useT) (opCmacc g (aD w) (fS w) (fT w))
  | 0x2B => chk w (useAD ||| useS ||| useT) (opCmscc g (aD w) (fS w) (fT w))
  | 0x2C => chk w (useAD ||| useS ||| useT) (opCmul g (aD w) (fS w) (fT w))
  | 0x2D => chk w (useAD ||| useS ||| useT) (opCmulc g (aD w) (fS w) (fT w))
  | 0x2E => chk w (useAD ||| useS ||| useT) (opRmac g (aD w) (fS w) (fT w))
  | 0x2F => chk w (useAD ||| useS ||| useT) (opRmsc g (aD w) (fS w) (fT w))
  | 0x30 => chk w (useAD ||| useS ||| useT) (opRmul g (aD w) (fS w) (fT w))
  | 0x31 => chk w (useD ||| useS ||| useT) (opMulW g (fD w) (fS w) (fT w))
  | _ => none

end Sys2Proof.Machine
end

