-- ==== Sys2Proof/Machine/EngineB.lean ====
section
/-! DEFINITION. The slot B operations of the signal engines (06 R183 to R192), in the order of R184. Each row issues its
operation in the bundle at the engine's program counter and completes that bundle's issue. -/

namespace Sys2Proof.Machine

/-- A load in memory form (R184): latency 3, and the update of the address register. -/
def loadRes (ai : BitVec 3) (mode : BitVec 2) (md : BitVec 15) (w : Nat) (d : Dest) (e : EngSt) : List (Nat × ResW) :=
  (3, .load d (accAddr e ai mode md w) w) :: aUpdate e ai mode md

/-- A store to the aligned address is one that some area takes at this width (05 R133, R138; 07 R214). -/
def storeOk (a w : Nat) : Bool :=
  decide (a < 0x8040) || (decide (a = 0x8040) && decide (w = 8)) || (decide (a = 0x80C8) && decide (w = 4)) || decide (0x80000 ≤ a)

/-- The value stored to `MSG_SEND` is legal (07 R215). -/
def sendOk (v : BitVec 64) : Bool := decide (v.toNat / 2 ^ 16 % 128 ≤ 64) && decide (v.toNat / 2 ^ 25 % 128 = 0) && decide (v.toNat / 2 ^ 44 = 0)

/-- What a store of `v` to address `a` does at issue: it retires at the end of the next cycle, or sets `AERR`. -/
def storeWrites (a w : Nat) (v : BitVec 64) (e : EngSt) : List (Nat × ResW) :=
  if storeOk a w then
    if a = 0x8040 then
      if sendOk v then [(2, .send v ((List.range (v.toNat / 2 ^ 16 % 128)).map (fun i => tget 0 e.msgOut i)))]
      else [(1, .sticky St.AERR)]
    else [(2, .store a w v)]
  else [(1, .sticky St.AERR)]

/-- A store in memory form (R184). -/
def storeRes (ai : BitVec 3) (mode : BitVec 2) (md : BitVec 15) (w : Nat) (v : EngSt → BitVec 64) (e : EngSt) : List (Nat × ResW) :=
  storeWrites (accAddr e ai mode md w) w (v e) e ++ aUpdate e ai mode md

def rb (e : EngSt) (n : BitVec 6) : Word := regRead e e.bank n.toNat

def opSlotBNop (g : Eng) : State → State := slotB g true (fun _ => [])
def opLd16Re (g : Eng) (rd : BitVec 6) (ai : BitVec 3) (mode : BitVec 2) (md : BitVec 15) : State → State :=
  slotB g (decide (rd.toNat < 16) && mdLegal mode md) (loadRes ai mode md 2 (.lane rd.toNat false))
def opLd16Im (g : Eng) (rd : BitVec 6) (ai : BitVec 3) (mode : BitVec 2) (md : BitVec 15) : State → State :=
  slotB g (decide (rd.toNat < 16) && mdLegal mode md) (loadRes ai mode md 2 (.lane rd.toNat true))
def opLd16s (g : Eng) (rd : BitVec 6) (ai : BitVec 3) (mode : BitVec 2) (md : BitVec 15) : State → State :=
  slotB g (decide (rd.toNat < 16) && mdLegal mode md) (loadRes ai mode md 2 (.sext rd.toNat))
def opLd32 (g : Eng) (rd : BitVec 6) (ai : BitVec 3) (mode : BitVec 2) (md : BitVec 15) : State → State :=
  slotB g (decide (rd.toNat ≤ 48) && mdLegal mode md) (loadRes ai mode md 4 (.reg rd.toNat))
def opLd64 (g : Eng) (rd : BitVec 6) (ai : BitVec 3) (mode : BitVec 2) (md : BitVec 15) : State → State :=
  slotB g (decide (rd.toNat < 16) && decide (rd.toNat % 2 = 0) && mdLegal mode md) (loadRes ai mode md 8 (.pair rd.toNat))
def opSt16Re (g : Eng) (rs : BitVec 6) (ai : BitVec 3) (mode : BitVec 2) (md : BitVec 15) : State → State :=
  slotB g (decide (rs.toNat < 16) && mdLegal mode md) (storeRes ai mode md 2 (fun e => (reOf (rb e rs)).setWidth 64))
def opSt16Im (g : Eng) (rs : BitVec 6) (ai : BitVec 3) (mode : BitVec 2) (md : BitVec 15) : State → State :=
  slotB g (decide (rs.toNat < 16) && mdLegal mode md) (storeRes ai mode md 2 (fun e => (imOf (rb e rs)).setWidth 64))
def opSt32 (g : Eng) (rs : BitVec 6) (ai : BitVec 3) (mode : BitVec 2) (md : BitVec 15) : State → State :=
  slotB g (decide (rs.toNat ≤ 48) && mdLegal mode md) (storeRes ai mode md 4 (fun e => (rb e rs).setWidth 64))
def opSt64 (g : Eng) (rs : BitVec 6) (ai : BitVec 3) (mode : BitVec 2) (md : BitVec 15) : State → State :=
  slotB g (decide (rs.toNat < 16) && decide (rs.toNat % 2 = 0) && mdLegal mode md)
    (storeRes ai mode md 8 (fun e => (rb e rs).setWidth 64 ||| ((rb e (rs + 1)).setWidth 64 <<< 32)))
def opUpd (g : Eng) (ai : BitVec 3) (mode : BitVec 2) (md : BitVec 15) : State → State :=
  slotB g (decide (mode.toNat < 2) && mdLegal mode md) (aUpdate · ai mode md)
def opMovi (g : Eng) (rd : BitVec 6) (imm : BitVec 20) : State → State :=
  slotB g (decide (rd.toNat ≤ 55) && decide (rd.toNat ≠ 49)) (fun _ => [(1, .reg rd.toNat (imm.signExtend 32))])
/-- A whole-register write of a move: `st` takes its RW fields field by field (R182). -/
def moveRes (rd : Nat) (v : Word) : List (Nat × ResW) := if rd = 49 then [(1, .stBits St.RW v)] else [(1, .reg rd v)]
def opMov (g : Eng) (rd rs : BitVec 6) : State → State :=
  slotB g (decide (rd.toNat ≤ 55) && decide (rs.toNat ≤ 55)) (fun e => moveRes rd.toNat (rb e rs))
def opStset (g : Eng) (mask : BitVec 12) : State → State := slotB g true (fun _ => [(1, .stBits (mask.setWidth 32) (mask.setWidth 32))])
def opStclr (g : Eng) (mask : BitVec 12) : State → State := slotB g true (fun _ => [(1, .stBits (mask.setWidth 32) 0)])
/-- The two delay slots of a branch (05 R149). -/
def branchTo (e : EngSt) (taken : Bool) (t : Nat) : Nat × Flow := ((e.pc + 1) % 1024, .slots 2 (if taken then .goto t else .seq))
def opBCc (g : Eng) (cond : BitVec 4) (target : BitVec 10) : State → State :=
  slotCT g (decide (cond.toNat ≤ 12)) (fun e => ([], branchTo e (condHolds cond (stOf e)) target.toNat))
def opLoop (g : Eng) (target : BitVec 10) : State → State :=
  slotCT g true (fun e =>
    let lc := regRead e e.bank 48
    (if lc = 0 then [] else [(1, .reg 48 (lc - 1))], branchTo e (lc != 0) target.toNat))
def opBl (g : Eng) (rd : BitVec 6) (target : BitVec 10) : State → State :=
  slotCT g (decide (rd.toNat ≤ 48)) (fun e =>
    ([(1, .reg rd.toNat (BitVec.ofNat 32 ((e.pc + 3) % 1024)))], branchTo e true target.toNat))
def opBrr (g : Eng) (rs : BitVec 6) : State → State :=
  slotCT g (decide (rs.toNat ≤ 55)) (fun e => ([], branchTo e true ((rb e rs).toNat % 1024)))
def opReti (g : Eng) : State → State :=
  slotCT g true (fun e => if e.bank then ([], (e.pc + 1) % 1024, .slots 2 .ret)
    else ([(1, .sticky St.ILLS)], (e.pc + 1) % 1024, .seq))
/-- The count of `rpt` (05 R157, 06 R189). -/
def rptCount (e : EngSt) (csrc : Bool) (cnt : BitVec 12) : Nat :=
  if csrc then min (regRead e e.bank 48).toNat 4096 else cnt.toNat + 1
def opRpt (g : Eng) (csrc : Bool) (cnt : BitVec 12) : State → State :=
  slotCT g (!csrc || decide (cnt = 0)) (fun e =>
    let n := rptCount e csrc cnt
    (stick (csrc && decide (4096 < (regRead e e.bank 48).toNat)) St.RCLIP,
      if n = 0 then ((e.pc + 2) % 1024, .seq) else ((e.pc + 1) % 1024, .rep n)))
def opCommit (g : Eng) : State → State := slotB g true (fun _ => [(1, .commit)])
def opDone (g : Eng) : State → State := slotCT g true (fun e => ([], (e.pc + 1) % 1024, .slots 2 .stop))

def execSlotBNop (g : Eng) (s : State) : Out := .next (opSlotBNop g s)
def execLd16Re (g : Eng) (rd : BitVec 6) (ai : BitVec 3) (mode : BitVec 2) (md : BitVec 15) (s : State) : Out := .next (opLd16Re g rd ai mode md s)
def execLd16Im (g : Eng) (rd : BitVec 6) (ai : BitVec 3) (mode : BitVec 2) (md : BitVec 15) (s : State) : Out := .next (opLd16Im g rd ai mode md s)
def execLd16s (g : Eng) (rd : BitVec 6) (ai : BitVec 3) (mode : BitVec 2) (md : BitVec 15) (s : State) : Out := .next (opLd16s g rd ai mode md s)
def execLd32 (g : Eng) (rd : BitVec 6) (ai : BitVec 3) (mode : BitVec 2) (md : BitVec 15) (s : State) : Out := .next (opLd32 g rd ai mode md s)
def execLd64 (g : Eng) (rd : BitVec 6) (ai : BitVec 3) (mode : BitVec 2) (md : BitVec 15) (s : State) : Out := .next (opLd64 g rd ai mode md s)
def execSt16Re (g : Eng) (rs : BitVec 6) (ai : BitVec 3) (mode : BitVec 2) (md : BitVec 15) (s : State) : Out := .next (opSt16Re g rs ai mode md s)
def execSt16Im (g : Eng) (rs : BitVec 6) (ai : BitVec 3) (mode : BitVec 2) (md : BitVec 15) (s : State) : Out := .next (opSt16Im g rs ai mode md s)
def execSt32 (g : Eng) (rs : BitVec 6) (ai : BitVec 3) (mode : BitVec 2) (md : BitVec 15) (s : State) : Out := .next (opSt32 g rs ai mode md s)
def execSt64 (g : Eng) (rs : BitVec 6) (ai : BitVec 3) (mode : BitVec 2) (md : BitVec 15) (s : State) : Out := .next (opSt64 g rs ai mode md s)
def execUpd (g : Eng) (ai : BitVec 3) (mode : BitVec 2) (md : BitVec 15) (s : State) : Out := .next (opUpd g ai mode md s)
def execMovi (g : Eng) (rd : BitVec 6) (imm : BitVec 20) (s : State) : Out := .next (opMovi g rd imm s)
def execMov (g : Eng) (rd rs : BitVec 6) (s : State) : Out := .next (opMov g rd rs s)
def execStset (g : Eng) (mask : BitVec 12) (s : State) : Out := .next (opStset g mask s)
def execStclr (g : Eng) (mask : BitVec 12) (s : State) : Out := .next (opStclr g mask s)
def execBCc (g : Eng) (cond : BitVec 4) (target : BitVec 10) (s : State) : Out := .next (opBCc g cond target s)
def execLoop (g : Eng) (target : BitVec 10) (s : State) : Out := .next (opLoop g target s)
def execBl (g : Eng) (rd : BitVec 6) (target : BitVec 10) (s : State) : Out := .next (opBl g rd target s)
def execBrr (g : Eng) (rs : BitVec 6) (s : State) : Out := .next (opBrr g rs s)
def execReti (g : Eng) (s : State) : Out := .next (opReti g s)
def execRpt (g : Eng) (csrc : Bool) (cnt : BitVec 12) (s : State) : Out := .next (opRpt g csrc cnt s)
def execCommit (g : Eng) (s : State) : Out := .next (opCommit g s)
def execDone (g : Eng) (s : State) : Out := .next (opDone g s)

/-- Fields of a slot B word (06 R183). -/
def fReg (w : Word) : BitVec 6 := (w >>> 20).setWidth 6
def fSreg (w : Word) : BitVec 6 := (w >>> 14).setWidth 6
def fAi (w : Word) : BitVec 3 := (w >>> 17).setWidth 3
def fMode (w : Word) : BitVec 2 := (w >>> 15).setWidth 2
def fMod (w : Word) : BitVec 15 := w.setWidth 15
def fTarget (w : Word) : BitVec 10 := w.setWidth 10

/-- Decode slot B of a bundle (06 R183, R184): `none` for a reserved OPB or an unused bit set. -/
def decodeB (g : Eng) (w : Word) : Option (State → State) :=
  match (w >>> 26).toNat with
  | 0x00 => chk w 0 (opSlotBNop g)
  | 0x01 => some (opLd16Re g (fReg w) (fAi w) (fMode w) (fMod w))
  | 0x02 => some (opLd16Im g (fReg w) (fAi w) (fMode w) (fMod w))
  | 0x03 => some (opLd16s g (fReg w) (fAi w) (fMode w) (fMod w))
  | 0x04 => some (opLd32 g (fReg w) (fAi w) (fMode w) (fMod w))
  | 0x05 => some (opLd64 g (fReg w) (fAi w) (fMode w) (fMod w))
  | 0x08 => some (opSt16Re g (fReg w) (fAi w) (fMode w) (fMod w))
  | 0x09 => some (opSt16Im g (fReg w) (fAi w) (fMode w) (fMod w))
  | 0x0A => some (opSt32 g (fReg w) (fAi w) (fMode w) (fMod w))
  | 0x0B => some (opSt64 g (fReg w) (fAi w) (fMode w) (fMod w))
  | 0x0C => chk w 0x000FFFFF (opUpd g (fAi w) (fMode w) (fMod w))
  | 0x10 => some (opMovi g (fReg w) (w.setWidth 20))
  | 0x11 => chk w 0x03FFC000 (opMov g (fReg w) (fSreg w))
  | 0x12 => chk w 0x00000FFF (opStset g (w.setWidth 12))
  | 0x13 => chk w 0x00000FFF (opStclr g (w.setWidth 12))
  | 0x18 => chk w 0x03C003FF (opBCc g ((w >>> 22).setWidth 4) (fTarget w))
  | 0x19 => chk w 0x000003FF (opLoop g (fTarget w))
  | 0x1A => chk w 0x03F003FF (opBl g (fReg w) (fTarget w))
  | 0x1B => chk w 0x03F00000 (opBrr g (fReg w))
  | 0x1C => chk w 0 (opReti g)
  | 0x1D => chk w 0x02000FFF (opRpt g (w.getLsbD 25) (w.setWidth 12))
  | 0x20 => chk w 0 (opCommit g)
  | 0x21 => chk w 0 (opDone g)
  | _ => none

end Sys2Proof.Machine
end

