-- ==== Sys2Proof/Machine/EngineEv.lean ====
section
/-! DEFINITION. The events of a signal engine: fetch, refused bundles, write-backs, the end of a cycle, timer, interrupts, raw
access (05 R140 to R171), ticks and runs (07 R198 to R219). -/

namespace Sys2Proof.Machine

/-- The eight decoded bytes of the bundle at `pc` (05 R141). -/
def fetchOuts (s : State) (n pc : Nat) : List (Nat × SecOut) :=
  (List.range 8).map (fun i => (8 * pc + i, decByte (tget 0 (engGet s n).pm (8 * pc + i))))

/-- The bundle at `pc` as corrected. -/
def fetchBundle (s : State) (n pc : Nat) : BitVec 64 :=
  BitVec.ofNat 64 (leNat ((fetchOuts s n pc).map (fun p => BitVec.ofNat 8 p.2.data)))

/-- A correctable fetch error is written back, counted and recorded (05 R141). -/
def fetchCorrect (s : State) (n pc : Nat) : State :=
  let sb := (fetchOuts s n pc).filter (fun p => p.2.sbe)
  if sb.isEmpty then s
  else
    let s := engUpd s n (fun e => { e with wbs := e.wbs ++ sb.map (fun p => (true, p.1, encByte (BitVec.ofNat 8 p.2.data))) })
    sb.foldl (fun s p => engRecord s n true false p.1) (finc s (engBase n) Reg.Eng.PM_SBE_CNT)

/-- The fetch at `pc` meets an uncorrectable byte. -/
def fetchBad (s : State) (n pc : Nat) : Bool := (fetchOuts s n pc).any (fun p => p.2.dbe)

/-- PM_DBE (05 R141): the bundle does not issue and the engine faults with cause 1; a correctable byte of it is still corrected. -/
def opPmDbe (n : Nat) (s : State) : State :=
  let pc := (engGet s n).pc
  if canIssue s n && (engGet s n).half == 0 && fetchBad s n pc then
    let db := (fetchOuts s n pc).filter (fun p => p.2.dbe)
    let s := fetchCorrect s n pc
    let s := db.foldl (fun s p => engRecord s n true true p.1) (finc s (engBase n) Reg.Eng.PM_DBE_CNT)
    engFault s n 1 pc
  else s

/-- Run both slots of a bundle at the program counter, or refuse it (05 R131, 06 R173). -/
def issueBundle (g : Eng) (b : BitVec 64) (s : State) : State :=
  match decodeA g (b.setWidth 32), decodeB g ((b >>> 32).setWidth 32) with
  | some fa, some fb => fb (fa s)
  | _, _ => illegalBundle s (engId g)

/-- ILLEGAL_OP (06 R173): the bundle is refused; a bundle that the device defines is none of this event's. -/
def opIllegalOp (g : Eng) (b : BitVec 64) (s : State) : State :=
  if canIssue s (engId g) && (engGet s (engId g)).half == 0 then
    let s' := issueBundle g b s
    if engState s' (engId g) = 3 then s' else s
  else s

/-- DM_WRITEBACK (05 R140): the oldest corrected codeword is written through the external port, when that serves it (R135). -/
def opDmWriteback (n : Nat) (s : State) : State :=
  match (engGet s n).wbs with
  | [] => s
  | w :: _ =>
    let bs := if w.1 then [4] else banksOf w.2.1 1
    if portServes s n 3 bs then
      engUpd s n (fun e =>
        let e := portUsed { e with wbs := e.wbs.drop 1 } 3 bs
        if w.1 then { e with pm := tset 0 e.pm w.2.1 w.2.2 } else dmExt e w.2.1 w.2.2)
    else s

/-- TIMER_FIRE (05 R159): in the cycle in which `tcnt` reaches 0, bit 2 of `ipend` is set and `tcnt` is loaded from `tload`. -/
def opTimerFire (n : Nat) (s : State) : State :=
  if engState s n = 2 ∧ tget 0 (engGet s n).ctl 54 = 1 ∧ !(engGet s n).fired then
    engUpd s n (fun e => { e with
      ctl := tset 0 (tset 0 e.ctl 54 (tget 0 e.ctl 55)) 52 (tget 0 e.ctl 52 ||| 4), pset := e.pset ||| 4, fired := true })
  else s

/-- An interrupt may be accepted (05 R160): only at a cycle boundary, when the results due have retired and nothing has issued. -/
def canInterrupt (s : State) (n : Nat) : Bool :=
  let e := engGet s n
  engState s n == 2 && e.half == 0 && !e.bank && e.flow == .seq && !e.afterRet && stBit (tget 0 e.main.r 49) 0x800 &&
    (tget 0 e.ctl 52 &&& tget 0 e.ctl 53) != 0

/-- INTERRUPT_ACCEPT (05 R161). -/
def opInterruptAccept (n : Nat) (s : State) : State :=
  if canInterrupt s n then
    engUpd s n (fun e => { e with bank := true, ctl := tset 0 e.ctl 51 (BitVec.ofNat 32 e.pc), pc := (tget 0 e.ctl 50).toNat })
  else s

/-- SHARED_STORE_ARRIVE (05 R137): the oldest posted store from `src` reaches the data memory, once it stands at the external port and
that serves it (R135). -/
def opSharedStoreArrive (n src : Nat) (s : State) : State :=
  match (engGet s n).posted.find? (fun p => p.src == src) with
  | none => s
  | some p =>
    if p.left = 0 ∧ portServes s n 2 (banksOf p.addr p.width) then
      engUpd s n (fun e => portUsed { dmExts e p.addr (natLe p.val.toNat p.width) with posted := e.posted.erase p } 2 (banksOf p.addr p.width))
    else s

/-- A raw access is refused (05 R170). -/
def rawRefused (s : State) (n : Nat) : Bool :=
  engState s n == 2 || (fbit s (engBase n) Reg.Eng.RAW_MEM && decide (8191 < fget s (engBase n) Reg.Eng.RAW_ADDR))

/-- ENGINE_RAW_ACCESS (05 R170), when the external port serves it (R135). -/
def opEngineRawAccess (n : Nat) (s : State) : State :=
  let b := engBase n
  if !fbit s b Reg.Eng.RAW_BUSY then s
  else if rawRefused s n then fflag (fflag s b Reg.Eng.RAW_BUSY false) b Reg.Eng.RAW_REFUSED true
  else
    let bs := portWaits s n 0
    if portServes s n 0 bs then
      let a := fget s b Reg.Eng.RAW_ADDR
      let pm := fbit s b Reg.Eng.RAW_MEM
      let s := engUpd (fflag s b Reg.Eng.RAW_BUSY false) n (fun e => portUsed e 0 bs)
      let s :=
        if fbit s b Reg.Eng.RAW_WRITE then
          let c := BitVec.ofNat 13 (fget s b Reg.Eng.RAW_DATA + 256 * fget s b Reg.Eng.RAW_CHK)
          engUpd s n (fun e =>
            if pm then { e with pm := tset 0 e.pm a c, wbs := e.wbs.filter (fun w => !(w.1 && w.2.1 == a)) } else dmExt e a c)
        else
          let e := engGet s n
          let c := if pm then tget 0 e.pm a else dmCode e a
          fset (fset s b Reg.Eng.RAW_DATA (c.toNat % 256)) b Reg.Eng.RAW_CHK (c.toNat / 256)
      fflag s b Reg.Eng.RAW_DONE true
    else s

/-- ENGINE_RAW_TIMEOUT (05 R170). -/
def opEngineRawTimeout (n : Nat) (s : State) : State :=
  let b := engBase n
  if fbit s b Reg.Eng.RAW_BUSY then fflag (fflag s b Reg.Eng.RAW_BUSY false) b Reg.Eng.RAW_TIMEOUT true else s

/-- The action of a write of `RAW_GO` = 1 (05 R170). -/
def actEngRawGo (n : Nat) (s : State) : State :=
  let b := engBase n
  if fbit s b Reg.Eng.RAW_BUSY then s
  else if rawRefused s n then fflag s b Reg.Eng.RAW_REFUSED true
  else fflag s b Reg.Eng.RAW_BUSY true

/-- The action of `ERR_CLR` (05 R169, R171). -/
def actEngErrClr (n : Nat) (s : State) : State := csrWipe s (engBase n + 0x008) (engBase n + 0x014)
/-- The action of `SCHED_CLR` (07 R221, R222). -/
def actSchedClr (n : Nat) (s : State) : State := csrWipe s (engBase n + 0x050) (engBase n + 0x068)

/-- An engine has something to do in a cycle. -/
def engActive (s : State) (n : Nat) : Bool :=
  let e := engGet s n
  engState s n == 2 || !e.fly.isEmpty || e.starting != 0 || e.half != 0 || e.fired || e.pset != 0 || !e.old.isEmpty || !e.used.isEmpty ||
    !e.posted.isEmpty

/-- One whole cycle of an engine: interrupt, fetch, issue, and the end of the cycle. -/
def engineCycle (g : Eng) (s : State) : State :=
  let n := engId g
  if !engActive s n then s
  else
    let s := opInterruptAccept n s
    let pc := (engGet s n).pc
    let s :=
      if canIssue s n then
        if fetchBad s n pc then opPmDbe n s else issueBundle g (fetchBundle s n pc) (fetchCorrect s n pc)
      else s
    retire s n

/-- An inbox holds eight messages (07 R214). -/
def inboxFull (s : State) (n : Nat) : Bool := decide (8 ≤ (engGet s n).inbox.length)

/-- Arrival of a message at an inbox (07 R216): answers whether it was taken. -/
def inboxArrive (s : State) (n : Nat) (m : Msg) : Bool × State :=
  let e := engGet s n
  if 8 ≤ e.inbox.length then (false, finc s (engBase n) Reg.Eng.IN_DROP)
  else (true, engSet s n { e with inbox := e.inbox ++ [m], ctl := tset 0 e.ctl 52 (tget 0 e.ctl 52 ||| 2), pset := e.pset ||| 2 })

/-- A doorbell of the DMC (05 R159). -/
def doorbell (s : State) (n : Nat) : State :=
  engUpd s n (fun e => { e with ctl := tset 0 e.ctl 52 (tget 0 e.ctl 52 ||| 1), pset := e.pset ||| 1 })

/-- The class values that a tick is evaluated with: one sampled in the cycle of a change takes the old ones (07 R205). -/
def classVals (s : State) (e c : Nat) : Nat × Nat × Nat :=
  let x := eisGet s e
  match (if x.wasAt = s.up + 1 then x.was.find? (fun w => w.1 == c) else none) with
  | some w => w.2
  | none => (fget s (eisBase e) (Reg.Eisl.PERIOD c), fget s (eisBase e) (Reg.Eisl.PHASE c), fget s (eisBase e) (Reg.Eisl.BUDGET c))
/-- The tick with count `cnt` is a start tick of class `c` of an engine island (07 R203). -/
def startTick (s : State) (e c cnt : Nat) : Bool :=
  let v := classVals s e c
  v.1 != 0 && (((cnt : Int) - v.2.1) % (v.1 : Int) == 0)

/-- A start tick begins a run with a clean start (07 R207): the frame read follows the cycle in which the tick is sampled. -/
def beginRun (s : State) (n cnt budget : Nat) : State :=
  let s := finc s (engBase n) Reg.Eng.STARTS
  engUpd s n (fun e => { stageDiscard e with
    starting := if e.half = 0 then 35 else 36, frame := [], startUs := BitVec.ofNat 32 cnt, ticksLeft := budget, runTicks := 0
    runIdx := fget s (engBase n) Reg.Eng.STARTS })

/-- One engine samples a tick (07 R203, R204, R219). -/
def engTick (s : State) (n cnt : Nat) : State :=
  let b := engBase n
  let e := eisOfEng n
  let c := fget s b Reg.Eng.CLASS
  let st := fbit s b Reg.Eng.BOUND && startTick s e c cnt
  let x := engGet s n
  let running := engState s n == 2 || x.starting != 0
  let s := if running then engUpd s n (fun x => { x with runTicks := x.runTicks + 1, ticksLeft := x.ticksLeft - 1 }) else s
  let s := if running && ((engGet s n).ticksLeft == 0 || st) then haltRun s n 1 else s
  if st && engState s n == 1 && !(engGet s n).loadWait then beginRun s n cnt (classVals s e c).2.2 else s

/-- The engine island is powered (07 R198: it samples ticks, and its clock runs). -/
def eisOn (s : State) (e : Nat) : Bool := (eisGet s e).pst == 0
/-- The engine island is in service: powered, released and not fenced. -/
def eisLive (s : State) (e : Nat) : Bool := (eisGet s e).pst == 0 && !(eisGet s e).hold && !fenced s (dieOfEis e)

/-- An engine island that is not off samples a tick; in its hold no engine of it starts (07 R198; 05 R132). -/
def eisTick (s : State) (cnt e : Nat) : State :=
  if eisOn s e && !fenced s (dieOfEis e) then
    let s := fset s (eisBase e) Reg.Eisl.LAST_TICK cnt
    if (eisGet s e).hold then s else (List.range 16).foldl (fun s k => engTick s (e * 16 + k) cnt) s
  else s

def execIllegalOp (g : Eng) (bundle : BitVec 64) (s : State) : Out := .next (opIllegalOp g bundle s)
def execPmDbe (g : Eng) (s : State) : Out := .next (opPmDbe (engId g) s)
def execDmWriteback (g : Eng) (s : State) : Out := .next (opDmWriteback (engId g) s)
def execResultRetire (g : Eng) (s : State) : Out := .next (retire s (engId g))
def execSharedStoreArrive (g : Eng) (src : Fin 16) (s : State) : Out := .next (opSharedStoreArrive (engId g) src.val s)
def execTimerFire (g : Eng) (s : State) : Out := .next (opTimerFire (engId g) s)
def execInterruptAccept (g : Eng) (s : State) : Out := .next (opInterruptAccept (engId g) s)
def execEngineRawAccess (g : Eng) (s : State) : Out := .next (opEngineRawAccess (engId g) s)
def execEngineRawTimeout (g : Eng) (s : State) : Out := .next (opEngineRawTimeout (engId g) s)

end Sys2Proof.Machine
end

