-- ==== Sys2Proof/Machine/Timing.lean ====
section
/-! DEFINITION. The timing unit: time, steps, timestamps, PPS and ticks (07 R193 to R200). -/

namespace Sys2Proof.Machine

/-- The microsecond count N (07 R194). -/
def usCount (t : TimSt) : Nat := t.sec * 1000000 + t.ns / 1000

/-- `FRAC`: the upper 16 bits of the fraction. -/
def fracOf (t : TimSt) : Nat := t.sub / 2 ^ 32

/-- `RATE_ADJ` as a signed value (07 R193). -/
def rateAdj (s : State) : Int := (BitVec.ofNat 32 (fget s timBase Reg.Tim.RATE_ADJ)).toInt

/-- The time after one cycle of the timing unit: 1 ns plus the rate correction in units of 2^-32 ns (07 R193). -/
def advanceTime (t : TimSt) (adj : Int) : TimSt :=
  let total : Int := (t.ns * 2 ^ 48 + t.sub : Nat) + 2 ^ 48 + adj * 2 ^ 16
  let v := total.toNat
  let ns := v / 2 ^ 48
  if 1000000000 ≤ ns then { t with sec := (t.sec + 1) % 2 ^ 48, ns := ns - 1000000000, sub := v % 2 ^ 48 }
  else { t with ns := ns, sub := v % 2 ^ 48 }

/-- The engine islands of the device. -/
def allEis : List Nat := List.range 80

/-- TICK (07 R198): every engine island in service samples the tick with the count N. -/
def opTick (s : State) : State := allEis.foldl (fun s e => eisTick s (usCount s.tim) e) s

/-- PPS_OUT rises, for `PPS_WIDTH` microseconds as it stands (07 R197). -/
def ppsRise (s : State) : State :=
  if fbit s timBase Reg.Tim.PPS_EN then
    { s with tim := { s.tim with pps := true, ppsLeft := 1000 * fget s timBase Reg.Tim.PPS_WIDTH } }
  else s
/-- PPS_OUT falls. -/
def ppsFall (s : State) : State := { s with tim := { s.tim with pps := false, ppsLeft := 0 } }
/-- `NS` has passed an offset into the second on the way from time t to time u. -/
def passesNs (t u : TimSt) (o : Nat) : Bool :=
  if t.sec = u.sec then decide (t.ns < o) && decide (o ≤ u.ns) else decide (t.ns < o) || decide (o ≤ u.ns)
/-- PPS_OUT as the time goes from t to its present value (07 R197). -/
def ppsCycle (t : TimSt) (s : State) : State :=
  if passesNs t s.tim (fget s timBase Reg.Tim.PPS_OFFSET) then ppsRise s
  else if s.tim.pps && decide (s.tim.ppsLeft ≤ 1) then ppsFall s
  else { s with tim := { s.tim with ppsLeft := s.tim.ppsLeft - 1 } }

/-- TIME_STEP (07 R195): the pending value becomes the time, and the instant counts as a boundary. -/
def opTimeStep (s : State) : State :=
  match s.tim.step with
  | none => s
  | some v =>
    let s := fflag { s with tim := { s.tim with sec := v.1, ns := v.2, sub := 0, step := none } } timBase Reg.Tim.SET_PENDING false
    if v.2 = fget s timBase Reg.Tim.PPS_OFFSET then ppsRise s else s

/-- The action of `SET_GO` (07 R195): the target is latched; a pending one is replaced. -/
def actSetGo (s : State) : State :=
  let v := (fget s timBase Reg.Tim.SET_SEC_LO + 2 ^ 32 * fget s timBase Reg.Tim.SET_SEC_HI, fget s timBase Reg.Tim.SET_NS)
  fflag { s with tim := { s.tim with step := some v } } timBase Reg.Tim.SET_PENDING true

/-- A read of `US_LO` latches the time into offsets 0x004 to 0x010 (07 R199). -/
def latchTime (s : State) : State :=
  let t := s.tim
  let s := fset s timBase Reg.Tim.NS t.ns
  let s := fset s timBase Reg.Tim.FRAC (fracOf t)
  let s := fset s timBase Reg.Tim.SEC_LO t.sec
  let s := fset s timBase Reg.Tim.SEC_HI (t.sec / 2 ^ 32)
  fset s timBase Reg.Tim.US_LO (usCount t)

/-- TICK_LOSS (07 R199): the running engines' runs end with the end cause tick loss. -/
def opTickLoss (e : Nat) (s : State) : State :=
  if eisOn s e then
    let s := fflag s (eisBase e) Reg.Eisl.TICK_LOSS true
    (List.range 16).foldl (fun s k => haltRun s (e * 16 + k) 3) s
  else s

/-- The timestamp of an edge: resolution 1/16 ns (07 R196). -/
def opFrameInEdge (s : State) : State :=
  let t := s.tim
  let s := fset s timBase Reg.Tim.FRAME_NS t.ns
  let s := fset s timBase Reg.Tim.FRAME_FRAC (fracOf t / 0x1000 * 0x1000)
  let s := fset s timBase Reg.Tim.FRAME_SEC t.sec
  fflag s timBase Reg.Tim.FRAME_SEEN true
def opPpsInEdge (s : State) : State :=
  let t := s.tim
  let s := fset s timBase Reg.Tim.PPS_NS t.ns
  let s := fset s timBase Reg.Tim.PPS_FRAC (fracOf t / 0x1000 * 0x1000)
  let s := fset s timBase Reg.Tim.PPS_SEC t.sec
  fflag s timBase Reg.Tim.PPS_SEEN true
def opFrameLoss (s : State) : State := fflag s timBase Reg.Tim.FRAME_LOSS true
def opPpsLoss (s : State) : State := fflag s timBase Reg.Tim.PPS_LOSS true
/-- PPS_OUT_RISE (07 R197): only while `PPS_EN` = 1, within 1 ns of the instant at which `NS` is `PPS_OFFSET`. -/
def opPpsOutRise (s : State) : State :=
  let d := (s.tim.ns + 1000000000 - fget s timBase Reg.Tim.PPS_OFFSET) % 1000000000
  if d ≤ 1 ∨ d = 999999999 then ppsRise s else s
/-- PPS_OUT_FALL (07 R197): `PPS_WIDTH` microseconds after the rise. -/
def opPpsOutFall (s : State) : State := if s.tim.ppsLeft ≤ 1 then ppsFall s else s

/-- ECLK_LOCK (07 R200): a generator in service locks. -/
def opEclkLock (e : Nat) (s : State) : State :=
  if eisOn s e || (eisGet s e).pst == 5 then fflag s (eisBase e) Reg.Eisl.ECLK_LOCK true else s

def execTimeStep (s : State) : Out := .next (opTimeStep s)
def execTick (s : State) : Out := .next (opTick s)
def execTickLoss (d : Fin 8) (e : Fin 10) (s : State) : Out := .next (opTickLoss (eisId d e) s)
def execFrameInEdge (s : State) : Out := .next (opFrameInEdge s)
def execPpsInEdge (s : State) : Out := .next (opPpsInEdge s)
def execFrameLoss (s : State) : Out := .next (opFrameLoss s)
def execPpsLoss (s : State) : Out := .next (opPpsLoss s)
def execPpsOutRise (s : State) : Out := .next (opPpsOutRise s)
def execPpsOutFall (s : State) : Out := .next (opPpsOutFall s)
def execEclkLock (d : Fin 8) (e : Fin 10) (s : State) : Out := .next (opEclkLock (eisId d e) s)

end Sys2Proof.Machine
end

