-- ==== Sys2Proof/Machine/Alarm.lean ====
section
/-! DEFINITION. Alarm records (13 R399, R533 to R535), the boot journal (16 R494 to R500) and who holds what under the plan
(13 R389, R391). -/

namespace Sys2Proof.Machine

/-! ### The plan -/

/-- The partition whose record satisfies `f`, the lowest first; none gives 0x1F. -/
def holderBy (s : State) (f : PartRec → Bool) : Nat :=
  (((List.range 17).filter (fun p => (planGet s p).valid && f (planGet s p))).head?).getD 0x1F
def holdsIsl (r : PartRec) (n : Nat) : Bool := (r.islands.getD (n / 48) 0).testBit (n % 48)
def holdsEis (r : PartRec) (n : Nat) : Bool := (r.eisl.getD (n / 10) 0).testBit (n % 10)
def holdsQuad (r : PartRec) (q : Nat) : Bool := decide (q < 32) && r.quads.testBit q
def islHolder (s : State) (n : Nat) : Nat := holderBy s (fun r => holdsIsl r n)
def eisHolder (s : State) (n : Nat) : Nat := holderBy s (fun r => holdsEis r n)
def quadHolder (s : State) (q : Nat) : Nat := holderBy s (fun r => holdsQuad r q)
/-- A mailbox that the plan gives to no partition belongs to P0 (13 R397). -/
def mbHolder (s : State) (n : Nat) : Nat :=
  let p := holderBy s (fun r => r.mailboxes.testBit n)
  if p = 0x1F then 0 else p
def fnHolder (s : State) (c f : Nat) : Nat := holderBy s (fun r => r.fns.testBit (8 * c + f))
def portHolder (s : State) (b : Nat) : Nat := holderBy s (fun r => r.ports.testBit b)
/-- A granule lies in a partition's plan ranges. -/
def inRanges (r : PartRec) (g : Nat) : Bool := r.granges.any (fun x => decide (x.first ≤ g) && decide (g < x.first + x.count))

/-! ### MSI-X (13 R386, R387) -/

/-- Links of a PCIe controller and functions of a link (R384). -/
def pcieLinks (s : State) (c : Nat) : Nat := 2 ^ (fget s (pcieBase c 0) Reg.Pcie.BIFUR)
def pciePer (s : State) (c : Nat) : Nat := 8 / pcieLinks s c
/-- Word i of a function's MSI-X table; a vector's control word resets to masked. -/
def msixWord (s : State) (fn i : Nat) : Word := tget (if i % 4 = 3 then 1 else 0) (fnGet s fn).table i
/-- Vector v of function fn = 8 c + f: sent while its link is up, pending while masked. -/
def msiSignal (s : State) (fn v : Nat) : State :=
  let c := fn / 8
  if !fbit s (pcieBase c (fn % 8 / pciePer s c)) Reg.Pcie.DL_UP then s
  else if (msixWord s fn (4 * v + 3)).getLsbD 0 then fnUpd s fn (fun x => { x with pba := x.pba ||| 2 ^ v })
  else { s with msi := s.msi ++ [(fn, v)] }
/-- Vector v of every function of partition p. -/
def msiPart (s : State) (p v : Nat) : State :=
  ((List.range 16).filter (fun fn => fnHolder s (fn / 8) (fn % 8) == p)).foldl (fun s fn => msiSignal s fn v) s

/-! ### Alarms -/

/-- Classes of alarm records (13 R399). -/
def clsSec : Nat := 0
def clsHw : Nat := 1
def clsLink : Nat := 2
def clsPower : Nat := 3
def clsCfg : Nat := 4

/-- A partition sees a record (R399): P0 every one; a host partition its own, device-wide HW, POWER and CFG, and LINK records of
its quads. -/
def alarmSeen (s : State) (p : Nat) (a : Alarm) : Bool :=
  p == 0 || a.part == p || (a.part == 0x1F && (a.cls == clsHw || a.cls == clsPower || a.cls == clsCfg)) ||
  (a.cls == clsLink &&
    (let d := (a.loc.getD 0 0).toNat
     let q := (a.loc.getD 1 0).toNat
     decide (d < 8) && decide (q < 4) && quadHolder s (4 * d + q) == p))

/-- Vector 32 of the partitions that see a new record (R387). -/
def alarmMsi (s : State) (a : Alarm) : State :=
  ((List.range 17).filter (fun p => (planGet s p).valid && alarmSeen s p a)).foldl (fun s p => msiPart s p 32) s

/-- Keep the last 256 records; a record overwritten unacknowledged sets `ALARM_LOST` (R399). -/
def alarm (s : State) (cls cause part : Nat) (loc : List Byte) : State :=
  let r : Alarm := ⟨s.nextAlarm, cls, cause, part, false, s.tim.ns, s.tim.sec % 65536, loc⟩
  let s := alarmMsi { s with alarms := s.alarms ++ [r], nextAlarm := s.nextAlarm + 1 } r
  match s.alarms with
  | a :: t =>
    if 256 < s.alarms.length then
      { s with alarms := t, alarmLost := s.alarmLost || !a.acked, lostSeq := if a.acked then s.lostSeq else a.seq }
    else s
  | [] => s

/-- `ALARM_N` is asserted (R399). -/
def alarmAsserted (s : State) : Bool := s.alarmLost || s.alarms.any (fun a => !a.acked) || s.boot.halted

def byte (n : Nat) : Byte := BitVec.ofNat 8 n
def alarmHw (s : State) (cause : Nat) (loc : List Nat) : State := alarm s clsHw cause 0x1F ((loc.map byte) ++ List.replicate (8 - loc.length) 0)
/-- Die byte of a quad: d, or 8 for the hub. -/
def quadDie (q : Nat) : Nat := if q < 32 then q / 4 else 8
def quadNo (q : Nat) : Nat := if q < 32 then q % 4 else q - 32
def alarmLink (s : State) (cause q lane : Nat) : State :=
  alarm s clsLink cause (if q < 32 then quadHolder s q else 0x1F) ([byte (quadDie q), byte (quadNo q), byte lane, 0, 0, 0, 0, 0])
def alarmPower (s : State) (cause loc : Nat) : State := alarm s clsPower cause 0x1F [byte loc, 0, 0, 0, 0, 0, 0, 0]
def alarmCfg (s : State) (cause frame code die : Nat) : State :=
  alarm s clsCfg cause 0x1F (natLe frame 4 ++ [byte code, byte die, 0, 0])
/-- Alarm POWER at most once per minute for one cause and location (15 R469, R471). -/
def alarmPowerMinute (s : State) (cause loc : Nat) : State :=
  let k := 256 * cause + loc
  let now := upUs s
  let last := tget 0 s.pwr.lastAlarm k
  if last != 0 && decide (now < last - 1 + 60000000) then s
  else alarmPower { s with pwr := { s.pwr with lastAlarm := tset 0 s.pwr.lastAlarm k (now + 1) } } cause loc

/-! ### Journal -/

/-- Time of a journal record (16 R495): ms from supplies valid, or seconds from DONE with bit 31. -/
def jTime (s : State) : Nat :=
  match s.boot.doneUs with
  | none => (upUs s / 1000) % 2 ^ 31
  | some u => 2 ^ 31 + ((upUs s - u) / 1000000) % 2 ^ 31
/-- A journal record's place in the ring, which holds 32,768 (16 R494). -/
def flashRecord (s : State) (r : JRec) : State :=
  let l := s.flash.journal ++ [{ r with index := s.flash.nextJ }]
  { s with flash := { s.flash with journal := if 32768 < l.length then l.drop 1 else l, nextJ := s.flash.nextJ + 1 } }
/-- Journal records wait in DMC SRAM: the firmware does not run yet (16 R477), or the full load of phase E reads the flash (R480). -/
def journalHeld (s : State) : Bool :=
  !s.boot.dmc || (fget s 0 Reg.Hub.BOOT_PHASE == 4 && (s.fuses.srcStrap == 0 || s.load.any (fun l => l.golden)))
/-- Write a journal record. -/
def journal (s : State) (code result arg detail : Nat) : State :=
  let r : JRec := ⟨0, fget s 0 Reg.Hub.START_CNT, code, result, arg % 65536, detail % 65536, jTime s, 3⟩
  if !journalHeld s then flashRecord s r else { s with boot := { s.boot with buffer := s.boot.buffer ++ [r] } }
/-- The firmware writes the records that waited (16 R478, R480). -/
def journalFlush (s : State) : State :=
  s.boot.buffer.foldl flashRecord { s with boot := { s.boot with buffer := [] } }
/-- At a start a record that one copy alone holds is copied to the other (16 R494). -/
def journalMend (s : State) : State :=
  { s with flash := { s.flash with journal := s.flash.journal.map (fun r => if r.copies % 4 = 0 then r else { r with copies := 3 }) } }
/-- A run-time event (16 R499). -/
def jEvent (s : State) (code arg detail : Nat) : State := journal s code 5 arg detail

end Sys2Proof.Machine
end

