-- ==== Sys2Proof/Machine/Rail.lean ====
section
/-! DEFINITION. Supply requests, the adaptation policies and the sensors (15 R459 to R471). Rail 0 is the hub's, 1 to 8 F0 to F7. -/

namespace Sys2Proof.Machine

def pwrUpd (s : State) (f : PowerSt → PowerSt) : State := { s with pwr := f s.pwr }
def railGet (s : State) (r : Nat) : RailSt := tget {} s.pwr.rails r
def railUpd (s : State) (r : Nat) (f : RailSt → RailSt) : State := pwrUpd s (fun p => { p with rails := tmod {} p.rails r f })
def vSet (s : State) (r : Nat) : Nat := fget s pwrBase (Reg.Pwr.V_SET r)
def frozen (s : State) (r : Nat) : Bool := fbit s pwrBase (Reg.Pwr.FROZEN r)
/-- Policy codes of R472. -/
def policy (s : State) : Nat := fget s pwrBase Reg.Pwr.POLICY

/-- The partition holds a resource on the die. -/
def holdsOnDie (r : PartRec) (d : Nat) : Bool :=
  r.islands.getD d 0 != 0 || r.eisl.getD d 0 != 0 || (r.quads / 2 ^ (4 * d)) % 16 != 0

/-- Running host partitions with bounds on rail r (13 `POLICY_SET`): those with a resource on its die. -/
def boundParts (s : State) (r : Nat) : List Nat :=
  (List.range 17).filter (fun p => p != 0 && decide (0 < r) && (partGet s p).state == 2 && holdsOnDie (planGet s p) (r - 1))
/-- Bounds in force on a rail: the intersection of the device's and the partitions' (R464), rounded inward to 5 mV. -/
def lowBound (s : State) (r : Nat) : Nat := ((boundParts s r).foldl (fun m p => max m (partGet s p).vlo) s.pwr.vlo + 4) / 5 * 5
def highBound (s : State) (r : Nat) : Nat := (boundParts s r).foldl (fun m p => min m (partGet s p).vhi) s.pwr.vhi / 5 * 5
/-- Show the bounds in force (R472). -/
def showBounds (s : State) : State :=
  let lo := ((List.range 9).map (lowBound s)).foldl min 880
  let hi := ((List.range 9).map (highBound s)).foldl max 700
  fset (fset s pwrBase Reg.Pwr.V_LOW lo) pwrBase Reg.Pwr.V_HIGH hi
def clip (s : State) (r v : Nat) : Nat := max (lowBound s r) (min (highBound s r) v)

/-- A new target for a rail (R463): sent, or waiting behind the outstanding one; none on a frozen rail (R462). -/
def railTarget (s : State) (r v : Nat) : State :=
  if frozen s r then s
  else railUpd s r (fun x => match x.out with
    | none => { x with out := some v, tries := 0 }
    | some _ => { x with waiting := some v })

/-- The rail freezes at its last acknowledged voltage (R462). -/
def freezeRail (s : State) (r cause : Nat) : State :=
  if frozen s r then s
  else
    let s := fflag s pwrBase (Reg.Pwr.FROZEN r) true
    let s := railUpd s r (fun x => { x with out := none, tries := 0, waiting := none })
    jEvent (alarmPower s cause r) 0x8B r 0

/-- AVS_ACK (R462, R463). -/
def opAvsAck (r : Nat) (s : State) : State :=
  match (railGet s r).out with
  | none => s
  | some v => railUpd (fset s pwrBase (Reg.Pwr.V_SET r) v) r (fun x => { x with out := x.waiting, tries := 0, waiting := none })

/-- AVS_TIMEOUT (R462): three repetitions, then the rail freezes. -/
def opAvsTimeout (r : Nat) (s : State) : State :=
  match (railGet s r).out with
  | none => s
  | some _ =>
    if (railGet s r).tries < 3 then
      finc (railUpd s r (fun x => { x with tries := x.tries + 1 })) pwrBase (Reg.Pwr.AVS_RETRY_CNT r)
    else freezeRail s r 1

/-- RAIL_DEVIATION (R462): the rail measured more than 30 mV from its acknowledged setpoint; one frozen already raises the alarm too. -/
def opRailDeviation (r : Nat) (s : State) : State :=
  let v := vSet s r
  let m := fget s pwrBase (Reg.Pwr.V_MEAS r)
  if v = 0 ∨ (v ≤ m + 30 ∧ m ≤ v + 30) then s
  else if frozen s r then alarmPower s 6 r
  else freezeRail s r 6

/-- Under 1 ms after a raise no further raise is made (R469). -/
def raiseAllowed (s : State) (r : Nat) : Bool :=
  match (railGet s r).raisedUs with
  | none => true
  | some u => decide (u + 1000 ≤ upUs s)

/-- The answer to an exhaustion on fabric die d (R469). -/
def exhaustionResponse (s : State) (d : Nat) : State :=
  let r := d + 1
  if policy s = 0 then alarmPowerMinute s 3 d
  else if frozen s r || decide (highBound s r ≤ vSet s r) then alarmPowerMinute s 2 d
  else if raiseAllowed s r then
    railUpd (railTarget s r (min (vSet s r + 10) (highBound s r))) r (fun x => { x with raisedUs := some (upUs s) })
  else s

/-- `V_FIXED` of a rail in the manifest's power record (16 R487). -/
def vFixed (s : State) (r : Nat) : Nat := leAt s.boot.manifest (0x260 + 4 * r + 2) 2

/-- The target that the loop gives a rail under MARGIN or ECO (R466, R468). The floor is rounded up to a step of R461. -/
def loopTarget (s : State) (r : Nat) (x : LoopReport) (hist : List (Nat × Nat × Nat)) (eco : Bool) : Nat :=
  let v := vSet s r
  let lo := fget s pwrBase Reg.Pwr.SLACK_LO
  let hi := max lo (fget s pwrBase Reg.Pwr.SLACK_HI)
  let floor := (tget 700 s.fuses.floor r + fget s pwrBase (Reg.Pwr.AGE_OFS r) + 4) / 5 * 5
  let full := decide (100 ≤ hist.length)
  let str := (hist.map (fun p => p.1)).sum
  let exh := (hist.map (fun p => p.2.1)).sum
  let per := (hist.map (fun p => p.2.2)).sum
  let calm := if eco then full && decide (str * 1000 ≤ min 1000 (fget s pwrBase Reg.Pwr.ECO_STRETCH) * per) && exh == 0
    else full && hist.all (fun p => p.1 == 0)
  if !x.running then v
  else if x.exhausted > 0 ∨ x.lowest.toNat < lo then min (v + 10) (highBound s r)
  else if hi ≤ x.lowest.toNat && calm then max (v - 5) (max floor (lowBound s r))
  else v

/-- The bounds waiting take effect (R464). -/
def applyBounds (s : State) : State :=
  if s.pwr.bounds.isEmpty then s
  else showBounds (s.pwr.bounds.foldl (fun s x =>
    if x.1 = 0 then pwrUpd s (fun q => { q with vlo := x.2.1, vhi := x.2.2 })
    else partUpd s x.1 (fun q => { q with vlo := x.2.1, vhi := x.2.2 })) (pwrUpd s (fun q => { q with bounds := [] })))
/-- The policy waiting takes effect at a loop period (R464, R465): FIXED sets each rail once. -/
def applyPolicy (s : State) : State :=
  match s.pwr.nextPolicy with
  | none => s
  | some p =>
    let s := fset (pwrUpd s (fun q => { q with nextPolicy := none })) pwrBase Reg.Pwr.POLICY p
    if p = 0 then (List.range 9).foldl (fun s r => railTarget s r (clip s r (vFixed s r))) s else s

/-- What the loop sets, in the bounds: a rise of the junction raises by 10 mV (R466), and no raise follows another within 1 ms (R469). -/
def evalTarget (s : State) (r : Nat) (x : LoopReport) (hist : List (Nat × Nat × Nat)) (eco : Bool) : Nat :=
  let t := loopTarget s r x hist eco
  let t := if 5 < x.rise then min (t + 10) (highBound s r) else t
  clip s r (if vSet s r < t ∧ raiseAllowed s r = false then vSet s r else t)
/-- One evaluation of a die (R464 to R468). -/
def policyEval (r : Nat) (x : LoopReport) (s : State) : State :=
  let s := applyPolicy (applyBounds s)
  let hist := ((x.stretched, x.exhausted, x.periods) :: (railGet s r).hist).take 100
  let t := if policy s = 0 then clip s r (vSet s r) else evalTarget s r x hist (policy s == 2)
  let s := railUpd s r (fun y => { y with hist := hist, wouldBe := evalTarget s r x hist false })
  let s := if t = vSet s r ∨ vSet s r = 0 then s
    else if vSet s r < t then railUpd (railTarget s r t) r (fun y => { y with raisedUs := some (upUs s) })
    else railTarget s r t
  fflag s pwrBase Reg.Pwr.BELOW_MARGIN (policy s == 2 && (List.range 9).any (fun q =>
    decide (vSet s q < (railGet s q).wouldBe) || (match (railGet s q).out with
      | some v => decide (v < (railGet s q).wouldBe)
      | none => false)))

/-- POLICY_LOOP (R466): firmware evaluates in RUN; in STANDBY the rails keep the values of R443 step 6. -/
def opPolicyLoop (r : Nat) (x : LoopReport) (s : State) : State :=
  if s.boot.dmc && fget s pwrBase Reg.Pwr.DEV_STATE == 0 then policyEval r x s else s

/-- AGING_SAMPLE (R467): 1 mV per 250 ppm, never decreasing, at most 40 mV; kept in flash. -/
def opAgingSample (r ppm : Nat) (s : State) : State :=
  let v := max (fget s pwrBase (Reg.Pwr.AGE_OFS r)) (min 40 (ppm / 250))
  let s := fset s pwrBase (Reg.Pwr.AGE_OFS r) v
  { s with flash := { s.flash with aging := tset 0 s.flash.aging r v } }

/-- What the sensors of a rail's die gave in the last complete second (R460). -/
def lastSecond (s : State) (r : Nat) : SecVals :=
  let x := railGet s r
  let k := upUs s / 1000000
  if x.nowAt = k then x.last else if x.nowAt + 1 = k then x.now else {}
/-- A sample joins the second in progress. -/
def secAdd (s : State) (r : Nat) (f : SecVals → SecVals) : State :=
  let k := upUs s / 1000000
  let last := lastSecond s r
  railUpd s r (fun x => { x with now := f (if x.nowAt = k then x.now else {}), nowAt := k, last := last })
/-- The larger of two 16-bit temperatures. -/
def hotter (a b : Nat) : Nat := if (BitVec.ofNat 16 a).toInt < (BitVec.ofNat 16 b).toInt then b else a

/-- SENSOR_SAMPLE (R459). -/
def opSensorSample (x : Sensor) (s : State) : State :=
  match x with
  | .junction die idx v =>
    let k := if die.val < 8 then 6 * die.val + idx.val else 48 + idx.val % 4
    secAdd (pwrUpd s (fun p => { p with junction := tset 0 p.junction k v.toNat })) ((die.val + 1) % 9)
      (fun a => { a with hot := some (hotter (a.hot.getD v.toNat) v.toNat) })
  | .rail r mv => fset s pwrBase (Reg.Pwr.V_MEAS r.val) mv.toNat
  | .regulator r mv a w => railUpd s r.val (fun x => { x with regMv := mv.toNat, amp := a.toNat, watt := w.toNat })
  | .margin die lo st ex =>
    secAdd s (die.val + 1) (fun a => { a with lo := min a.lo lo.toNat, st := a.st + st.toNat, ex := a.ex + ex.toNat })

/-- TJ_ALARM (R471): alarm POWER, cause 4, at most once per minute, for a sensor above `TJ_ALARM`; values above 120 act as 120 (R472). -/
def opTjAlarm (sensor : Nat) (s : State) : State :=
  if (BitVec.ofNat 16 (tget 0 s.pwr.junction sensor)).toInt ≤ (8 * min 120 (fget s pwrBase Reg.Pwr.TJ_ALARM) : Nat) then s
  else alarmPowerMinute s 4 sensor

/-- The hottest of some junction sensors, as a signed 16-bit value of 1/8 degree. -/
def hottest (s : State) (ks : List Nat) : Nat :=
  let vs := ks.map (fun k => (BitVec.ofNat 16 (tget 0 s.pwr.junction k)).toInt)
  match vs with
  | [] => 0
  | v :: t => (BitVec.ofInt 16 (t.foldl max v)).toNat
def dieSensors (d : Nat) : List Nat := if d < 8 then (List.range 6).map (6 * d + ·) else [48, 49, 50, 51]

/-- Lower the sleep values of the rails at the entry to STANDBY (R443 step 6). -/
def sleepRails (s : State) : State :=
  (List.range 9).foldl (fun s r => railTarget s r (if r = 0 then min (vSet s 0) 750 else 700)) s

/-- The starting value of the policy in force for a rail (R461, R465, R466). -/
def startValue (s : State) (r : Nat) : Nat := if policy s = 0 then clip s r (vFixed s r) else clip s r (tget 800 s.fuses.nominal r)

def execPolicyLoop (die : Fin 9) (x : LoopReport) (s : State) : Out := .next (opPolicyLoop die.val x s)
def execAgingSample (die : Fin 9) (ppm : Nat) (s : State) : Out := .next (opAgingSample die.val ppm s)
def execSensorSample (x : Sensor) (s : State) : Out := .next (opSensorSample x s)
def execTjAlarm (sensor : Fin 52) (s : State) : Out := .next (opTjAlarm sensor.val s)

end Sys2Proof.Machine
end

