-- ==== Sys2Proof/Machine/Clock.lean ====
section
/-! DEFINITION. Island clocks (03 R73 to R83), margin monitors and stretching (R96 to R104), hitches (R84 to R90). -/

namespace Sys2Proof.Machine

/-! ### Generators and trees -/

/-- Spine line n of a die runs (R73): enabled. -/
def spineEn (s : State) (d n : Nat) : Bool := fbit s (dieBase d) (Reg.Die.SPINE_EN n)

/-- f_GEN in units of 6.25 MHz / (`GEN_DIV` + 1): `SPINE_N` times (`GEN_MUL` + 1); the range of R74 for the grade, in the same
units: 100 MHz is 16, the island maximum 900 MHz is 144, 780 MHz is 124.8. -/
def genOk (s : State) (spineN mul div : Nat) : Bool :=
  let f := spineN * (mul + 1)
  decide (16 * (div + 1) ≤ f) && decide (10 * f ≤ (if s.fuses.speed = 3 then 1440 else 1248) * (div + 1))

/-- A write of 0x000 of island n's window (R74, R75, R103): the whole generator setting is checked. The generator relocks when a field
changes. -/
def generatorWrite (s : State) (n : Nat) (v : Word) : State :=
  let b := islBase n
  let sel := wfield Reg.Isl.SPINE_SEL v
  let mul := wfield Reg.Isl.GEN_MUL v
  let div := wfield Reg.Isl.GEN_DIV v
  if spliced s n && spliceRoot s n != n then fflag s b Reg.Isl.SEL_REJECT true
  else
    let selOk := spineEn s (n / 48) sel
    let sel' := if selOk then sel else fget s b Reg.Isl.SPINE_SEL
    let was := (fget s b Reg.Isl.SPINE_SEL, fget s b Reg.Isl.GEN_MUL, fget s b Reg.Isl.GEN_DIV)
    let s := if selOk then s else fflag s b Reg.Isl.SEL_REJECT true
    if genOk s (fget s (dieBase (n / 48)) (Reg.Die.SPINE_N sel')) mul div then
      let s := fset (fset (fset s b Reg.Isl.SPINE_SEL sel') b Reg.Isl.GEN_MUL mul) b Reg.Isl.GEN_DIV div
      if was = (sel', mul, div) then s else fflag s b Reg.Isl.LOCKED false
    else fflag s b Reg.Isl.GEN_BAD true

/-- The island runs: out of the hold (14 R425). -/
def islRuns (s : State) (n : Nat) : Bool := !(islGet s n).hold

/-- GENERATOR_LOCK (R75): the generator of an island that holds an image, or one written and not yet released, locks. -/
def opGeneratorLock (n : Nat) (s : State) : State :=
  if ((islGet s n).image || (islGet s n).pendRel) && !fenced s (n / 48) then fflag s (islBase n) Reg.Isl.LOCKED true else s

/-- The clock that a source field selects does not toggle (R63, R76, R81): nothing selected, a stopped spine line, or the
`RCLK_A` of an island that is held. -/
def srcStopped (s : State) (n src : Nat) : Bool :=
  match selected 16 src with
  | none => true
  | some t =>
    if 1 ≤ t ∧ t ≤ 8 then !spineEn s (n / 48) (t - 1)
    else if 11 ≤ t ∧ t ≤ 14 then (match islNbr (n % 48) (t - 11) with
      | some m => !islRuns s (n / 48 * 48 + m)
      | none => true)
    else t == 15

/-- The output of tree x of island n: the root's in a splice (R93). -/
def treeOut (s : State) (n x : Nat) : Bool := (tget {} (islGet s (spliceRoot s n)).trees x).out
/-- The level of a source clock (R76), where `f` gives the fabric clocks. -/
def clockLevel (s : State) (f : Nat → Bool) (n src : Nat) : Bool :=
  match selected 16 src with
  | none => false
  | some p =>
    if p = 0 then (islGet s n).gen.lvl
    else if p ≤ 8 then spineEn s (n / 48) (p - 1) && (tget {} s.spine (n / 48 * 8 + (p - 1))).lvl
    else if p ≤ 10 then f (p - 9)
    else if p ≤ 14 then (match islNbr (n % 48) (p - 11) with
      | some m => islRuns s (n / 48 * 48 + m) && treeOut s (n / 48 * 48 + m) 0
      | none => false)
    else false

def treeBusy (s : State) (n x : Nat) : Bool := (fget s (islBase n) Reg.Isl.SW_BUSY).testBit x
def treeGet (s : State) (n x : Nat) : TreeSt := tget {} (islGet s n).trees x

/-- Start a switch of tree x (R79): until step 1 is done the divider keeps its ratio. -/
def startSwitch (s : State) (n x src div : Nat) : State :=
  let b := islBase n
  let old := fget s b (Reg.Isl.SRC x)
  let s := fset (fset s b (Reg.Isl.SRC x) src) b (Reg.Isl.DIV x) div
  let s := fsetBit (fsetBit s b Reg.Isl.SW_BUSY x true) b Reg.Isl.SW_FORCED x false
  islUpd s n (fun i => { i with
    swOld := tset 0 i.swOld x old, swStep2 := tset false i.swStep2 x false
    trees := tmod {} i.trees x (fun t => { t with edges := 0, rises := 0, new := clockLevel s (fun _ => true) n src, seen := false }) })

/-- The running switch is stuck at step 2 (R81): its new clock does not toggle. A fabric clock and a neighbour's tree are such a clock
until they show an edge (notes/assumptions/44.md). -/
def swStuck (s : State) (n x : Nat) : Bool :=
  let src := fget s (islBase n) (Reg.Isl.SRC x)
  treeBusy s n x && tget false (islGet s n).swStep2 x &&
    (srcStopped s n src || ((match selected 16 src with
      | some t => decide (9 ≤ t)
      | none => true) && !(treeGet s n x).seen))

/-- A write replaces the target of a stuck switch, and step 2 begins again (R82). -/
def swRetarget (s : State) (n x : Nat) (v : Word) : State :=
  let b := islBase n
  let s := fset (fset s b (Reg.Isl.SRC x) (wfield (Reg.Isl.SRC x) v)) b (Reg.Isl.DIV x) (wfield (Reg.Isl.DIV x) v)
  let s := fsetBit s b Reg.Isl.SW_HELD x false
  islUpd s n (fun i => { i with
    swStep2 := tset false i.swStep2 x true, swHeld := tset none i.swHeld x none
    trees := tmod {} i.trees x (fun t =>
      { t with edges := 0, new := clockLevel s (fun _ => true) n (fget s b (Reg.Isl.SRC x)), seen := false }) })

/-- Step 1 is done: the old clock is gated off and the tree stays low (R79, R80). A write held behind a switch that is then stuck takes
its place (R82). -/
def swGate (s : State) (n x : Nat) : State :=
  let s := islUpd s n (fun i => { i with
    swStep2 := tset false i.swStep2 x true
    trees := tset {} i.trees x { new := clockLevel s (fun _ => true) n (fget s (islBase n) (Reg.Isl.SRC x)) } })
  match tget none (islGet s n).swHeld x with
  | some v => if swStuck s n x then swRetarget s n x v else s
  | none => s

/-- The switch is complete (R79 step 3): a held write starts as a new switch (R82). -/
def swFinish (s : State) (n x : Nat) (t : TreeSt) : State :=
  let b := islBase n
  let s := fsetBit s b Reg.Isl.SW_BUSY x false
  let h := tget none (islGet s n).swHeld x
  let s := islUpd s n (fun i => { i with
    swOld := tset 0 i.swOld x 0, swStep2 := tset false i.swStep2 x false, swHeld := tset none i.swHeld x none, trees := tset {} i.trees x t })
  match h with
  | none => s
  | some v => startSwitch (fsetBit s b Reg.Isl.SW_HELD x false) n x (wfield (Reg.Isl.SRC x) v) (wfield (Reg.Isl.DIV x) v)

/-- The `SRC` of a write is illegal for island n (R64, R93, R103). -/
def srcIllegal (s : State) (n src : Nat) : Bool := !selLegal 16 src (srcAbsent (n % 48)) || srcFacesMember s n src

/-- A write of 0x010 + 4 x (R77, R79, R82, R103). An illegal `SRC` is discarded and the divider still takes its value. -/
def treeWrite (s : State) (n x : Nat) (v : Word) : State :=
  let b := islBase n
  let src := wfield (Reg.Isl.SRC x) v
  let div := wfield (Reg.Isl.DIV x) v
  if spliced s n && spliceRoot s n != n then fflag s b Reg.Isl.SEL_REJECT true
  else if srcIllegal s n src then fset (fflag s b Reg.Isl.SEL_REJECT true) b (Reg.Isl.DIV x) div
  else if treeBusy s n x then
    if swStuck s n x then swRetarget s n x v
    else fsetBit (islUpd s n (fun i => { i with swHeld := tset none i.swHeld x (some v) })) b Reg.Isl.SW_HELD x true
  else if src = fget s b (Reg.Isl.SRC x) then fset s b (Reg.Isl.DIV x) div
  else startSwitch s n x src div

/-- SWITCH_COMPLETE (R79 step 3): the edges that the switch still waits for have come, and the divider starts with its ratio. A new
clock that does not toggle completes nothing (R81). -/
def opSwitchComplete (n x : Nat) (s : State) : State :=
  if treeBusy s n x && !srcStopped s n (fget s (islBase n) (Reg.Isl.SRC x)) then
    swFinish s n x { div := fget s (islBase n) (Reg.Isl.DIV x) }
  else s

/-- SWITCH_FORCE (R80): the old clock is gated off by force and the switch continues at step 2. -/
def opSwitchForce (n x : Nat) (s : State) : State :=
  if treeBusy s n x && !tget false (islGet s n).swStep2 x then swGate (fsetBit s (islBase n) Reg.Isl.SW_FORCED x true) n x
  else s

/-! ### Margin and stretch -/

/-- `THR` as it acts (R102): larger values act as 16. -/
def thrOf (s : State) (b : Nat) : Nat := min 16 (fget s b Reg.Isl.THR)
/-- `REL` as it acts: a value below `THR` acts as `THR`. -/
def relOf (s : State) (b : Nat) : Nat := max (thrOf s b) (fget s b Reg.Isl.REL)

/-- The base of the window that holds a domain's margin registers: the splice root's (R100, R102). -/
def marginBase (s : State) : ClkDom → Nat
  | .island d i => islBase (spliceRoot s (islId d i))
  | .engines d e => eisBase (eisId d e)
def domDie : ClkDom → Nat
  | .island d _ => d.val
  | .engines d _ => d.val
def domSpliced (s : State) : ClkDom → Bool
  | .island d i => spliced s (islId d i)
  | .engines _ _ => false
def relRunOf (s : State) : ClkDom → Nat
  | .island d i => (islGet s (spliceRoot s (islId d i))).relRun
  | .engines d e => (eisGet s (eisId d e)).relRun
def setRelRun (s : State) (c : ClkDom) (v : Nat) : State :=
  match c with
  | .island d i => islUpd s (spliceRoot s (islId d i)) (fun x => { x with relRun := v })
  | .engines d e => eisUpd s (eisId d e) (fun x => { x with relRun := v })
def pendStepsOf (s : State) : ClkDom → Nat
  | .island d i => (islGet s (spliceRoot s (islId d i))).pendSteps
  | .engines _ _ => 0
def pendDropOf (s : State) : ClkDom → Bool
  | .island d i => (islGet s (spliceRoot s (islId d i))).pendDrop
  | .engines _ _ => false
/-- What a splice's period leaves to take effect one period later (R100): steps to add, and whether one is released. -/
def setPend (s : State) (c : ClkDom) (v : Nat) (drop : Bool) : State :=
  match c with
  | .island d i => islUpd s (spliceRoot s (islId d i)) (fun x => { x with pendSteps := v, pendDrop := drop })
  | .engines _ _ => s

/-- The margin registers that a clear meets an event on within one period of the generator (R104). -/
def marginFresh (s : State) (b : Nat) : State := { s with fresh := tclear s.fresh ((b + 0x034) * 8) ((b + 0x040) * 8) }

/-- The end of one period with this slack: the slack registers, and the count of a stretched period (R101, R102). What a splice
requested or released one period earlier takes effect now (R100). A clear in the period that begins leaves what is counted here
(R104). -/
def periodEnd (s : State) (c : ClkDom) (slack : Nat) : State :=
  let b := marginBase s c
  let s := marginFresh s b
  let s := fset2 (fset s b Reg.Isl.SLACK_NOW slack) b Reg.Isl.SLACK_MIN (min slack (fget s b Reg.Isl.SLACK_MIN)) slack
  let s := if fget s b Reg.Isl.STEPS = 0 then s else finc s b Reg.Isl.STRETCH_CNT
  let p := pendStepsOf s c
  if p = 0 ∧ pendDropOf s c = false then s
  else setPend (fset s b Reg.Isl.STEPS (min 4 (fget s b Reg.Isl.STEPS + p) - (pendDropOf s c).toNat)) c 0 false

/-- The slack of a period is complete (R100): in a splice, when every member has reported; its value is the smallest. -/
def reportSlack (s : State) (c : ClkDom) (slack : Nat) : Option Nat × State :=
  match c with
  | .engines _ _ => (some slack, s)
  | .island d i =>
    let n := islId d i
    if !spliced s n then (some slack, s)
    else
      let r := spliceRoot s n
      let old := (islGet s r).reports
      let all := tset 0 old n (if tget 0 old n = 0 then slack + 1 else min (tget 0 old n) (slack + 1))
      if (spliceMembers s n).all (fun m => tget 0 all m != 0) then
        (some (((spliceMembers s n).map (fun m => tget 0 all m - 1)).foldl min slack), islUpd s r (fun x => { x with reports := [] }))
      else (none, islUpd s r (fun x => { x with reports := all }))

/-- A period whose slack is below `THR` (R97, R99, R100). -/
def periodLow (s : State) (c : ClkDom) (slack : Nat) : State :=
  let b := marginBase s c
  let steps := fget s b Reg.Isl.STEPS
  let s := setRelRun (periodEnd s c slack) c 0
  let s := if steps = 4 then
      exhaustionResponse (finc (fflag s b Reg.Isl.EXHAUSTED true) b Reg.Isl.EXHAUST_CNT) (domDie c)
    else s
  if !fbit s b Reg.Isl.STRETCH_EN then s
  else
    let add := (thrOf s b - slack + 3) / 4
    if domSpliced s c then setPend s c add false
    else fset s b Reg.Isl.STEPS (min 4 (fget s b Reg.Isl.STEPS + add))

/-- A period whose slack is at least `THR` (R98): the sixteenth consecutive one at or above `REL` takes one step back. -/
def periodHigh (s : State) (c : ClkDom) (slack : Nat) : State :=
  let b := marginBase s c
  let s := periodEnd s c slack
  if slack < relOf s b then setRelRun s c 0
  else if relRunOf s c + 1 < 16 then setRelRun s c (relRunOf s c + 1)
  else if domSpliced s c then setRelRun (setPend s c 0 true) c 0
  else setRelRun (fset s b Reg.Isl.STEPS (fget s b Reg.Isl.STEPS - 1)) c 0

/-- One monitor report: when it completes the period's slack, the period ends with it. -/
def stretchReport (s : State) (c : ClkDom) (slack : Nat) : State :=
  let r := reportSlack s c slack
  match r.1 with
  | none => r.2
  | some v => if v < thrOf r.2 (marginBase r.2 c) then periodLow r.2 c v else periodHigh r.2 c v

/-- STRETCH_REQUEST (R97, R99, R100): a period whose slack is below `THR`. -/
def opStretchRequest (c : ClkDom) (slack : Nat) (s : State) : State :=
  if thrOf s (marginBase s c) ≤ slack then s else stretchReport s c slack

/-- STRETCH_RELEASE (R98): a period whose slack is at least `THR`. -/
def opStretchRelease (c : ClkDom) (slack : Nat) (s : State) : State :=
  if slack < thrOf s (marginBase s c) then s else stretchReport s c slack

/-- The action of `MARGIN_CLR` (R102, R104): the clear acts first, and what this period counted stands. -/
def actMarginClr (b : Nat) (s : State) : State :=
  fwipe s b [Reg.Isl.SLACK_MIN, Reg.Isl.STRETCH_CNT, Reg.Isl.EXHAUST_CNT]

/-! ### Hitches -/

/-- Key of outgoing hitch k across edge e of island n (R84). -/
def hitchKey (n e k : Nat) : Nat := (n * 4 + e) * 24 + k
def hitchGet (s : State) (k : Nat) : HitchSt := tget {} s.hitch k
def hitchSet (s : State) (k : Nat) (h : HitchSt) : State := { s with hitch := tset {} s.hitch k h }
/-- The island across the edge, if any (R84). -/
def hitchDst (n e : Nat) : Option Nat := (islNbr (n % 48) e).map (fun m => n / 48 * 48 + m)

/-- The hitch carries words (R89, R90): both islands run, and one partition holds them. -/
def hitchLive (s : State) (n m : Nat) : Bool := islRuns s n && islRuns s m && islHolder s n == islHolder s m

/-- The destination side shows its words (R89, R90): the destination runs, and one partition holds both islands. -/
def hitchOpen (s : State) (n m : Nat) : Bool := islRuns s m && islHolder s n == islHolder s m

/-- Slots in use: words in flight, words presented and slots whose handshake has not returned (R87). -/
def hitchUsed (h : HitchSt) : Nat := h.flight.length + h.head.length + h.back

/-- The four destination cycles after the release of destination m's hold are over for its incoming hitches across edge e (R90). -/
def hitchReady (s : State) (m e : Nat) : Bool := tget 0 (islGet s m).rxWait e == 0

/-- HITCH_WRITE (R85, R87): at a source edge with `HS_VALID` = 1 and `HS_READY` = 1. In a splice the word passes to the
destination in through mode, replacing what stood there (R94). -/
def opHitchWrite (n e k : Nat) (data : BitVec 36) (s : State) : State :=
  match hitchDst n e with
  | none => s
  | some m =>
    let key := hitchKey n e k
    let h := hitchGet s key
    if !hitchLive s n m then s
    else if sameSplice s n m then hitchSet s key { h with flight := [], head := [data], back := 0 }
    else if hitchUsed h < 4 ∧ hitchReady s m (opposite e) = true then hitchSet s key { h with flight := h.flight ++ [(data, 0)] }
    else s

/-- HITCH_ARRIVE (R87): the oldest word in flight is presented. Words already written are delivered even after the source
entered a transition (R90), unless one partition no longer holds both islands (R89). -/
def opHitchArrive (n e k : Nat) (s : State) : State :=
  match hitchDst n e with
  | none => s
  | some m =>
    let key := hitchKey n e k
    let h := hitchGet s key
    match h.flight with
    | [] => s
    | w :: t => if hitchOpen s n m then hitchSet s key { h with flight := t, head := h.head ++ [w.1] } else s

/-- HITCH_TAKE (R85): at a destination edge with `HD_VALID` = 1 and `HD_TAKE` = 1; `HD_TAKE` is ignored in a splice (R94). The
word taken is the answer. -/
def opHitchTake (n e k : Nat) (s : State) : State :=
  match hitchDst n e with
  | none => s
  | some m =>
    let key := hitchKey n e k
    let h := hitchGet s key
    match h.head with
    | [] => s
    | w :: t =>
      if hitchOpen s n m && !sameSplice s n m then
        answerBytes (hitchSet s key { h with head := t, back := h.back + 1 }) .okay (natLe w.toNat 5)
      else s

/-- HITCH_SLOT_FREE (R87): the handshake of a taken slot returns. -/
def opHitchSlotFree (n e k : Nat) (s : State) : State :=
  let key := hitchKey n e k
  hitchSet s key { hitchGet s key with back := (hitchGet s key).back - 1 }

/-- The words that an island without an image or without power sent are gone (R90). -/
def dropOutgoing (s : State) (n : Nat) : State := { s with hitch := tclear s.hitch (hitchKey n 0 0) (hitchKey (n + 1) 0 0) }

/-- Add to a byte of `HITCH_DROP`, stopping at 0xFF (R102). -/
def addDrop (s : State) (n e c : Nat) : State :=
  let v := fget s (islBase n) Reg.Isl.HITCH_DROP
  let old := v / 2 ^ (8 * e) % 256
  fset s (islBase n) Reg.Isl.HITCH_DROP (v - old * 2 ^ (8 * e) + min 255 (old + c) * 2 ^ (8 * e))

/-- Island m enters a transition: its incoming hitches are emptied and the words counted at their sources (R90). -/
def emptyIncoming (s : State) (m : Nat) : State :=
  (List.range 4).foldl (fun s e =>
    match hitchDst m e with
    | none => s
    | some n =>
      let back := opposite e
      (List.range 24).foldl (fun s k =>
        let key := hitchKey n back k
        let h := hitchGet s key
        let c := h.flight.length + h.head.length
        hitchSet (if c = 0 then s else addDrop s n back c) key {}) s) s

def execGeneratorLock (d : Fin 8) (i : Fin 48) (s : State) : Out := .next (opGeneratorLock (islId d i) s)
def execSwitchComplete (d : Fin 8) (i : Fin 48) (x : Fin 4) (s : State) : Out := .next (opSwitchComplete (islId d i) x.val s)
def execSwitchForce (d : Fin 8) (i : Fin 48) (x : Fin 4) (s : State) : Out := .next (opSwitchForce (islId d i) x.val s)
def execStretchRequest (c : ClkDom) (slack : BitVec 6) (s : State) : Out := .next (opStretchRequest c slack.toNat s)
def execStretchRelease (c : ClkDom) (slack : BitVec 6) (s : State) : Out := .next (opStretchRelease c slack.toNat s)
def execHitchWrite (d : Fin 8) (i : Fin 48) (e : Edge) (k : Fin 24) (data : BitVec 36) (s : State) : Out :=
  .next (opHitchWrite (islId d i) (edgeNat e) k.val data s)
def execHitchArrive (d : Fin 8) (i : Fin 48) (e : Edge) (k : Fin 24) (s : State) : Out := .next (opHitchArrive (islId d i) (edgeNat e) k.val s)
def execHitchTake (d : Fin 8) (i : Fin 48) (e : Edge) (k : Fin 24) (s : State) : Out := .next (opHitchTake (islId d i) (edgeNat e) k.val s)
def execHitchSlotFree (d : Fin 8) (i : Fin 48) (e : Edge) (k : Fin 24) (s : State) : Out :=
  .next (opHitchSlotFree (islId d i) (edgeNat e) k.val s)

end Sys2Proof.Machine
end

