-- ==== Sys2Proof/Machine/Bram.lean ====
section
/-! DEFINITION. Block memories (04 R105 to R129): port accesses, collisions, parity and ECC, scrubbing, raw access. -/

namespace Sys2Proof.Machine

/-! ### Layout (R107) -/

/-- Row bits of a part: D bits `lo` to `lo + n - 1`. -/
def maskBits (lo n : Nat) : BitVec 36 := BitVec.ofNat 36 ((2 ^ n - 1) * 2 ^ lo)

/-- The row that an address names at a width, and the address bit above it (R107, R112). -/
def bramRow (w addr : Nat) : Nat :=
  match w with
  | 0 => addr / 32 % 1024
  | 1 => addr / 16 % 1024
  | 2 => addr / 8 % 1024
  | 3 => addr / 4 % 1024
  | 4 => addr / 2 % 1024
  | 5 => addr % 1024
  | _ => 2 * (addr % 512)
def bramUpper (w addr : Nat) : Bool :=
  match w with
  | 0 => addr.testBit 15
  | 1 => addr.testBit 14
  | 2 => addr.testBit 13
  | 3 => addr.testBit 12
  | 4 => addr.testBit 11
  | 5 => addr.testBit 10
  | _ => addr.testBit 9

/-- The word of width w that an address reads from a row (R107). -/
def bramPart (w addr : Nat) (row : BitVec 36) : BitVec 36 :=
  let v := row.toNat
  let d (lo n : Nat) : Nat := v / 2 ^ lo % 2 ^ n
  BitVec.ofNat 36 (match w with
    | 0 => d (addr % 32) 1
    | 1 => d (2 * (addr % 16)) 2
    | 2 => d (4 * (addr % 8)) 4
    | 3 => d (8 * (addr % 4)) 8 + 256 * d (32 + addr % 4) 1
    | 4 => d (16 * (addr % 2)) 16 + 65536 * d (32 + 2 * (addr % 2)) 2
    | _ => v)

/-- Even parity bits of the four data bytes of a row, in bits 32 to 35 (R114). -/
def rowParity (row : BitVec 36) : BitVec 36 :=
  BitVec.ofNat 36 (((List.range 4).map (fun k => if parityOf 8 (row.toNat / 2 ^ (8 * k)) then 2 ^ (32 + k) else 0)).sum)
/-- Ninth bits replaced by hardware parity. -/
def withParity (row : BitVec 36) : BitVec 36 := (row &&& 0xFFFFFFFF) ||| rowParity row
/-- Bytes of a mask of row bits whose stored parity fails. -/
def parityFails (row : BitVec 36) (bytes : List Nat) : Bool :=
  bytes.any (fun k => row.getLsbD (32 + k) != (rowParity row).getLsbD (32 + k))
/-- Bytes that a read of width w touches. -/
def bramBytes (w addr : Nat) : List Nat :=
  match w with
  | 3 => [addr % 4]
  | 4 => [2 * (addr % 2), 2 * (addr % 2) + 1]
  | _ => [0, 1, 2, 3]

/-- The row bits that byte enables write at a width (R109), and the data in place. -/
def bramWMask (w addr : Nat) (we : BitVec 4) : BitVec 36 :=
  let byteM (k : Nat) : BitVec 36 := maskBits (8 * k) 8 ||| maskBits (32 + k) 1
  match w with
  | 0 => if we.getLsbD 0 then maskBits (addr % 32) 1 else 0
  | 1 => if we.getLsbD 0 then maskBits (2 * (addr % 16)) 2 else 0
  | 2 => if we.getLsbD 0 then maskBits (4 * (addr % 8)) 4 else 0
  | 3 => if we.getLsbD 0 then byteM (addr % 4) else 0
  | 4 => (if we.getLsbD 0 then byteM (2 * (addr % 2)) else 0) ||| (if we.getLsbD 1 then byteM (2 * (addr % 2) + 1) else 0)
  | _ => ((List.range 4).filter (fun k => we.getLsbD k)).foldl (fun m k => m ||| byteM k) 0
def bramWData (w addr : Nat) (din : BitVec 36) : BitVec 36 :=
  let v := din.toNat
  BitVec.ofNat 36 (match w with
    | 0 => v % 2 * 2 ^ (addr % 32)
    | 1 => v % 4 * 2 ^ (2 * (addr % 16))
    | 2 => v % 16 * 2 ^ (4 * (addr % 8))
    | 3 => v % 256 * 2 ^ (8 * (addr % 4)) + v / 256 % 2 * 2 ^ (32 + addr % 4)
    | 4 => v % 65536 * 2 ^ (16 * (addr % 2)) + v / 65536 % 4 * 2 ^ (32 + 2 * (addr % 2))
    | _ => v)
/-- A row with masked bits replaced; in parity mode the written bytes take their hardware parity (R114). -/
def bramMerge (par : Bool) (w : Nat) (old m d : BitVec 36) : BitVec 36 :=
  let r := (old &&& ~~~m) ||| (d &&& m)
  if par && decide (3 ≤ w) then (r &&& ~~~(m &&& 0xF00000000)) ||| (rowParity r &&& m) else r

/-! ### Errors -/

def bramRowGet (b : BramSt) (r : Nat) : BitVec 36 := tget 0 b.rows r
/-- Write a row of the array; a user write drops a waiting correction of that word (R123). -/
def bramRowSet (ecc : Bool) (b : BramSt) (r : Nat) (v : BitVec 36) : BramSt :=
  let hit := match b.fix with
    | none => false
    | some f => if ecc then f.1 / 2 == r / 2 else f.1 == r
  { b with rows := tset 0 b.rows r v, fix := if hit then none else b.fix }

/-- Count and record an error of block n of island i (R127): kind 0 corrected, 1 uncorrectable, 2 parity. -/
def bramError (s : State) (i n row kind : Nat) (scrub : Bool) : State :=
  let b := islBase i
  let s := finc s b (if kind = 0 then Reg.Isl.SBE_CNT else Reg.Isl.DBE_CNT)
  let s := fset (fset (fset s b Reg.Isl.ERR_BLOCK n) b Reg.Isl.ERR_ROW row) b Reg.Isl.ERR_KIND kind
  fflag (fflag s b Reg.Isl.BY_SCRUB scrub) b Reg.Isl.ERR_VALID true

/-- The 64 data bits and 8 check bits of an ECC word from its two rows (R115). -/
def eccData (lo hi : BitVec 36) : Nat := lo.toNat % 2 ^ 32 + 2 ^ 32 * (hi.toNat % 2 ^ 32)
def eccChk (lo hi : BitVec 36) : Nat := lo.toNat / 2 ^ 32 + 16 * (hi.toNat / 2 ^ 32)
def eccDecode (lo hi : BitVec 36) : SecOut := secDecode pos64 7 (eccData lo hi) (eccChk lo hi)
/-- The two rows of an ECC word. -/
def eccRows (data : Nat) : BitVec 36 × BitVec 36 :=
  let c := secCheck pos64 7 data
  (BitVec.ofNat 36 (data % 2 ^ 32 + 2 ^ 32 * (c % 16)), BitVec.ofNat 36 (data / 2 ^ 32 % 2 ^ 32 + 2 ^ 32 * (c / 16)))

/-! ### Port accesses -/

/-- Present a read on a port (R109, R110): through the output register with `DOREG` = 1. `RST` clears what is presented; the spec names
`DOUT`, `SBE`, `DBE` and `PERR`, and `COLLIDE` goes with the read it marks (DESIGN CHOICE, notes/assumptions/47.md). -/
def presentOut (dor rst : Bool) (pre new : PortOut) : PortOut × PortOut :=
  if dor then (if rst then {} else pre, new) else (if rst then {} else new, pre)

/-- The port has a clock (R119) and is enabled. -/
def portOn (clk : Nat) (x : Option BramIn) : Option BramIn :=
  match x with
  | some p => if (selected 4 clk).isSome && p.en then some p else none
  | none => none

/-- One port's side of a true dual-port access: its row, write mask and data, and what it reads from the row as it stood. -/
structure PortAcc where
  key : Nat
  row : Nat
  mask : BitVec 36
  data : BitVec 36
  old : BitVec 36
  deriving DecidableEq, Repr

def portAcc (s : State) (isl n : Nat) (c : BramCfg) (w : Nat) (p : BramIn) : PortAcc :=
  let a := p.addr.toNat
  let k := bramKey isl (if c.cascade = 1 ∧ bramUpper w a then n + 1 else n)
  let r := bramRow w a
  ⟨k, r, bramWMask w a p.we, bramWData w a p.din, bramRowGet (bramGet s k) r⟩

/-- What a port's `DOUT` presents for its own access (R111); `none` holds. -/
def portRead (c : BramCfg) (w rdw : Nat) (p : BramIn) (x : PortAcc) (collide : Bool) : Option PortOut :=
  let writes := x.mask != 0
  if writes && rdw == 2 then none
  else
    let src := if writes && rdw == 1 then bramMerge c.par w x.old x.mask x.data else x.old
    let perr := c.par && decide (3 ≤ w) && parityFails src (bramBytes w p.addr.toNat)
    some { dout := bramPart w p.addr.toNat src, collide := collide, sbe := perr }

/-- A port's new outputs, and the count of a parity failure of block `blk` (R114), also of a read that `RST` does not present
(DESIGN CHOICE, notes/assumptions/47.md). With `DOREG` = 1, `HOLD_OUT` holds the stage before the register (DESIGN CHOICE,
notes/assumptions/47.md). -/
def portPresent (s : State) (isl n blk : Nat) (portB dor rst collide count : Bool) (row : Nat) (rd : Option PortOut) : State :=
  let k := bramKey isl n
  let b := bramGet s k
  let out := if portB then b.outB else b.outA
  let pre := if portB then b.preB else b.preA
  match rd with
  | none =>
    let q := presentOut dor rst pre { out with collide := collide }
    let q := if dor then (if rst then {} else pre, { pre with collide := collide }) else q
    bramSet s k (if portB then { b with outB := q.1, preB := q.2 } else { b with outA := q.1, preA := q.2 })
  | some v =>
    let q := presentOut dor rst pre v
    let s := bramSet s k (if portB then { b with outB := q.1, preB := q.2 } else { b with outA := q.1, preA := q.2 })
    if v.sbe && count then bramError s isl blk row 2 false else s

/-- True dual-port accesses at edges no more than 1.0 ns apart (R109, R113); `cnt` says of which ports errors are counted. Where both
write, each port's `DOUT` presents its own view of its write, and `COLLIDE` marks port B alone (DESIGN CHOICE,
notes/assumptions/47.md). -/
def bramTdp (s : State) (isl n : Nat) (c : BramCfg) (pa pb : Option BramIn) (cnt : Bool × Bool) : State :=
  let xa := pa.map (portAcc s isl n c c.widthA)
  let xb := pb.map (portAcc s isl n c c.widthB)
  let meet := match xa, xb with
    | some a, some b => a.key == b.key && a.row == b.row
    | _, _ => false
  let wrote (x : Option PortAcc) : Bool := match x with
    | some a => a.mask != 0
    | none => false
  let s := match xb with
    | some b => if b.mask = 0 then s else bramSet s b.key (bramRowSet false (bramGet s b.key) b.row (bramMerge c.par c.widthB b.old b.mask b.data))
    | none => s
  let s := match xa with
    | some a => if a.mask = 0 then s
        else bramSet s a.key (bramRowSet false (bramGet s a.key) a.row
          (bramMerge c.par c.widthA (bramRowGet (bramGet s a.key) a.row) a.mask a.data))
    | none => s
  let s := match pa, xa with
    | some p, some x =>
      let col := meet && wrote xb && !wrote xa
      portPresent s isl n (x.key % 64) false c.doregA p.rst col cnt.1 x.row (portRead c c.widthA c.rdwA p x col)
    | _, _ => s
  match pb, xb with
  | some p, some x =>
    let col := meet && wrote xa
    portPresent s isl n (x.key % 64) true c.doregB p.rst col cnt.2 x.row (portRead c c.widthB c.rdwB p x col)
  | _, _ => s

/-- The write side of a simple dual-port access (R108, R114, R115, R117): port A's address and enable, both ports' data. -/
def bramSdpWrite (s : State) (isl n : Nat) (c : BramCfg) (a : BramIn) (b : BramIn) : State :=
  let k := bramKey isl (if c.cascade = 1 ∧ bramUpper 6 a.addr.toNat then n + 1 else n)
  let r := bramRow 6 a.addr.toNat
  let we := a.we.toNat + 16 * b.we.toNat
  let m := bramGet s k
  let kn := bramKey isl n
  if c.ecc then
    if we = 0 then bramSet s kn { bramGet s kn with outA := { (bramGet s kn).outA with bwe := false } }
    else if we = 255 then
      let rows := eccRows (a.din.toNat % 2 ^ 32 + 2 ^ 32 * (b.din.toNat % 2 ^ 32))
      let s := bramSet s k (bramRowSet true (bramRowSet true m r rows.1) (r + 1) rows.2)
      bramSet s kn { bramGet s kn with outA := { (bramGet s kn).outA with bwe := false } }
    else
      let s := bramSet s kn { bramGet s kn with outA := { (bramGet s kn).outA with bwe := true } }
      finc s (islBase isl) Reg.Isl.BWE_CNT
  else
    let lo := bramMerge c.par 6 (bramRowGet m r) (bramWMask 5 0 a.we) a.din
    let hi := bramMerge c.par 6 (bramRowGet m (r + 1)) (bramWMask 5 0 b.we) b.din
    let m := if a.we = 0 then m else bramRowSet false m r lo
    bramSet s k (if b.we = 0 then m else bramRowSet false m (r + 1) hi)

/-- The read side of a simple dual-port access, from the rows as they stood (R108, R114 to R116). `DOREG_B` governs both halves of
the word (DESIGN CHOICE, notes/assumptions/47.md). -/
def bramSdpRead (s0 s : State) (isl n : Nat) (c : BramCfg) (b : BramIn) (collide count : Bool) : State :=
  let blk := if c.cascade = 1 ∧ bramUpper 6 b.addr.toNat then n + 1 else n
  let k := bramKey isl blk
  let r := bramRow 6 b.addr.toNat
  let lo := bramRowGet (bramGet s0 k) r
  let hi := bramRowGet (bramGet s0 k) (r + 1)
  let x := eccDecode lo hi
  let perr := !c.ecc && c.par && (parityFails lo [0, 1, 2, 3] || parityFails hi [0, 1, 2, 3])
  let dlo := if c.ecc then (lo &&& 0xF00000000) ||| BitVec.ofNat 36 (x.data % 2 ^ 32) else lo
  let dhi := if c.ecc then (hi &&& 0xF00000000) ||| BitVec.ofNat 36 (x.data / 2 ^ 32) else hi
  let kn := bramKey isl n
  let m := bramGet s kn
  let qa := presentOut c.doregB b.rst m.preA { dout := dlo, bwe := m.outA.bwe }
  let qb := presentOut c.doregB b.rst m.preB { dout := dhi, collide := collide, sbe := (c.ecc && x.sbe) || perr, dbe := c.ecc && x.dbe }
  let s := bramSet s kn { m with outA := { qa.1 with bwe := m.outA.bwe }, preA := qa.2, outB := qb.1, preB := qb.2 }
  if !count then s
  else if c.ecc && x.sbe then bramError s isl blk r 0 false
  else if c.ecc && x.dbe then bramError s isl blk r 1 false
  else if perr then bramError s isl blk (if parityFails lo [0, 1, 2, 3] then r else r + 1) 2 false
  else s

/-- An edge of port A without a refused write ends `BWE_ERR` (R117). -/
def bweEnd (s : State) (isl n : Nat) : State :=
  let k := bramKey isl n
  bramSet s k { bramGet s k with outA := { (bramGet s k).outA with bwe := false } }

/-- Accesses of the ports of a block. In simple dual-port mode port B's data and byte enables `bd` belong to the write (R108). An upper
block of a cascaded pair has no ports of its own (R112), and ports of a held island are idle (R121). -/
def bramAccess (isl n : Nat) (a : Option BramIn) (bd : BramIn) (b : Option BramIn) (cnt : Bool × Bool) (s : State) : State :=
  let c := cfgBram s isl n
  if !islRuns s isl || c.cascade == 2 then s
  else if c.sdp then
    let w := portOn c.clkA a
    let r := portOn c.clkB b
    let s' := match w with
      | some p => bramSdpWrite s isl n c p bd
      | none => if a.isSome && (bramGet s (bramKey isl n)).outA.bwe then bweEnd s isl n else s
    match r with
    | some p =>
      let col := match w with
        | some x => decide (x.addr.toNat % 512 = p.addr.toNat % 512) && (c.cascade != 1 || bramUpper 6 x.addr.toNat == bramUpper 6 p.addr.toNat) &&
            (x.we != 0 || bd.we != 0) && !(c.ecc && (x.we.toNat + 16 * bd.we.toNat != 255))
        | none => false
      bramSdpRead s s' isl n c p col cnt.2
    | none => s'
  else bramTdp s isl n c (portOn c.clkA a) (portOn c.clkB b) cnt

/-- BRAM_PORT_ACCESS: edges of the two ports that meet. -/
def opBramPortAccess (isl n : Nat) (a b : Option BramIn) (s : State) : State :=
  bramAccess isl n a (b.getD ⟨0, 0, 0, false, false⟩) b (true, true) s

/-- Block and first row that a port's address names. -/
def bramSpot (s : State) (isl n : Nat) (portB : Bool) (x : BramIn) : Nat × Nat :=
  let c := cfgBram s isl n
  let w := if c.sdp then 6 else if portB then c.widthB else c.widthA
  (bramKey isl (if c.cascade = 1 ∧ bramUpper w x.addr.toNat then n + 1 else n), bramRow w x.addr.toNat)
/-- The rows at such a place: two in simple dual-port mode. -/
def bramRowsAt (s : State) (isl n : Nat) (p : Nat × Nat) : List (BitVec 36) :=
  if (cfgBram s isl n).sdp then [bramRowGet (bramGet s p.1) p.2, bramRowGet (bramGet s p.1) (p.2 + 1)] else [bramRowGet (bramGet s p.1) p.2]
/-- Put rows back as they stood. -/
def bramRowsPut (s : State) (p : Nat × Nat) (l : List (BitVec 36)) : State :=
  bramSet s p.1 { bramGet s p.1 with rows := tput 0 (bramGet s p.1).rows p.2 l }
/-- Output and stage of a port. -/
def portOut (m : BramSt) (portB : Bool) : PortOut × PortOut := if portB then (m.outB, m.preB) else (m.outA, m.preA)
def putPortOut (m : BramSt) (portB : Bool) (q : PortOut × PortOut) : BramSt :=
  if portB then { m with outB := q.1, preB := q.2 } else { m with outA := q.1, preA := q.2 }

/-- The other port's access that an edge at time t meets (R113): at most 1.0 ns earlier, in the same place, with nothing written there
since. -/
def bramMet (s : State) (isl n t : Nat) (portB : Bool) (x : BramIn) : Option BramRec :=
  match tget none s.recent (2 * bramKey isl n + (!portB).toNat) with
  | none => none
  | some r =>
    let p := bramSpot s isl n (!portB) r.inp
    if x.en && decide (t ≤ r.time + 4) && bramSpot s isl n portB x == p && bramRowsAt s isl n p == r.after then some r else none

/-- Keep a port's access for edges of the other port to meet. -/
def bramKeep (s0 s : State) (isl n t : Nat) (portB : Bool) (x bd : BramIn) : State :=
  let k := bramKey isl n
  if !x.en then s
  else
    let p := bramSpot s isl n portB x
    let q := portOut (bramGet s0 k) portB
    { s with recent := tset none s.recent (2 * k + portB.toNat) (some ⟨t, x, bd, bramRowsAt s0 isl n p, bramRowsAt s isl n p, q.1, q.2⟩) }

/-- The ports of a block at the edges of time t (R109, R113): an edge that meets the other port's earlier one has the outcome of both
at one edge. -/
def bramEdges (isl n t : Nat) (a b : Option BramIn) (bd : BramIn) (s : State) : State :=
  let k := bramKey isl n
  let back (r : BramRec) (portB : Bool) : State :=
    let s := bramRowsPut s (bramSpot s isl n portB r.inp) r.before
    bramSet s k (putPortOut (bramGet s k) portB (r.out, r.pre))
  match a, b with
  | some x, some y => bramKeep s (bramKeep s (bramAccess isl n a bd b (true, true) s) isl n t false x bd) isl n t true y bd
  | some x, none =>
    bramKeep s (match bramMet s isl n t false x with
      | some r => bramAccess isl n a bd (some r.inp) (true, false) (back r true)
      | none => bramAccess isl n a bd none (true, true) s) isl n t false x bd
  | none, some y =>
    bramKeep s (match bramMet s isl n t true y with
      | some r => bramAccess isl n (some r.inp) r.inpB b (false, true) (back r false)
      | none => bramAccess isl n none bd b (true, true) s) isl n t true y bd
  | none, none => s

/-! ### Scrubbing (R123 to R125) -/

/-- R123 as it is worded: also with both widths below 3, where `PAR_MODE` has no effect on the ports (R114), the rows are checked
(DESIGN CHOICE, notes/assumptions/47.md). -/
def scrubbed (c : BramCfg) : Bool := c.ecc || c.par
/-- Port B of a block has a clock (R112, R119): that of the lower block clocks both of a cascaded pair. -/
def clockB (s : State) (isl n : Nat) : Bool :=
  (selected 4 (if (cfgBram s isl n).cascade = 2 then (cfgBram s isl (n - 1)).clkB else (cfgBram s isl n).clkB)).isSome
def scrubWords (c : BramCfg) : Nat := if c.ecc then 512 else 1024

/-- The lap of an island ends when every scrubbed block has completed its pass (R125); its length is taken by the timing unit. -/
def lapCheck (s : State) (isl : Nat) : State :=
  let ns := (List.range 50).filter (fun n => scrubbed (cfgBram s isl n))
  if !ns.isEmpty && ns.all (fun n => (bramGet s (bramKey isl n)).lapDone) then
    let now := usCount s.tim
    let s := fset s (islBase isl) Reg.Isl.SCRUB_LAP (min (now - (islGet s isl).lapStart) 0xFFFFFF)
    let s := islUpd s isl (fun x => { x with lapStart := now })
    ns.foldl (fun s n => bramSet s (bramKey isl n) { bramGet s (bramKey isl n) with lapDone := false, skipped := false }) s
  else s

/-- BRAM_SCRUB_STEP (R123): the next word is read and checked. A block whose pass is complete before the lap ends begins its next pass,
which counts for the next lap (DESIGN CHOICE, notes/assumptions/47.md); one skipped in this lap makes no step (R125). -/
def opBramScrubStep (isl n : Nat) (s : State) : State :=
  let c := cfgBram s isl n
  if !(islRuns s isl && scrubbed c && fbit s (islBase isl) Reg.Isl.SCRUB_EN && clockB s isl n) ||
      (bramGet s (bramKey isl n)).skipped then s
  else
    let k := bramKey isl n
    let m := bramGet s k
    let w := m.scrub
    let last := decide (scrubWords c ≤ w + 1)
    let m' := { m with scrub := if last then 0 else w + 1, lapDone := m.lapDone || last }
    let s := if c.ecc then
        let lo := bramRowGet m (2 * w)
        let hi := bramRowGet m (2 * w + 1)
        let x := eccDecode lo hi
        let rows := eccRows x.data
        if x.sbe then bramError (bramSet s k { m' with fix := some (2 * w, rows.1, rows.2) }) isl n (2 * w) 0 true
        else if x.dbe then bramError (bramSet s k m') isl n (2 * w) 1 true
        else bramSet s k m'
      else if parityFails (bramRowGet m w) [0, 1, 2, 3] then bramError (bramSet s k m') isl n w 2 true
      else bramSet s k m'
    if last then lapCheck s isl else s

/-- BRAM_SCRUB_WRITEBACK (R123): the corrected word is written; a write that reached it has dropped it. -/
def opBramScrubWriteback (isl n : Nat) (s : State) : State :=
  let k := bramKey isl n
  let m := bramGet s k
  match m.fix with
  | none => s
  | some f => bramSet s k { m with rows := tset 0 (tset 0 m.rows f.1 f.2.1) (f.1 + 1) f.2.2, fix := none }

/-- BRAM_SCRUB_SKIP (R125). -/
def opBramScrubSkip (isl n : Nat) (s : State) : State :=
  if islRuns s isl && scrubbed (cfgBram s isl n) then
    let k := bramKey isl n
    lapCheck (finc (bramSet s k { bramGet s k with scrub := 0, lapDone := true, skipped := true }) (islBase isl) Reg.Isl.SCRUB_SKIP) isl
  else s

/-! ### Raw access (R126) -/

/-- The action of `GO`. -/
def actBramRawGo (isl : Nat) (s : State) : State :=
  let b := islBase isl
  if fbit s b Reg.Isl.RAW_BUSY then s
  else if 49 < fget s b Reg.Isl.BLOCK then fflag s b Reg.Isl.RAW_TIMEOUT true
  else fflag s b Reg.Isl.RAW_BUSY true

/-- BRAM_RAW_ACCESS: an idle cycle of port B's clock; a `BLOCK` written since `GO` is held to the same limit. -/
def opBramRawAccess (isl : Nat) (s : State) : State :=
  let b := islBase isl
  if !fbit s b Reg.Isl.RAW_BUSY then s
  else if 49 < fget s b Reg.Isl.BLOCK then fflag (fflag s b Reg.Isl.RAW_BUSY false) b Reg.Isl.RAW_TIMEOUT true
  else if !clockB s isl (fget s b Reg.Isl.BLOCK) || decide (80 < (islGet s isl).rel) then s
  else
    let n := fget s b Reg.Isl.BLOCK
    let r := fget s b Reg.Isl.ROW
    let k := bramKey isl n
    let s := fflag (fflag s b Reg.Isl.RAW_BUSY false) b Reg.Isl.RAW_DONE true
    if fbit s b Reg.Isl.WRITE then
      bramSet s k (bramRowSet (cfgBram s isl n).ecc (bramGet s k) r (BitVec.ofNat 36 (fget s b Reg.Isl.RAW_D + 2 ^ 32 * fget s b Reg.Isl.RAW_P)))
    else
      let v := (bramRowGet (bramGet s k) r).toNat
      fset (fset s b Reg.Isl.RAW_D (v % 2 ^ 32)) b Reg.Isl.RAW_P (v / 2 ^ 32)

/-- BRAM_RAW_TIMEOUT. -/
def opBramRawTimeout (isl : Nat) (s : State) : State :=
  let b := islBase isl
  if fbit s b Reg.Isl.RAW_BUSY then fflag (fflag s b Reg.Isl.RAW_BUSY false) b Reg.Isl.RAW_TIMEOUT true else s

/-- The action of `MEM_CLR` (R127, R128). -/
def actMemClr (isl : Nat) (s : State) : State := csrWipe s (islBase isl + 0x104) (islBase isl + 0x118)

/-- Load the initial contents of an island's blocks (R121). -/
def bramLoadInit (s : State) (isl : Nat) : State :=
  (List.range 50).foldl (fun s n =>
    let used := (List.range 9).any (fun j => (frameGet s (frameKey isl (1500 + 9 * n + j))).data != 0)
    let rows := if used then ((List.range 1024).map (fun r => (r, cfgBramRow s isl n r))).filter (fun p => p.2 != 0) else []
    bramSet s (bramKey isl n) { rows := rows }) s

/-- Contents lost: every row reads as zero at the next release (R122). -/
def bramLose (s : State) (isl : Nat) : State := { s with bram := tclear s.bram (bramKey isl 0) (bramKey isl 0 + 64) }

def execBramPortAccess (d : Fin 8) (i : Fin 48) (n : Fin 50) (a b : Option BramIn) (s : State) : Out :=
  .next (opBramPortAccess (islId d i) n.val a b s)
def execBramScrubStep (d : Fin 8) (i : Fin 48) (n : Fin 50) (s : State) : Out := .next (opBramScrubStep (islId d i) n.val s)
def execBramScrubWriteback (d : Fin 8) (i : Fin 48) (n : Fin 50) (s : State) : Out := .next (opBramScrubWriteback (islId d i) n.val s)
def execBramScrubSkip (d : Fin 8) (i : Fin 48) (n : Fin 50) (s : State) : Out := .next (opBramScrubSkip (islId d i) n.val s)
def execBramRawAccess (d : Fin 8) (i : Fin 48) (s : State) : Out := .next (opBramRawAccess (islId d i) s)
def execBramRawTimeout (d : Fin 8) (i : Fin 48) (s : State) : Out := .next (opBramRawTimeout (islId d i) s)

end Sys2Proof.Machine
end

