-- ==== Sys2Proof/Machine/Crypt.lean ====
section
/-! DEFINITION. The cryptography of the memory security engine (11 R309, R310, R322): AES-256 (FIPS 197), AES-CMAC (SP 800-38B),
the KDF in counter mode (SP 800-108) and XTS-AES-256 (IEEE 1619). Blocks are lists of 16 bytes, byte 0 first. -/

namespace Sys2Proof.Machine

/-- Multiplication by x in the field of FIPS 197. -/
def aesX (b : Byte) : Byte := (b <<< 1) ^^^ (if b.getLsbD 7 then 0x1B else 0)
def aesMul (a b : Byte) : Byte :=
  ((List.range 8).foldl (fun (p : Byte × Byte) i => (if b.getLsbD i then p.1 ^^^ p.2 else p.1, aesX p.2)) (0, a)).1
/-- The inverse, a^254; 0 gives 0. -/
def aesInv (a : Byte) : Byte :=
  ((List.range 7).foldl (fun (p : Byte × Byte) _ => let q := aesMul p.2 p.2; (aesMul p.1 q, q)) (1, a)).1
def rot8 (b : Byte) (n : Nat) : Byte := b.rotateLeft n
def aesS (a : Byte) : Byte :=
  let b := aesInv a
  b ^^^ rot8 b 1 ^^^ rot8 b 2 ^^^ rot8 b 3 ^^^ rot8 b 4 ^^^ 0x63
def aesSInv (b : Byte) : Byte := aesInv (rot8 b 1 ^^^ rot8 b 3 ^^^ rot8 b 6 ^^^ 0x05)

def xorBytes (a b : List Byte) : List Byte := (a.zip b).map (fun p => p.1 ^^^ p.2)
def word4 (w : List Byte) (i : Nat) : List Byte := (w.drop (4 * i)).take 4

/-- Round constants of the key expansion. -/
def aesRcon (n : Nat) : Byte := (List.range n).foldl (fun b _ => aesX b) 1

/-- Key expansion of a 32-byte key to 240 bytes. -/
def aesExpand (key : List Byte) : List Byte :=
  (List.range 52).foldl (fun w j =>
    let i := j + 8
    let t := word4 w (i - 1)
    let t := if i % 8 = 0 then
        let r := (t.drop 1 ++ t.take 1).map aesS
        match r with
        | h :: q => (h ^^^ aesRcon (i / 8 - 1)) :: q
        | [] => []
      else if i % 8 = 4 then t.map aesS else t
    w ++ xorBytes (word4 w (i - 8)) t) key

def aesShift (st : List Byte) : List Byte := (List.range 16).map (fun i => st.getD (i % 4 + 4 * ((i / 4 + i % 4) % 4)) 0)
def aesShiftInv (st : List Byte) : List Byte := (List.range 16).map (fun i => st.getD (i % 4 + 4 * ((i / 4 + 4 - i % 4) % 4)) 0)
/-- A column mixed with the coefficients `c` of row 0, rotated for the rows below. -/
def aesMixWith (c : List Byte) (st : List Byte) : List Byte :=
  (List.range 16).map (fun i => (List.range 4).foldl (fun b k =>
    b ^^^ aesMul (c.getD ((k + 4 - i % 4) % 4) 0) (st.getD (i / 4 * 4 + k) 0)) 0)
def aesMix (st : List Byte) : List Byte := aesMixWith [2, 3, 1, 1] st
def aesMixInv (st : List Byte) : List Byte := aesMixWith [14, 11, 13, 9] st
def roundKey (w : List Byte) (r : Nat) : List Byte := (w.drop (16 * r)).take 16

/-- AES-256 of one block under an expanded key. -/
def aesEncW (w st : List Byte) : List Byte :=
  let st := (List.range 13).foldl (fun st r => xorBytes (aesMix (aesShift (st.map aesS))) (roundKey w (r + 1))) (xorBytes st (roundKey w 0))
  xorBytes (aesShift (st.map aesS)) (roundKey w 14)
def aesDecW (w st : List Byte) : List Byte :=
  let st := (List.range 13).foldl (fun st r => aesMixInv (xorBytes ((aesShiftInv st).map aesSInv) (roundKey w (13 - r))))
    (xorBytes st (roundKey w 14))
  xorBytes ((aesShiftInv st).map aesSInv) (roundKey w 0)

/-- Bytes of a number, most significant first. -/
def natBe (v n : Nat) : List Byte := (natLe v n).reverse
def beNat (b : List Byte) : Nat := leNat b.reverse

/-- The doubling of CMAC (SP 800-38B). -/
def cmacDbl (b : List Byte) : List Byte :=
  let v := beNat b
  natBe ((v * 2 % 2 ^ 128) ^^^ (if 2 ^ 127 ≤ v then 0x87 else 0)) 16

/-- CMAC over the blocks of a message; the last block is treated apart. `n` bounds the number of blocks. -/
def cmacGo (w k1 k2 : List Byte) : Nat → List Byte → List Byte → List Byte
  | 0, c, _ => c
  | n + 1, c, m =>
    if m.length ≤ 16 then
      let l := if m.length = 16 then xorBytes m k1 else xorBytes ((m ++ [0x80]) ++ List.replicate (15 - m.length) 0) k2
      aesEncW w (xorBytes c l)
    else cmacGo w k1 k2 n (aesEncW w (xorBytes c (m.take 16))) (m.drop 16)

/-- AES-CMAC under a 32-byte key. -/
def cmac (key m : List Byte) : List Byte :=
  let w := aesExpand key
  let k1 := cmacDbl (aesEncW w (List.replicate 16 0))
  cmacGo w k1 (cmacDbl k1) (m.length / 16 + 1) (List.replicate 16 0) m

/-- The label "SZ9680-MEM". -/
def kdfLabel : List Byte := [0x53, 0x5A, 0x39, 0x36, 0x38, 0x30, 0x2D, 0x4D, 0x45, 0x4D]

/-- Key material K(1) to K(6) for a page number and major counter (R309): 96 bytes. -/
def kdf (km : BitVec 256) (pn major : Nat) : List Byte :=
  let key := natLe km.toNat 32
  (List.range 6).flatMap (fun j => cmac key (natBe (j + 1) 4 ++ kdfLabel ++ [0x00] ++ natBe pn 8 ++ natBe major 8 ++ [0, 0, 3, 0]))

/-- The three keys of a key set (R309). -/
structure KeySet where
  k1 : List Byte
  k2 : List Byte
  kmac : List Byte
def keySet (km : BitVec 256) (pn major : Nat) : KeySet :=
  let b := kdf km pn major
  ⟨b.take 32, (b.drop 32).take 32, b.drop 64⟩

/-- Multiplication by x of an XTS tweak, little-endian (IEEE 1619). -/
def xtsDbl (t : List Byte) : List Byte :=
  let v := leNat t
  natLe ((v * 2 % 2 ^ 128) ^^^ (if 2 ^ 127 ≤ v then 0x87 else 0)) 16

/-- XTS over four blocks with the block cipher `f` (R310); LN is the line number. -/
def xtsLine (f : List Byte → List Byte) (k2 : List Byte) (ln : Nat) (data : BitVec 512) : BitVec 512 :=
  let t0 := aesEncW (aesExpand k2) (natLe ln 16)
  let bs := natLe data.toNat 64
  let out := (List.range 4).foldl (fun (p : List Byte × List Byte) j =>
    (p.1 ++ xorBytes (f (xorBytes ((bs.drop (16 * j)).take 16) p.2)) p.2, xtsDbl p.2)) (([] : List Byte), t0)
  BitVec.ofNat 512 (leNat out.1)
def xtsEnc (k : KeySet) (ln : Nat) (data : BitVec 512) : BitVec 512 := xtsLine (aesEncW (aesExpand k.k1)) k.k2 ln data
def xtsDec (k : KeySet) (ln : Nat) (data : BitVec 512) : BitVec 512 := xtsLine (aesDecW (aesExpand k.k1)) k.k2 ln data

/-- A tag: the first 8 bytes of a CMAC, byte 0 lowest (R322, R318). -/
def tag64 (key m : List Byte) : BitVec 64 := BitVec.ofNat 64 (leNat ((cmac key m).take 8))
/-- The line tag, or the poison tag with `poison` set (R322). -/
def lineTag (k : KeySet) (cipher : BitVec 512) (ln minor : Nat) (poison : Bool) : BitVec 64 :=
  tag64 k.kmac (natLe cipher.toNat 64 ++ natBe ln 8 ++ [BitVec.ofNat 8 (minor + (if poison then 0x80 else 0))])
/-- The tag of a counter block: 64 bytes, its address, the parent `CTR` (R322). -/
def blockTag (kt : List Byte) (block : BitVec 512) (addr ctr : Nat) : BitVec 64 :=
  tag64 kt (natLe block.toNat 64 ++ natBe addr 8 ++ natBe ctr 7)
/-- The tag of a node: its lower 448 bits, its address, the parent `CTR` (R322). -/
def nodeTag (kt : List Byte) (node : BitVec 512) (addr ctr : Nat) : BitVec 64 :=
  tag64 kt (natLe (node.toNat % 2 ^ 448) 56 ++ natBe addr 8 ++ natBe ctr 7)

end Sys2Proof.Machine
end

