-- ==== Sys2Proof/Machine/Ddr.lean ====
section
/-! DEFINITION. The DDR5 controllers: check code, address mapping, queues, refresh, self-refresh, patrol and training helpers
(10 R277 to R303). A line is numbered n * 2^30 + A[35:6] for channel n, which is bits [38:6] of the system address. -/

namespace Sys2Proof.Machine

/-! ### The check code (R282, R283) -/

/-- Multiplication by x in GF(2^8) with polynomial x^8 + x^4 + x^3 + x^2 + 1. -/
def gfX (b : Byte) : Byte := (b <<< 1) ^^^ (if b.getLsbD 7 then 0x1D else 0)
def gfMul (a b : Byte) : Byte :=
  ((List.range 8).foldl (fun (p : Byte × Byte) i => (if b.getLsbD i then p.1 ^^^ p.2 else p.1, gfX p.2)) (0, a)).1
/-- The power of the root. -/
def gfPow (n : Nat) : Byte := (List.range n).foldl (fun b _ => gfX b) 1
/-- The inverse, a^254. -/
def gfInv (a : Byte) : Byte :=
  ((List.range 7).foldl (fun (p : Byte × Byte) _ => let q := gfMul p.2 p.2; (gfMul p.1 q, q)) (1, a)).1

/-- Place of bit i of half h, beat j of symbol k in codeword q: the bit in the line's data, or in its check bits. -/
def symBit (l : DLine) (q k i j : Nat) : Bool :=
  let g := k / 2
  let beat := 4 * q + 2 * (k % 2) + j
  if g < 8 then l.data.getLsbD (32 * beat + 4 * g + i) else l.chk.getLsbD (8 * beat + 4 * (g - 8) + i)

/-- Symbol k of codeword q. -/
def symbol (l : DLine) (q k : Nat) : Byte :=
  BitVec.ofNat 8 (((List.range 8).map (fun b => if symBit l q k (b % 4) (b / 4) then 2 ^ b else 0)).sum)

/-- The mask of the line's data bits, and of its check bits, that the symbol value v of symbol k sets. -/
def symMask (q k : Nat) (v : Byte) : DLine :=
  let g := k / 2
  let at' (b : Nat) : Nat := 4 * q + 2 * (k % 2) + b / 4
  let bits := (List.range 8).filter (fun b => v.getLsbD b)
  if g < 8 then ⟨BitVec.ofNat 512 ((bits.map (fun b => 2 ^ (32 * at' b + 4 * g + b % 4))).sum), 0⟩
  else ⟨0, BitVec.ofNat 128 ((bits.map (fun b => 2 ^ (8 * at' b + 4 * (g - 8) + b % 4))).sum)⟩
def lineXor (a b : DLine) : DLine := ⟨a.data ^^^ b.data, a.chk ^^^ b.chk⟩

/-- The four check symbols of 16 data symbols, x^3 first: division by (x - 1)(x - α)(x - α^2)(x - α^3). -/
def rsCheck (ds : List Byte) : List Byte :=
  let r := ds.foldl (fun (c : Byte × Byte × Byte × Byte) d =>
    let f := d ^^^ c.1
    (c.2.1 ^^^ gfMul f 15, c.2.2.1 ^^^ gfMul f 54, c.2.2.2 ^^^ gfMul f 120, gfMul f 64)) (0, 0, 0, 0)
  [r.1, r.2.1, r.2.2.1, r.2.2.2]

/-- A line with the check bits of its data. -/
def encLine (d : BitVec 512) : DLine :=
  let l : DLine := ⟨d, 0⟩
  (List.range 4).foldl (fun acc q =>
    ((rsCheck ((List.range 16).map (symbol l q))).zipIdx).foldl (fun acc p => lineXor acc (symMask q (16 + p.2) p.1)) acc) l

/-- Syndrome j of codeword q: the received polynomial at α^j. -/
def rsSyn (l : DLine) (q j : Nat) : Byte :=
  let x := gfPow j
  (List.range 20).foldl (fun s k => gfMul s x ^^^ symbol l q k) 0

/-- What decoding one codeword gives: clean, a correction (mask and nibble group), or uncorrectable. -/
inductive CwOut where
  | clean
  | fix (m : DLine) (g : Nat)
  | bad
  deriving DecidableEq, Repr

/-- A correction of symbols 2g and 2g + 1 explains the syndromes (R283): their two error values. -/
def pairFix (s0 s1 s2 s3 : Byte) (g : Nat) : Option (Byte × Byte) :=
  let xa := gfPow (19 - 2 * g)
  let xb := gfPow (18 - 2 * g)
  let a := gfMul (s1 ^^^ gfMul s0 xb) (gfInv (xa ^^^ xb))
  let b := s0 ^^^ a
  let xa2 := gfMul xa xa
  let xb2 := gfMul xb xb
  if gfMul a xa2 ^^^ gfMul b xb2 = s2 ∧ gfMul a (gfMul xa xa2) ^^^ gfMul b (gfMul xb xb2) = s3 then some (a, b) else none

/-- Decode codeword q (R283): every accepted correction lies in one nibble group. -/
def cwDecode (l : DLine) (q : Nat) : CwOut :=
  let s0 := rsSyn l q 0; let s1 := rsSyn l q 1; let s2 := rsSyn l q 2; let s3 := rsSyn l q 3
  if s0 = 0 ∧ s1 = 0 ∧ s2 = 0 ∧ s3 = 0 then .clean
  else match (List.range 10).filterMap (fun g => (pairFix s0 s1 s2 s3 g).map (fun p => (g, p))) with
    | (g, p) :: _ => .fix (lineXor (symMask q (2 * g) p.1) (symMask q (2 * g + 1) p.2)) g
    | [] => .bad

/-- A decoded line (R283): its data (as read where uncorrectable), status 0 OK, 1 CORRECTED, 2 UNCORRECTABLE, and the nibble
group of each corrected codeword. -/
structure LineOut where
  data : BitVec 512
  status : Nat
  nibs : List Nat
  deriving DecidableEq, Repr

def lineDecode (l : DLine) : LineOut :=
  let outs := (List.range 4).map (cwDecode l)
  let nibs := outs.filterMap (fun o => match o with
    | .fix _ g => some g
    | _ => none)
  if outs.any (· == .bad) then ⟨l.data, 2, nibs⟩
  else if nibs.isEmpty then ⟨l.data, 0, []⟩
  else ⟨(outs.foldl (fun acc o => match o with
    | .fix m _ => lineXor acc m
    | _ => acc) l).data, 1, nibs⟩

/-- Bytes of `new` where the mask bit is set, else of `old`. -/
def mergeBytes (old new : BitVec 512) (mask : BitVec 64) : BitVec 512 :=
  let m := BitVec.ofNat 512 (((List.range 64).map (fun i => if mask.getLsbD i then 255 * 2 ^ (8 * i) else 0)).sum)
  (old &&& ~~~ m) ||| (new &&& m)
def fullMask : BitVec 64 := BitVec.allOnes 64

/-! ### Channels and addresses -/

def mcF (s : State) (n : Nat) (f : Fld) : Nat := fget s (mcBase n) f
def mcState (s : State) (n : Nat) : Nat := mcF s n Reg.Mc.STATE

/-- Widths of bank group, column burst and row fields (R280). -/
def bgBits (width : Nat) : Nat := if width = 2 then 2 else 3
def colBits (width : Nat) : Nat := if width = 0 then 7 else 6
def rowBits (density : Bool) : Nat := if density then 17 else 16

/-- Lines of a fitted channel (R278, R280). -/
def fitLines (f : Fit) : Nat :=
  2 ^ (1 + bgBits f.width.toNat + colBits f.width.toNat + 2 + (if f.ranks2 then 1 else 0) + rowBits f.density)

/-- A configuration of R278 with its rate and ECC conditions (R279). -/
def fitSupported (f : Fit) : Bool :=
  f.ecc && !f.slow &&
  (if f.kind = 1 then (f.width == 0 && !(f.density && f.ranks2)) || f.width == 1
   else f.kind == 2 && (f.width == 1 || f.width == 2))

/-- Capacity of channel n in lines; 0 where nothing is fitted. -/
def mcLines (s : State) (n : Nat) : Nat :=
  match (mcGet s n).fit with
  | none => 0
  | some f => fitLines f

/-- Where a line lies in the DRAM (R280, R281). -/
structure DAddr where
  sub : Nat
  rank : Nat
  bg : Nat
  ba : Nat
  row : Nat
  colb : Nat
  deriving DecidableEq, Repr

/-- The fields of A[35:6], with the bank hash applied. -/
def dramAddr (width : Nat) (density ranks2 hash : Bool) (line : Nat) : DAddr :=
  let sub := line % 2
  let a := line / 2
  let nb := bgBits width
  let bg := a % 2 ^ nb
  let a := a / 2 ^ nb
  let colb := a % 2 ^ colBits width
  let a := a / 2 ^ colBits width
  let ba := a % 4
  let a := a / 4
  let rank := if ranks2 then a % 2 else 0
  let a := if ranks2 then a / 2 else a
  let row := a % 2 ^ rowBits density
  if hash then ⟨sub, rank, bg ^^^ (row % 2 ^ nb), ba ^^^ (row / 8 % 4), row, colb⟩
  else ⟨sub, rank, bg, ba, row, colb⟩
def mcAddr (s : State) (n line : Nat) : DAddr :=
  dramAddr (mcF s n Reg.Mc.WIDTH) (fbit s (mcBase n) Reg.Mc.DENSITY) (fbit s (mcBase n) Reg.Mc.RANKS2)
    (fbit s (mcBase n) Reg.Mc.BANK_HASH) line
/-- The line at a place of the DRAM, with no bank hash. -/
def lineOf (width : Nat) (ranks2 : Bool) (d : DAddr) : Nat :=
  let nb := bgBits width
  let up := if ranks2 then 2 * d.row + d.rank else d.row
  d.sub + 2 * (d.bg + 2 ^ nb * (d.colb + 2 ^ colBits width * (d.ba + 4 * up)))
def bankKey (d : DAddr) : Nat := ((d.rank * 2 + d.sub) * 8 + d.bg) * 4 + d.ba

/-- The canonical form of the DRAM: lines in rising order, none equal to what an unlisted line reads as. -/
def Memory.wf (m : Tab DLine) : Bool := twf {} m
def dramGet (s : State) (n line : Nat) : DLine := tget {} s.dram (n * 2 ^ 30 + line)
def dramSet (s : State) (n line : Nat) (l : DLine) : State := { s with dram := tset {} s.dram (n * 2 ^ 30 + line) l }

/-- Ranks of a channel. -/
def mcRanks (s : State) (n : Nat) : List Nat := if fbit s (mcBase n) Reg.Mc.RANKS2 then [0, 1] else [0]
def pRank (r : Nat) : Fld := if r = 0 then Reg.Mc.P_RANK0 else Reg.Mc.P_RANK1

/-- Controller cycles since a time (R277). -/
def mcCycles (s : State) (n since : Nat) : Nat := (s.up - since) * (900 - 100 * mcF s n Reg.Mc.RATE_IDX) / 1000

/-! ### Errors (R293) -/

/-- Count and record a decoded line. -/
def mcRecord (s : State) (n line : Nat) (o : LineOut) (patrol : Bool) : State :=
  let b := mcBase n
  if o.status = 0 then s
  else
    let s := finc s b (if o.status = 2 then Reg.Mc.UE_CNT else Reg.Mc.CE_CNT)
    let s := o.nibs.foldl (fun s g => finc s b (Reg.Mc.NIB_CE (10 * (line % 2) + g))) s
    let s := fset (fset s b Reg.Mc.ERR_LINE line) b Reg.Mc.ERR_UE (if o.status = 2 then 1 else 0)
    let s := fset s b Reg.Mc.ERR_NIB (o.nibs.foldl (fun m g => m ||| 2 ^ g) 0)
    fflag (fflag s b Reg.Mc.BY_PATROL patrol) b Reg.Mc.ERR_VALID true

/-- The write-queue entry of a line. -/
def wqFind (s : State) (n line : Nat) : Option MWrite := (mcGet s n).writes.find? (fun w => w.line == line)

/-- Leave self-refresh (R290): P restarts at 0. -/
def mcExit (s : State) (n : Nat) : State :=
  if mcState s n = 3 then
    let b := mcBase n
    let s := fset (fset (fset s b Reg.Mc.STATE 2) b Reg.Mc.P_RANK0 0) b Reg.Mc.P_RANK1 0
    mcUpd s n (fun m => { m with passStart := m.passStart + (s.up - m.srAt) })
  else s

/-- Read a line as every write accepted so far leaves it, decode it, and queue the write-back of a corrected line (R285, R293):
data and status. -/
def mcLoad (s : State) (n line : Nat) : BitVec 512 × Nat × State :=
  let s := mcExit s n
  match wqFind s n line with
  | some w =>
    if w.mask = fullMask then (w.data, 0, finc s (mcBase n) Reg.Mc.FWD_CNT)
    else
      let o := lineDecode (dramGet s n line)
      (mergeBytes o.data w.data w.mask, o.status, mcRecord (finc s (mcBase n) Reg.Mc.RAW_WAIT_CNT) n line o false)
  | none =>
    let o := lineDecode (dramGet s n line)
    let s := mcRecord s n line o false
    (o.data, o.status, if o.status = 1 then mcUpd s n (fun m => { m with wb := m.wb ++ [(line, o.data)] }) else s)

/-- A write to a line was accepted: its write-back is abandoned (R293). -/
def mcOver (s : State) (n line : Nat) : State :=
  mcUpd s n (fun m => { m with
    wb := m.wb.filter (fun p => p.1 != line)
    issued := m.issued.map (fun x => if x.req.line = line then { x with stale := true } else x) })

/-! ### Requests (R284, R285) -/

def mcAnswer (s : State) (n : Nat) (a : MAns) : State := mcUpd s n (fun m => { m with out := m.out ++ [a] })

/-- A read waits on the partial entry of its line. -/
def readWaits (m : McSt) (line : Nat) : Bool :=
  m.reads.any (fun r => r.line == line && r.waits)

/-- Accept a read. A read that arrives on a drain begun on an empty read queue ends it (R286). -/
def mcReadIn (n : Nat) (r : McReq) (s : State) : State :=
  let line := r.line.toNat
  match wqFind s n line with
  | some w =>
    if w.mask = fullMask then mcAnswer (finc s (mcBase n) Reg.Mc.FWD_CNT) n ⟨r.id, false, 0, w.data⟩
    else if (mcGet s n).reads.length < 64 then
      mcUpd (finc s (mcBase n) Reg.Mc.RAW_WAIT_CNT) n (fun m => { m with
        reads := m.reads ++ [⟨r.id, line, r.prio.toNat, s.up, true⟩], drain := if m.drain = 2 then 0 else m.drain })
    else s
  | none =>
    if (mcGet s n).reads.length < 64 then
      mcUpd s n (fun m => { m with
        reads := m.reads ++ [⟨r.id, line, r.prio.toNat, s.up, false⟩], drain := if m.drain = 2 then 0 else m.drain })
    else s

/-- Accept a write: merged into the entry of its line, or a new entry. A full-mask write is acknowledged at once. A write to a
line whose entry a read waits on is held back, so that the read gets no younger write (R285). -/
def mcWriteIn (n : Nat) (r : McReq) (s : State) : State :=
  let line := r.line.toNat
  let full := r.mask == fullMask
  let acks := if full then [] else [r.id]
  if readWaits (mcGet s n) line then s
  else match wqFind s n line with
  | some _ =>
    let s := mcUpd (mcOver s n line) n (fun m => { m with writes := m.writes.map (fun w =>
      if w.line = line then { w with mask := w.mask ||| r.mask, data := mergeBytes w.data r.data r.mask, acks := w.acks ++ acks } else w) })
    if full then mcAnswer s n ⟨r.id, true, 0, 0⟩ else s
  | none =>
    if (mcGet s n).writes.length < 64 then
      let s := mcUpd (mcOver s n line) n (fun m => { m with writes := m.writes ++ [⟨line, r.mask, r.data, s.up, acks⟩] })
      if full then mcAnswer s n ⟨r.id, true, 0, 0⟩ else s
    else s

/-- MC_REQUEST (R284, R285, R290, R292). A full queue holds the request back, which leaves everything as it is. -/
def opMcRequest (n : Nat) (r : McReq) (s : State) : State :=
  let st := mcState s n
  if (st ≠ 2 ∧ st ≠ 3) ∨ mcLines s n ≤ r.line.toNat then answer s .decodeErr 0
  else if st = 3 ∧ (mcGet s n).standby = true then mcAnswer s n ⟨r.id, r.write, 3, 0⟩
  else
    let s := mcExit s n
    if r.write then mcWriteIn n r s else mcReadIn n r s

/-! ### Refresh and the command decision (R286 to R288) -/

/-- The cap on P (R287). -/
def pCap (s : State) (n : Nat) : Nat :=
  min (mcF s n Reg.Mc.POSTPONE_MAX) (if fbit s (mcBase n) Reg.Mc.REF_2X then 8 else 4)

/-- A queued request for a rank. -/
def rankBusy (s : State) (n r : Nat) : Bool :=
  (mcGet s n).reads.any (fun x => (mcAddr s n x.line).rank == r) || (mcGet s n).writes.any (fun x => (mcAddr s n x.line).rank == r)

/-- The PHY fields that a write of word `v` at an offset sets (R302): a `RX_VREF` above 80 is discarded. -/
def phyFields (off : Nat) (v : Word) : List Fld :=
  (Reg.Mc.fields off).filter (fun f => !(f.wd == 7 && decide (0x1000 ≤ off ∧ off < 0x2000) && decide (80 < wfield f v)))
/-- Apply the PHY writes held (R297). -/
def phyApply (s : State) (n : Nat) : State :=
  let s := (mcGet s n).phy.foldl (fun s p => writeFields s (mcBase n) (phyFields p.1 p.2) p.2) s
  mcUpd s n (fun m => { m with phy := [] })

/-- Issue one refresh to a rank: held PHY writes apply, a ZQ calibration due is made, P falls by one. -/
def mcRefresh (s : State) (n r : Nat) : State :=
  let s := phyApply s n
  let s := fset s (mcBase n) (pRank r) (mcF s n (pRank r) - 1)
  mcUpd s n (fun m => { m with zq := m.zq - (m.zq &&& 2 ^ r), forced := m.forced.erase r })

/-- Precharge every bank of a rank. -/
def rankClose (s : State) (n r : Nat) : State := mcUpd s n (fun m => { m with rows := tclear m.rows (64 * r) (64 * r + 64) })
def rankOpen (s : State) (n r : Nat) : Bool := (mcGet s n).rows.any (fun p => p.1 / 64 == r)

/-- REFRESH_DUE (R287, R288). -/
def opRefreshDue (n r : Nat) (s : State) : State :=
  if mcState s n = 2 ∧ r ∈ mcRanks s n then
    let p := min 15 (mcF s n (pRank r) + 1)
    let s := fset s (mcBase n) (pRank r) p
    if pCap s n ≤ p then finc (mcUpd s n (fun m => { m with forced := m.forced ++ [r] })) (mcBase n) Reg.Mc.REF_FORCE_CNT
    else s
  else s

/-- A candidate of the command decision: a queued request. -/
structure Cand where
  write : Bool
  line : Nat
  prio : Nat
  since : Nat
  hit : Bool
  deriving DecidableEq, Repr

def rowHit (s : State) (n line : Nat) : Bool :=
  let d := mcAddr s n line
  tget 0 (mcGet s n).rows (bankKey d) == d.row + 1

/-- Requests that may issue: a read that waits on a partial entry may not, nor a write before an older read of its line. -/
def cands (s : State) (n : Nat) : List Cand :=
  let m := mcGet s n
  (m.reads.filter (fun r => !r.waits)).map
    (fun r => ⟨false, r.line, r.prio, r.since, rowHit s n r.line⟩) ++
  (m.writes.filter (fun w => !m.reads.any (fun r => r.line == w.line && !r.waits))).map
    (fun w => ⟨true, w.line, 0, w.since, rowHit s n w.line⟩)

/-- The oldest; the first listed among equals. -/
def oldest : List Cand → Option Cand
  | [] => none
  | c :: t => match oldest t with
    | some d => if d.since < c.since then some d else some c
    | none => some c
/-- Row hits before misses, then oldest first. -/
def bestOf (l : List Cand) : Option Cand :=
  match oldest (l.filter (fun c => c.hit)) with
  | some c => some c
  | none => oldest l

/-- The write drain after its rules of beginning and end (R286). -/
def drainNow (s : State) (n : Nat) : Nat :=
  let m := mcGet s n
  let d := if m.drain ≠ 0 ∧ m.writes.length ≤ mcF s n Reg.Mc.WQ_LOW then 0 else m.drain
  if d ≠ 0 then d
  else if mcF s n Reg.Mc.WQ_HIGH ≤ m.writes.length ∨ m.writes.any (fun w => mcF s n Reg.Mc.WR_AGE_MAX < mcCycles s n w.since) then 1
  else if m.reads.isEmpty ∧ !m.writes.isEmpty then 2
  else 0

/-- The request that rules 2 to 5 choose. -/
def choose (s : State) (n drain : Nat) : Option Cand :=
  let cs := cands s n
  match oldest (cs.filter (fun c => decide (max 1 (mcF s n Reg.Mc.AGE_CAP) < mcCycles s n c.since))) with
  | some c => some c
  | none =>
    let ws := cs.filter (fun c => c.write)
    let hi := cs.filter (fun c => !c.write && decide (c.prio < 2))
    let lo := cs.filter (fun c => !c.write && decide (2 ≤ c.prio))
    if drain ≠ 0 ∧ !ws.isEmpty then bestOf ws
    else if !hi.isEmpty then bestOf hi
    else if !lo.isEmpty then bestOf lo
    else bestOf ws

/-- The column command of a read. -/
def issueRead (s : State) (n line : Nat) : State :=
  match (mcGet s n).reads.find? (fun r => r.line == line) with
  | none => s
  | some r => mcUpd s n (fun m => { m with
      reads := m.reads.erase r
      issued := m.issued ++ [⟨r, dramGet s n line, m.writes.any (fun w => w.line == line)⟩] })

/-- The column commands of a write: a masked one merges into the line as read and corrected (R284). -/
def issueWrite (s : State) (n line : Nat) : State :=
  match wqFind s n line with
  | none => s
  | some w =>
    let s := mcUpd s n (fun m => { m with
      writes := m.writes.erase w
      reads := m.reads.map (fun r => if r.line = line then { r with waits := false } else r) })
    if w.mask = fullMask then
      w.acks.foldl (fun s a => mcAnswer s n ⟨a, true, 0, 0⟩) (dramSet s n line (encLine w.data))
    else
      let o := lineDecode (dramGet s n line)
      let s := mcRecord s n line o false
      let s := if o.status = 2 then s else dramSet s n line (encLine (mergeBytes o.data w.data w.mask))
      w.acks.foldl (fun s a => mcAnswer s n ⟨a, true, if o.status = 2 then 2 else 0, 0⟩) s

/-- Issue every queued read of a line, after the partial entry that one of them waits on (R285). -/
def readsBefore (s : State) (n line : Nat) : State :=
  let s := if readWaits (mcGet s n) line then issueWrite s n line else s
  ((mcGet s n).reads.filter (fun r => r.line == line)).foldl (fun s _ => issueRead s n line) s

/-- Write a whole line (R284): into its write-queue entry where it has one that no read waits on, else with new check bits to the DRAM
once the older reads of the line have issued (R285). -/
def mcStore (s : State) (n line : Nat) (d : BitVec 512) : State :=
  let s := mcExit s n
  let s := if readWaits (mcGet s n) line || (wqFind s n line).isNone then readsBefore s n line else s
  let s := mcOver s n line
  match wqFind s n line with
  | some _ => mcUpd s n (fun m => { m with
      writes := m.writes.map (fun w => if w.line = line then { w with mask := fullMask, data := d } else w) })
  | none => dramSet s n line (encLine d)

/-- The chosen request's next command: column on a row hit, else activate, else precharge. -/
def serve (s : State) (n : Nat) (c : Cand) : State :=
  let d := mcAddr s n c.line
  let k := bankKey d
  if c.hit then (if c.write then issueWrite s n c.line else issueRead s n c.line)
  else if tget 0 (mcGet s n).rows k = 0 then mcUpd s n (fun m => { m with rows := tset 0 m.rows k (d.row + 1) })
  else mcUpd s n (fun m => { m with rows := tset 0 m.rows k 0 })

/-- Ranks with postponed refreshes and no queued request (R287). -/
def idleRanks (s : State) (n : Nat) : List Nat := (mcRanks s n).filter (fun r => mcF s n (pRank r) != 0 && !rankBusy s n r)
/-- The catch-up burst (R287): each such rank is closed, or refreshed once. -/
def catchUp (s : State) (n : Nat) : State :=
  (idleRanks s n).foldl (fun s r => if rankOpen s n r then rankClose s n r else mcRefresh s n r) s
/-- With no request to serve and no refresh to catch up: a write-back. -/
def idleCommand (s : State) (n : Nat) : State :=
  match (mcGet s n).wb with
  | [] => s
  | (line, d) :: t => mcUpd (dramSet s n line (encLine d)) n (fun m => { m with wb := t })

/-- MC_COMMAND (R286): a forced refresh, else a command for each idle rank that catches up and one for the request chosen. -/
def opMcCommand (n : Nat) (s : State) : State :=
  if mcState s n ≠ 2 then s
  else match (mcGet s n).forced with
    | r :: _ => if rankOpen s n r then rankClose s n r else mcRefresh s n r
    | [] =>
      let d := drainNow s n
      let late := !(idleRanks s n).isEmpty
      let s := mcUpd (catchUp s n) n (fun m => { m with drain := d })
      match choose s n d with
      | some c => serve s n c
      | none => if late then s else idleCommand s n

/-- MC_READ_DATA (R284, R293): the oldest issued read returns. -/
def opMcReadData (n : Nat) (s : State) : State :=
  match (mcGet s n).issued with
  | [] => s
  | x :: t =>
    let o := lineDecode x.line
    let s := mcUpd s n (fun m => { m with issued := t })
    let s := mcRecord s n x.req.line o false
    let s := if o.status = 1 ∧ !x.stale ∧ (wqFind s n x.req.line).isNone then
        mcUpd s n (fun m => { m with wb := m.wb ++ [(x.req.line, o.data)] })
      else s
    mcAnswer s n ⟨x.req.id, false, o.status, o.data⟩

/-- ROW_CLOSE (R286): a row that no queued request hits. -/
def opRowClose (n bank : Nat) (s : State) : State :=
  let m := mcGet s n
  let wanted (line : Nat) : Bool := bankKey (mcAddr s n line) == bank && rowHit s n line
  if mcState s n = 2 ∧ !(m.reads.any (fun r => wanted r.line)) ∧ !(m.writes.any (fun w => wanted w.line)) then
    mcUpd s n (fun m => { m with rows := tset 0 m.rows bank 0 })
  else s

/-- MR4_POLL (R287). -/
def opMr4Poll (n r v : Nat) (s : State) : State :=
  if mcState s n = 2 ∧ r ∈ mcRanks s n then mcUpd s n (fun m => { m with mr4 := tset 0 m.mr4 r v }) else s

/-- ZQ_CAL (R288): due on every rank at its next refresh. -/
def opZqCal (n : Nat) (s : State) : State :=
  if mcState s n = 2 then mcUpd s n (fun m => { m with zq := ((mcRanks s n).map (2 ^ ·)).sum }) else s

/-! ### Self-refresh (R289 to R292) -/

/-- The steps of entry: write-backs made, postponed refreshes caught up, banks precharged, SRE. -/
def srEnter (s : State) (n : Nat) : State :=
  let b := mcBase n
  let s := (mcGet s n).wb.foldl (fun s p => dramSet s n p.1 (encLine p.2)) s
  let s := (mcRanks s n).foldl (fun s r => (List.range (mcF s n (pRank r))).foldl (fun s _ => mcRefresh s n r) s) s
  let s := mcUpd s n (fun m => { m with wb := [], rows := [], forced := [], drain := 0, srAt := s.up })
  finc (fset s b Reg.Mc.STATE 3) b Reg.Mc.SR_ENTRY_CNT

/-- Both queues are empty. -/
def mcQuiet (s : State) (n : Nat) : Bool := (mcGet s n).reads.isEmpty && (mcGet s n).writes.isEmpty && (mcGet s n).issued.isEmpty

/-- SR_ENTRY (R289 to R291): a request that meets the timer keeps the channel in RUN. -/
def opSrEntry (n : Nat) (meet : Option McReq) (s : State) : State :=
  if mcState s n = 2 ∧ mcF s n Reg.Mc.AUTO_SR = 1 ∧ mcQuiet s n = true then
    match meet with
    | some r => opMcRequest n r (finc s (mcBase n) Reg.Mc.SR_ABORT_CNT)
    | none => srEnter s n
  else s

/-- Every queued request is served, each line's reads before a write that came after them (R285). -/
def mcFlush (s : State) (n : Nat) : State :=
  let s := (mcGet s n).reads.foldl (fun s r => readsBefore s n r.line) s
  let s := (mcGet s n).writes.foldl (fun s w => issueWrite s n w.line) s
  (mcGet s n).issued.foldl (fun s _ => opMcReadData n s) s
/-- STANDBY entry and exit of a channel (R292). -/
def mcStandby (s : State) (n : Nat) : State :=
  if mcState s n = 2 then
    let s := mcFlush s n
    mcUpd (srEnter s n) n (fun m => { m with standby := true })
  else if mcState s n = 3 then mcUpd s n (fun m => { m with standby := true })
  else s
def mcUnstandby (s : State) (n : Nat) : State :=
  if (mcGet s n).standby then mcExit (mcUpd s n (fun m => { m with standby := false })) n else s

/-! ### Patrol (R294) -/

/-- The first granule with `INIT` = 1 at or after granule g of channel n, and whether the search wrapped. -/
def patrolGran (s : State) (n g : Nat) : Option (Nat × Bool) :=
  let ks := (s.sec.gran.filter (fun p => p.2.init && p.1 / 2 ^ 19 == n)).map (fun p => p.1 % 2 ^ 19)
  match ks.filter (fun k => g ≤ k) with
  | k :: _ => some (k, false)
  | [] => match ks with
    | k :: _ => some (k, true)
    | [] => none

/-- The next patrol line, and whether the pass is complete before it. -/
def patrolNext (s : State) (n : Nat) : Option (Nat × Bool) :=
  let pos := mcF s n Reg.Mc.PATROL_POS
  (patrolGran s n (pos / 2048)).map (fun p =>
    if p.2 then (p.1 * 2048, true) else if p.1 = pos / 2048 then (pos, false) else (p.1 * 2048, false))

/-- A pass of the patrol ends: its length, and the next one begins. -/
def lapEnd (s : State) (n : Nat) : State :=
  mcUpd (fset s (mcBase n) Reg.Mc.PATROL_LAP ((s.up - (mcGet s n).passStart) / 1000000)) n (fun m => { m with passStart := s.up })
/-- One step of the patrol (R294): read and decode the next line. Answers the line read and whether it is uncorrectable, which is reported
to the memory security engine. -/
def patrolRead (n : Nat) (s : State) : Option (Nat × Bool) × State :=
  if mcState s n = 2 ∧ mcF s n Reg.Mc.PATROL_EN = 1 ∧ mcQuiet s n = true then
    match patrolNext s n with
    | none => (none, s)
    | some (line, wrap) =>
      let s := if wrap then lapEnd s n else s
      let o := lineDecode (dramGet s n line)
      let s := mcRecord s n line o true
      let s := if o.status = 1 then dramSet s n line (encLine o.data) else s
      let s := if line + 1 = 2 ^ 30 then lapEnd s n else s
      (some (line, o.status == 2), fset s (mcBase n) Reg.Mc.PATROL_POS (line + 1))
  else (none, s)

/-! ### Training helpers and states (R295 to R299) -/

/-- The action of a write of `TRN_GO` = 1 (R296). -/
def actTrnGo (n : Nat) (s : State) : State :=
  fflag (fflag s (mcBase n) Reg.Mc.TRN_BUSY true) (mcBase n) Reg.Mc.FF_VALID false
def trnGoOk (s : State) (n : Nat) : Bool := mcState s n == 1 && !fbit s (mcBase n) Reg.Mc.TRN_BUSY
def mrGoOk (s : State) (n : Nat) : Bool := (mcState s n == 1 || mcState s n == 2) && !(mcGet s n).mr
def goReject (s : State) (n : Nat) : State := fflag s (mcBase n) Reg.Mc.TRN_REJECT true

/-- One step of PRBS23, x^23 + x^18 + 1: the bit sent is the bit shifted in. -/
def prbs23 (v : BitVec 23) : BitVec 23 := (v <<< 1) ||| (if xor (v.getLsbD 22) (v.getLsbD 17) then 1 else 0)
/-- The seed of lane L. -/
def prbsSeed (seed L : Nat) : BitVec 23 :=
  let v := BitVec.ofNat 23 (seed ^^^ (L * 0x041A7))
  if v = 0 then 1 else v

/-- One burst of the helper: the lanes' generators advanced by 16 beats, and the 640 bits sent. -/
def prbsBurst (gs : List (BitVec 23)) : List (BitVec 23) × DLine :=
  (List.range 16).foldl (fun (p : List (BitVec 23) × DLine) b =>
    let gs := p.1.map prbs23
    let bits := (gs.zipIdx.map (fun q => if q.1.getLsbD 0 then 2 ^ q.2 else 0)).sum
    (gs, ⟨p.2.data ||| BitVec.ofNat 512 (bits % 2 ^ 32 * 2 ^ (32 * b)), p.2.chk ||| BitVec.ofNat 128 (bits / 2 ^ 32 * 2 ^ (8 * b))⟩))
    (gs, {})

/-- The user pattern as a burst. -/
def patBurst (s : State) (n : Nat) : DLine :=
  (List.range 16).foldl (fun l b =>
    ⟨l.data ||| BitVec.ofNat 512 (mcF s n (Reg.Mc.PAT_DQ b) * 2 ^ (32 * b)), l.chk ||| BitVec.ofNat 128 (mcF s n (Reg.Mc.PAT_CB b) * 2 ^ (8 * b))⟩) {}

/-- The line with its bank hashed, or a hashed one without (R281): the bank group and bank fields XORed with row bits. -/
def hashLine (s : State) (n line : Nat) : Nat :=
  let w := mcF s n Reg.Mc.WIDTH
  let d := dramAddr w (fbit s (mcBase n) Reg.Mc.DENSITY) (fbit s (mcBase n) Reg.Mc.RANKS2) false line
  line ^^^ (2 * (d.row % 2 ^ bgBits w)) ^^^ (2 ^ (1 + bgBits w + colBits w) * (d.row / 8 % 4))
/-- `BANK_HASH` changes: what the DRAM holds at a place is then found at another line. -/
def dramRehash (s : State) (n : Nat) : State :=
  let mine := s.dram.filter (fun p => p.1 / 2 ^ 30 == n)
  { s with dram := mine.foldl (fun t p => tset {} t (n * 2 ^ 30 + hashLine s n (p.1 % 2 ^ 30)) p.2) (tclear s.dram (n * 2 ^ 30) ((n + 1) * 2 ^ 30)) }
/-- Where burst k of a helper run goes on subchannel x, with no bank hash (R296). -/
def trnPlace (s : State) (n x k : Nat) : Nat :=
  let w := mcF s n Reg.Mc.WIDTH
  let nbg := 2 ^ bgBits w
  let l := lineOf w (fbit s (mcBase n) Reg.Mc.RANKS2) ⟨x, mcF s n Reg.Mc.TRN_RANK, (mcF s n Reg.Mc.TRN_BG + k) % nbg, mcF s n Reg.Mc.TRN_BA,
    mcF s n Reg.Mc.TRN_ROW, (mcF s n Reg.Mc.TRN_COL + k / nbg) % 2 ^ colBits w⟩
  if fbit s (mcBase n) Reg.Mc.BANK_HASH then hashLine s n l else l

/-- The bursts of a helper run as the pattern gives them (R296). -/
def trnBursts (s : State) (n : Nat) : List DLine :=
  let count := mcF s n Reg.Mc.TRN_COUNT + 1
  if mcF s n Reg.Mc.TRN_PAT = 1 then List.replicate count (patBurst s n)
  else ((List.range count).foldl (fun (p : List (BitVec 23) × List DLine) _ =>
    let q := prbsBurst p.1
    (q.1, p.2 ++ [q.2])) ((List.range 40).map (prbsSeed (mcF s n Reg.Mc.LFSR_SEED)), [])).2
/-- The bursts that a helper run writes on subchannel x. -/
def trnWrites (s : State) (n x : Nat) : State :=
  (trnBursts s n).zipIdx.foldl (fun u p => dramSet u n (trnPlace s n x p.2) p.1) s

/-- The 40 bits of beat b of a burst: DQ, then CB. -/
def burstBeat (l : DLine) (b : Nat) : BitVec 40 :=
  (l.chk.extractLsb' (8 * b) 8 ++ l.data.extractLsb' (32 * b) 32 : BitVec 40)
/-- Bits of a burst of a training helper run that its read's way inverts: subchannel, burst, data and check bits (10 R296). -/
structure Flip where
  sub : Nat
  burst : BitVec 16
  line : DLine
  deriving DecidableEq, Repr
/-- The inverted data bits of the bursts of subchannels 0 (`a`) and 1 (`b`), and the inverted check bits. -/
def trnFlips (a b : List (BitVec 16 × BitVec 512)) (chk : List (Fin 2 × BitVec 16 × BitVec 128)) : List Flip :=
  a.map (fun p => ⟨0, p.1, ⟨p.2, 0⟩⟩) ++ b.map (fun p => ⟨1, p.1, ⟨p.2, 0⟩⟩) ++ chk.map (fun p => ⟨p.1.val, p.2.1, ⟨0, p.2.2⟩⟩)
/-- What the read of burst k on subchannel x brings in: the stored bits, some of them inverted on the way. -/
def trnRead (s : State) (n x k : Nat) (flips : List Flip) : DLine :=
  (flips.filter (fun f => f.sub == x && f.burst.toNat == k)).foldl (fun l f => lineXor l f.line) (dramGet s n (trnPlace s n x k))
/-- The lanes of a beat that differ from the pattern. -/
def beatErrs (got want : DLine) (b : Nat) : List Nat :=
  (List.range 40).filter (fun l => (burstBeat got b).getLsbD l != (burstBeat want b).getLsbD l)

/-- Keep 16 beats of subchannel x in the capture buffer. -/
def capture (s : State) (n x : Nat) (beats : List (BitVec 40)) : State :=
  (beats.zipIdx.filter (fun p => p.2 < 16)).foldl (fun s p =>
    fset (fset s (mcBase n) (Reg.Mc.CAP_DQ x p.2) p.1.toNat) (mcBase n) (Reg.Mc.CAP_CB x p.2) (p.1.toNat / 2 ^ 32)) s

def selectedSubs (s : State) (n : Nat) (f : Fld) : List Nat := [0, 1].filter (fun x => (mcF s n f).testBit x)
def errCnt (lane : Nat) : Fld := if lane % 2 = 0 then Reg.Mc.ERR_CNT_E (lane / 2) else Reg.Mc.ERR_CNT_O (lane / 2)

/-- Record a failing lane 40 s + L of beat b of burst k: counted, and kept where it is the first of the run (R296). -/
def trnError (s : State) (n x k b lane : Nat) : State :=
  let w := mcBase n
  let s := finc s w (errCnt (40 * x + lane))
  if fbit s w Reg.Mc.FF_VALID then s
  else fflag (fset (fset (fset s w Reg.Mc.FF_BURST k) w Reg.Mc.FF_BEAT b) w Reg.Mc.FF_LANE (40 * x + lane)) w Reg.Mc.FF_VALID true
/-- Compare burst k as read on the selected subchannels, beat by beat. -/
def trnCompare (n : Nat) (subs : List Nat) (flips : List Flip) (s : State) (p : DLine × Nat) : State :=
  let got := subs.map (fun x => (x, trnRead s n x p.2 flips))
  (List.range 16).foldl (fun s b => got.foldl (fun s g => (beatErrs g.2 p.1 b).foldl (fun s l => trnError s n g.1 p.2 b l) s) s) s
/-- TRN_DONE (R296): the bursts are written, read back and compared; the last one read is captured. `flips` are the bits that the
reads' way inverts. -/
def opTrnDone (n : Nat) (flips : List Flip) (s : State) : State :=
  let b := mcBase n
  if !fbit s b Reg.Mc.TRN_BUSY then s
  else
    let subs := selectedSubs s n Reg.Mc.TRN_SUB
    let s := if fbit s b Reg.Mc.TRN_RDONLY then s else subs.foldl (fun s x => trnWrites s n x) s
    let s := (trnBursts s n).zipIdx.foldl (trnCompare n subs flips) s
    let s := subs.foldl (fun s x =>
      capture s n x ((List.range 16).map (burstBeat (trnRead s n x (mcF s n Reg.Mc.TRN_COUNT) flips)))) s
    fflag (fflag s b Reg.Mc.TRN_BUSY false) b Reg.Mc.TRN_DONE true

/-- MR_ACCESS_DONE (R296): a read captures its burst, 16 beats of each selected subchannel in turn. -/
def opMrAccessDone (n : Nat) (cap : List (BitVec 40)) (s : State) : State :=
  if !(mcGet s n).mr then s
  else
    let s := mcUpd s n (fun m => { m with mr := false })
    if fbit s (mcBase n) Reg.Mc.MR_WRITE || fbit s (mcBase n) Reg.Mc.MR_RCD then s
    else ((selectedSubs s n Reg.Mc.MR_SUB).zipIdx).foldl (fun s p => capture s n p.1 ((cap.drop (16 * p.2)).take 16)) s

/-- The action of `RUN_GO` (R295): each rank's P starts at 0. -/
def actRunGo (n : Nat) (s : State) : State :=
  if mcState s n = 1 then
    let b := mcBase n
    mcUpd (fset (fset (fset s b Reg.Mc.STATE 2) b Reg.Mc.P_RANK0 0) b Reg.Mc.P_RANK1 0) n (fun m => { m with passStart := s.up })
  else s

def rateGet (s : State) (n : Nat) : RateRec := tget {} s.flash.rates n
def rateSet (s : State) (n : Nat) (r : RateRec) : State := { s with flash := { s.flash with rates := tset {} s.flash.rates n r } }
/-- The record of a channel that failed training at rate index `k` (R299). -/
def rateLower (s : State) (n : Nat) : State :=
  let k := mcF s n Reg.Mc.RATE_IDX
  rateSet s n (if k < 3 then { rateGet s n with rate := k + 1 } else { rateGet s n with rate := 3, exhausted := true })

/-- A channel is disabled for the run with this cause and step: alarm HW and event 0x84 (R298, R299; 13 R534; 16 R499). -/
def mcDisable (s : State) (n cause step : Nat) (event : Bool) : State :=
  let b := mcBase n
  let s := fset (fset (fset s b Reg.Mc.STATE 4) b Reg.Mc.DISABLE_CAUSE cause) b Reg.Mc.FAIL_STEP step
  let s := alarmHw (mcUpd s n (fun m => { m with reads := [], writes := [], issued := [], wb := [] })) 3 [n, cause, step]
  if event then jEvent s 0x84 n (cause * 256 + step) else s

/-- The action of `DISABLE_GO` (R298): a requester other than the DMC is told apart by its source node. -/
def actDisableGo (n : Nat) (dmc : Bool) (step : Nat) (s : State) : State :=
  if mcState s n ≠ 1 then s
  else if dmc then mcDisable (rateLower s n) n 3 step true
  else mcDisable s n 6 step true

/-- TRAINING_TIME_LIMIT (R298). -/
def opTrainingTimeLimit (n step : Nat) (s : State) : State :=
  if mcState s n = 1 then mcDisable (rateLower s n) n 4 step true else s

/-- The action of `ERR_CLR` (R300). -/
def actMcErrClr (n : Nat) (s : State) : State :=
  let b := mcBase n
  let s := fwipe s b [Reg.Mc.REF_FORCE_CNT, Reg.Mc.SR_ENTRY_CNT, Reg.Mc.FWD_CNT, Reg.Mc.SR_ABORT_CNT, Reg.Mc.RAW_WAIT_CNT,
    Reg.Mc.CE_CNT, Reg.Mc.UE_CNT, Reg.Mc.ERR_LINE, Reg.Mc.ERR_UE, Reg.Mc.ERR_VALID, Reg.Mc.ERR_NIB, Reg.Mc.BY_PATROL]
  csrWipe (csrWipe s (b + 0x220) (b + 0x270)) (b + 0x600) (b + 0x6A0)

def execMcRequest (n : Fin 8) (r : McReq) (s : State) : Out := .next (opMcRequest n.val r s)
def execMcCommand (n : Fin 8) (s : State) : Out := .next (opMcCommand n.val s)
def execMcReadData (n : Fin 8) (s : State) : Out := .next (opMcReadData n.val s)
def execRefreshDue (n : Fin 8) (rank : Fin 2) (s : State) : Out := .next (opRefreshDue n.val rank.val s)
def execRowClose (n : Fin 8) (bank : Nat) (s : State) : Out := .next (opRowClose n.val bank s)
def execMr4Poll (n : Fin 8) (rank : Fin 2) (mr4 : Byte) (s : State) : Out := .next (opMr4Poll n.val rank.val mr4.toNat s)
def execZqCal (n : Fin 8) (s : State) : Out := .next (opZqCal n.val s)
def execSrEntry (n : Fin 8) (meet : Option McReq) (s : State) : Out := .next (opSrEntry n.val meet s)
def execTrnDone (n : Fin 8) (a b : List (BitVec 16 × BitVec 512)) (chk : List (Fin 2 × BitVec 16 × BitVec 128)) (s : State) : Out :=
  .next (opTrnDone n.val (trnFlips a b chk) s)
def execMrAccessDone (n : Fin 8) (cap : List (BitVec 40)) (s : State) : Out := .next (opMrAccessDone n.val cap s)

end Sys2Proof.Machine
end

