-- ==== Sys2Proof/Machine/Net.lean ====
section
/-! DEFINITION. Network interfaces: node addresses (01 R19 to R22), CSR windows (R35), the header flit (08 R224) and its rules (R225
to R228), reservations (R234 to R236), responses (R239), order of arrival (R233; 01 R37), and the draining of staged writes
(07 R212). A node is numbered 256 * die code + node address. -/

namespace Sys2Proof.Machine

/-! ### Nodes -/

/-- What stands at a node address (01 R20, R21). -/
inductive Node where
  | island (n : Nat) | engines (e : Nat) | quad (q : Nat) | dsc (d : Nat) | dieCsr (d : Nat) | endpoint
  | dmc | cfg | pwr | timing | sec | dram (n : Nat) | pcie (c : Nat) | hubCsr | reserved
  deriving DecidableEq, Repr

def islNode (n : Nat) : Nat := 256 * (n / 48) + (n % 48 / 8 + 1) * 16 + n % 48 % 8 + 1
def eisNode (e : Nat) : Nat := 256 * (e / 10) + (if e % 10 < 5 then e % 10 + 1 else 0x70 + (e % 10 - 5) + 1)
def quadNode (q : Nat) : Nat := 256 * (q / 4) + (if q % 4 < 2 then 7 + q % 4 else 0x70 + 5 + q % 4)
def pcieNode (c : Nat) : Nat := 0x810 + c
def dmcNode : Nat := 0x800

def nodeKind (id : Nat) : Node :=
  let d := id / 256
  let x := id % 16
  let y := id % 256 / 16
  if d < 8 then
    if x = 0 ∧ y < 8 then .endpoint
    else if 1 ≤ x ∧ x ≤ 8 ∧ 1 ≤ y ∧ y ≤ 6 then .island (d * 48 + (y - 1) * 8 + (x - 1))
    else if 1 ≤ x ∧ x ≤ 5 ∧ y = 0 then .engines (d * 10 + (x - 1))
    else if 1 ≤ x ∧ x ≤ 5 ∧ y = 7 then .engines (d * 10 + 5 + (x - 1))
    else if x = 6 ∧ y = 0 then .dsc d
    else if x = 6 ∧ y = 7 then .dieCsr d
    else if (x = 7 ∨ x = 8) ∧ y = 0 then .quad (4 * d + (x - 7))
    else if (x = 7 ∨ x = 8) ∧ y = 7 then .quad (4 * d + 2 + (x - 7))
    else .reserved
  else if d = 8 then
    match id % 256 with
    | 0x00 => .dmc
    | 0x01 => .cfg
    | 0x02 => .pwr
    | 0x03 => .timing
    | 0x04 => .sec
    | 0x10 => .pcie 0
    | 0x11 => .pcie 1
    | 0x1F => .hubCsr
    | k => if 8 ≤ k ∧ k < 16 then .dram (k - 8) else .reserved
  else .reserved

def srcOf (p : Packet) : Nat := 256 * p.srcDie.toNat + p.srcNode.toNat
def dstOf (p : Packet) : Nat := 256 * p.dstDie.toNat + p.dstNode.toNat

/-! ### CSR windows (01 R35) -/

/-- A block window. -/
inductive Win where
  | hub | mailbox (n : Nat) | mc (n : Nat) | sec | pcie (c : Nat) | quad (q : Nat) | tim | pwr | cfg
  | die (d : Nat) | isl (n : Nat) | eis (e : Nat) | hw (h : Nat)
  deriving DecidableEq, Repr

/-- The window of a hub address and the offset in it. -/
def hubWin (a : Nat) : Option (Win × Nat) :=
  if a < 0x10000 then some (.hub, a)
  else if a < 0x12000 then some (.mailbox (a / 0x100 % 0x20), a % 0x100)
  else if 0x100000 ≤ a ∧ a < 0x180000 then some (.mc (a / 0x10000 % 8), a % 0x10000)
  else if 0x200000 ≤ a ∧ a < 0x300000 then some (.sec, a % 0x100000)
  else if 0x300000 ≤ a ∧ a < 0x380000 then some (.pcie (a / 0x40000 % 2), a % 0x40000)
  else if 0x380000 ≤ a ∧ a < 0x400000 then some (.quad (32 + a / 0x10000 % 8), a % 0x10000)
  else if 0x400000 ≤ a ∧ a < 0x500000 then some (.tim, a % 0x100000)
  else if 0x500000 ≤ a ∧ a < 0x600000 then some (.pwr, a % 0x100000)
  else if 0x600000 ≤ a ∧ a < 0x700000 then some (.cfg, a % 0x100000)
  else none
/-- The window of an offset in a die; an engine island's window ends at 0x9000. -/
def dieWin (d o : Nat) : Option (Win × Nat) :=
  if o < 0x100000 then some (.die d, o)
  else if o < 0x130000 then some (.isl (48 * d + (o - 0x100000) / 0x1000), o % 0x1000)
  else if 0x400000 ≤ o ∧ o < 0x4A0000 then
    if o % 0x10000 < 0x9000 then some (.eis (10 * d + (o - 0x400000) / 0x10000), o % 0x10000) else none
  else if 0x800000 ≤ o ∧ o < 0x840000 then some (.quad (4 * d + (o - 0x800000) / 0x10000), o % 0x10000)
  else if 0xC00000 ≤ o ∧ o < 0xC10000 then some (.hw (16 * d + (o - 0xC00000) / 0x1000), o % 0x1000)
  else none
def winOf (a : Nat) : Option (Win × Nat) :=
  if a < 0x1000000 then hubWin a else if a < 0x9000000 then dieWin (a / 0x1000000 - 1) (a % 0x1000000) else none

/-- The fabric die of a window. -/
def winDie : Win → Option Nat
  | .die d => some d
  | .isl n => some (n / 48)
  | .eis e => some (e / 10)
  | .quad q => if q < 32 then some (q / 4) else none
  | .hw h => some (h / 16)
  | _ => none

/-! ### Links (08 R229 to R231; 09 R254, R257) -/

/-- Output `dir` of mesh router (x, y) of die d: 0 the node's own injection, 1 west toward the hub, 2 east, 3 up (y - 1), 4 down,
5 to the node. -/
def linkMesh (d x y dir : Nat) : Nat := 1000 + 8 * ((d * 8 + y) * 9 + x) + dir
/-- Hawser h = 16 d + n, the injection of a hub node, and the crossbar's output to a hub node. -/
def linkHw (h : Nat) : Nat := 6000 + h
def linkHubIn (node : Nat) : Nat := 7000 + node
def linkHubOut (node : Nat) : Nat := 7100 + node
/-- The die whose mesh a link belongs to. -/
def meshDie (l : Nat) : Option Nat := if 1000 ≤ l ∧ l < 5608 then some ((l - 1000) / 576) else none

/-! ### Operations and header rules -/

def opRd : BitVec 6 := 0x01
def opWr : BitVec 6 := 0x02
def opCsrRd : BitVec 6 := 0x03
def opCsrWr : BitVec 6 := 0x04
def opMsg : BitVec 6 := 0x10
def opEvt : BitVec 6 := 0x11
def opTickPkt : BitVec 6 := 0x3E

/-- The virtual network of an operation (R226). -/
def vnOf (op : BitVec 6) : Option Nat :=
  if op = opRd ∨ op = opWr ∨ op = opCsrRd ∨ op = opCsrWr then some 0
  else if op = opMsg ∨ op = opEvt ∨ op = opTickPkt then some 2
  else none
/-- The operation gets a response. -/
def answered (op : BitVec 6) : Bool := op == opRd || op == opWr || op == opCsrRd || op == opCsrWr || op == opMsg
def lenOf (size : Nat) : Nat := if size ≤ 32 then 0 else (size + 63) / 64

/-- `LEN`, `SIZE` and `ADDR` of a request or message (R225). -/
def shapeOk (p : Packet) : Bool :=
  let sz := p.size.toNat
  let a := p.addr.toNat
  let inl := decide (sz ≤ 32)
  if 512 < sz then false
  else if p.op = opRd then p.len == 0 && (if inl then decide (a % 64 + sz ≤ 64) else a % 64 == 0)
  else if p.op = opWr then
    p.len.toNat == lenOf sz && (if inl then decide (a % 64 + sz ≤ 64) else a % 64 == 0 && sz == 64 * p.len.toNat)
  else if p.op = opCsrRd then p.len == 0 && (if inl then decide (a % 64 + sz ≤ 64) else a % 64 == 0)
  else if p.op = opCsrWr then p.len.toNat == lenOf sz && decide (a % 64 + sz ≤ 64)
  else p.len.toNat == lenOf sz && (inl || a % 64 == 0)

/-- The node holds 16 engines, which the unit fields number; at every other node they are 0 (R224). -/
def hasUnits (node : Nat) : Bool :=
  match nodeKind node with
  | .engines _ => true
  | _ => false

/-- The header checks of the source interface (R228, 01 R22). -/
def headerOk (p : Packet) : Bool :=
  nodeKind (dstOf p) != .reserved && vnOf p.op == some p.vn.toNat && shapeOk p &&
  (p.op != opMsg || decide (p.size.toNat ≤ 64)) && !p.rsvd && (hasUnits (dstOf p) || p.dstUnit == 0)

/-! ### The header flit (R224) -/

/-- Fields of a header, each with its width, from bit 0 on; `gap` fills the reserved bits. -/
def headerFields (p : Packet) : List (Nat × Nat) :=
  [(p.dstDie.toNat, 4), (p.dstNode.toNat, 8), (p.dstUnit.toNat, 4), (p.srcDie.toNat, 4), (p.srcNode.toNat, 8), (p.srcUnit.toNat, 4),
    (p.part.toNat, 5), (p.prio.toNat, 2), (p.vn.toNat, 2), (p.op.toNat, 6), (p.len.toNat, 4), (p.tag.toNat, 12), (p.nw.toNat, 1),
    (p.rsv.toNat, 7), (p.resp.toNat, 3), (p.size.toNat, 10), (p.rsvd.toNat, 44), (p.addr.toNat, 48), (0, 80)] ++
  (if p.len = 0 then [(leNat (p.data.take 32), 256)] else [(p.firstBe.toNat, 64), (p.lastBe.toNat, 64), (0, 128)])
/-- Fields packed from bit 0 on. -/
def packBits : List (Nat × Nat) → Nat
  | [] => 0
  | f :: t => f.1 % 2 ^ f.2 + 2 ^ f.2 * packBits t
/-- The header flit. -/
def headerFlit (p : Packet) : BitVec 512 := BitVec.ofNat 512 (packBits (headerFields p))
/-- The flits of a packet: the header and `LEN` payload flits, the lowest byte in bits [7:0] (R225). -/
def flitsOf (p : Packet) : List (BitVec 512) :=
  headerFlit p :: (List.range p.len.toNat).map (fun k => BitVec.ofNat 512 (leNat ((p.data.drop (64 * k)).take 64)))

/-- Bits [o + w - 1:o] of a header. -/
def hbits (h : BitVec 512) (o w : Nat) : Nat := h.toNat / 2 ^ o % 2 ^ w
/-- The packet that a header flit and its payload flits spell; a request for data carries none itself. -/
def packetOf (poisoned : Bool) (h : BitVec 512) (pay : List (BitVec 512)) : Packet :=
  let op := BitVec.ofNat 6 (hbits h 41 6)
  let vn := BitVec.ofNat 2 (hbits h 39 2)
  let len := hbits h 47 4
  let size := hbits h 74 10
  let asks := vn == 0 && (op == opRd || op == opCsrRd)
  let bytes := if len = 0 then natLe (hbits h 256 256) 32 else pay.flatMap (fun f => natLe f.toNat 64)
  { dstDie := BitVec.ofNat 4 (hbits h 0 4), dstNode := BitVec.ofNat 8 (hbits h 4 8), dstUnit := BitVec.ofNat 4 (hbits h 12 4)
    srcDie := BitVec.ofNat 4 (hbits h 16 4), srcNode := BitVec.ofNat 8 (hbits h 20 8), srcUnit := BitVec.ofNat 4 (hbits h 28 4)
    part := BitVec.ofNat 5 (hbits h 32 5), prio := BitVec.ofNat 2 (hbits h 37 2), vn := vn, op := op, len := BitVec.ofNat 4 len
    tag := BitVec.ofNat 12 (hbits h 51 12), nw := hbits h 63 1 == 1, rsv := BitVec.ofNat 7 (hbits h 64 7)
    resp := BitVec.ofNat 3 (hbits h 71 3), size := BitVec.ofNat 10 size, addr := BitVec.ofNat 48 (hbits h 128 48)
    firstBe := if len = 0 then 0 else BitVec.ofNat 64 (hbits h 256 64)
    lastBe := if len = 0 then 0 else BitVec.ofNat 64 (hbits h 320 64)
    rsvd := hbits h 84 44 != 0 || hbits h 176 80 != 0 || (len != 0 && hbits h 384 128 != 0)
    poisoned := poisoned, data := if asks then [] else bytes.take size }
/-! ### Responses -/

/-- The Value column of R239. -/
def respCode : Resp → Nat
  | .okay => 0
  | .uninitZero => 1
  | .domainOff => 2
  | .wakeFail => 3
  | .secErr => 4
  | .partErr => 5
  | .decodeErr => 6
  | .poisoned => 7
  | .none => 0
def respOf (n : Nat) : Resp :=
  match n % 8 with
  | 0 => .okay
  | 1 => .uninitZero
  | 2 => .domainOff
  | 3 => .wakeFail
  | 4 => .secErr
  | 5 => .partErr
  | 6 => .decodeErr
  | _ => .poisoned
/-- Place of a code in the order of R239; the lowest decides. -/
def respRank : Resp → Nat
  | .decodeErr => 1
  | .partErr => 2
  | .domainOff => 3
  | .wakeFail => 4
  | .secErr => 5
  | .poisoned => 6
  | .uninitZero => 7
  | _ => 8
def isErr (r : Resp) : Bool := decide (respRank r < 7)

/-- The response of a packet (R225, R226): source and destination exchanged, no data on an error or a write. -/
def responseTo (p : Packet) (r : Resp) (data : List Byte) : Packet :=
  let d := if isErr r then [] else data
  { p with
    dstDie := p.srcDie, dstNode := p.srcNode, dstUnit := p.srcUnit
    srcDie := p.dstDie, srcNode := p.dstNode, srcUnit := p.dstUnit
    vn := 1, len := BitVec.ofNat 4 (lenOf d.length), size := BitVec.ofNat 10 d.length
    resp := BitVec.ofNat 3 (respCode r), firstBe := 0, lastBe := 0, poisoned := false, data := d }

/-- The target answers a packet: the response enters the network, where the operation has one. -/
def respond (s : State) (p : Packet) (r : Resp) (data : List Byte) : State :=
  let d := if isErr r then [] else data
  let s := { s with rsp := ⟨r, BitVec.ofNat 32 (leNat (d.take 4)), d⟩ }
  if answered p.op then { s with net := s.net ++ [responseTo p r data] } else s

/-- Row 2 of R239 refused a packet at a node of die d: counted there (R239). -/
def respondPart (s : State) (p : Packet) : State :=
  let d := p.dstDie.toNat
  respond (if d < 8 then finc s (dieBase d) Reg.Die.PART_ERR_CNT else s) p .partErr []

/-- Row 2 of R239 for a node held under the plan: `PART` is the holder or P0. -/
def partRefused (p : Packet) (holder : Nat) : Bool :=
  decide (16 < p.part.toNat) || (p.part.toNat != 0 && (holder == 0x1F || holder != p.part.toNat))
/-- Row 2 of R239 at the node that a packet names. -/
def nodeRefused (s : State) (p : Packet) : Bool :=
  match nodeKind (dstOf p) with
  | .island n => partRefused p (islHolder s n)
  | .engines e => partRefused p (eisHolder s e)
  | .quad q => partRefused p (quadHolder s q)
  | _ => decide (16 < p.part.toNat)

/-! ### Order of arrival (R233) -/

def sameFlow (a b : Packet) : Bool := srcOf a == srcOf b && dstOf a == dstOf b && a.vn == b.vn && a.prio == b.prio

/-- A CSR access, and the block whose window it names (01 R35). -/
def isCsr (p : Packet) : Bool := p.vn == 0 && (p.op == opCsrRd || p.op == opCsrWr)
def csrBlock (p : Packet) : Option Win := (winOf p.addr.toNat).map (·.1)
/-- An earlier access of the same requester to the same block is still on its way: the CSR node takes them in the order issued, at
whatever priorities they were sent (01 R37). -/
def csrBehind (s : State) (p : Packet) : Bool :=
  isCsr p && (s.net.takeWhile (fun q => q != p)).any (fun q =>
    isCsr q && srcOf q == srcOf p && q.srcUnit == p.srcUnit && csrBlock q == csrBlock p)

/-- Take a packet that arrives out of the network: it must be the first of its flow. A packet that the network does not list
comes from a requester whose sending has no row, and is taken as it is. -/
def takeNet (s : State) (p : Packet) : Option State :=
  if csrBehind s p then none
  else match s.net.find? (sameFlow p) with
  | some q => if q = p then some { s with net := s.net.erase p } else if s.net.contains p then none else some s
  | none => some s

/-! ### Reservations -/

/-- Response flits and identifiers of an interface (R235). -/
def nicSize : Node → Nat × Nat
  | .island _ => (576, 64)
  | .engines _ => (32, 32)
  | .quad _ | .dsc _ | .dieCsr _ => (36, 4)
  | .dmc | .pcie _ => (1152, 128)
  | .cfg => (576, 64)
  | .pwr | .timing => (36, 4)
  | _ => (0, 0)

/-- The first free identifier of a node's interface. -/
def freeId (s : State) (node : Nat) : Option Nat :=
  let k := (nicSize (nodeKind node)).2
  let x := nicGet s node
  ((List.range k).filter (fun i => !(x.rsv.any (fun r => r.id % k == i)) && !(x.dead.any (fun j => j % k == i)))).head?

/-- The partition that the source node stamps (R227); PCIe controllers and the DMC stamp the one they act for, and every other hub
node, die service controller and CSR/debug node is P0's. -/
def stampOf (s : State) (node : Nat) (given : BitVec 5) : BitVec 5 :=
  match nodeKind node with
  | .island n => BitVec.ofNat 5 (islHolder s n)
  | .engines e => BitVec.ofNat 5 (eisHolder s e)
  | .quad q => BitVec.ofNat 5 (quadHolder s q)
  | .dmc | .pcie _ => given
  | _ => 0

/-- The node may send at priority 0 (R227). -/
def mayPrio0 (node : Nat) : Bool :=
  match nodeKind node with
  | .dsc _ | .dieCsr _ => true
  | _ => node / 256 == 8

/-- The interface can take a new request (R242; 01 R30): its node is in service. -/
def canSend (s : State) (node : Nat) : Bool :=
  match nodeKind node with
  | .island n => !(islGet s n).hold && fget s (dieBase (n / 48)) (Reg.Die.I_STATE (n % 48)) == 0 && !fenced s (n / 48)
  | .engines e => eisLive s e
  | .quad q => decide (q < 32) && (quadGet s q).pst == 0 && !fenced s (q / 4)
  | .dsc d | .dieCsr d => present s d && !fenced s d
  | .endpoint | .reserved | .dram _ | .hubCsr | .sec => false
  | _ => true

/-- A packet whose header is in order enters the network (R227, R234): answers whether it was taken; without a free identifier or room it
waits. -/
def injectNow (s : State) (p : Packet) : Bool × State :=
    let node := srcOf p
    let p := { p with
      srcUnit := if hasUnits node then p.srcUnit else 0, part := stampOf s node p.part, prio := if p.prio = 0 ∧ mayPrio0 node = false then 1 else p.prio, resp := 0 }
    if answered p.op then
      let k := nicSize (nodeKind node)
      let need := 1 + (if p.op = opRd ∨ p.op = opCsrRd then lenOf p.size.toNat else 0)
      let used := ((nicGet s node).rsv.map (fun r => r.flits)).sum
      match freeId s node with
      | none => (false, s)
      | some i =>
        if k.1 < used + need then (false, s)
        else
          let id := i + k.2 * tget 0 (nicGet s node).gens i
          let p := { p with rsv := BitVec.ofNat 7 id }
          let s := nicUpd s node (fun x => { x with rsv := x.rsv ++ [⟨id, need, p⟩] })
          (true, { s with net := s.net ++ [p] })
    else (true, { s with net := s.net ++ [{ p with rsv := 0 }] })

/-- The network interface of a source takes a packet (R227, R228, R234): answers whether it was taken. A refused header is answered
`DECODE_ERR` at once. -/
def inject (s : State) (p : Packet) : Bool × State :=
  if !canSend s (srcOf p) then (false, s)
  else if !headerOk p then (true, answer s .decodeErr 0)
  else injectNow s p

/-- PACKET_INJECT. -/
def opPacketInject (p : Packet) (s : State) : State := (inject s p).2

/-- An interface reset returns every identifier (R236). -/
def nicReset (s : State) (node : Nat) : State := nicUpd s node (fun x => { x with rsv := [], dead := [], got := [], errs := [] })

/-- A late response is discarded and counted on the fabric die of its destination (R236, R242). -/
def lateRsp (s : State) (node : Nat) : State :=
  if node / 256 < 8 then finc s (dieBase (node / 256)) Reg.Die.LATE_RSP_CNT else s

/-- A response matches an outstanding reservation whose response has not come. -/
def awaits (x : NicSt) (id : Nat) : Bool := x.rsv.any (fun r => r.id == id) && !(x.got.any (fun g => g.rsv.toNat == id))

/-- Deliver a response to the interface of its destination. An error answered to an engine's message counts `MSG_ERR`
(07 R215), and engines take responses at once. -/
def deliver (s : State) (p : Packet) : State :=
  let node := dstOf p
  let id := p.rsv.toNat
  let x := nicGet s node
  if awaits x id then
    match nodeKind node with
    | .engines e =>
      let s := nicUpd s node (fun x => { x with rsv := x.rsv.filter (fun r => r.id != id) })
      if p.resp = 0 then s else finc s (engBase (e * 16 + p.dstUnit.toNat)) Reg.Eng.MSG_ERR
    | _ => nicUpd s node (fun x => { x with got := x.got ++ [p] })
  else lateRsp (nicUpd s node (fun x => { x with dead := x.dead.erase id })) node

/-- RESPONSE_ARRIVE (R234, R236, R242). -/
def opResponseArrive (p : Packet) (s : State) : State :=
  if p.vn ≠ 1 then s
  else match takeNet s p with
  | none => s
  | some s =>
    match nodeKind (dstOf p) with
    | .island n =>
      let st := fget s (dieBase (n / 48)) (Reg.Die.I_STATE (n % 48))
      if 2 ≤ st then lateRsp s (dstOf p) else deliver s p
    | _ => deliver s p

/-- How an outcome is seen over PCIe and counted on link k (01 R39; 13 R386): `DECODE_ERR` and `PART_ERR` as Unsupported Request,
answered here as the first; other errors as Completer Abort, answered as `DOMAIN_OFF`. -/
def pcieSeen (s : State) (c k : Nat) (r : Resp) : Resp × State :=
  if r == .decodeErr || r == .partErr then (.decodeErr, finc s (pcieBase c k) Reg.Pcie.UR_CNT)
  else if isErr r then (.domainOff, finc s (pcieBase c k) Reg.Pcie.CA_CNT)
  else (.okay, s)

/-- RESPONSE_TAKE (R234): the local user takes a response, which frees its space and identifier. A PCIe controller completes the
access of the link that `TAG` names. -/
def opResponseTake (node id : Nat) (s : State) : State :=
  match (nicGet s node).got.find? (fun g => g.rsv.toNat == id) with
  | none => s
  | some g =>
    let s := nicUpd s node (fun x => { x with got := x.got.erase g, rsv := x.rsv.filter (fun r => r.id != id) })
    let r : Resp := if g.poisoned then .poisoned else respOf g.resp.toNat
    match nodeKind node with
    | .pcie c => let v := pcieSeen s c (g.tag.toNat % 4) r; answerBytes v.2 v.1 (if isErr r then [] else g.data)
    | _ => answerBytes s r g.data

/-- RSP_TIMEOUT (R236): completes with `DOMAIN_OFF`; the space is freed, the identifier stays out of use. -/
def opRspTimeout (node id : Nat) (s : State) : State :=
  if awaits (nicGet s node) id then
    let s := match nodeKind node with
      | .engines e => (match (nicGet s node).rsv.find? (fun r => r.id == id) with
        | some r => finc s (engBase (e * 16 + r.req.srcUnit.toNat)) Reg.Eng.MSG_ERR
        | none => s)
      | _ => s
    let s := nicUpd s node (fun x => { x with rsv := x.rsv.filter (fun r => r.id != id), dead := x.dead ++ [id] })
    let s := if node / 256 < 8 then finc s (dieBase (node / 256)) Reg.Die.RSP_TMO_CNT else s
    answer s .domainOff 0
  else s

/-- RSV_GENERATION_RETURN (R236): only in interfaces with fewer than 128 identifiers. -/
def opRsvReturn (node id : Nat) (s : State) : State :=
  let k := (nicSize (nodeKind node)).2
  if k = 0 ∨ k = 128 ∨ !(nicGet s node).dead.contains id then s
  else nicUpd s node (fun x => { x with
    dead := x.dead.erase id, gens := tset 0 x.gens (id % k) ((tget 0 x.gens (id % k) + 1) % (128 / k)) })

/-! ### Draining of staged writes (07 R212, R215) -/

/-- The packet of a staged message. -/
def msgPacket (n : Nat) (v : BitVec 64) (payload : List Byte) : Packet :=
  let f (o w : Nat) : Nat := v.toNat / 2 ^ o % 2 ^ w
  let node := eisNode (eisOfEng n)
  let size := f 16 7
  { dstDie := BitVec.ofNat 4 (f 0 4), dstNode := BitVec.ofNat 8 (f 4 8), dstUnit := BitVec.ofNat 4 (f 12 4)
    srcDie := BitVec.ofNat 4 (node / 256), srcNode := BitVec.ofNat 8 node, srcUnit := BitVec.ofNat 4 n
    part := 0, prio := BitVec.ofNat 2 (max 1 (f 23 2)), vn := 2, op := opMsg, len := BitVec.ofNat 4 (lenOf size)
    tag := BitVec.ofNat 12 (f 32 12), nw := false, rsv := 0, resp := 0, size := BitVec.ofNat 10 size, addr := 0
    firstBe := BitVec.allOnes 64, lastBe := BitVec.allOnes 64, rsvd := false, poisoned := false, data := payload }

/-- STAGED_DRAIN (07 R212): the oldest released entry drains. A store to the persistent region goes through the external port, when
that serves it (05 R135); one to the shared window is posted to its engine, where it arrives four cycles later (R137); a message that gets no identifier waits; one whose header is refused counts `MSG_ERR`. -/
def opStagedDrain (n : Nat) (s : State) : State :=
  match (engGet s n).released with
  | [] => s
  | .store a w v :: t =>
    if a < 0x8000 then
      if (engGet s n).wbs.isEmpty && portServes s n 3 (banksOf a w) then
        engUpd s n (fun e => portUsed { dmExts e a (natLe v.toNat w) with released := t } 3 (banksOf a w))
      else s
    else
      let m := n / 16 * 16 + (a - 0x80000) / 32768 % 16
      engUpd (engUpd s n (fun e => { e with released := t })) m (fun e => { e with posted := e.posted ++ [⟨n % 16, a % 32768, w, v, 4⟩] })
  | .msg v payload :: t =>
    let p := msgPacket n v payload
    let r := inject s p
    if r.1 then
      let s := engUpd r.2 n (fun e => { e with released := t })
      if headerOk p then s else finc s (engBase n) Reg.Eng.MSG_ERR
    else s

def execPacketInject (p : Packet) (s : State) : Out := .next (opPacketInject p s)
def execResponseArrive (p : Packet) (s : State) : Out := .next (opResponseArrive p s)
def execResponseTake (node : BitVec 12) (id : BitVec 7) (s : State) : Out := .next (opResponseTake node.toNat id.toNat s)
def execRspTimeout (node : BitVec 12) (id : BitVec 7) (s : State) : Out := .next (opRspTimeout node.toNat id.toNat s)
def execRsvGenerationReturn (node : BitVec 12) (id : BitVec 7) (s : State) : Out := .next (opRsvReturn node.toNat id.toNat s)
def execStagedDrain (g : Eng) (s : State) : Out := .next (opStagedDrain (engId g) s)

end Sys2Proof.Machine
end

