-- ==== Sys2Proof/Machine/MemSec.lean ====
section
/-! DEFINITION. The memory security engine: ownership, zero-fill, encryption, the integrity window with its counters, tags and
tree, re-keys, poisoned spans, resets and alarms (11 R304 to R335). -/

namespace Sys2Proof.Machine

def secF (s : State) (f : Fld) : Nat := fget s secBase f

/-! ### Alarms and escalation (R332, R333) -/

/-- Raise an alarm SEC. Causes 1 to 3 are attributed to a partition, count, and may escalate a host partition. -/
def secAlarm (s : State) (cause part addr : Nat) : State :=
  let b := secBase
  let attributed := decide (cause ≤ 3 ∧ part ≤ 16)
  let s := fset (fset s b Reg.Sec.CAUSE cause) b Reg.Sec.SEC_PART (if attributed then part else 0x1F)
  let s := fset (fset s b Reg.Sec.SEC_ADDR_LO addr) b Reg.Sec.SEC_ADDR_HI (addr / 2 ^ 32)
  let s := fflag s b Reg.Sec.SEC_VALID true
  let s := alarm s clsSec cause (if attributed then part else 0x1F) (natLe addr 8)
  let s := if cause ≤ 3 then finc s b Reg.Sec.TAG_FAIL_CNT else s
  if attributed then
    let s := finc s b (Reg.Sec.SEC_CNT part)
    let n := secF s Reg.Sec.ESC_N
    if n ≠ 0 ∧ part ≠ 0 ∧ n ≤ secF s (Reg.Sec.SEC_CNT part) ∧ !(partGet s part).escalated then
      secUpd (partUpd s part (fun p => { p with escalated := true })) (fun e => { e with zeroizing := e.zeroizing ++ [part] })
    else s
  else s

/-! ### Lines of the system address space -/

/-- Load system line `ln` (address[38:6]) through its channel. -/
def lineLoad (s : State) (ln : Nat) : BitVec 512 × Nat × State := mcLoad s (ln / 2 ^ 30) (ln % 2 ^ 30)
def lineStore (s : State) (ln : Nat) (d : BitVec 512) : State := mcStore s (ln / 2 ^ 30) (ln % 2 ^ 30) d

/-! ### The integrity window (R317 to R319) -/

def winSizeLog (s : State) : Nat := secF s Reg.Sec.WIN_SIZE
def winBase (s : State) : Nat := secF s Reg.Sec.WIN_BASE_G * 2 ^ 30
def winBytes (s : State) : Nat := 2 ^ (30 + winSizeLog s)
def inWin (s : State) (addr : Nat) : Bool :=
  fbit s secBase Reg.Sec.WIN_ACTIVE && decide (winBase s ≤ addr) && decide (addr < winBase s + winBytes s)
def winPages (s : State) : Nat := 2 ^ (18 + winSizeLog s)
/-- Node levels D by window size (R319). -/
def winDepth (s : State) : Nat := if winSizeLog s = 0 then 5 else if winSizeLog s ≤ 3 then 6 else 7
def rootEntries (s : State) : Nat := winPages s / 8 ^ winDepth s
def metaBase (s : State) : Nat := secF s Reg.Sec.META_GRAN * 131072
/-- Bytes of the metadata region: 75/512 of the window. -/
def metaBytes (wsLog : Nat) : Nat := 75 * 2 ^ (30 + wsLog) / 512
def winLine (s : State) (ln : Nat) : Nat := ln - winBase s / 64
def winPage (s : State) (addr : Nat) : Nat := (addr - winBase s) / 4096
/-- Byte address of a counter block, of its tag, and of a node (R318). -/
def blockAddr (s : State) (p : Nat) : Nat := metaBase s + winBytes s / 8 + 64 * p
def blockTagAddr (s : State) (p : Nat) : Nat := metaBase s + winBytes s / 8 + winBytes s / 64 + 8 * p
def nodeAddr (s : State) (k q : Nat) : Nat :=
  metaBase s + winBytes s / 8 + winBytes s / 64 + winBytes s / 512 + 64 * q +
    64 * ((List.range (k - 1)).map (fun j => winPages s / 8 ^ (j + 1))).sum
def tagAddr (s : State) (ln : Nat) : Nat := metaBase s + 8 * winLine s ln

/-- 64-bit word j of a line. -/
def lineWord (d : BitVec 512) (j : Nat) : BitVec 64 := d.extractLsb' (64 * j) 64
def setLineWord (d : BitVec 512) (j : Nat) (v : BitVec 64) : BitVec 512 :=
  (d &&& ~~~ ((BitVec.allOnes 64).setWidth 512 <<< (64 * j))) ||| (v.setWidth 512 <<< (64 * j))
/-- The 8-byte tag stored at a byte address. -/
def tagLoad (s : State) (a : Nat) : BitVec 64 × Nat × State :=
  let r := lineLoad s (a / 64)
  (lineWord r.1 (a / 8 % 8), r.2.1, r.2.2)
/-- Store a tag: answers whether the merge with the line's other tags was possible (10 R284). -/
def tagStore (s : State) (a : Nat) (t : BitVec 64) : Bool × State :=
  let r := lineLoad s (a / 64)
  if r.2.1 = 2 then (false, r.2.2) else (true, lineStore r.2.2 (a / 64) (setLineWord r.1 (a / 8 % 8) t))

/-- Store a tag in a tag line that is written whole (R328): what cannot be read of it stands as read. -/
def tagPut (s : State) (a : Nat) (t : BitVec 64) : State :=
  let r := lineLoad s (a / 64)
  lineStore r.2.2 (a / 64) (setLineWord r.1 (a / 8 % 8) t)

/-! ### Keys (R309) -/

def memKey (s : State) : BitVec 256 := s.sec.key.getD 0
def outKeys (s : State) : KeySet := keySet (memKey s) 0xFFFFFFFFFFFFFFFF 0
def treeKey (s : State) : List Byte := (keySet (memKey s) 0xFFFFFFFFFFFFFFFE 0).kmac
def pageKeys (s : State) (pn major : Nat) : KeySet := keySet (memKey s) pn major

/-! ### Poisoned spans (R330) -/

/-- Node (k, i) lies in the span of node (k', i'). -/
def inSpan (k i k' i' : Nat) : Bool := decide (k ≤ k') && i / 8 ^ (k' - k) == i'
def psEntry (s : State) (j : Nat) : Option (Nat × Nat) :=
  if fbit s secBase (Reg.Sec.PS_VALID j) then some (secF s (Reg.Sec.PS_LEVEL j), secF s (Reg.Sec.PS_INDEX j)) else none
def psClear (s : State) (j : Nat) : State :=
  freset s secBase [Reg.Sec.PS_VALID j, Reg.Sec.PS_LEVEL j, Reg.Sec.PS_INDEX j]
def psSet (s : State) (j k i : Nat) : State :=
  fflag (fset (fset s secBase (Reg.Sec.PS_LEVEL j) k) secBase (Reg.Sec.PS_INDEX j) i) secBase (Reg.Sec.PS_VALID j) true
def psSlots : List Nat := List.range 16
def covered (s : State) (k i : Nat) : Bool :=
  psSlots.any (fun j => match psEntry s j with
    | some e => inSpan k i e.1 e.2
    | none => false)
/-- List entries inside the span of (k, i) are removed. -/
def psRemove (s : State) (k i : Nat) : State :=
  psSlots.foldl (fun s j => match psEntry s j with
    | some e => if inSpan e.1 e.2 k i then psClear s j else s
    | none => s) s
/-- Page p is poisoned (row 2 of R325). -/
def pagePoisoned (s : State) (p : Nat) : Bool := fbit s secBase Reg.Sec.WIN_POISONED || covered s 0 p

/-! ### The counter cache and the tree (R320 to R324) -/

def cacheKey (k i : Nat) : Nat := 2 ^ 24 * k + i
def cacheGet (s : State) (k i : Nat) : Option CacheEnt := tget none s.sec.cache (cacheKey k i)
def cachePut (s : State) (k i : Nat) (c : Option CacheEnt) : State :=
  secUpd s (fun e => { e with cache := tset none e.cache (cacheKey k i) c })
/-- Drop every cached entry in the span of (k, i). -/
def cacheDrop (s : State) (k i : Nat) : State :=
  secUpd s (fun e => { e with cache := e.cache.filter (fun p => !inSpan (p.1 / 2 ^ 24) (p.1 % 2 ^ 24) k i) })

/-- Poison a span, with the alarm of its failure (R329, R330). -/
def poisonSpan (s : State) (k i cause addr : Nat) : State :=
  let s := cacheDrop (secAlarm s cause 0x1F addr) k i
  if fbit s secBase Reg.Sec.WIN_POISONED || covered s k i then s
  else
    let s := psRemove s k i
    match psSlots.filter (fun j => (psEntry s j).isNone) with
    | j :: _ => psSet s j k i
    | [] => secAlarm (fflag s secBase Reg.Sec.WIN_POISONED true) 10 0x1F addr

/-- Child entry c of a node: `E` and `CTR` (R321). -/
def childE (d : BitVec 512) (c : Nat) : Bool := d.getLsbD (56 * c + 55)
def childCtr (d : BitVec 512) (c : Nat) : Nat := (d.extractLsb' (56 * c) 55).toNat
def setChild (d : BitVec 512) (c : Nat) (e : Bool) (ctr : Nat) : BitVec 512 :=
  (d &&& ~~~ ((BitVec.allOnes 56).setWidth 512 <<< (56 * c))) |||
    (BitVec.ofNat 512 (ctr % 2 ^ 55 + (if e then 2 ^ 55 else 0)) <<< (56 * c))

def ctrMax : Nat := 2 ^ 55 - 1
def floor64 (s : State) (lo hi : Fld) : Nat := secF s lo + 2 ^ 32 * secF s hi
def setFloor (s : State) (lo hi : Fld) (v : Nat) : State := fset (fset s secBase lo v) secBase hi (v / 2 ^ 32)
def majorFloor (s : State) : Nat := floor64 s Reg.Sec.MAJOR_FLOOR_LO Reg.Sec.MAJOR_FLOOR_HI
def treeFloor (s : State) : Nat := floor64 s Reg.Sec.TREE_FLOOR_LO Reg.Sec.TREE_FLOOR_HI

/-- The parent entry of (k, i) where its parent is on-die already: a root entry, or a cached node. -/
def parentGet (s : State) (k i : Nat) : Option (Bool × Nat) :=
  if k = winDepth s then
    let r := tget {} s.sec.root i
    some (r.e, r.ctr)
  else (cacheGet s (k + 1) (i / 8)).map (fun c => (childE c.data (i % 8), childCtr c.data (i % 8)))
def parentSet (s : State) (k i : Nat) (e : Bool) (ctr : Nat) : State :=
  if k = winDepth s then secUpd s (fun x => { x with root := tset {} x.root i ⟨e, ctr⟩ })
  else match cacheGet s (k + 1) (i / 8) with
    | none => s
    | some c => cachePut s (k + 1) (i / 8) (some { c with data := setChild c.data (i % 8) e ctr, dirty := true })

def entAddr (s : State) (k i : Nat) : Nat := if k = 0 then blockAddr s i else nodeAddr s k i
/-- The tag of a block or node under a parent counter (R322). -/
def entTag (s : State) (k i : Nat) (d : BitVec 512) (ctr : Nat) : BitVec 64 :=
  if k = 0 then blockTag (treeKey s) d (entAddr s k i) ctr else nodeTag (treeKey s) d (entAddr s k i) ctr

/-- What a stored byte's code finds in its inverted bits (R139): the code is linear, so that the data delivered differs by `data`. -/
def byteCode (flip : BitVec 13) : SecOut := secDecode pos8 4 (flip.toNat % 256) (flip.toNat / 256)
/-- A cached entry as it is used: its stored errors are corrected and counted, or it is dropped, or its span is poisoned (R329). The Bool
says that the entry must be fetched again. -/
def cacheUse (s : State) (k i : Nat) (c : CacheEnt) : Bool × Option (BitVec 512) × State :=
  if c.flips.isEmpty then (false, some c.data, s)
  else
    let outs := c.flips.map (fun p => (p.1, byteCode p.2))
    let s := faddSat s secBase Reg.Sec.CACHE_CE_CNT (outs.filter (fun p => p.2.sbe)).length
    if outs.any (fun p => p.2.dbe) then
      let s := finc s secBase Reg.Sec.CACHE_UE_CNT
      if c.dirty then (false, none, poisonSpan s k i 6 (entAddr s k i)) else (true, none, cachePut s k i none)
    else
      let d := outs.foldl (fun d p => d ^^^ BitVec.ofNat 512 (p.2.data * 2 ^ (8 * p.1))) c.data
      (false, some d, cachePut s k i (some { c with data := d, flips := [] }))

/-- A node as its empty entry gives it (R321): every child of it is empty too, and carries the emptied entry's `CTR`, so that no
`CTR` repeats at an address (R323; notes/assumptions/22.md). -/
def emptyNode (ctr : Nat) : BitVec 512 := (List.range 8).foldl (fun d c => setChild d c true ctr) 0

/-- Read an entry from DRAM under its parent entry and verify it (R321, R324, R329): nothing when its span became poisoned. -/
def loadEnt (s : State) (k i : Nat) (e : Bool) (ctr : Nat) : Option (BitVec 512) × State :=
  if e then (some (if k = 0 then 0 else emptyNode ctr), s)
  else
    let a := entAddr s k i
    let r := lineLoad s (a / 64)
    let t := if k = 0 then tagLoad r.2.2 (blockTagAddr s i) else (lineWord r.1 7, 0, r.2.2)
    let s := t.2.2
    if r.2.1 = 2 ∨ t.2.1 = 2 then (none, poisonSpan (finc s secBase Reg.Sec.TREE_UE_CNT) k i 5 a)
    else
      let s := if r.2.1 = 1 then finc s secBase Reg.Sec.TREE_CE_CNT else s
      let s := if t.2.1 = 1 then finc s secBase Reg.Sec.TREE_CE_CNT else s
      if entTag s k i r.1 ctr = t.1 then (some r.1, s) else (none, poisonSpan s k i 4 a)

/-- The cached parent of (k, i) is used: its stored errors are dealt with, and a clean one that was dropped is read again. -/
def parentUse (s : State) (k i : Nat) : State :=
  if k = winDepth s then s
  else match cacheGet s (k + 1) (i / 8) with
    | none => s
    | some c =>
      let u := cacheUse s (k + 1) (i / 8) c
      if u.1 then
        match parentGet u.2.2 (k + 1) (i / 8) with
        | none => u.2.2
        | some p =>
          let r := loadEnt u.2.2 (k + 1) (i / 8) p.1 p.2
          match r.1 with
          | some d => cachePut r.2 (k + 1) (i / 8) (some ⟨d, false, []⟩)
          | none => r.2
      else u.2.2

/-- Write a dirty entry back with a new tag (R323, R324); it is then clean. A block's tag that cannot be merged loses the block's span, and
so does an uncorrectable byte of the entry. -/
def writeBack (s : State) (k i : Nat) : State :=
  let s := parentUse s k i
  match cacheGet s k i with
  | none => s
  | some c =>
    let u := cacheUse s k i c
    let s := u.2.2
    match u.2.1, parentGet s k i with
    | some d, some (_, ctr) =>
      if ctrMax ≤ ctr then poisonSpan s k i 8 (entAddr s k i)
      else
        let ctr := ctr + 1
        let s := cachePut (parentSet s k i false ctr) k i (some ⟨d, false, []⟩)
        let s := setFloor s Reg.Sec.TREE_FLOOR_LO Reg.Sec.TREE_FLOOR_HI (max (treeFloor s) ctr)
        let tag := entTag s k i d ctr
        if k = 0 then
          let s := lineStore s (entAddr s k i / 64) d
          let r := tagStore s (blockTagAddr s i) tag
          if r.1 then r.2 else poisonSpan (finc r.2 secBase Reg.Sec.TREE_UE_CNT) 0 i 5 (entAddr s k i)
        else lineStore s (entAddr s k i / 64) (setLineWord d 7 tag)
    | _, _ => s

/-- Make room for one entry other than `keep` (R324): the entry with the lowest key that has no cached child leaves. -/
def evict (s : State) (keep : Nat) : State :=
  if s.sec.cache.length ≤ 32768 then s
  else
    let kids (key : Nat) : Bool := key / 2 ^ 24 != 0 && s.sec.cache.any (fun q =>
      q.1 / 2 ^ 24 + 1 == key / 2 ^ 24 && q.1 % 2 ^ 24 / 8 == key % 2 ^ 24)
    match s.sec.cache.find? (fun p => p.1 != keep && !kids p.1) with
    | some (key, some c) =>
      let k := key / 2 ^ 24
      let i := key % 2 ^ 24
      cachePut (if c.dirty then writeBack s k i else s) k i none
    | _ => s

/-- Fill an entry: nothing when its span became poisoned. -/
def fillEnt (s : State) (k i : Nat) (e : Bool) (ctr : Nat) : Option (BitVec 512) × State :=
  let r := loadEnt s k i e ctr
  match r.1 with
  | some d => (some d, evict (cachePut r.2 k i (some ⟨d, false, []⟩)) (cacheKey k i))
  | none => (none, r.2)

/-- The verified contents of (k, i), its ancestors cached first; `fuel` bounds the levels above. -/
def fetch : Nat → State → Nat → Nat → Option (BitVec 512) × State
  | 0, s, _, _ => (none, s)
  | fuel + 1, s, k, i =>
    let viaParent (s : State) : Option (BitVec 512) × State :=
      let up := if k = winDepth s then (some 0, s) else fetch fuel s (k + 1) (i / 8)
      match up.1 with
      | none => (none, up.2)
      | some _ => match parentGet up.2 k i with
        | none => (none, up.2)
        | some (e, ctr) => fillEnt up.2 k i e ctr
    match cacheGet s k i with
    | none => viaParent s
    | some c =>
      let r := cacheUse s k i c
      if r.1 then viaParent r.2.2 else r.2
def fetchEnt (s : State) (k i : Nat) : Option (BitVec 512) × State := fetch 9 s k i
/-- The counter block of page p. -/
def blockOf (s : State) (p : Nat) : Option (BitVec 512) × State :=
  if pagePoisoned s p then (none, s) else fetchEnt s 0 p
def blockPut (s : State) (p : Nat) (d : BitVec 512) : State :=
  match cacheGet s 0 p with
  | some c => cachePut s 0 p (some { c with data := d, dirty := true })
  | none => s

/-- Empty the entry of (k, i) in its parent (R323), with its cached copies. -/
def emptyEnt (s : State) (k i : Nat) : State :=
  let up := if k = winDepth s then (some 0, s) else fetchEnt s (k + 1) (i / 8)
  match up.1 with
  | none => up.2
  | some _ =>
    let s := up.2
    let v := treeFloor s + 1
    if ctrMax < v then poisonSpan s k i 8 (entAddr s k i)
    else cacheDrop (setFloor (parentSet s k i true v) Reg.Sec.TREE_FLOOR_LO Reg.Sec.TREE_FLOOR_HI v) k i

def blkMajor (d : BitVec 512) : Nat := (d.extractLsb' 0 64).toNat
def blkMinor (d : BitVec 512) (i : Nat) : Nat := (d.extractLsb' (64 + 7 * i) 7).toNat
def setMajor (d : BitVec 512) (v : Nat) : BitVec 512 := setLineWord d 0 (BitVec.ofNat 64 v)
def setMinor (d : BitVec 512) (i v : Nat) : BitVec 512 :=
  (d &&& ~~~ ((BitVec.allOnes 7).setWidth 512 <<< (64 + 7 * i))) ||| (BitVec.ofNat 512 (v % 128) <<< (64 + 7 * i))

/-! ### Lines (R310, R316, R325 to R328) -/

/-- What reading one line gives: data, never written, or an error with its row of R325. -/
inductive LineRd where
  | data (d : BitVec 512)
  | never
  | bad (row : Nat)
  deriving DecidableEq, Repr

/-- Page number and line of a system line. -/
def pnOf (ln : Nat) : Nat := ln / 64

/-- Decide a stored line of the window under its counter block: rows 4 to 7 of R325. -/
def winDecide (s : State) (ln : Nat) (blk : BitVec 512) : LineRd × BitVec 512 × State :=
  let r := lineLoad s ln
  let t := tagLoad r.2.2 (tagAddr s ln)
  let s := t.2.2
  let minor := blkMinor blk (ln % 64)
  let ks := pageKeys s (pnOf ln) (blkMajor blk)
  if r.2.1 = 2 ∨ t.2.1 = 2 then (.bad 4, r.1, s)
  else if lineTag ks r.1 ln minor false = t.1 then (.data (xtsDec ks ln r.1), r.1, s)
  else if lineTag ks r.1 ln minor true = t.1 then (.bad 6, r.1, s)
  else (.bad 7, r.1, s)

/-- Read one line of a granule with `INIT` = 1: outside the window by R316, inside by R325. No alarm is raised here. -/
def readLine (s : State) (ln : Nat) : LineRd × State :=
  if inWin s (64 * ln) then
    let b := blockOf s (winPage s (64 * ln))
    match b.1 with
    | none => (.bad 2, b.2)
    | some blk =>
      if blkMinor blk (ln % 64) = 0 then (.never, b.2)
      else
        let r := winDecide b.2 ln blk
        (r.1, if r.1 = .bad 4 then finc r.2.2 secBase Reg.Sec.DRAM_UE_CNT else r.2.2)
  else
    let r := lineLoad s ln
    if r.2.1 = 2 then (.bad 4, finc r.2.2 secBase Reg.Sec.DRAM_UE_CNT) else (.data (xtsDec (outKeys s) ln r.1), r.2.2)

/-- The code of a line outcome. -/
def rdResp : LineRd → Resp
  | .data _ => .okay
  | .never => .uninitZero
  | .bad row => if row = 7 then .secErr else .poisoned
def rdData : LineRd → BitVec 512
  | .data d => d
  | _ => 0

/-- Encrypt and write a line of a page under the given block: ciphertext and tag. -/
def putSealed (s : State) (ln : Nat) (ks : KeySet) (minor : Nat) (d : BitVec 512) : Bool × State :=
  let c := xtsEnc ks ln d
  tagStore (lineStore s ln c) (tagAddr s ln) (lineTag ks c ln minor false)

/-- Write a full line (R316, R326); its minor is below 127. An empty page takes a new MAJOR (R323). Answers whether the tag could
be written. -/
def writeLine (s : State) (ln : Nat) (d : BitVec 512) : Bool × State :=
  if inWin s (64 * ln) then
    let p := winPage s (64 * ln)
    let b := blockOf s p
    match b.1 with
    | none => (false, b.2)
    | some blk =>
      let fresh := decide (blk = 0)
      let major := if fresh then majorFloor b.2 + 1 else blkMajor blk
      let s := if fresh then setFloor b.2 Reg.Sec.MAJOR_FLOOR_LO Reg.Sec.MAJOR_FLOOR_HI major else b.2
      let minor := blkMinor blk (ln % 64) + 1
      let s := blockPut s p (setMinor (setMajor blk major) (ln % 64) minor)
      putSealed s ln (pageKeys s (pnOf ln) major) minor d
  else (true, lineStore s ln (xtsEnc (outKeys s) ln d))

/-- Replace a line's stored tag by the poison tag over its stored ciphertext and minor (R327). -/
def poisonLine (s : State) (ln : Nat) : State :=
  let b := blockOf s (winPage s (64 * ln))
  match b.1 with
  | none => b.2
  | some blk =>
    let r := lineLoad b.2 ln
    let t := lineTag (pageKeys s (pnOf ln) (blkMajor blk)) r.1 ln (blkMinor blk (ln % 64)) true
    finc (tagStore r.2.2 (tagAddr s ln) t).2 secBase Reg.Sec.POISON_CNT

/-! ### The lines of a request (R306) -/

/-- A line that a request touches, with the bytes it writes there. -/
structure LineReq where
  ln : Nat
  mask : BitVec 64
  data : BitVec 512
  deriving DecidableEq, Repr

def reqLines (p : Packet) : List Nat :=
  let a := p.addr.toNat
  let n := p.size.toNat
  if n = 0 then [] else (List.range ((a + n - 1) / 64 - a / 64 + 1)).map (a / 64 + ·)

/-- The write of each line of a request (08 R225). -/
def writeReqs (p : Packet) : List LineReq :=
  let a := p.addr.toNat
  let n := p.size.toNat
  if p.len = 0 then
    if n = 0 then []
    else [⟨a / 64, BitVec.ofNat 64 ((2 ^ n - 1) * 2 ^ (a % 64)), BitVec.ofNat 512 (leNat (p.data.take n) * 2 ^ (8 * (a % 64)))⟩]
  else (List.range p.len.toNat).map (fun k =>
    ⟨a / 64 + k, if k = 0 then p.firstBe else if k + 1 = p.len.toNat then p.lastBe else fullMask,
      BitVec.ofNat 512 (leNat ((p.data.drop (64 * k)).take 64))⟩)

/-- The worse of two codes in the order of R239. -/
def worse (a b : Resp) : Resp := if respRank a ≤ respRank b then a else b

/-- Read the lines of a request. Row 7 raises alarm SEC, cause 1. -/
def readLines (part : Nat) (init : Bool) : List Nat → State → List LineRd × State
  | [], s => ([], s)
  | ln :: t, s =>
    let r := if init then readLine s ln else (.never, s)
    let s := if r.1 = .bad 7 then secAlarm r.2 1 part (64 * ln) else r.2
    let q := readLines part init t s
    (r.1 :: q.1, q.2)

/-- The response of a read. -/
def serveRead (p : Packet) (init : Bool) (s : State) : State :=
  let lines := reqLines p
  let r := readLines p.part.toNat init lines s
  let worst := (r.1.map rdResp).foldl (fun a b => if isErr b then worse a b else a) .okay
  let resp := if isErr worst then worst else if !lines.isEmpty && r.1.all (· == .never) then .uninitZero else .okay
  let bytes := r.1.flatMap (fun x => natLe (rdData x).toNat 64)
  respond r.2 p resp ((bytes.drop (p.addr.toNat % 64)).take p.size.toNat)

/-- The tag of a line of the window cannot be merged into its tag line (10 R284), unless a re-key writes that line whole: no line of the
request is then written (R306), and the DRAM error is counted. -/
def tagShut (s : State) (ln : Nat) : Option State :=
  if inWin s (64 * ln) then
    let r := lineLoad s (tagAddr s ln / 64)
    let full := match (blockOf s (winPage s (64 * ln))).1 with
      | some blk => blkMinor blk (ln % 64) == 127
      | none => false
    if r.2.1 = 2 ∧ full = false then some (finc r.2.2 secBase Reg.Sec.DRAM_UE_CNT) else none
  else none
/-- The first pass of a write (R306, R326, R327): each line's outcome and the whole line to be written. -/
def prepLine (part : Nat) (w : LineReq) (s : State) : Resp × BitVec 512 × State :=
  let ready (d : BitVec 512) (s : State) : Resp × BitVec 512 × State := match tagShut s w.ln with
    | some t => (.poisoned, 0, t)
    | none => (.okay, d, s)
  if w.mask = fullMask then
    if inWin s (64 * w.ln) then
      let b := blockOf s (winPage s (64 * w.ln))
      if b.1.isNone then (.poisoned, w.data, b.2) else ready w.data b.2
    else (.okay, w.data, s)
  else
    let r := readLine s w.ln
    if r.1 = .bad 7 then (.secErr, 0, poisonLine (secAlarm r.2 2 part (64 * w.ln)) w.ln)
    else if isErr (rdResp r.1) then (.poisoned, 0, r.2)
    else ready (mergeBytes (rdData r.1) w.data w.mask) r.2
def prepLines (part : Nat) : List LineReq → State → Resp × List (Nat × BitVec 512) × State
  | [], s => (.okay, [], s)
  | w :: t, s =>
    let r := prepLine part w s
    let q := prepLines part t r.2.2
    (worse r.1 q.1, (w.ln, r.2.1) :: q.2.1, q.2.2)

/-- A line to be written stands at minor 127: its write re-keys the page (R328). -/
def needsRekey (s : State) (ls : List (Nat × BitVec 512)) : Bool :=
  ls.any (fun l => inWin s (64 * l.1) && (match (blockOf s (winPage s (64 * l.1))).1 with
    | some blk => blkMinor blk (l.1 % 64) == 127
    | none => false))

/-- Write the lines of a request. -/
def writeLines (l : List (Nat × BitVec 512)) (s : State) : State := l.foldl (fun s l => (writeLine s l.1 l.2).2) s

/-! ### The path of a request (R305) -/

def granOf (addr : Nat) : Nat := addr / 131072

/-- Row 1 of R305. -/
def reqUnmapped (s : State) (p : Packet) : Bool :=
  let a := p.addr.toNat
  let n := a / 2 ^ 36
  let st := mcState s n
  let last := a + (p.size.toNat - 1)
  decide (8 ≤ n) || st == 4 || (decide (2 ≤ st) && decide (mcLines s n ≤ last % 2 ^ 36 / 64)) ||
  nodeKind (dstOf p) != .dram n || a / 4096 != last / 4096 || !(p.op == opRd || p.op == opWr) || !shapeOk p

/-- A granule-table entry's byte (R311), and the entry that a byte spells. -/
def granByte (x : Gran) : Nat := x.owner + (if x.init then 32 else 0) + (if x.locked then 64 else 0)
def granFrom (v : Nat) : Gran := { owner := v % 32, init := v.testBit 5, locked := v.testBit 6 }
/-- The granule's entry as a request or the patrol finds it: stored errors are corrected or recorded (R329). Nothing for an uncorrectable
one. -/
def granUse (s : State) (g : Nat) : Option Gran × State :=
  let x := granGet s g
  if x.bad then (none, s)
  else if x.flip = 0 then (some x, s)
  else
    let r := byteCode x.flip
    if r.dbe then (none, secAlarm (finc (granSet s g { x with flip := 0, bad := true }) secBase Reg.Sec.GT_UE_CNT) 7 0x1F (g * 131072))
    else
      let y := granFrom (granByte x ^^^ r.data)
      (some y, if r.sbe then finc (granSet s g y) secBase Reg.Sec.GT_CE_CNT else granSet s g y)

/-- Row 3 of R305. -/
def reqOff (s : State) (p : Packet) : Bool :=
  let n := p.addr.toNat / 2 ^ 36
  let st := mcState s n
  decide (st < 2) || (mcGet s n).standby || (partGet s p.part.toNat).escalated || (partGet s p.part.toNat).state == 3 ||
  !fbit s secBase Reg.Sec.KEY_READY

/-- A reset in progress covers the page of an address (R331). -/
def resetCovers (s : State) (addr : Nat) : Bool :=
  match s.sec.reset with
  | none => false
  | some (k, i) => inWin s addr && (k == 15 || inSpan 0 (winPage s addr) k i)

def fillHold (s : State) (g : Nat) (p : Packet) : State :=
  secUpd s (fun e => { e with fills := tset [] e.fills g (tget [] e.fills g ++ [p]) })
def rekeyHold (s : State) (pg : Nat) (p : Packet) : State :=
  secUpd s (fun e => { e with rekeys := tset [] e.rekeys pg (tget [] e.rekeys pg ++ [p]) })

/-- Row 4 of R305 for a write. -/
def serveWrite (p : Packet) (x : Gran) (s : State) : State :=
  if !x.init then fillHold s (granOf p.addr.toNat) p
  else
    let q := prepLines p.part.toNat (writeReqs p) s
    if isErr q.1 then respond q.2.2 p q.1 []
    else if needsRekey q.2.2 q.2.1 then rekeyHold q.2.2 (p.addr.toNat / 4096) p
    else respond (writeLines q.2.1 q.2.2) p .okay []

/-- The lines of a request past rows 1 to 3 of R305: it is held behind a reset, a zero-fill or a re-key in progress; a poisoned write
is discarded (08 R223). -/
def memLines (p : Packet) (s : State) : State :=
  let a := p.addr.toNat
  let g := granOf a
  if p.poisoned && p.op == opWr then respond s p .poisoned []
  else if resetCovers s a then secUpd s (fun e => { e with held := e.held ++ [p] })
  else if !(tget [] s.sec.fills g).isEmpty then fillHold s g p
  else if !(tget [] s.sec.rekeys (a / 4096)).isEmpty then rekeyHold s (a / 4096) p
  else if p.op = opRd then serveRead p (granGet s g).init s
  else serveWrite p (granGet s g) s

/-- A request at the memory security engine (R305, R306). -/
def memRequest (p : Packet) (s : State) : State :=
  if reqUnmapped s p then respond s p .decodeErr []
  else
    let u := granUse s (granOf p.addr.toNat)
    match u.1 with
    | none => respond u.2 p .partErr []
    | some x =>
      let s := u.2
      if x.owner ≠ p.part.toNat ∨ 16 < p.part.toNat then respond s p .partErr []
      else if reqOff s p then respond s p .domainOff []
      else memLines p s

/-- Serve held requests in arrival order: rows 1 to 3 were decided when they were sampled. -/
def serveHeld (l : List Packet) (s : State) : State := l.foldl (fun s p => memLines p s) s

/-! ### Table writes (R312, R313) -/

/-- The granules that a node's span touches, from the first to past the last (R331). -/
def spanGrans (s : State) (k i : Nat) : Nat × Nat :=
  let lo := if k = 15 then 0 else i * 8 ^ k
  let hi := if k = 15 then winPages s else min (winPages s) ((i + 1) * 8 ^ k)
  (winBase s / 131072 + lo / 32, winBase s / 131072 + (hi + 31) / 32)
/-- A zero-fill, a re-key or the reset works on a granule from `lo` to `hi - 1`. -/
def granWork (s : State) (lo hi : Nat) : Bool :=
  let meets (g : Nat) : Bool := decide (lo ≤ g) && decide (g < hi)
  s.sec.fills.any (fun x => meets x.1) || s.sec.rekeys.any (fun x => meets (x.1 / 32)) ||
    (match s.sec.reset with
      | some (k, i) => decide ((spanGrans s k i).1 < hi) && decide (lo < (spanGrans s k i).2)
      | none => false)
/-- A table write takes effect; what is written is a right codeword. An entry found uncorrectable is changed by its restoration and by
a write of its owner alone. -/
def granApply (w : GranWrite) (s : State) : State :=
  let x := granGet s w.g
  let x := { x with init := x.init && !w.zero }
  if x.bad && !w.restore && w.own.isNone then s
  else match w.own with
    | some (o, l) => granSet s w.g { x with owner := o, locked := l, flip := 0, bad := false }
    | none => granSet s w.g { x with flip := 0, bad := false }
/-- Write an entry, at once or after the work on its granule (R312). -/
def granWrite (w : GranWrite) (s : State) : State :=
  if granWork s w.g (w.g + 1) then secUpd s (fun e => { e with writes := e.writes ++ [w] }) else granApply w s
/-- Work has ended: the writes that waited for it alone take effect, in the order given. -/
def granDue (s : State) : State :=
  let ws := s.sec.writes
  ws.foldl (fun s w => granWrite w s) (secUpd s (fun e => { e with writes := [] }))

/-! ### Zero-fill, re-key, reset (R315, R328, R331) -/

/-- The 2,048 encrypted zero lines of a granule outside the window. -/
def zeroLines (s : State) (g : Nat) : State :=
  let ks := outKeys s
  (List.range 2048).foldl (fun s j => lineStore s (2048 * g + j) (xtsEnc ks (2048 * g + j) 0)) s

/-- ZERO_FILL_DONE (R315). -/
def opZeroFillDone (g : Nat) (s : State) : State :=
  match tget [] s.sec.fills g with
  | [] => s
  | held =>
    let s := secUpd s (fun e => { e with fills := tset [] e.fills g [] })
    let s := if inWin s (g * 131072) then
        (List.range 32).foldl (fun s j => emptyEnt s 0 (winPage s (g * 131072) + j)) s
      else zeroLines s g
    let s := granSet s g { granGet s g with init := true, flip := 0 }
    granDue (serveHeld held (finc s secBase Reg.Sec.ZFILL_CNT))

/-- Steps 2 to 4 of R328 for one line: its ciphertext and tag under the new keys, with new data for a triggering line; none where its minor
is 0. -/
def rekeyLine (old : BitVec 512) (major : Nat) (trig : List (Nat × BitVec 512)) (ln : Nat) (s : State) : Option (BitVec 512 × BitVec 64) × State :=
  let ks := pageKeys s (pnOf ln) major
  let sealed (d : BitVec 512) : Option (BitVec 512 × BitVec 64) :=
    let c := xtsEnc ks ln d
    some (c, lineTag ks c ln 1 false)
  if blkMinor old (ln % 64) = 0 then (none, s)
  else match trig.find? (fun l => l.1 == ln) with
    | some l => (sealed l.2, s)
    | none =>
      let r := winDecide s ln old
      match r.1 with
      | .data d => (sealed d, r.2.2)
      | .never => (none, r.2.2)
      | .bad row =>
        let s := if row = 7 then secAlarm r.2.2 3 (granGet r.2.2 (granOf (64 * ln))).owner (64 * ln) else r.2.2
        let s := if row = 6 then s else finc s secBase Reg.Sec.POISON_CNT
        (some (r.2.1, lineTag ks r.2.1 ln 1 true), s)
/-- Decide the lines of a page before any of them is written. -/
def rekeyDecide (old : BitVec 512) (major : Nat) (trig : List (Nat × BitVec 512)) :
    List Nat → State → List (Nat × BitVec 512 × BitVec 64) × State
  | [], s => ([], s)
  | ln :: t, s =>
    let r := rekeyLine old major trig ln s
    let q := rekeyDecide old major trig t r.2
    (match r.1 with
      | some x => (ln, x) :: q.1
      | none => q.1, q.2)

/-- Re-key page number `pn` with the lines that triggered it: its lines, its 8 tag lines and its counter block are written (R328). -/
def rekeyPage (pn : Nat) (trig : List (Nat × BitVec 512)) (s : State) : State :=
  let p := winPage s (4096 * pn)
  let b := blockOf s p
  match b.1 with
  | none => b.2
  | some old =>
    let major := majorFloor b.2 + 1
    let s := setFloor b.2 Reg.Sec.MAJOR_FLOOR_LO Reg.Sec.MAJOR_FLOOR_HI major
    let r := rekeyDecide old major trig ((List.range 64).map (64 * pn + ·)) s
    let s := r.1.foldl (fun s x => tagPut (lineStore s x.1 x.2.1) (tagAddr s x.1) x.2.2) r.2
    let new := (List.range 64).foldl (fun d i => if blkMinor old i = 0 then d else setMinor d i 1) (setMajor 0 major)
    finc (writeBack (blockPut s p new) 0 p) secBase Reg.Sec.REKEY_CNT

/-- REKEY_DONE (R328): the triggering write, which is the first held, gives its lines at minor 127 as the new data; its other
lines, and the requests held behind it, follow in order. -/
def opRekeyDone (pn : Nat) (s : State) : State :=
  match tget [] s.sec.rekeys pn with
  | [] => s
  | p :: held =>
    let s := secUpd s (fun e => { e with rekeys := tset [] e.rekeys pn [] })
    let q := prepLines p.part.toNat (writeReqs p) s
    if isErr q.1 then granDue (serveHeld held (respond q.2.2 p q.1 []))
    else
      let minor (ln : Nat) : Nat := match (blockOf q.2.2 (winPage q.2.2 (64 * ln))).1 with
        | some blk => blkMinor blk (ln % 64)
        | none => 0
      let trig := q.2.1.filter (fun l => minor l.1 == 127)
      let s := rekeyPage pn trig q.2.2
      let s := writeLines (q.2.1.filter (fun l => !(trig.contains l))) s
      granDue (serveHeld held (respond s p .okay []))

/-- A reset of a span (R331): its parent entry emptied, its list entries removed; level 15 is the whole window. -/
def resetSpan (k i : Nat) (s : State) : State :=
  if k = 15 then
    let s := (List.range (rootEntries s)).foldl (fun s j => emptyEnt s (winDepth s) j) s
    let s := psSlots.foldl psClear s
    fflag s secBase Reg.Sec.WIN_POISONED false
  else psRemove (emptyEnt s k i) k i

/-- SUBTREE_RESET_DONE (R331): held requests are served against the reset state. -/
def opSubtreeResetDone (s : State) : State :=
  match s.sec.reset with
  | none => s
  | some (k, i) =>
    let held := s.sec.held
    granDue (serveHeld held (resetSpan k i (secUpd s (fun e => { e with reset := none, held := [] }))))

/-- GT_RESTORE (R329): the DMC restores an uncorrectable entry, `INIT` := 0. -/
def opGtRestore (g : Nat) (s : State) : State := if (granGet s g).bad then granWrite ⟨g, none, true, true⟩ s else s

/-- The granules that a partition owns. -/
def granulesOf (s : State) (p : Nat) : List Nat := (s.sec.gran.filter (fun e => e.2.owner == p)).map (fun e => e.1)
/-- Zeroize: `INIT` := 0 (R313). -/
def zeroize (s : State) (g : Nat) : State := granWrite ⟨g, none, true, false⟩ s

/-- The node whose stored block a line of the metadata region holds, level and index: counter blocks and nodes (R318). -/
def metaNode (s : State) (ln : Nat) : Option (Nat × Nat) :=
  let a := 64 * ln
  if !fbit s secBase Reg.Sec.WIN_ACTIVE then none
  else if blockAddr s 0 ≤ a ∧ a < blockAddr s (winPages s) then some (0, (a - blockAddr s 0) / 64)
  else ((List.range (winDepth s)).map (· + 1)).findSome? (fun k =>
    if nodeAddr s k 0 ≤ a ∧ a < nodeAddr s k (winPages s / 8 ^ k) then some (k, (a - nodeAddr s k 0) / 64) else none)

/-- PATROL_STEP (10 R294): the entry of the line's granule is read too, and an uncorrectable line of a block or node poisons its span
(R329). -/
def opPatrolStep (n : Nat) (s : State) : State :=
  let r := patrolRead n s
  match r.1 with
  | none => r.2
  | some (line, bad) =>
    let ln := n * 2 ^ 30 + line
    let s := (granUse r.2 (ln / 2048)).2
    match (if bad then metaNode s ln else none) with
    | none => s
    | some (k, i) => poisonSpan (finc s secBase Reg.Sec.TREE_UE_CNT) k i 5 (64 * ln)

/-! ### The window enable (R317) -/

/-- `bytes` bytes from `a` lie in the fitted capacity of channels in RUN. -/
def rangeInRun (s : State) (a bytes : Nat) : Bool :=
  bytes != 0 && (List.range 8).all (fun n =>
    let lo := max a (n * 2 ^ 36)
    let hi := min (a + bytes) ((n + 1) * 2 ^ 36)
    decide (hi ≤ lo) || (mcState s n == 2 && decide ((hi - n * 2 ^ 36) ≤ 64 * mcLines s n))) && decide (a + bytes ≤ 8 * 2 ^ 36)

/-- The plan gives granule g to partition p. -/
def planOwns (s : State) (p g : Nat) : Bool := (planGet s p).valid && inRanges (planGet s p) g

def winOk (s : State) (baseG sizeLog : Nat) : Bool :=
  let a := baseG * 2 ^ 30
  let n := 2 ^ (30 + sizeLog)
  let m := metaBase s
  let k := metaBytes sizeLog
  sizeLog != 7 && baseG % 2 ^ sizeLog == 0 && rangeInRun s a n && rangeInRun s m k && (decide (a + n ≤ m) || decide (m + k ≤ a)) &&
  s.sec.gran.all (fun e =>
    let inW := decide (granOf a ≤ e.1) && decide (e.1 < granOf (a + n))
    let inM := decide (granOf m ≤ e.1) && decide (e.1 < granOf (m + k))
    (!inW || ((e.2.owner == 0x1F || planOwns s e.2.owner e.1) && !e.2.init)) && (!inM || (e.2.owner == 0x1F && !e.2.init)))

/-- Every metadata granule gets owner 0x1E and `INIT` = 1. -/
def markMeta (s : State) : State :=
  let lo := secF s Reg.Sec.META_GRAN
  let hi := lo + metaBytes (winSizeLog s) / 131072
  let x : Gran := { owner := 0x1E, init := true }
  let g := s.sec.gran.filter (fun p => p.1 < lo) ++ (List.range (hi - lo)).map (fun j => (lo + j, x)) ++ s.sec.gran.filter (fun p => hi ≤ p.1)
  secUpd s (fun e => { e with gran := g })

/-- A write of the register of `WIN_EN`, with `PROT_LOCK` = 0: a second enable is refused, its metadata having an owner by then. -/
def winWrite (v : Word) (s : State) : State :=
  let b := secBase
  let baseG := wfield Reg.Sec.WIN_BASE_G v
  let sizeLog := wfield Reg.Sec.WIN_SIZE v
  if fbit s b Reg.Sec.WIN_ACTIVE then (if wfield Reg.Sec.WIN_EN v = 0 then s else fflag s b Reg.Sec.WIN_REJECT true)
  else if wfield Reg.Sec.WIN_EN v = 0 then fset (fset s b Reg.Sec.WIN_BASE_G baseG) b Reg.Sec.WIN_SIZE sizeLog
  else if winOk s baseG sizeLog then
    let s := fset (fset s b Reg.Sec.WIN_BASE_G baseG) b Reg.Sec.WIN_SIZE sizeLog
    markMeta (fflag (fflag s b Reg.Sec.WIN_EN true) b Reg.Sec.WIN_ACTIVE true)
  else fflag s b Reg.Sec.WIN_REJECT true

/-- The action of `SEC_CLR` and of `SEC_CNT_CLR` (R334). -/
def actSecClr (s : State) : State := csrWipe s (secBase + 0x040) (secBase + 0x08C)
def actSecCntClr (mask : Nat) (s : State) : State :=
  (List.range 17).foldl (fun s p => if mask.testBit p then fclr s secBase (Reg.Sec.SEC_CNT p) else s) s

def execPatrolStep (n : Fin 8) (s : State) : Out := .next (opPatrolStep n.val s)
def execZeroFillDone (g : BitVec 22) (s : State) : Out := .next (opZeroFillDone g.toNat s)
def execRekeyDone (page : BitVec 27) (s : State) : Out := .next (opRekeyDone page.toNat s)
def execGtRestore (g : BitVec 22) (s : State) : Out := .next (opGtRestore g.toNat s)

end Sys2Proof.Machine
end

