-- ==== Sys2Proof/Machine/Island.lean ====
section
/-! DEFINITION. Logic islands as their routers see them: the network port, power-down, wake, the hold and the staged release
(08 R241 to R246; 02 R54; 03 R83, R90, R95, R102; 14 R424, R425). -/

namespace Sys2Proof.Machine

/-! ### States -/

/-- NoC state of island n (08 R248): 0 RUN, 1 DRAIN, 2 ISOLATE, 3 OFF, 4 OFF_LOCKED, 5 WAKING, 6 OFF after a failed wake. -/
def islState (s : State) (n : Nat) : Nat := fget s (dieBase (n / 48)) (Reg.Die.I_STATE (n % 48))
def setIslState (s : State) (n v : Nat) : State := fset s (dieBase (n / 48)) (Reg.Die.I_STATE (n % 48)) v
def showHeld (s : State) (n : Nat) : State := fset s (dieBase (n / 48)) (Reg.Die.I_HELD (n % 48)) (nocGet s n).hold.length
def allIsl : List Nat := List.range 384

/-- Partition run state RUNNING; P0 always runs (13 R392). -/
def partRunning (s : State) (p : Nat) : Bool := p == 0 || (partGet s p).state == 2

/-- A packet may wake the island (15 R453); its state OFF or its way to OFF is the caller's. -/
def wakePermitted (s : State) (n : Nat) : Bool :=
  partRunning s (islHolder s n) && islHolder s n != 0x1F && (islGet s n).image && (nocGet s n).kind != 3 && !(nocGet s n).device &&
  fget s pwrBase Reg.Pwr.DEV_STATE == 0

/-! ### The network port -/

/-- Flits of the inbound buffer in use: those of the packets that user logic has not taken (R241). -/
def rqiFlits (x : NocSt) : Nat := ((x.rqi.drop x.taken).map (fun p => 1 + p.len.toNat)).sum
/-- Requests that await their responses (R241). -/
def rqiReqs (x : NocSt) : Nat := (x.rqi.filter (fun p => p.op != opMsg)).length
/-- The inbound buffer cannot take the packet, or 64 requests await their responses (R241). -/
def rqiFull (x : NocSt) (p : Packet) : Bool := decide (72 < rqiFlits x + 1 + p.len.toNat) || decide (64 ≤ rqiReqs x)

/-- Present a packet on `RQI` (R239 rows 3 and 6, R241): a poisoned write or message is discarded; a `MSG` is answered `OKAY` when it
enters. -/
def rqiDeliver (n : Nat) (p : Packet) (s : State) : State :=
  if rqiFull (nocGet s n) p then respond (finc s (dieBase (n / 48)) Reg.Die.TGT_FULL_CNT) p .domainOff []
  else if p.poisoned && p.op != opRd then respond s p .poisoned []
  else
    let s := nocUpd s n (fun x => { x with rqi := x.rqi ++ [p] })
    if p.op = opMsg then respond s p .okay [] else s

/-- ISLAND_RESPONSE (R241): user logic answers the oldest request; messages presented before it were taken. -/
def opIslandResponse (n resp : Nat) (data : List Byte) (s : State) : State :=
  if 1 < islState s n ∨ (islGet s n).hold then s
  else match (nocGet s n).rqi.dropWhile (fun p => p.op == opMsg) with
    | [] => s
    | p :: t =>
      let s := nocUpd s n (fun x => { x with rqi := t, taken := x.taken - 1 })
      let r := respOf resp
      let bad := (r ≠ .okay ∧ r ≠ .poisoned) ∨ (p.op = opRd ∧ r = .okay ∧ data.length ≠ p.size.toNat)
      respond s p (if bad then .poisoned else r) (if p.op = opRd then data else [])

/-! ### Hold and release -/

/-- The first edge of the hold (R13, R83, R90): incoming hitches are emptied, switches abandoned. -/
def islEnterHold (s : State) (n : Nat) : State :=
  if (islGet s n).hold then s
  else
    let s := emptyIncoming s n
    let s := freset s (islBase n) [Reg.Isl.SW_BUSY, Reg.Isl.SW_HELD]
    let s := { s with ff := tclear s.ff (64 * (800 * n)) (64 * (800 * (n + 1))) }
    islUpd s n (fun i => { i with
      hold := true, swOld := [], swStep2 := [], swHeld := [], relRun := 0, pendSteps := 0, pendDrop := false, reports := []
      trees := [], gen := {}, rqo := [], rso := [], rqoLast := false, rsiBeat := 0, rqiBeat := 0 })

/-- ISOLATE (R242): the cleats clamp, the interface is detached and reset (R236). -/
def islIsolate (s : State) (n : Nat) : State :=
  let s := nicReset (islEnterHold (setIslState s n 2) n) (islNode n)
  nocUpd s n (fun x => { x with rqi := [], taken := 0 })

/-- The registers of an island's window at the release of its hold (03 R102; 04 R127): every field at its reset, `LOCKED` among them,
the image's fields from the frames. The user I/O registers keep their values (17 R524). -/
def islLoadRegs (s : State) (n : Nat) : State :=
  let b := islBase n
  let s := csrClear s b (b + 0x200)
  let s := fset (fset (fset s b Reg.Isl.SPINE_SEL (cfgSpineSel s n)) b Reg.Isl.GEN_MUL (cfgGenMul s n)) b Reg.Isl.GEN_DIV (cfgGenDiv s n)
  let s := (List.range 4).foldl (fun s x => fset (fset s b (Reg.Isl.SRC x) (cfgSrc s n x)) b (Reg.Isl.DIV x) (cfgDiv s n x)) s
  let s := fset (fflag s b Reg.Isl.ROOT (cfgSpliceRoot s n)) b Reg.Isl.SPLICE_ID (cfgSpliceId s n)
  fset s b Reg.Isl.MEMBERS (if spliced s n then (spliceMembers s n).length else 0)

/-- The staged release of one island (14 R425): its outputs open at once, its clocks ungate 160 ns later; block memories take the contents of a new image, or keep what they hold; held
packets are delivered in arrival order (R244). -/
def islRelease (s : State) (n : Nat) : State :=
  let s := ffLoad (islLoadRegs s n) n
  let s := if (islGet s n).region = 1 then bramLoadInit s n
    else (List.range 50).foldl (fun s k => bramSet s (bramKey n k) { rows := (bramGet s (bramKey n k)).rows }) s
  let s := islUpd s n (fun i => { i with
    hold := false, image := true, pendRel := false, region := 2, lapStart := usCount s.tim, wakeFailed := false
    rxWait := [(0, 4), (1, 4), (2, 4), (3, 4)], rel := 160 })
  let held := (nocGet s n).hold
  let s := nocUpd (setIslState s n 0) n (fun x => { x with hold := [], kind := 0, device := false })
  showHeld (held.foldl (fun s p => rqiDeliver n p s) s) n

/-- The generator that an island runs from is locked: the root's in a splice (03 R93). -/
def islLocked (s : State) (n : Nat) : Bool := fbit s (islBase (spliceRoot s n)) Reg.Isl.LOCKED

/-- The island may be in service: no partition holds it, or its partition is RUNNING (13 R392), and its die is not fenced. -/
def islMayRun (s : State) (n : Nat) : Bool :=
  (islHolder s n == 0x1F || partRunning s (islHolder s n)) && !fenced s (n / 48)

/-- The islands of a partial load. -/
def loadIslands (l : LoadSt) : List Nat := ((List.range 48).filter (fun i => l.islands.testBit i)).map (fun i => 48 * l.die + i)
/-- The islands that a segment names. -/
def segIslands (x : Seg) : List Nat := ((List.range 48).filter (fun i => x.islands.testBit i)).map (fun i => 48 * x.die + i)
/-- The islands that a load names. -/
def loadNames (l : LoadSt) : List Nat := if l.partialLoad then loadIslands l else l.segs.flatMap segIslands
/-- A load that names island n is released as one: none of its islands still waits for its lock (14 R421 step 6, R424, R428 step 6). -/
def loadTogether (s : State) (n : Nat) : Bool :=
  match s.load with
  | some l => l.stage != 3 || !(loadNames l).contains n ||
      (loadNames l).all (fun m => !(islGet s m).pendRel || islLocked s m || !islMayRun s m)
  | none => true
/-- The release reaches island n: it and the members of its splice wait for it and are locked (R95), and so is its load. -/
def releaseReady (s : State) (n : Nat) : Bool :=
  (spliceMembers s n).all (fun m => (islGet s m).pendRel && islLocked s m && islMayRun s m) && loadTogether s n
/-- A wake reaches RUN for an island whose partition was stopped meanwhile: it stays held (13 R393). -/
def wakeBarred (s : State) (n : Nat) : Bool :=
  let ms := spliceMembers s n
  ms.all (fun m => (islGet s m).pendRel && islLocked s m && islState s m == 5 && !fenced s (m / 48)) && !ms.all (islMayRun s)
def wakeHeld (s : State) (n : Nat) : State :=
  let held := (nocGet s n).hold
  let s := nocUpd (setIslState (islUpd s n (fun i => { i with pendRel := false, wakeFailed := false })) n 0) n (fun x => { x with hold := [] })
  showHeld (held.foldl (fun s p => respond s p .domainOff []) s) n
/-- STAGED_RELEASE (14 R425): every island that waits for its release and is locked; a splice only as a whole. -/
def opStagedRelease (s : State) : State :=
  (allIsl.filter (wakeBarred s)).foldl wakeHeld ((allIsl.filter (releaseReady s)).foldl islRelease s)

/-! ### Power-down and wake (R242 to R246) -/

/-- Begin a power-down, or the transition of a load (kind 3), of an island in RUN. -/
def drainStart (s : State) (n kind : Nat) (device : Bool) : State :=
  nocUpd (setIslState s n 1) n (fun x => { x with kind := kind, device := device })

/-- DRAIN has nothing left (R242): no request awaits user logic, no reservation is outstanding, the interface holds no flit. -/
def drained (s : State) (n : Nat) : Bool :=
  (nocGet s n).rqi.isEmpty && (nicGet s (islNode n)).rsv.isEmpty && (nicGet s (islNode n)).errs.isEmpty &&
    (islGet s n).rqo.isEmpty && (islGet s n).rso.isEmpty

/-- DRAIN_END: a splice moves as one (R95). -/
def opDrainEnd (n : Nat) (s : State) : State :=
  let ms := spliceMembers s n
  if ms.all (fun m => islState s m == 1 && drained s m) then ms.foldl islIsolate s else s

/-- The requests that still await user logic are answered `DOMAIN_OFF`. -/
def answerPending (s : State) (n : Nat) : State :=
  ((nocGet s n).rqi.filter (fun p => p.op != opMsg)).foldl (fun s p => respond s p .domainOff []) s

/-- DRAIN_TIMEOUT: `DRAIN_MAX` has elapsed. -/
def opDrainTimeout (n : Nat) (s : State) : State :=
  let ms := spliceMembers s n
  if ms.all (fun m => islState s m == 1) then ms.foldl (fun s m => islIsolate (answerPending s m) m) s else s

/-- Start the wake of an island and of its whole splice (R244, R95). -/
def wakeStart (s : State) (n : Nat) : State :=
  (spliceMembers s n).foldl (fun s m =>
    if islState s m = 3 ∨ islState s m = 6 then
      fflag (islUpd (setIslState s m 5) m (fun i => { i with pendRel := true, wakeAt := s.up + 1 })) (islBase m) Reg.Isl.LOCKED false
    else s) s

/-- A wake started by a packet is counted at its island. -/
def wakeByPacket (s : State) (n : Nat) : State := finc (wakeStart s n) (dieBase (n / 48)) (Reg.Die.I_WAKE_CNT (n % 48))

/-- The state that an island shows when it is off: 6 until RUN is reached again after a failed wake (R245). -/
def offState (s : State) (n state : Nat) : Nat := if state = 3 ∧ (islGet s n).wakeFailed = true then 6 else state

/-- An island's power is removed: block memories are kept or lost (15 R454; 04 R122), its outgoing hitches hold nothing (03 R90). -/
def islPowerOff (s : State) (n state : Nat) : State :=
  let s := dropOutgoing (if (islGet s n).keepBram then s else bramLose s n) n
  nocUpd (setIslState s n (offState s n state)) n (fun x => { x with kind := 0, device := false })

/-- ISLAND_OFF (R242, R244): OFF or OFF_LOCKED is reached; held packets start the wake at once. -/
def opIslandOff (n : Nat) (s : State) : State :=
  let ms := spliceMembers s n
  if ms.all (fun m => islState s m == 2 && ((nocGet s m).kind == 1 || (nocGet s m).kind == 2)) then
    let s := ms.foldl (fun s m => islPowerOff s m (if (nocGet s m).kind = 2 then 4 else 3)) s
    match ms.filter (fun m => islState s m == 3 && !(nocGet s m).hold.isEmpty) with
    | m :: _ => wakeByPacket s m
    | [] => s
  else s

/-- WAKE_FAIL (R245). -/
def opWakeFail (n : Nat) (s : State) : State :=
  (spliceMembers s n).foldl (fun s m =>
    if islState s m = 5 then
      let s := (nocGet s m).hold.foldl (fun s p => respond s p .wakeFail []) s
      let s := nocUpd (setIslState s m 6) m (fun x => { x with hold := [] })
      finc (showHeld (islUpd s m (fun i => { i with pendRel := false, wakeFailed := true })) m) (dieBase (m / 48)) (Reg.Die.I_WAKE_FAIL_CNT (m % 48))
    else s) s

/-- Hold a packet in the router (R243): 16 fit. -/
def holdPacket (n : Nat) (p : Packet) (s : State) : Bool × State :=
  if 16 ≤ (nocGet s n).hold.length then (false, respond (finc s (dieBase (n / 48)) Reg.Die.HOLD_FULL_CNT) p .domainOff [])
  else (true, showHeld (nocUpd s n (fun x => { x with hold := x.hold ++ [p] })) n)

/-- A packet at a logic island's router that passed rows 1 and 2 (R242 to R245; 14 R429). -/
def islArrive (n : Nat) (p : Packet) (s : State) : State :=
  let st := islState s n
  if fenced s (n / 48) then respond s p .domainOff []
  else match st with
    | 0 | 1 => if (islGet s n).hold then respond s p .domainOff [] else rqiDeliver n p s
    | 2 =>
      if (nocGet s n).kind = 1 ∧ !p.nw ∧ wakePermitted s n then (holdPacket n p s).2 else respond s p .domainOff []
    | 3 =>
      if !p.nw && wakePermitted s n then
        let r := holdPacket n p s
        if r.1 then wakeByPacket r.2 n else r.2
      else respond s p .domainOff []
    | 5 =>
      if p.nw then respond s p .domainOff []
      else if (islGet s n).wakeFailed then respond s p .wakeFail []
      else (holdPacket n p s).2
    | 6 => respond s p .wakeFail []
    | _ => respond s p .domainOff []

def execIslandResponse (d : Fin 8) (i : Fin 48) (resp : BitVec 3) (data : List Byte) (s : State) : Out :=
  .next (opIslandResponse (islId d i) resp.toNat data s)
def execDrainEnd (d : Fin 8) (i : Fin 48) (s : State) : Out := .next (opDrainEnd (islId d i) s)
def execDrainTimeout (d : Fin 8) (i : Fin 48) (s : State) : Out := .next (opDrainTimeout (islId d i) s)
def execIslandOff (d : Fin 8) (i : Fin 48) (s : State) : Out := .next (opIslandOff (islId d i) s)
def execWakeFail (d : Fin 8) (i : Fin 48) (s : State) : Out := .next (opWakeFail (islId d i) s)

end Sys2Proof.Machine
end

