-- ==== Sys2Proof/Machine/Lanes.lean ====
section
/-! DEFINITION. Serial lanes (12 R336 to R365): attempts and link states, words to and from the fabric, tests, timestamps, and
the power of a quad as its lanes see it (15 R456). A lane is numbered 4 times its quad plus l. -/

namespace Sys2Proof.Machine

def laneNo (l : Lane) : Nat := l.q.val * 4 + l.l.val
/-- Base of a lane's registers. -/
def lb (n : Nat) : Nat := laneBase (n / 4) (n % 4)
def linkState (s : State) (n : Nat) : Nat := fget s (lb n) Reg.Lane.LINK_STATE
def laneMode (s : State) (n : Nat) : Nat := fget s (lb n) Reg.Lane.MODE
/-- The raw modes (R339); every other mode is an Ethernet mode for R341, R342 and R362. -/
def rawMode (m : Nat) : Bool := m == 0x10 || m == 0x11
/-- A lane of a fabric quad. -/
def fabricLane (n : Nat) : Bool := decide (n < 128)

/-- The other lanes of the group that a mode gives lead lane n (R339). -/
def groupOf (n m : Nat) : List Nat :=
  if m = 0x05 ∧ n % 4 = 0 then [n + 1, n + 2, n + 3] else if m = 0x06 ∧ n % 2 = 0 then [n + 1] else []

/-- Take the group of the lane's mode apart. -/
def ungroup (s : State) (n : Nat) : State :=
  (groupOf n (laneMode s n)).foldl (fun s m =>
    fset (fflag s (lb m) Reg.Lane.GROUP_MEMBER false) (lb m) Reg.Lane.PSTATE 2) s

/-- Give the lane a mode, with the group that goes with it. -/
def setMode (s : State) (n m : Nat) : State :=
  let s := fset (ungroup s n) (lb n) Reg.Lane.MODE m
  (groupOf n m).foldl (fun s k => fset (fflag s (lb k) Reg.Lane.GROUP_MEMBER true) (lb k) Reg.Lane.LINK_STATE 0) s

/-- Enter a link state with its power state (R348); the members of the group follow the lead lane's power. -/
def setLink (s : State) (n st p : Nat) : State :=
  let s := fset (fset s (lb n) Reg.Lane.LINK_STATE st) (lb n) Reg.Lane.PSTATE p
  (groupOf n (laneMode s n)).foldl (fun s k => fset s (lb k) Reg.Lane.PSTATE p) s

/-- Start an attempt (R349): in TRAIN for `SZ-DR226`, in ACQUIRE for the raw modes, else in AN. -/
def laneAttempt (s : State) (n : Nat) : State :=
  let m := laneMode s n
  let s := laneUpd (fset s (lb n) Reg.Lane.WAIT_LEFT 0) n (fun x => { x with waitAt := 0 })
  setLink s n (if m = 0x20 then 2 else if rawMode m then 3 else 1) 0

/-- The wait of R353 for the present `ATTEMPT`. -/
def laneWait (s : State) (n : Nat) : Nat := min (2 ^ (fget s (lb n) Reg.Lane.ATTEMPT - 1)) 32

/-- Signal, lock and convergence are gone. -/
def laneQuiet (s : State) (n : Nat) : State :=
  [Reg.Lane.SIG_DET, Reg.Lane.CDR_LOCK, Reg.Lane.PCS_LOCK, Reg.Lane.ADAPT_CONV].foldl (fun s f => fflag s (lb n) f false) s
/-- The wait of an unsuccessful attempt begins (R353). -/
def laneWaits (s : State) (n : Nat) : State :=
  laneUpd (fset s (lb n) Reg.Lane.WAIT_LEFT (laneWait s n)) n (fun x => { x with waitAt := s.up + 1 })

/-- An abandoned attempt (R349): BACKOFF, with signal detect on (R346). -/
def laneAbandon (s : State) (n cause : Nat) : State :=
  let s := if cause = 1 then laneQuiet s n else fflag (laneQuiet s n) (lb n) Reg.Lane.SIG_DET (fbit s (lb n) Reg.Lane.SIG_DET)
  let s := finc (finc s (lb n) Reg.Lane.ATTEMPT) (lb n) Reg.Lane.ABANDON_CNT
  let s := fset s (lb n) Reg.Lane.LAST_CAUSE cause
  setLink (laneWaits s n) n 7 1

/-- A failed attempt (R349): alarm LINK, and PARKED, or QUARANTINE at the eighth failure in a row; signal detect is off (R346). -/
def laneFail (s : State) (n cause : Nat) : State :=
  let s := finc (finc (finc (laneQuiet s n) (lb n) Reg.Lane.ATTEMPT) (lb n) Reg.Lane.FAIL_RUN) (lb n) Reg.Lane.FAIL_CNT
  let s := alarmLink (fset s (lb n) Reg.Lane.LAST_CAUSE cause) cause (n / 4) (n % 4)
  if 8 ≤ fget s (lb n) Reg.Lane.FAIL_RUN then setLink (fset s (lb n) Reg.Lane.WAIT_LEFT 0) n 9 2
  else setLink (laneWaits s n) n 8 2

/-- A test ends: its pattern, checker and loopback fields return to 0 (R360). -/
def laneEndTest (s : State) (n : Nat) : State :=
  let s := laneUpd s n (fun x => { x with inj := false, chkPhase := 0, chkRun := 0 })
  [Reg.Lane.PRBS_GEN, Reg.Lane.PRBS_CHK, Reg.Lane.LOOPBACK, Reg.Lane.CHK_LOCK].foldl (fun s f => fset s (lb n) f 0) s

/-- Put a lane down with a state and power, nothing detected. -/
def laneDown (s : State) (n st : Nat) : State :=
  let s := if linkState s n = 10 then laneEndTest s n else s
  let s := laneQuiet (fset s (lb n) Reg.Lane.WAIT_LEFT 0) n
  setLink (laneUpd s n (fun x => { x with rx := [], txq := [], txPhase := 0, tsq := [] })) n st 2

/-- DISABLED (R348, R354). -/
def laneDisable (s : State) (n : Nat) : State := ungroup (laneDown (laneUpd s n (fun x => { x with enabled := false })) n 0) n

/-- A new attempt after a success or a command: `ATTEMPT` = 0. -/
def laneRestart (s : State) (n : Nat) : State :=
  laneAttempt (fset s (lb n) Reg.Lane.ATTEMPT 0) n

/-- Leave TEST (R360): a new attempt, or DISABLED. -/
def laneLeaveTest (s : State) (n : Nat) : State :=
  let s := laneEndTest s n
  if (laneGet s n).enabled then laneRestart s n else laneDown s n 0

/-! ### Equalisation -/

/-- A byte as a signed number. -/
def sByte (v : Nat) : Int := (BitVec.ofNat 8 v).toInt

/-- The transmitter taps are legal (R344): c(0) to 64, the others within 32, the magnitudes at most 64 together. -/
def txcLegal (m3 m2 m1 p1 c0 : Nat) : Bool :=
  decide (c0 ≤ 64) && [m3, m2, m1, p1].all (fun v => decide ((sByte v).natAbs ≤ 32)) &&
    decide ((sByte m3).natAbs + (sByte m2).natAbs + (sByte m1).natAbs + (sByte p1).natAbs + c0 ≤ 64)

/-- Training sets the taps that the mode's clause uses and holds the others at 0 (R344). The settings themselves are free
values: any legal setting, or the one that stood (notes/assumptions/24.md). -/
def trainTaps (s : State) (n : Nat) : State :=
  let m := laneMode s n
  let a := freeWord s
  let b := freeWord a.2
  let s := b.2
  let byteOf := fun k => (a.1.toNat >>> (8 * k)) % 256
  let c72 := m == 2 || m == 3 || m == 5
  let m3 := if m == 7 || m == 0x20 then byteOf 0 else 0
  let m2 := if c72 then 0 else byteOf 1
  let c0 := b.1.toNat % 128
  if m == 1 then s
  else if txcLegal m3 m2 (byteOf 2) (byteOf 3) c0 then
    let s := fset (fset s (lb n) Reg.Lane.TXC_M3 m3) (lb n) Reg.Lane.TXC_M2 m2
    fset (fset (fset s (lb n) Reg.Lane.TXC_M1 (byteOf 2)) (lb n) Reg.Lane.TXC_P1 (byteOf 3)) (lb n) Reg.Lane.TXC_0 c0
  else s

/-! ### Link state events -/

/-- A lane may take a mode: its class supports it, and it is the lowest lane of the mode's group (R336, R339). -/
def modeFits (q l m : Nat) : Bool :=
  match m with
  | 0x05 => l == 0
  | 0x06 => l == 0 || l == 2
  | 0x20 => q % 4 == 3
  | _ => (decide (1 ≤ m) && decide (m ≤ 7)) || m == 0x10 || m == 0x11

/-- AN_COMPLETE (R349): Clause 73 resolves one of the advertised modes that the lane can lead; 1000BASE-KX has no training. -/
def opAnComplete (n m : Nat) (s : State) : State :=
  let adv := (laneGet s n).adv
  let ok := decide (1 ≤ m ∧ m ≤ 7) && (if adv = 0 then m == laneMode s n else adv.testBit (m - 1)) &&
    modeFits (n / 4) (n % 4) m && (groupOf n m).all (fun k => !(laneGet s k).enabled)
  if linkState s n = 1 ∧ ok then
    let s := fflag (setMode s n m) (lb n) Reg.Lane.SIG_DET true
    if m = 1 then setLink s n 4 0 else setLink s n 2 0
  else s

/-- TRAIN_COMPLETE (R351). -/
def opTrainComplete (n : Nat) (s : State) : State :=
  if linkState s n = 2 then
    let s := fflag (fflag s (lb n) Reg.Lane.SIG_DET true) (lb n) Reg.Lane.CDR_LOCK true
    setLink (trainTaps s n) n 4 0
  else s

/-- ACQUIRE_LOCK (R351). -/
def opAcquireLock (n : Nat) (s : State) : State :=
  if linkState s n = 3 then setLink (fflag (fflag s (lb n) Reg.Lane.SIG_DET true) (lb n) Reg.Lane.CDR_LOCK true) n 4 0 else s

/-- TRAIN_WAIT_TIMEOUT (R350). -/
def opTrainWaitTimeout (n : Nat) (locked : Bool) (s : State) : State :=
  if linkState s n = 2 then (if locked then laneFail s n 3 else laneAbandon s n 2) else s

/-- ACQUIRE_TIMEOUT (R350). -/
def opAcquireTimeout (n : Nat) (signal : Bool) (s : State) : State :=
  if linkState s n = 3 then
    (if signal then laneFail (fflag s (lb n) Reg.Lane.SIG_DET true) n 5 else laneAbandon s n 1)
  else s

/-- SIGNAL_LOSS (R350): an attempt is abandoned with cause 1; TEST ignores it (R360). -/
def opSignalLoss (n : Nat) (s : State) : State :=
  let st := linkState s n
  let s := fflag s (lb n) Reg.Lane.SIG_DET false
  if st = 2 ∨ st = 3 ∨ st = 4 then laneAbandon s n 1 else s

/-- The link comes up (R349, R351); the latencies of the mode are measured (R362), free values. -/
def laneUp (s : State) (n : Nat) : State :=
  let s := fset (fset s (lb n) Reg.Lane.ATTEMPT 0) (lb n) Reg.Lane.FAIL_RUN 0
  let s := finc s (lb n) Reg.Lane.UP_CNT
  let s :=
    if rawMode (laneMode s n) then s
    else
      let w := freeWord s
      fset (fset w.2 (lb n) Reg.Lane.LAT_RX w.1.toNat) (lb n) Reg.Lane.LAT_TX (w.1.toNat / 65536)
  setLink s n 5 0

/-- VALIDATE_WINDOW (R351): the lock within 50 ms and the clean window after it; in raw modes the convergence. -/
def opValidateWindow (n : Nat) (locked clean : Bool) (s : State) : State :=
  if linkState s n = 4 then
    let raw := rawMode (laneMode s n)
    let s := fflag s (lb n) Reg.Lane.PCS_LOCK (!raw && locked)
    let s := if raw then fflag s (lb n) Reg.Lane.ADAPT_CONV clean else s
    if clean && (raw || locked) then laneUp s n else laneFail s n 4
  else s

/-- LINK_DOWN (R352). -/
def opLinkDown (n : Nat) (s : State) : State :=
  if linkState s n = 5 then
    let s := fset (finc s (lb n) Reg.Lane.DOWN_CNT) (lb n) Reg.Lane.LAST_CAUSE 6
    laneRestart (laneUpd (laneQuiet s n) n (fun x => { x with inj := false })) n
  else s

/-- BACKOFF_EXPIRE (R353): the wait of BACKOFF or PARKED ends. -/
def opBackoffExpire (n : Nat) (s : State) : State :=
  if linkState s n = 7 ∨ linkState s n = 8 then laneAttempt s n else s

/-- SIGNAL_DETECT_RISE (R353): signal detect, which is off in P2, ends BACKOFF early. -/
def opSignalDetectRise (n : Nat) (s : State) : State :=
  if fget s (lb n) Reg.Lane.PSTATE = 2 then s
  else
    let s := fflag s (lb n) Reg.Lane.SIG_DET true
    if linkState s n = 7 then laneAttempt s n else s

/-! ### Quads -/

def quadLanes (q : Nat) : List Nat := [4 * q, 4 * q + 1, 4 * q + 2, 4 * q + 3]
/-- A quad is in service: not OFF, not OFF_LOCKED, its die not fenced. -/
def quadServes (s : State) (q : Nat) : Bool := fbit s (quadBase q) Reg.Quad.MCU_RUN && !(decide (q < 32) && fenced s (q / 4))

/-- A fabric quad on a fenced die: its lanes stay in P2 until the next start (09 R272). -/
def quadFenced (s : State) (q : Nat) : Bool := decide (q < 32) && fenced s (q / 4)
/-- Enabled lanes start new attempts, QUARANTINE stands (R354), group members follow their lead lane. -/
def quadAttempts (s : State) (q : Nat) : State :=
  if quadFenced s q then s else (quadLanes q).foldl (fun s n =>
    if (laneGet s n).enabled && linkState s n != 9 then laneAttempt s n else s) s

/-- The microcode of a quad starts: version of manifest part 3, declared reference, PLL locked when the reference is good
(R338, 16 R479); the PLL's frequency is a free value. -/
def quadStart (s : State) (q : Nat) : State :=
  let b := quadBase q
  let f := (leAt s.boot.manifest (0x2A0 + q / 4) 1 >>> (2 * (q % 4))) % 4
  let s := fset (fflag s b Reg.Quad.MCU_RUN true) b Reg.Quad.REFCLK_FREQ f
  let s := fset s b Reg.Quad.UCODE_VER (leAt s.boot.manifest (0x020 + 64 * 3 + 0x0C) 4)
  let s := quadUpd s q (fun x => { x with pst := 0 })
  if fbit s b Reg.Quad.REFCLK_OK then
    let w := freeWord s
    fset (fflag w.2 b Reg.Quad.PLL_LOCK true) b Reg.Quad.PLL_KHZ w.1.toNat
  else s

/-- Power a fabric quad off (15 R456): every lane DISABLED, PLL and microcontroller stopped, its network interface reset (08 R236). Which
lanes a `LINK_SET` enabled is kept. -/
def quadOff (s : State) (q st : Nat) : State :=
  let s := (quadLanes q).foldl (fun s n => laneDown s n 0) s
  let b := quadBase q
  let s := fset (fflag (fflag s b Reg.Quad.MCU_RUN false) b Reg.Quad.PLL_LOCK false) b Reg.Quad.PLL_KHZ 0
  let s := fflag (fflag s b Reg.Quad.TS_UNSYNC true) b Reg.Quad.TS_UNSYNC_SEEN true
  nicReset (quadUpd s q (fun x => { x with pst := st })) (quadNode q)

/-- The wake of a quad (15 R456): the microcode reloads, and lanes whose last `LINK_SET` was an enable start with `ATTEMPT` = 0. -/
def quadWake (s : State) (q : Nat) : State :=
  let s := quadStart s q
  if fbit s (quadBase q) Reg.Quad.REFCLK_OK then
    (quadLanes q).foldl (fun s n => if (laneGet s n).enabled then laneRestart s n else s) s
  else s

/-- MCU_RELOAD (R355, 16 R491): every lane is in P2 with cause 7 and alarm LINK is raised; enabled lanes start new attempts, or
the quad keeps its lanes in P2 when the microcode's hash does not match, and event 0x97 is journalled. -/
def opMcuReload (q : Nat) (hashOk : Bool) (s : State) : State :=
  if fbit s (quadBase q) Reg.Quad.MCU_RUN then
    let s := (quadLanes q).foldl (fun s n =>
      let st := linkState s n
      let s := laneDown s n (if st = 9 then 9 else 0)
      fset s (lb n) Reg.Lane.LAST_CAUSE 7) s
    let s := alarmLink s 7 q 0xFF
    if hashOk then quadAttempts s q
    else jEvent (fflag s (quadBase q) Reg.Quad.MCU_RUN false) 0x97 3 q
  else s

/-- REFCLK_OK_CHANGE (R338): without a good reference the quad's lanes stay in P2; when it returns, the PLL locks and enabled
lanes start new attempts. -/
def opRefclkOkChange (q : Nat) (ok : Bool) (s : State) : State :=
  let b := quadBase q
  let was := fbit s b Reg.Quad.REFCLK_OK
  let s := fflag s b Reg.Quad.REFCLK_OK ok
  if was == ok || !fbit s b Reg.Quad.MCU_RUN then s
  else if ok then
    let w := freeWord s
    quadAttempts (fset (fflag w.2 b Reg.Quad.PLL_LOCK true) b Reg.Quad.PLL_KHZ w.1.toNat) q
  else
    let s := fset (fflag s b Reg.Quad.PLL_LOCK false) b Reg.Quad.PLL_KHZ 0
    (quadLanes q).foldl (fun s n => laneDown s n (if linkState s n = 9 then 9 else 0)) s

/-! ### Receiver -/

/-- CTLE_ADAPT (R345): in VALIDATE and UP, unless frozen or overridden. -/
def opCtleAdapt (n peak : Nat) (converged : Bool) (s : State) : State :=
  let b := lb n
  if (linkState s n = 4 ∨ linkState s n = 5) ∧ !fbit s b Reg.Lane.ADAPT_FREEZE then
    let s := fflag s b Reg.Lane.ADAPT_CONV converged
    if fbit s b Reg.Lane.CTLE_OVR then s else fset s b Reg.Lane.CTLE_PEAK peak
  else s

/-- RECENTRE (15 R470): a lane in UP under MARGIN or ECO; an eye below 10/128 UI for 60 s raises alarm LINK, cause 9. -/
def opRecentre (n eyeH eyeV : Nat) (s : State) : State :=
  if linkState s n = 5 ∧ fabricLane n ∧ policy s ≠ 0 then
    let s := fset (fset s (lb n) Reg.Lane.EYE_H eyeH) (lb n) Reg.Lane.EYE_V eyeV
    let since := (laneGet s n).eyeLow
    if 10 ≤ eyeH then laneUpd s n (fun x => { x with eyeLow := 0 })
    else if since = 0 then laneUpd s n (fun x => { x with eyeLow := upUs s + 1 })
    else if 60000000 ≤ upUs s + 1 - since then alarmLink (laneUpd s n (fun x => { x with eyeLow := upUs s + 1 })) 9 (n / 4) (n % 4)
    else s
  else s

/-! ### Tests -/

/-- The checker sees the lane's own transmitter: near-end serial loopback with equal patterns (R357, R359). -/
def selfChecked (s : State) (n : Nat) : Bool :=
  linkState s n == 10 && fget s (lb n) Reg.Lane.LOOPBACK == 1 && fget s (lb n) Reg.Lane.PRBS_GEN != 0 &&
    fget s (lb n) Reg.Lane.PRBS_GEN == fget s (lb n) Reg.Lane.PRBS_CHK

/-- Add to the 48-bit bit error counter (R357). -/
def addChkErr (s : State) (n k : Nat) : State :=
  let v := min (fget s (lb n) Reg.Lane.CHK_ERR_LO + 2 ^ 32 * fget s (lb n) Reg.Lane.CHK_ERR_HI + k) (2 ^ 48 - 1)
  fset (fset s (lb n) Reg.Lane.CHK_ERR_LO v) (lb n) Reg.Lane.CHK_ERR_HI (v / 2 ^ 32)

/-- `k` bits of the serial stream are inverted (R358). -/
def invertBits (s : State) (n k : Nat) : State :=
  let s := laneUpd s n (fun x => { x with flips := x.flips + k })
  if selfChecked s n then addChkErr s n k else s

/-- Bits from one inverted bit to the next in rate mode (R358, R363). -/
def injEvery (s : State) (n : Nat) : Nat := 2 ^ min 40 (max 10 (fget s (lb n) Reg.Lane.INJ_RATE))
/-- The action of `INJ_GO` (R358): in TEST and in UP. -/
def actInjGo (n : Nat) (s : State) : State :=
  let st := linkState s n
  if st = 10 ∨ st = 5 then
    let len := fget s (lb n) Reg.Lane.INJ_LEN
    match fget s (lb n) Reg.Lane.INJ_MODE with
    | 1 => invertBits s n 1
    | 2 => invertBits s n (if len = 0 then 64 else len)
    | 3 => laneUpd s n (fun x => { x with inj := true, injLeft := injEvery s n })
    | _ => s
  else s

/-- INJECT_RATE_FIRE (R358). -/
def opInjectRateFire (n : Nat) (s : State) : State :=
  if (laneGet s n).inj ∧ fget s (lb n) Reg.Lane.INJ_MODE = 3 ∧ (linkState s n = 10 ∨ linkState s n = 5) then invertBits s n 1 else s

/-- The action of `LANE_CLR` (R363, R364): the counters of 0x008 to 0x018, 0x070 to 0x07C and 0x090; the status bits at 0x010
are no counters and show the lane as it is. -/
def actLaneClr (n : Nat) (s : State) : State :=
  let b := lb n
  csrWipe (csrWipe (csrWipe (csrWipe s (b + 0x008) (b + 0x010)) (b + 0x014) (b + 0x01C)) (b + 0x070) (b + 0x080)) (b + 0x090) (b + 0x094)

/-- Add to the 48-bit counter of compared bits (R357). -/
def addChkBits (s : State) (n k : Nat) : State :=
  let v := min (fget s (lb n) Reg.Lane.CHK_BITS_LO + 2 ^ 32 * fget s (lb n) Reg.Lane.CHK_BITS_HI + k) (2 ^ 48 - 1)
  fset (fset s (lb n) Reg.Lane.CHK_BITS_LO v) (lb n) Reg.Lane.CHK_BITS_HI (v / 2 ^ 32)

/-- What the checker has counted more by the end of a test (R357): with its own transmitter the errors are the injected ones and it is
locked; what it sees of a partner, and how many bits it compared since the last cycle, are free values (notes/assumptions/25.md). -/
def testResult (s : State) (n : Nat) : State :=
  let b := lb n
  if fget s b Reg.Lane.PRBS_CHK = 0 then s
  else
    let w := freeWord s
    let s := addChkBits w.2 n w.1.toNat
    if selfChecked s n then fflag s b Reg.Lane.CHK_LOCK true
    else
      let e := freeWord s
      let l := freeWord e.2
      fset (addChkErr l.2 n e.1.toNat) b Reg.Lane.CHK_LOCK l.1.toNat

/-! ### The fabric attachment -/

/-- The island that a fabric quad attaches to (R340). -/
def quadIsl (q : Nat) : Nat := q / 4 * 48 + [6, 7, 46, 47].getD (q % 4) 6
/-- The attachment is live (R343): one holder, the island in RUN with an image. -/
def attached (s : State) (q : Nat) : Bool :=
  decide (q < 32) && quadHolder s q == islHolder s (quadIsl q) && (islGet s (quadIsl q)).image && islState s (quadIsl q) == 0
/-- The tree of the lane's fabric interface runs (R340, R342). -/
def ltreeRuns (s : State) (n : Nat) : Bool :=
  let i := quadIsl (n / 4)
  let sel := cfgBits s i 1965 (8480 + 4 * (n % 4)) 4
  match selected 4 sel with
  | none => false
  | some x => islRuns s i && !srcStopped s (spliceRoot s i) (fget s (islBase (spliceRoot s i)) (Reg.Isl.SRC x))

/-- The lane's own 64-bit timestamp with its signed adjustment (R362). -/
def laneStamp (s : State) (n : Nat) (adj : Fld) : Nat :=
  let t := (quadGet s (n / 4)).time
  let base : Int := (t.sec % 65536 * 2 ^ 48 + t.ns * 65536 + fracOf t : Nat)
  ((base + (BitVec.ofNat 32 (fget s (lb n) adj)).toInt) % (2 ^ 64 : Int)).toNat

/-- Blocks per word (R340). -/
def laneBlocks (s : State) (n : Nat) : Nat := 2 ^ cfgBits s (quadIsl (n / 4)) 1965 (8496 + 2 * (n % 4)) 2
/-- The mode's coding transcodes 64b/66b blocks (R339): bit 1 of the FEC requests asks for
RS-FEC in 25GBASE-KR (13 R398). -/
def transcodes (m fec : Nat) : Bool := [0x04, 0x05, 0x06, 0x07, 0x20].contains m || (m == 0x03 && fec.testBit 1)
/-- A 66-bit block that the transcoder can encode: a data block, or a control block of a known type (R341; IEEE 802.3 Clause 49,
notes/assumptions/46.md). -/
def blockKnown (d : BitVec 64) (h : BitVec 2) : Bool :=
  h == 2 || (h == 1 && [0x1E, 0x2D, 0x33, 0x4B, 0x55, 0x66, 0x78, 0x87, 0x99, 0xAA, 0xB4, 0xCC, 0xD2, 0xE1, 0xFF].contains (d.toNat % 256))
/-- Error block and idle block (notes/assumptions/46.md): control, block type 0x1E, with eight error or idle characters. -/
def errorBlock : BitVec 64 × BitVec 2 := (0x3C78F1E3C78F1E1E, 1)
def idleBlock : BitVec 64 × BitVec 2 := (0x1E, 1)
/-- A slot as it goes onto the line, and as it comes from it (R341). -/
def slotTx (m fec : Nat) (x : BitVec 64 × BitVec 2) : BitVec 64 × BitVec 2 :=
  if rawMode m then (x.1, 0)
  else if m = 0x01 then (x.1 &&& 0x01FF01FF01FF01FF, 0)
  else if transcodes m fec && !blockKnown x.1 x.2 then errorBlock
  else x
def slotRx (m : Nat) (x : BitVec 64 × BitVec 2) : BitVec 64 × BitVec 2 :=
  if rawMode m then (x.1, 0) else if m = 0x01 then (x.1 &&& 0x03FF03FF03FF03FF, 0) else x
/-- What the lane fills a slot with (R342): zero bits, idle characters or an idle block. -/
def fillSlot (m : Nat) : BitVec 64 × BitVec 2 :=
  if rawMode m then (0, 0) else if m = 0x01 then (0x005001BC005001BC, 0) else idleBlock
/-- Slot k of a word, and a word of `b` slots; slots beyond carry nothing. -/
def slotOf (w : BitVec 512 × BitVec 16) (k : Nat) : BitVec 64 × BitVec 2 := (w.1.extractLsb' (64 * k) 64, w.2.extractLsb' (2 * k) 2)
def wordOf (b : Nat) (f : Nat → BitVec 64 × BitVec 2) : BitVec 512 × BitVec 16 :=
  (BitVec.ofNat 512 ((List.range b).map (fun k => (f k).1.toNat * 2 ^ (64 * k))).sum,
    BitVec.ofNat 16 ((List.range b).map (fun k => (f k).2.toNat * 2 ^ (2 * k))).sum)
def wordTx (s : State) (n : Nat) (w : BitVec 512 × BitVec 16) : BitVec 512 × BitVec 16 :=
  wordOf (laneBlocks s n) (fun k => slotTx (laneMode s n) (laneGet s n).fec (slotOf w k))
def wordRx (s : State) (n : Nat) (w : BitVec 512 × BitVec 16) : BitVec 512 × BitVec 16 :=
  wordOf (laneBlocks s n) (fun k => slotRx (laneMode s n) (slotOf w k))
def wordFill (s : State) (n : Nat) : BitVec 512 × BitVec 16 := wordOf (laneBlocks s n) (fun _ => fillSlot (laneMode s n))

/-- A received word crosses to the fabric (R342, R343): into the FIFO of 16, from where the edges of the tree present it. While the
island is held it is discarded. -/
def presentWord (n : Nat) (w : BitVec 512 × BitVec 16) (ts : Option Nat) (s : State) : State :=
  if !attached s (n / 4) || !islRuns s (quadIsl (n / 4)) then s
  else if 16 ≤ (laneGet s n).rx.length then finc s (lb n) Reg.Lane.RX_OVF_CNT
  else laneUpd s n (fun x => { x with rx := x.rx ++ [⟨(wordRx s n w).1, (wordRx s n w).2, ts⟩] })

/-- The lane loops the fabric's words back (R359): at the PCS boundary, or at the pad while no pattern is sent. -/
def loopsBack (s : State) (n : Nat) : Bool :=
  linkState s n == 10 && (fget s (lb n) Reg.Lane.LOOPBACK == 2 ||
    (fget s (lb n) Reg.Lane.LOOPBACK == 1 && fget s (lb n) Reg.Lane.PRBS_GEN == 0))
/-- The lane sends what it receives, and the fabric's words are discarded (R359). -/
def farEnd (s : State) (n : Nat) : Bool := linkState s n == 10 && fget s (lb n) Reg.Lane.LOOPBACK == 3
/-- `TX_READY` (R342, R343, R359): the attachment is live, the lane leads, it is in UP or in a loopback that takes words, and its 16 places
hold fewer (notes/assumptions/46.md). -/
def txReady (s : State) (n : Nat) : Bool :=
  attached s (n / 4) && !fbit s (lb n) Reg.Lane.GROUP_MEMBER && decide ((laneGet s n).txq.length < 16) &&
    (linkState s n == 5 || loopsBack s n || farEnd s n)

/-- A slot holds a start of packet (R362): a block with /S/, or the start character of 1000BASE-KX; raw modes have none
(notes/assumptions/46.md). -/
def startSlot (m : Nat) (x : BitVec 64 × BitVec 2) : Bool :=
  if rawMode m then false
  else if m = 0x01 then (List.range 4).any (fun c => x.1.extractLsb' (16 * c) 9 == 0x1FB)
  else x.2 == 1 && [0x33, 0x66, 0x78].contains (x.1.toNat % 256)
def holdsStart (s : State) (n : Nat) (w : BitVec 512 × BitVec 16) : Bool :=
  (List.range (laneBlocks s n)).any (fun k => startSlot (laneMode s n) (slotOf w k))

/-- TX_WORD (R342, R359, R362): taken at an edge of the tree with `TX_READY` = 1; a request on a word that holds a start is stamped. -/
def opTxWord (n : Nat) (data : BitVec 512) (hdr : BitVec 16) (tsreq : Bool) (s : State) : State :=
  if !(txReady s n && ltreeRuns s n) then s
  else if loopsBack s n then presentWord n (data, hdr) none s
  else if farEnd s n then s
  else
    let w := wordTx s n (data, hdr)
    let s := laneUpd s n (fun x => { x with txq := x.txq ++ [w] })
    if tsreq && holdsStart s n (data, hdr) then
      let t := laneStamp s n Reg.Lane.TS_TX_ADJ
      laneUpd s n (fun x => { x with tsq := x.tsq ++ [t] })
    else s

/-- What the FEC of the mode corrected, or could not, by the word received: free values (R339, R363; notes/assumptions/25.md). -/
def fecCount (s : State) (n : Nat) : State :=
  let m := laneMode s n
  if transcodes m (laneGet s n).fec || ((m == 2 || m == 3) && (laneGet s n).fec != 0) then
    let w := freeWord s
    faddSat (faddSat w.2 (lb n) Reg.Lane.FEC_CORR_CNT (w.1.toNat % 65536)) (lb n) Reg.Lane.FEC_UNCORR_CNT (w.1.toNat / 65536)
  else s

/-- RX_WORD (R342, R359, R362). -/
def opRxWord (n : Nat) (data : BitVec 512) (hdr : BitVec 16) (startSeen : Bool) (s : State) : State :=
  if fbit s (lb n) Reg.Lane.GROUP_MEMBER then s
  else if linkState s n = 5 then
    presentWord n (data, hdr) (if startSeen && !rawMode (laneMode s n) then some (laneStamp s n Reg.Lane.TS_RX_ADJ) else none) (fecCount s n)
  else if farEnd s n then laneUpd s n (fun x => { x with tx := (data, hdr) })
  else s

/-- TX_TIMESTAMP (R362): the oldest requested timestamp returns on `TX_TS`. -/
def opTxTimestamp (n : Nat) (s : State) : State :=
  match (laneGet s n).tsq with
  | [] => s
  | t :: r => laneUpd s n (fun x => { x with tsq := r, txTs := t, txTsv := true })

/-- An edge of the lane's tree on the receive side (R342, R362): the oldest word of the FIFO is presented for one edge, a timestamp returned
before it has been seen, and the next returns. -/
def laneEdge (s : State) (n : Nat) : State :=
  opTxTimestamp n (laneUpd s n (fun x => match x.rx with
    | [] => { x with rxValid := false, txTsv := false }
    | w :: t => { x with rx := t, rxNow := w, rxValid := true, txTsv := false }))

/-- Payload of a mode in kb/s (R339). -/
def payloadKbps (m rate : Nat) : Nat :=
  match m with
  | 0x01 => 1000000
  | 0x02 => 10000000
  | 0x03 => 25000000
  | 0x04 => 50000000
  | 0x05 | 0x06 | 0x07 => 100000000
  | 0x20 => 226000000 * 512 / 544
  | _ => if rawMode m then rate else 0
/-- Payload bits of one slot: 4 characters of 8 bits in 1000BASE-KX (R341; notes/assumptions/46.md). -/
def slotBits (m : Nat) : Nat := if m = 0x01 then 32 else 64

/-- One nanosecond of a lane's line in UP (R342): the words due leave the queue, and fill takes the place of each that is missing,
counted. -/
def laneLine (s : State) (n : Nat) : State :=
  if !(fabricLane n && linkState s n == 5) then s
  else
    let m := laneMode s n
    let x := laneGet s n
    let one := slotBits m * laneBlocks s n * 1000000
    let p := x.txPhase + payloadKbps m x.rate
    let due := p / one
    let fill := due - x.txq.length
    let tx := if fill ≠ 0 then wordFill s n else if due = 0 then x.tx else x.txq.getD (due - 1) x.tx
    let s := laneUpd s n (fun x => { x with txPhase := p % one, txq := x.txq.drop due, tx := tx })
    if fill = 0 then s else faddSat s (lb n) Reg.Lane.TX_UNDER_CNT fill

/-- Line rate of a fabric lane in kb/s (R339); a hub lane's is PCIe's and is not known here. -/
def lineKbps (m rate : Nat) : Nat :=
  match m with
  | 0x01 => 1250000
  | 0x02 => 10312500
  | 0x03 | 0x05 => 25781250
  | 0x04 | 0x06 => 53125000
  | 0x07 => 106250000
  | 0x20 => 226000000
  | _ => if rawMode m then rate else 0
/-- `k` bits go by a lane in rate injection (R358): one in every 2^`INJ_RATE` is inverted. -/
def injBits (s : State) (n k : Nat) : State :=
  let x := laneGet s n
  if !(x.inj && fget s (lb n) Reg.Lane.INJ_MODE == 3) then s
  else if k < x.injLeft then laneUpd s n (fun x => { x with injLeft := x.injLeft - k })
  else invertBits (laneUpd s n (fun x => { x with injLeft := x.injLeft + injEvery s n - k })) n 1
/-- The checker sees `k` bits (R357): its own transmitter's, or a partner's, of which the lock and the errors are free values. -/
def chkSees (s : State) (n k : Nat) : State :=
  let b := lb n
  if fget s b Reg.Lane.PRBS_CHK = 0 then s
  else if selfChecked s n then
    if fbit s b Reg.Lane.CHK_LOCK then addChkBits s n k
    else
      let run := (laneGet s n).chkRun + k
      fflag (laneUpd s n (fun x => { x with chkRun := run })) b Reg.Lane.CHK_LOCK (decide (64 ≤ run))
  else
    let w := freeWord s
    if fbit s b Reg.Lane.CHK_LOCK then addChkErr (addChkBits w.2 n k) n (min k w.1.toNat)
    else fflag w.2 b Reg.Lane.CHK_LOCK (w.1.getLsbD 0)
/-- One nanosecond of the bits of a lane in TEST or in UP (R357, R358). -/
def laneBits (s : State) (n : Nat) : State :=
  let st := linkState s n
  let m := laneMode s n
  if st ≠ 10 ∧ st ≠ 5 then s
  else
    let p := (laneGet s n).chkPhase + lineKbps m (laneGet s n).rate
    let s := injBits (laneUpd s n (fun x => { x with chkPhase := p % 1000000 })) n (p / 1000000)
    if st = 10 then chkSees s n (p / 1000000) else s
/-- One nanosecond of the wait of BACKOFF or PARKED (R353): `WAIT_LEFT` counts seconds, and at its end the attempt starts. -/
def laneWaitCycle (s : State) (n : Nat) : State :=
  let x := laneGet s n
  if x.waitAt = 0 ∨ (s.up + 1 - x.waitAt) % 1000000000 ≠ 0 ∨ (linkState s n ≠ 7 ∧ linkState s n ≠ 8) ∨ s.up + 1 = x.waitAt then s
  else if fget s (lb n) Reg.Lane.WAIT_LEFT ≤ 1 then laneAttempt s n
  else fset s (lb n) Reg.Lane.WAIT_LEFT (fget s (lb n) Reg.Lane.WAIT_LEFT - 1)

/-- TIME_MARKER (R361): the marker goes by the lowest from-hub hawser of the die that is not retired. -/
def opTimeMarker (q : Nat) (s : State) : State :=
  let d := q / 4
  let way := decide (32 ≤ q) || (!fenced s d && (List.range 8).any (fun n => fget s (hwBase d (8 + n)) Reg.Hw.STATE != 3))
  if fbit s (quadBase q) Reg.Quad.MCU_RUN && way then
    fflag (quadUpd s q (fun x => { x with time := { s.tim with step := none, pps := false, ppsLeft := 0 }, markAt := s.up })) (quadBase q) Reg.Quad.TS_UNSYNC false
  else s

/-- TS_UNSYNC (R361). -/
def opTsUnsync (q : Nat) (s : State) : State :=
  fflag (fflag s (quadBase q) Reg.Quad.TS_UNSYNC true) (quadBase q) Reg.Quad.TS_UNSYNC_SEEN true

/-- The marker of a microsecond boundary, and the copies that had none for 3 microseconds (R361). -/
def markers (s : State) : State :=
  (List.range 40).foldl (fun s q =>
    let s := opTimeMarker q s
    if !fbit s (quadBase q) Reg.Quad.TS_UNSYNC && decide ((quadGet s q).markAt + 3000 ≤ s.up) then opTsUnsync q s else s) s

def execTxWord (l : Lane) (data : BitVec 512) (hdr : BitVec 16) (tsreq : Bool) (s : State) : Out := .next (opTxWord (laneNo l) data hdr tsreq s)
def execRxWord (l : Lane) (data : BitVec 512) (hdr : BitVec 16) (startSeen : Bool) (s : State) : Out :=
  .next (opRxWord (laneNo l) data hdr startSeen s)
def execAnComplete (l : Lane) (mode : Byte) (s : State) : Out := .next (opAnComplete (laneNo l) mode.toNat s)
def execTrainComplete (l : Lane) (s : State) : Out := .next (opTrainComplete (laneNo l) s)
def execAcquireLock (l : Lane) (s : State) : Out := .next (opAcquireLock (laneNo l) s)
def execTrainWaitTimeout (l : Lane) (locked : Bool) (s : State) : Out := .next (opTrainWaitTimeout (laneNo l) locked s)
def execAcquireTimeout (l : Lane) (signal : Bool) (s : State) : Out := .next (opAcquireTimeout (laneNo l) signal s)
def execSignalLoss (l : Lane) (s : State) : Out := .next (opSignalLoss (laneNo l) s)
def execValidateWindow (l : Lane) (locked clean : Bool) (s : State) : Out := .next (opValidateWindow (laneNo l) locked clean s)
def execLinkDown (l : Lane) (s : State) : Out := .next (opLinkDown (laneNo l) s)
def execBackoffExpire (l : Lane) (s : State) : Out := .next (opBackoffExpire (laneNo l) s)
def execSignalDetectRise (l : Lane) (s : State) : Out := .next (opSignalDetectRise (laneNo l) s)
def execMcuReload (q : Fin 40) (hashOk : Bool) (s : State) : Out := .next (opMcuReload q.val hashOk s)
def execCtleAdapt (l : Lane) (peak : BitVec 5) (converged : Bool) (s : State) : Out := .next (opCtleAdapt (laneNo l) peak.toNat converged s)
def execRecentre (l : Lane) (eyeH eyeV : BitVec 16) (s : State) : Out := .next (opRecentre (laneNo l) eyeH.toNat eyeV.toNat s)
def execInjectRateFire (l : Lane) (s : State) : Out := .next (opInjectRateFire (laneNo l) s)
def execTimeMarker (q : Fin 40) (s : State) : Out := .next (opTimeMarker q.val s)
def execTsUnsync (q : Fin 40) (s : State) : Out := .next (opTsUnsync q.val s)
def execTxTimestamp (l : Lane) (s : State) : Out := .next (opTxTimestamp (laneNo l) s)
def execRefclkOkChange (q : Fin 40) (ok : Bool) (s : State) : Out := .next (opRefclkOkChange q.val ok s)

end Sys2Proof.Machine
end

