-- ==== Sys2Proof/Machine/Noc.lean ====
section
/-! DEFINITION. Packets at their targets (08 R226, R237 to R239, R247): logic islands, engine islands, DRAM. -/

namespace Sys2Proof.Machine

/-- The sender is a hub node. -/
def fromHub (p : Packet) : Bool := p.srcDie == 8

/-- A `MSG` at an engine island (R238, R247; 07 R216). -/
def engMsg (e : Nat) (p : Packet) (s : State) : State :=
  if partRefused p (eisHolder s e) then respondPart s p
  else if !eisLive s e then respond s p .domainOff []
  else if p.poisoned && !inboxFull s (e * 16 + p.dstUnit.toNat) then respond s p .poisoned []
  else
    let r := inboxArrive s (e * 16 + p.dstUnit.toNat) ⟨p.srcDie, p.srcNode, p.srcUnit, p.tag, p.data.take p.size.toNat⟩
    respond r.2 p (if r.1 then .okay else .domainOff) []

/-- A request or `MSG` at its target. -/
def atTarget (p : Packet) (s : State) : State :=
  if !shapeOk p then respond s p .decodeErr []
  else match nodeKind (dstOf p) with
    | .island n => if partRefused p (islHolder s n) then respondPart s p else islArrive n p s
    | .engines e => if p.op = opMsg then engMsg e p s else respond s p .decodeErr []
    | .dram _ => memRequest p s
    | _ => respond s p .decodeErr []

/-- A packet of an operation as it is sent: on the virtual network of R226, not a response that carries the same `OP`. -/
def sentAs (op : BitVec 6) (p : Packet) : Bool := p.op == op && vnOf op == some p.vn.toNat

/-- Arrival of a packet of one operation. -/
def arrive (op : BitVec 6) (p : Packet) (s : State) : State :=
  if !sentAs op p then s
  else match takeNet s p with
  | none => s
  | some s => atTarget p s

/-- EVT (R226): sets bit 0 of `ipend` of engine `DST_UNIT`; from hub nodes only, with no response (R238). -/
def opEvtArrive (p : Packet) (s : State) : State :=
  if !sentAs opEvt p then s
  else match takeNet s p with
  | none => s
  | some s => match nodeKind (dstOf p) with
    | .engines e =>
      if !fromHub p || partRefused p (eisHolder s e) then respondPart s p
      else if eisLive s e && !p.poisoned then doorbell s (e * 16 + p.dstUnit.toNat)
      else s
    | _ => s

/-- A `TICK` packet (R226, R237, R238): consumed on arrival, with no response. An engine island samples the count of a hub node's; any
other sender is refused under row 2 of R239. -/
def tickArrive (p : Packet) (s : State) : State :=
  if !sentAs opTickPkt p then s
  else match takeNet s p with
  | none => s
  | some s => match nodeKind (dstOf p) with
    | .engines e =>
      if !fromHub p || partRefused p (eisHolder s e) then respondPart s p
      else if p.poisoned then s
      else eisTick s (leNat (p.data.take 16)) e
    | _ => s

/-- The action of `NOC_CLR` (R248). -/
def actNocClr (d : Nat) (s : State) : State :=
  let b := dieBase d
  fwipe (csrWipe s (b + 0x1010) (b + 0x1024)) b ((List.range 48).flatMap (fun i => [Reg.Die.I_WAKE_CNT i, Reg.Die.I_WAKE_FAIL_CNT i]))

def execRd (p : Packet) (s : State) : Out := .next (arrive opRd p s)
def execWr (p : Packet) (s : State) : Out := .next (arrive opWr p s)
def execMsg (p : Packet) (s : State) : Out := .next (arrive opMsg p s)
def execEvt (p : Packet) (s : State) : Out := .next (opEvtArrive p s)

end Sys2Proof.Machine
end

