-- ==== Sys2Proof/Machine/Mailbox.lean ====
section
/-! DEFINITION. Mailboxes: the response slot, the end of a command, the properties of the commands (13 R374 to R379, R387, R398). -/

namespace Sys2Proof.Machine

/-- Status codes of R378. -/
def stOk : Nat := 0
def stBusy : Nat := 1
def stBadOpcode : Nat := 2
def stBadArg : Nat := 3
def stDenied : Nat := 4
def stNoResource : Nat := 5
def stTooLate : Nat := 6
def stAborted : Nat := 7
def stFailed : Nat := 8
def stTimeout : Nat := 9
def stFeature : Nat := 10

/-- `DETAIL` (R379): source, code, index of the object. -/
def detail (src code idx : Nat) : Word := BitVec.ofNat 32 (src % 256 + 256 * (code % 256) + 65536 * (idx % 65536))

/-- A command's row of R398: opcode, I²C may send it, `ABORT` can stop it. -/
structure CmdRow where
  op : Nat
  i2c : Bool
  stop : Bool
  deriving DecidableEq, Repr

def cmdRows : List CmdRow :=
  [⟨0x01, true, false⟩, ⟨0x02, true, false⟩, ⟨0x10, true, false⟩, ⟨0x11, true, false⟩, ⟨0x12, true, false⟩, ⟨0x20, false, true⟩,
   ⟨0x21, false, false⟩, ⟨0x22, false, false⟩, ⟨0x30, false, true⟩, ⟨0x31, false, false⟩] ++
  [⟨0x32, false, false⟩, ⟨0x40, false, false⟩, ⟨0x41, true, false⟩, ⟨0x42, false, true⟩, ⟨0x50, true, false⟩, ⟨0x51, true, false⟩,
   ⟨0x52, true, false⟩, ⟨0x53, false, false⟩, ⟨0x60, false, false⟩, ⟨0x61, false, false⟩] ++
  [⟨0x62, false, false⟩, ⟨0x70, false, true⟩, ⟨0x71, false, false⟩, ⟨0x72, false, false⟩, ⟨0x80, true, false⟩, ⟨0x81, true, false⟩,
   ⟨0x82, true, false⟩, ⟨0x83, false, false⟩, ⟨0xF0, true, false⟩, ⟨0xF1, true, false⟩]
def cmdRow (op : Nat) : Option CmdRow := cmdRows.find? (fun r => r.op == op)
def stoppable (op : Nat) : Bool := (cmdRow op).any (fun r => r.stop)

/-- The mailbox has a command in service. -/
def mbBusy (s : State) (n : Nat) : Bool := (mbGet s n).state == 1

/-- The sampled doorbell (R375): BUSY, the response fields of the command. -/
def mbBegin (s : State) (r : MbReq) (op : Nat) : State :=
  mbUpd s r.mb.val (fun m =>
    { m with state := 1, code := 0, rlen := 0, abortCode := 0, abortSeen := false, detail := 0, rseq := r.seq.toNat, ropcode := op
             rsession := r.session.toNat, wait := .none, path := some r.path, cmd := r.payload, data := [], abortArm := false })

/-- The command of mailbox n ends (R375): payload, status, DONE, and vector n of the function it came through (R387). -/
def mbFinish (s : State) (n code : Nat) (det : Word) (payload : List Byte) : State :=
  let m := mbGet s n
  let s := mbUpd s n (fun m =>
    { m with state := 2, code := code, detail := if code = 0 then 0 else det, rlen := payload.length, rsp := payload
             doneCnt := (m.doneCnt + 1) % 65536, wait := .none, cmd := [], data := [], doneAt := s.up + 1 })
  match m.path with
  | some (.pcie c k f) => msiSignal s (8 * c.val + k.val * pciePer s c.val + f.val) n
  | _ => s

/-- A byte of a command's payload; bytes beyond its length read 0. -/
def pb (l : List Byte) (o : Nat) : Nat := (l.getD o 0).toNat

/-! ### Response slot words (R374) -/

/-- A word of the response slot. -/
def rspWord (m : MbSt) (off : Nat) : Word :=
  match off with
  | 0 => BitVec.ofNat 32 (m.state + 256 * m.code + 65536 * m.rseq)
  | 4 => BitVec.ofNat 32 (m.ropcode + 65536 * m.rlen + 2 ^ 24 * m.abortCode + (if m.abortSeen then 2 ^ 31 else 0))
  | 8 => m.detail
  | 12 => BitVec.ofNat 32 (m.rsession + 65536 * m.doneCnt)
  | _ => BitVec.ofNat 32 (leAt m.rsp (off - 16) 4)

/-! ### Sessions -/

def partSessions (s : State) (p : Nat) : List Session := s.sessions.filter (fun x => x.part == p)
/-- End the sessions that satisfy `f` (R396); their commands run on. -/
def endSessions (s : State) (f : Session → Bool) : State := { s with sessions := s.sessions.filter (fun x => !f x) }

/-- The next session number (R395): ascending from 1, past the live ones. -/
def freshSession (s : State) : Nat :=
  let order := (List.range 65535).map (fun k => (s.nextSession - 1 + k) % 65535 + 1)
  (order.find? (fun n => s.sessions.all (fun x => x.id != n))).getD s.nextSession

end Sys2Proof.Machine
end

