-- ==== Sys2Proof/Machine/Part.lean ====
section
/-! DEFINITION. Partitions: stop, restart, plan lock (13 R391 to R394), fences (09 R271, R272; 01 R30, R45), and what stops a
command in service (13 R381, R398). -/

namespace Sys2Proof.Machine

/-! ### Islands under a load -/

/-- All reconfigurable frames of an island to all-zero (14 R428); the static frames 1,970 and 1,971 stay. -/
def clearReconf (s : State) (n : Nat) : State :=
  let f := tclear s.frames (frameKey n 0) (frameKey n 1970)
  { dropOutgoing s n with frames := tclear f (frameKey n 1972) (frameKey n 2000) }

/-- A failed or stopped load leaves an island with all-zero reconfigurable frames, held behind its cleats (14 R428, R430). -/
def regionFail (s : State) (n : Nat) : State :=
  let s := if islState s n = 2 then s else islIsolate (answerPending s n) n
  let s := clearReconf s n
  let s := islUpd s n (fun i => { i with image := false, pendRel := false, region := 4, src := none })
  nocUpd s n (fun x => { x with kind := 0 })

/-- The islands that a region command names (13 R398): die, count, numbers. -/
def regionIslands (pl : List Byte) : List Nat :=
  ((pl.drop 2).take (pb pl 1)).map (fun b => pb pl 0 % 8 * 48 + b.toNat % 48)

/-- A descriptor at offset o of a payload: address and length, or none where R380 does not permit it. -/
def descAt (pl : List Byte) (o : Nat) : Option (Nat × Nat) :=
  let a := leAt pl o 8
  let n := leAt pl (o + 8) 4
  if a % 64 = 0 ∧ a < 2 ^ 39 ∧ 1 ≤ n ∧ leAt pl (o + 12) 4 = 0 then some (a, n) else none

/-- A partial load completes: its islands carry its image, and its command reports `OK` (14 R428). -/
def partialDone (s : State) (l : LoadSt) : State :=
  let m := mbGet s l.mb
  let src := (descAt m.cmd 16).map (fun x => (x.1, x.2, mbHolder s l.mb))
  mbFinish ((loadIslands l).foldl (fun s n => islUpd s n (fun i => { i with imageHash := l.imageHash, src := src })) { s with load := none })
    l.mb stOk 0 []

/-! ### Flash (16 R483, R484, R501) -/

/-- The copy of the selector that governs (16 R484): a good CRC and the higher sequence; slot 0 where both fail. -/
def FlashSt.sel (f : FlashSt) : SelCopy :=
  if f.sel0.good && (!f.sel1.good || decide (f.sel1.seq ≤ f.sel0.seq)) then f.sel0 else if f.sel1.good then f.sel1 else { good := false }
def FlashSt.active (f : FlashSt) : Nat := f.sel.active
def FlashSt.generation (f : FlashSt) : Nat := f.sel.generation
def FlashSt.bad (f : FlashSt) : Bool := !f.sel.good
/-- A change of the selector writes the other copy, with the sequence one higher. -/
def selWrite (s : State) (f : SelCopy → SelCopy) : State :=
  let x := { f s.flash.sel with good := true, seq := s.flash.sel.seq + 1 }
  if s.flash.sel0.good && s.flash.sel == s.flash.sel0 then { s with flash := { s.flash with sel1 := x } }
  else { s with flash := { s.flash with sel0 := x } }
def markSel (x : SelCopy) (k : Nat) (b : Bool) : SelCopy := if k = 0 then { x with marker0 := b } else { x with marker1 := b }
def marker (s : State) (k : Nat) : Bool := if k = 0 then s.flash.sel.marker0 else s.flash.sel.marker1
/-- Set or clear the stage marker of a slot. -/
def setMarker (s : State) (k : Nat) (b : Bool) : State := if marker s k = b then s else selWrite s (fun x => markSel x k b)

/-- The slot that the running start did not use. -/
def idleSlot (s : State) : Nat := 1 - fget s 0 Reg.Hub.RUN_SLOT
/-- Write a chunk into a slot: a sector that is stale is erased before its first write after the mark (16 R501). -/
def flashWrite (s : State) (k o : Nat) (bs : List Byte) : State :=
  if bs.isEmpty then s
  else
  let secs := (List.range ((o + bs.length + 65535) / 65536 - o / 65536)).map (fun j => 16384 * k + o / 65536 + j)
  let stale := if s.flash.marked.contains k then secs.filter (fun j => !s.flash.fresh.contains j) else []
  let t := stale.foldl (fun t j => tclear t (65536 * j) (65536 * (j + 1))) s.flash.bytes
  { s with flash := { s.flash with bytes := tput 0xFF t (2 ^ 30 * k + o) bs, fresh := s.flash.fresh ++ stale } }
/-- A chunk stops at a page (16 R503): the pages before it are written. How many those are is free. -/
def stageStop (s : State) (n : Nat) : State :=
  let m := mbGet s n
  let w := freeWord s
  let d := m.data.take (4096 * (w.1.toNat % ((m.data.length + 4095) / 4096)))
  flashWrite w.2 (idleSlot w.2) (4096 * leAt m.cmd 0 4) d

/-! ### Stopping a command in service -/

/-- Engines of a mask of an engine island. -/
def engMask (e mask : Nat) : List Nat := ((List.range 16).filter (fun k => mask.testBit k)).map (fun k => 16 * e + k)
/-- The engine island that a command's bytes 0 and 1 name. -/
def eisOf (pl : List Byte) : Nat := pb pl 0 % 8 * 10 + pb pl 1 % 10
/-- The quad and lane that `LINK_SET` and `LINK_TEST` name; die 8 is the hub. -/
def quadOf (pl : List Byte) : Nat := if pb pl 0 = 8 then 32 + pb pl 1 % 8 else pb pl 0 % 8 * 4 + pb pl 1 % 4
def laneOf (pl : List Byte) : Nat := 4 * quadOf pl + pb pl 2 % 4

/-- The counts that `LINK_TEST` returns (13 R398). -/
def testCounts (s : State) (n : Nat) : List Byte :=
  let g (f : Fld) : Nat := fget s (lb n) f
  natLe (g Reg.Lane.CHK_LOCK) 4 ++ natLe (g Reg.Lane.CHK_ERR_LO + 2 ^ 32 * g Reg.Lane.CHK_ERR_HI) 8 ++
    natLe (g Reg.Lane.CHK_BITS_LO + 2 ^ 32 * g Reg.Lane.CHK_BITS_HI) 8

/-- A run of the engine is in progress: it runs, reads its frame, or has a fault in flight (07 R207, R218, R219). -/
def engRunning (s : State) (n : Nat) : Bool := engState s n == 2 || (engGet s n).starting != 0 || (engGet s n).fly.any isDbe
/-- An engine waits for the end of its run to be loaded (07 R219). -/
def loadHeld (s : State) (n : Nat) : Bool := (engGet s n).loadWait && engRunning s n
/-- An engine of an `ENGINE_LOAD` that is stopped: one whose load has begun holds no image; one that still waits keeps its image and
runs on (R398). -/
def loadDropped (s : State) (n : Nat) : State :=
  if loadHeld s n then engUpd s n (fun x => { x with loadWait := false })
  else setEngState (engUpd s n (fun x => { stageDiscard x with loadWait := false, starting := 0, fly := [], flow := .seq })) n 0

/-- The effect of the Stop column of R398 on a stoppable command in service, and the response payload it returns. -/
def stopEffect (s : State) (n : Nat) : List Byte × State :=
  let m := mbGet s n
  match m.ropcode with
  | 0x20 => ([], (regionIslands m.cmd).foldl regionFail { s with load := s.load.filter (fun l => !l.partialLoad) })
  | 0x30 => ([], (engMask (eisOf m.cmd) (leAt m.cmd 2 2)).foldl loadDropped s)
  | 0x42 =>
    let l := laneOf m.cmd
    let s := testResult s l
    (testCounts s l, if linkState s l = 10 then laneLeaveTest s l else s)
  | 0x70 => ([], stageStop s n)
  | _ => ([], s)

/-- The release of a partial load reaches all of its islands. -/
def loadReleases (s : State) : Bool :=
  s.load.any (fun l => l.partialLoad && l.stage == 3 && (loadIslands l).all (fun n => !(islGet s n).pendRel || releaseReady s n))
/-- The row brings about the completion of the command in service at mailbox n. -/
def rowCompletes (s : State) (n : Nat) (c : Instr) : Bool :=
  let m := mbGet s n
  match c with
  | .commandComplete mb .ok =>
    mb.val == n && m.ropcode != 0x20 &&
      !(m.ropcode == 0x30 && (engMask (eisOf m.cmd) (leAt m.cmd 2 2)).any (loadHeld s))
  | .commandComplete mb (.failed _ _ _) => mb.val == n
  | .stagedRelease => m.ropcode == 0x20 && loadReleases s
  | _ => false
/-- The command in service at mailbox n completes in the present cycle: a row that completes it waits in the queue (00 R9, R10;
notes/assumptions/49.md). -/
def completesNow (s : State) (n : Nat) : Bool := mbBusy s n && (mbGet s n).wait == .run && s.pending.any (rowCompletes s n)

/-- Stop a stoppable command in service: one that waits for an object has done nothing; it reports `code` (R381, R393, R398). -/
def stopCommand (s : State) (n code : Nat) (det : Word) : State :=
  let r := if (mbGet s n).wait == .object then ([], s) else stopEffect s n
  mbFinish r.2 n code det r.1

/-! ### Stop and restart -/

/-- A partition's islands, engine islands and quads (R389). -/
def partIsl (s : State) (p : Nat) : List Nat := allIsl.filter (fun n => islHolder s n == p)
def partEis (s : State) (p : Nat) : List Nat := allEis.filter (fun e => eisHolder s e == p)
def partQuads (s : State) (p : Nat) : List Nat := (List.range 32).filter (fun q => quadHolder s q == p)

/-- Hold an island in its clamp state, configuration kept (R13, R393); its interface is reset (08 R236). -/
def islClamp (s : State) (n : Nat) : State := nocUpd (nicReset (islEnterHold s n) (islNode n)) n (fun x => { x with rqi := [] })
/-- Hold an engine island; runs end as at a partition stop (07 R217). -/
def eisClamp (s : State) (e cause : Nat) : State :=
  let s := (List.range 16).foldl (fun s k => haltRun s (16 * e + k) cause) s
  nicReset (eisUpd s e (fun x => { x with hold := true })) (eisNode e)
/-- Every lane of a quad DISABLED with a cause (R354). -/
def quadClamp (s : State) (q cause : Nat) : State :=
  let s := (quadLanes q).foldl (fun s n => fset (laneDisable s n) (lb n) Reg.Lane.LAST_CAUSE cause) s
  nicReset s (quadNode q)

/-- A stop meets the completion of the command in service at mailbox n, which then keeps its result (14 R430, 00 R10): a load is
released and completes before the stop reaches its islands. -/
def releaseMet (s : State) (n : Nat) : State :=
  match s.load with
  | some l =>
    if (mbGet s n).ropcode = 0x20 then partialDone (((loadIslands l).filter (fun k => (islGet s k).pendRel)).foldl islRelease s) l else s
  | none => s

/-- Stop a host partition (R393). P0 never stops. A command of it that is not stoppable runs to completion. -/
def stopPart (s : State) (p cause : Nat) : State :=
  if p = 0 ∨ 16 < p ∨ ((partGet s p).state ≠ 2 ∧ (partGet s p).state ≠ 3) then s
  else if (partGet s p).state = 3 then partUpd s p (fun x => { x with cause := cause, stopAt := s.up + 1 })
  else
    let mbs := (List.range 32).filter (fun n => mbHolder s n == p && mbBusy s n && stoppable (mbGet s n).ropcode)
    let s := mbs.foldl (fun s n => if completesNow s n then releaseMet s n else stopCommand s n stAborted (detail 6 0 0)) s
    let s := partUpd s p (fun x => { x with state := 3, cause := cause, vlo := 700, vhi := 880, stopAt := s.up + 1 })
    let s := (partIsl s p).foldl islClamp s
    let s := (partEis s p).foldl (fun s e => eisClamp s e 4) s
    let s := (partQuads s p).foldl (fun s q => quadClamp s q 8) s
    msiPart (showBounds { s with pwr := { s.pwr with bounds := s.pwr.bounds.filter (fun x => x.1 != p) } }) p 33

/-- The registers at a release of an engine island's hold (05 R169; 07 R220, R221): counters and margins reset, `ECLK_N` takes the
image's value; state, image fields, classes and bindings are what the DMC keeps in force (13 R394). -/
def eisRegs (s : State) (e : Nat) : State :=
  let b := eisBase e
  let s := csrClear (csrClear s b (b + 0x008)) (b + 0x030) (b + 0x044)
  let s := fset s b Reg.Eisl.ECLK_N (eisGet s e).eclk
  (List.range 16).foldl (fun s k =>
    let w := b + 0x1000 + 0x800 * k
    let st := fget s w Reg.Eng.STATE
    fset (csrClear (csrClear s w (w + 0x030)) (w + 0x050) (w + 0x06C)) w Reg.Eng.STATE st) s
/-- Release an engine island that is powered. -/
def eisRelease (s : State) (e : Nat) : State :=
  if (eisGet s e).hold && (eisGet s e).pst == 0 then eisRegs (eisUpd s e (fun x => { x with hold := false, relRun := 0 })) e else s

/-- Put a partition's resources in service (R391, R394): islands that hold an image and are in RUN wait for their staged release;
engine islands leave their clamp; resources on fenced dies stay. -/
def partServe (s : State) (p : Nat) : State :=
  let s := (partIsl s p).foldl (fun s n =>
    if (islGet s n).hold && (islGet s n).image && islState s n == 0 && !fenced s (n / 48) then
      islUpd s n (fun i => { i with pendRel := true })
    else s) s
  (partEis s p).foldl (fun s e => if fenced s (dieOfEis e) then s else eisRelease s e) s

/-- `ATTACH` with `RESTART` (R394); a stop of the same cycle applies after it. -/
def restartPart (s : State) (p : Nat) : State :=
  if (partGet s p).state ≠ 3 ∨ (partGet s p).stopAt = s.up + 1 then s
  else
    let s := partUpd s p (fun x => { x with state := 2, cause := 0, escalated := false })
    let s := fset s secBase (Reg.Sec.SEC_CNT p) 0
    msiPart (showBounds (partServe s p)) p 33

/-- ESCALATION_ZEROIZE_DONE (11 R333): the partition's granules are zeroized, owner and `LOCKED` kept, and it is stopped. -/
def opEscalationZeroizeDone (p : Nat) (s : State) : State :=
  if s.sec.zeroizing.contains p then
    let s := secUpd s (fun e => { e with zeroizing := e.zeroizing.filter (fun q => q != p) })
    stopPart ((granulesOf s p).foldl zeroize s) p 2
  else s

/-! ### The plan lock (R391) -/

/-- The granules from `g` on, `c` of them, lie in the fitted capacity of their channels. -/
def rangeFitted (s : State) (g c : Nat) : Bool :=
  (List.range 8).all (fun n =>
    let lo := max g (n * 2 ^ 19)
    let hi := min (g + c) ((n + 1) * 2 ^ 19)
    decide (hi ≤ lo) || decide ((hi - n * 2 ^ 19) * 2048 ≤ mcLines s n)) && decide (g + c ≤ 2 ^ 22)

/-- Assign the granules of a range, `INIT` as it stands. -/
def assignRange (s : State) (g c owner : Nat) (locked : Bool) : State :=
  (List.range c).foldl (fun s k =>
    granWrite ⟨g + k, some (owner, locked), false, false⟩ s) s

/-- The `PRELOCK` ranges of partition p; a range beyond the fitted capacity is skipped and journalled (event 0x8A). -/
def prelockPart (s : State) (p : Nat) : State :=
  if (planGet s p).valid then
    ((planGet s p).granges.zipIdx.filter (fun x => x.1.prelock && x.1.count != 0)).foldl (fun s x =>
      if rangeFitted s x.1.first x.1.count then assignRange s x.1.first x.1.count p true
      else jEvent s 0x8A (4 * p + x.2) 0) s
  else s

/-- A partition holds a resource on a fenced die. -/
def onFencedDie (s : State) (p : Nat) : Bool := (List.range 8).any (fun d => fenced s d && holdsOnDie (planGet s p) d)

/-- Ranges cover the granules from `lo` to `hi - 1`; `k` bounds the ranges used. -/
def rangesCover (xs : List GRange) : Nat → Nat → Nat → Bool
  | 0, lo, hi => decide (hi ≤ lo)
  | k + 1, lo, hi =>
    if hi ≤ lo then true
    else match xs.find? (fun x => decide (x.first ≤ lo) && decide (lo < x.first + x.count)) with
      | some x => rangesCover xs k (x.first + x.count) hi
      | none => false
/-- `AUTO_SR` of the channels (10 R289): a partition with the privilege owns the channel when the plan gives it every granule of
the fitted capacity (01 R28). -/
def showAutoSr (s : State) : State :=
  (List.range 8).foldl (fun s n =>
    let lo := n * 2 ^ 19
    let hi := lo + mcLines s n / 2048
    let own := (List.range 17).any (fun p => (planGet s p).valid && (planGet s p).autoSr && rangesCover (planGet s p).granges 5 lo hi)
    fflag s (mcBase n) Reg.Mc.AUTO_SR (decide (lo < hi) && own)) s

/-- Set `PROT_LOCK` (R391). -/
def lockPlan (s : State) : State :=
  if protLocked s then s
  else
    let s := fflag { s with boot := { s.boot with lockAt := s.up + 1 } } 0 Reg.Hub.PROT_LOCK true
    let s := (List.range 17).foldl prelockPart s
    let ps := (List.range 17).filter (fun p => p != 0 && (partGet s p).state == 1)
    let s := ps.foldl (fun s p =>
      let s := partUpd s p (fun x => { x with state := if onFencedDie s p then 3 else 2, cause := if onFencedDie s p then 1 else 0 })
      msiPart (if (partGet s p).state = 2 then partServe s p else s) p 33) s
    showAutoSr (showBounds s)

/-! ### Fences (09 R271, R272) -/

/-- Where a packet of the network stands, as far as it has been routed. -/
def placeOf (s : State) (p : Packet) : Option Nat := (s.way.find? (fun x => x.1 == p)).map (fun x => x.2.link)
/-- The hub holds a packet for die d: it stands in the hub, or on a from-hub hawser of the die; one not yet routed counts as held. -/
def hubHolds (s : State) (d : Nat) (p : Packet) : Bool :=
  match placeOf s p with
  | none => true
  | some l => decide (7000 ≤ l) || (decide (6000 ≤ l) && (l % 16 < 8 || (l - 6000) / 16 == d))
/-- Die d can return nothing: all its hawsers toward the hub are retired. -/
def outCut (s : State) (d : Nat) : Bool := (List.range 8).all (fun n => fget s (hwBase d n) Reg.Hw.STATE == 3)
/-- A packet that die d has not yet sent past its hawsers toward the hub. -/
def stillOn (s : State) (d : Nat) (p : Packet) : Bool :=
  match placeOf s p with
  | none => p.srcDie.toNat == d && p.dstDie.toNat != d
  | some l => p.dstDie.toNat != d && (meshDie l == some d || (decide (linkHw (16 * d) ≤ l) && decide (l < linkHw (16 * d + 8))) || (l == 0 && p.srcDie.toNat == d))

/-- A die is fenced (R271): the hub answers the requests that it holds for the die `DOMAIN_OFF`, after row 2 of 08 R239; the die's own
packets are lost where it can no longer return them. Traffic inside the die, and what has passed the hub, goes on. -/
def fenceNet (s : State) (d : Nat) : State :=
  let held (p : Packet) : Bool := p.dstDie.toNat == d && p.srcDie.toNat != d && p.vn != 1 && hubHolds s d p
  let lost (p : Packet) : Bool := outCut s d && stillOn s d p
  let asked := s.net.filter (fun p => held p && answered p.op)
  let s := { s with net := s.net.filter (fun p => !held p && !lost p) }
  asked.foldl (fun s p => if nodeRefused s p then respondPart s p else respond s p .domainOff []) s

/-- A fabric die is fenced (R271, 01 R45). -/
def fenceDie (s : State) (d : Nat) : State :=
  if fenced s d then s
  else
    let s := fsetBit (fflag s (dieBase d) Reg.Die.FENCED true) 0 Reg.Hub.DIES_FENCED d true
    let s := jEvent (alarmHw s 2 [d]) 0x83 d 0
    let mbs := (List.range 32).filter (fun n => mbBusy s n && (mbGet s n).ropcode == 0x20 && pb (mbGet s n).cmd 0 == d)
    let s := mbs.foldl (fun s n => stopCommand s n stFailed (detail 1 2 d)) s
    let s := ((List.range 17).filter (fun p => (planGet s p).valid && holdsOnDie (planGet s p) d)).foldl (fun s p => stopPart s p 1) s
    fenceNet s d

/-- DIE_SELF_FENCE (R272): the cut-off die clamps everything it has, its lanes are off until the next start, and its user I/O is at high
impedance. -/
def opDieSelfFence (d : Nat) (s : State) : State :=
  if fenced s d then
    let s := (List.range 48).foldl (fun s i => islEnterHold s (48 * d + i)) s
    let s := (List.range 10).foldl (fun s e => eisClamp s (10 * d + e) 4) s
    let s := (List.range 4).foldl (fun s q => (quadLanes (4 * d + q)).foldl laneDisable s) s
    if s.selfFenced.contains d then s else { s with selfFenced := s.selfFenced ++ [d] }
  else s

def execEscalationZeroizeDone (p : BitVec 5) (s : State) : Out := .next (opEscalationZeroizeDone p.toNat s)
def execDieSelfFence (d : Fin 8) (s : State) : Out := .next (opDieSelfFence d.val s)

end Sys2Proof.Machine
end

