-- ==== Sys2Proof/Machine/Hawser.lean ====
section
/-! DEFINITION. Hawsers: blocks and replay (09 R252 to R256), wire errors and repair (R263 to R268), spare selection (R260),
rows (R269), retirement and fencing (R270, R271). Hawser h of the device is 16 d + n. -/

namespace Sys2Proof.Machine

def hb (h : Nat) : Nat := hwBase (h / 16) (h % 16)
def hwState (s : State) (h : Nat) : Nat := fget s (hb h) Reg.Hw.STATE
def hwRuns (s : State) (h : Nat) : Bool := hwState s h == 1 || hwState s h == 2

/-! ### Compression (R255) -/

/-- What stands at the front of an encoded stream: nothing whole yet, a pad byte, an encoded flit with its poison mark, or a malformed
form. -/
inductive Enc where
  | more
  | pad
  | flit (data : List Byte) (poisoned : Bool) (len : Nat)
  | bad
  deriving DecidableEq, Repr

/-- Rebuild the eight words from `ZM`, `RM` and the literals. -/
def rebuild (zm rm : Nat) : Nat → Nat → List Byte → List Byte → List Byte
  | 0, _, _, _ => []
  | n + 1, k, prev, lits =>
    if zm.testBit k then List.replicate 8 0 ++ rebuild zm rm n (k + 1) (List.replicate 8 0) lits
    else if rm.testBit k then prev ++ rebuild zm rm n (k + 1) prev lits
    else lits.take 8 ++ rebuild zm rm n (k + 1) (lits.take 8) (lits.drop 8)

def popcount8 (v : Nat) : Nat := ((List.range 8).filter (fun i => v.testBit i)).length

/-- The form at the front of a stream. Without compression only raw forms are sent (R273; notes/assumptions/45.md). -/
def encHead (comp : Bool) (b : List Byte) : Enc :=
  match b with
  | [] => .more
  | e :: t =>
    if e = 0 then .pad
    else if e = 0x03 ∨ e = 0x07 then (if t.length < 64 then .more else .flit (t.take 64) (e == 0x07) 65)
    else if comp = true ∧ (e = 0x01 ∨ e = 0x05) then
      match t with
      | z :: r :: l =>
        let zm := z.toNat
        let rm := r.toNat
        if rm % 2 = 1 ∨ zm &&& rm ≠ 0 then .bad
        else
          let n := 8 - popcount8 (zm ||| rm)
          if l.length < 8 * n then .more else .flit (rebuild zm rm 8 0 [] l) (e == 0x05) (3 + 8 * n)
      | _ => .more
    else .bad

/-- Decode a stream: the flits with their poison marks, and the bytes left over; nothing on a malformed form. -/
def decStream (comp : Bool) : Nat → List Byte → Option (List (List Byte × Bool) × List Byte)
  | 0, b => some ([], b)
  | n + 1, b =>
    match encHead comp b with
    | .more => some ([], b)
    | .pad => decStream comp n (b.drop 1)
    | .bad => none
    | .flit d p k => (decStream comp n (b.drop k)).map (fun r => ((d, p) :: r.1, r.2))

/-- Word k of a flit. -/
def flitWord (d : List Byte) (k : Nat) : List Byte := (d.drop (8 * k)).take 8
/-- Words of `ZM` and of `RM`, and the literals. -/
def zeroWords (d : List Byte) : List Nat := (List.range 8).filter (fun k => flitWord d k == List.replicate 8 0)
def repeatWords (d : List Byte) : List Nat :=
  (List.range 8).filter (fun k => k != 0 && flitWord d k != List.replicate 8 0 && flitWord d k == flitWord d (k - 1))
def litWords (d : List Byte) : List Nat := (List.range 8).filter (fun k => !(zeroWords d).contains k && !(repeatWords d).contains k)
/-- How many words of a flit are sent as literals or raw (R255, R275). -/
def flitLits (comp : Bool) (d : List Byte) : Nat := if comp then (litWords d).length else 8
/-- The encoding of a flit. -/
def encodeFlit (poisoned comp : Bool) (d : List Byte) : List Byte :=
  let w := flitWord d
  let zm := zeroWords d
  let rm := repeatWords d
  let lit := litWords d
  let p : Nat := if poisoned then 4 else 0
  if !comp || lit.length = 8 then byte (3 + p) :: d
  else byte (1 + p) :: byte ((zm.map (2 ^ ·)).sum) :: byte ((rm.map (2 ^ ·)).sum) :: lit.flatMap w

/-! ### Selection and states -/

/-- Bad data wires of this run. -/
def badData (s : State) (h w : Nat) : Bool :=
  if w < 32 then (fget s (hb h) Reg.Hw.BAD_LO).testBit w else (fget s (hb h) Reg.Hw.BAD_HI).testBit (w - 32)
def setBadData (s : State) (h w : Nat) : State :=
  if w < 32 then fsetBit s (hb h) Reg.Hw.BAD_LO w true else fsetBit s (hb h) Reg.Hw.BAD_HI (w - 32) true
def spareBad (s : State) (h x : Nat) : Bool := fbit s (hb h) (Reg.Hw.SPARE_BAD x)
def spareUsed (s : State) (h x : Nat) : Bool := fbit s (hb h) (Reg.Hw.IN_USE x)
def spareRepl (s : State) (h x : Nat) : Nat := fget s (hb h) (Reg.Hw.REPL x)
def goodSpares (s : State) (h : Nat) : List Nat := (List.range 6).filter (fun x => !spareBad s h x)
def freeSpares (s : State) (h : Nat) : List Nat := (goodSpares s h).filter (fun x => !spareUsed s h x)
/-- The wire is in the width in use. -/
def wireInUse (s : State) (h w : Nat) : Bool :=
  hwState s h == 1 || (w / 32 == fget s (hb h) Reg.Hw.HALF_SEL)
/-- The wire that spare x of hawser h was fused to, plus 1 (R258). -/
def fusedWire (s : State) (h x : Nat) : Nat := tget 0 s.fuses.spares (8 * h + x)
/-- Show the free spares, and which assignments in use are those of the fuse map (R258, R275; notes/assumptions/28.md). -/
def showSpares (s : State) (h : Nat) : State :=
  let s := (List.range 6).foldl (fun s x =>
    fflag s (hb h) (Reg.Hw.FUSED x) (spareUsed s h x && fusedWire s h x == spareRepl s h x + 1)) s
  fset s (hb h) Reg.Hw.SPARES_FREE (freeSpares s h).length
/-- Bad wires of a range, ascending. -/
def badIn (s : State) (h lo hi : Nat) : List Nat := (List.range 64).filter (fun w => decide (lo ≤ w) && decide (w < hi) && badData s h w)

/-- Assign the good spares to wires, both ascending (R260). -/
def assignSpares (s : State) (h : Nat) (ws : List Nat) : State :=
  let s := (List.range 6).foldl (fun s x =>
    fset (fflag s (hb h) (Reg.Hw.IN_USE x) false) (hb h) (Reg.Hw.REPL x) 0) s
  let s := ((goodSpares s h).zip ws).foldl (fun s a =>
    fset (fflag s (hb h) (Reg.Hw.IN_USE a.1) true) (hb h) (Reg.Hw.REPL a.1) a.2) s
  showSpares s h

/-- R260 on what the registers hold as bad: FULL, HALF on the better half, or RETIRED. -/
def selectState (s : State) (h : Nat) : State :=
  let b := hb h
  let clk := fget s b Reg.Hw.BAD_CLK
  let sb := fget s b Reg.Hw.BAD_SB
  let free := (goodSpares s h).length
  let lo := badIn s h 0 32
  let hi := badIn s h 32 64
  let s := fset (fflag s b Reg.Hw.CLK_SEL (clk % 2 == 1)) b Reg.Hw.SB_CTL (if sb.testBit 2 then 1 else 0)
  if clk = 3 ∨ (sb.testBit 2 ∧ sb.testBit 3) then showSpares (fset s b Reg.Hw.STATE 3) h
  else if lo.length + hi.length ≤ free then assignSpares (fset s b Reg.Hw.STATE 1) h (lo ++ hi)
  else if free < min lo.length hi.length then showSpares (fset s b Reg.Hw.STATE 3) h
  else
    let low := decide (lo.length ≤ hi.length)
    assignSpares (fset (fset s b Reg.Hw.STATE 2) b Reg.Hw.HALF_SEL (if low then 0 else 1)) h (if low then lo else hi)

/-- The nearest row whose hawser has a state, ties to the lower (R269). -/
def nearestRow (s : State) (base y st : Nat) : Option Nat :=
  ((List.range 8).flatMap (fun k => (if k ≤ y then [y - k] else []) ++ [y + k])).find? (fun z => decide (z < 8) && hwState s (base + z) == st)
def rowMap (s : State) (base y : Nat) : Option Nat :=
  if hwState s (base + y) ≠ 3 then some y
  else match nearestRow s base y 1 with
    | some z => some z
    | none => nearestRow s base y 2
/-- Map the rows of one direction of a die: hawsers `base` to `base + 7` (R269). -/
def mapRows (s : State) (base : Nat) : State :=
  (List.range 8).foldl (fun s z =>
    let rows := (List.range 8).filter (fun y => rowMap s base y == some z)
    fset s (hb (base + z)) Reg.Hw.ROWS ((rows.map (2 ^ ·)).sum)) s

/-- Add a data wire to the wire record of this run (R261, R267). -/
def recordWire (s : State) (h w : Nat) : State :=
  if 64 ≤ w then s
  else
    let k := 128 * h + w
    match s.flash.wires with
    | [] => { s with flash := { s.flash with wires := [[k]] } }
    | r :: t => if r.contains k then s else { s with flash := { s.flash with wires := (r ++ [k]) :: t } }

/-- NoC cycles of 0.625 ns since supplies valid. -/
def nocNow (s : State) : Nat := 8 * s.up / 5
/-- Put a packet in another's place in the network. -/
def swapPacket (s : State) (p q : Packet) : State :=
  { s with
    net := s.net.map (fun x => if x = p then q else x)
    way := s.way.map (fun x => if x.1 = p then (q, x.2) else x) }

/-- A packet of which the receiving end has only its header and `k` payload flits: completed with zero flits and marked poisoned
(R270). -/
def zeroFill (p : Packet) (k : Nat) : Packet :=
  { p with data := p.data.take (64 * k) ++ List.replicate (p.data.length - 64 * k) 0, poisoned := true }

/-- Packets on a hawser that retires (R270): one of which no flit is acknowledged goes back to the router before it, ahead of all
that wait there; one of which some flits are is completed at the receiving end. -/
def packetsBack (s : State) (h : Nat) : State :=
  let now := nocNow s
  (s.way.filter (fun x => x.2.link == linkHw h)).foldl (fun s x =>
    if now < x.2.due then
      { s with way := s.way.map (fun y => if y = x then (y.1, { y.2 with link := y.2.old, due := 0, tail := 0, wait := 0 }) else y) }
    else if now < x.2.tail + 10 ∧ x.1.len ≠ 0 then
      swapPacket s x.1 (zeroFill x.1 ((now - x.2.due) * (x.1.len.toNat + 1) / (x.2.tail + 10 - x.2.due)))
    else s) s

/-- A packet has crossed hawser h whole: it stands at the receiving end. One that the network does not list yet came from a sender
that has no row. -/
def packetCross (h : Nat) (p : Packet) (s : State) : State :=
  let put (s : State) : State := { s with way := (s.way.filter (fun x => x.1 != p)) ++ [(p, { link := linkHw h })] }
  let q := { p with poisoned := false }
  if s.net.contains p then put s
  else if p.poisoned && s.net.contains q then put (swapPacket s q p)
  else put { s with net := s.net ++ [p] }

/-- The bits of a flit's bytes. -/
def flitBits (d : List Byte) : BitVec 512 := BitVec.ofNat 512 (leNat d)
/-- The packet that delivered flits spell; missing payload flits are zeros. -/
def flitsPacket (poisoned : Bool) (fs : List (List Byte)) : Packet :=
  let h := flitBits (fs.headD [])
  packetOf poisoned h ((fs.drop 1).map flitBits ++ List.replicate (hbits h 47 4 + 1 - fs.length) 0)

/-- Retire a hawser (R268, R270): packets in part across it are completed or sent again, its rows move, alarm HW and event 0x82; the
die is fenced when its direction has none left. -/
def retireHw (s : State) (h w : Nat) : State :=
  if hwState s h = 3 then s
  else
    let x := hwGet s h
    let s := if x.asm.isEmpty then s else packetCross h (flitsPacket true x.asm) s
    let s := packetsBack s h
    let s := fset s (hb h) Reg.Hw.STATE 3
    let s := fflag s (hb h) Reg.Hw.CHANGING false
    let s := hwUpd s h (fun _ => {})
    let base := h / 8 * 8
    let s := mapRows s base
    let s := jEvent (alarmHw s 1 [h / 16, h % 16]) 0x82 h w
    if (List.range 8).all (fun z => hwState s (base + z) == 3) then fenceDie s (h / 16) else s

/-! ### Repair (R263 to R266) -/

/-- Start a change (R265). -/
def startChange (s : State) (h : Nat) (c : HwChange) : State :=
  fflag (hwUpd s h (fun x => { x with change := some c })) (hb h) Reg.Hw.CHANGING true

/-- R264 for a data wire of the width in use that has failed. -/
def repairData (s : State) (h w : Nat) : State :=
  match freeSpares s h with
  | x :: _ => startChange s h ⟨0, w, x, 0⟩
  | [] =>
    let free := (goodSpares s h).length
    if hwState s h = 2 then
      let other := 1 - fget s (hb h) Reg.Hw.HALF_SEL
      if (badIn s h (32 * other) (32 * other + 32)).length ≤ free then startChange s h ⟨1, w, other, 0⟩ else retireHw s h w
    else
      let lo := (badIn s h 0 32).length
      let hi := (badIn s h 32 64).length
      if min lo hi ≤ free then startChange s h ⟨2, w, if lo ≤ hi then 0 else 1, 0⟩ else retireHw s h w

/-- Record a failed wire: the registers, and for a data wire the wire record (R264, R266). Wires 64 to 69 are the spares, 70 and 71
the clocks, 72 to 75 the sidebands. -/
def recordFail (s : State) (h w : Nat) : State :=
  let b := hb h
  if w < 64 then recordWire (setBadData s h w) h w
  else if w < 70 then showSpares (fsetBit (fflag s b (Reg.Hw.SPARE_BAD (w - 64)) true) b Reg.Hw.BAD_SPARE (w - 64) true) h
  else if w < 72 then fsetBit s b Reg.Hw.BAD_CLK (w - 70) true
  else fsetBit s b Reg.Hw.BAD_SB (w - 72) true

/-- A good spare carries data wire w. -/
def carried (s : State) (h w : Nat) : Bool := (goodSpares s h).any (fun x => spareUsed s h x && spareRepl s h x == w)

/-- A wire has failed, with no change in progress (R264). A spare that fails in use keeps its bits until the repair of the wire that it
carries is in force. -/
def failNow (s : State) (h w : Nat) : State :=
  let b := hb h
  let was := w < 70 && 64 ≤ w && spareBad s h (w - 64)
  let s := recordFail s h w
  if w < 64 then (if wireInUse s h w && !carried s h w then repairData s h w else s)
  else if w < 70 then (if !was && spareUsed s h (w - 64) then repairData s h (spareRepl s h (w - 64)) else s)
  else if w < 72 then
    if fget s b Reg.Hw.BAD_CLK = 3 then retireHw s h w
    else if w = 70 ∧ !fbit s b Reg.Hw.CLK_SEL then startChange s h ⟨3, w, 1, 0⟩
    else s
  else
    let sb := fget s b Reg.Hw.BAD_SB
    if sb.testBit 2 && sb.testBit 3 then retireHw s h w
    else if sb.testBit 2 then fflag s b Reg.Hw.SB_CTL true
    else s

/-- The change in progress removes the wire from use (R265, R266). -/
def leavesUse (s : State) (h : Nat) (c : HwChange) (w : Nat) : Bool :=
  if c.kind = 0 then w == c.wire || (decide (64 ≤ w) && decide (w < 70) && spareUsed s h (w - 64) && spareRepl s h (w - 64) == c.wire)
  else if c.kind = 3 then w == 70
  else decide (w < 64) && w / 32 != c.spare

/-- Insert a failure by the time at which it was sampled, then by wire index, once (R266). -/
def insertFail (f : Nat × Nat) : List (Nat × Nat) → List (Nat × Nat)
  | [] => [f]
  | x :: t => if f.1 < x.1 ∨ (f.1 = x.1 ∧ f.2 < x.2) then f :: x :: t else if f = x then x :: t else x :: insertFail f t

/-- A wire fails (R263, R266): at once, after the change in progress, or only recorded. -/
def wireFails (s : State) (h w : Nat) : State :=
  if !hwRuns s h then s
  else match (hwGet s h).change with
    | some c =>
      if leavesUse s h c w then recordFail s h w
      else hwUpd s h (fun x => { x with queue := insertFail (s.up, w) x.queue })
    | none => failNow s h w

/-- Failures sampled in one cycle are acted on in ascending wire index (R266). -/
def wiresFail (s : State) (h : Nat) (ws : List Nat) : State :=
  ((List.range 76).filter (fun w => ws.contains w)).foldl (fun s w => wireFails s h w) s

/-- Act on the failures behind a change until one starts the next (R266). -/
def drainQueue : Nat → Nat → State → State
  | 0, _, s => s
  | n + 1, h, s =>
    match (hwGet s h).queue with
    | [] => s
    | f :: t =>
      let s := failNow (hwUpd s h (fun x => { x with queue := t })) h f.2
      if (hwGet s h).change.isSome || !hwRuns s h then s else drainQueue n h s

/-- The confirmation of a change (R265): the registers take the new mapping, rows are mapped anew after a degrade (R269), and swaps and
degrades are journalled (R267). -/
def finishChange (s : State) (h : Nat) (c : HwChange) : State :=
  let b := hb h
  let s := fflag (hwUpd s h (fun x => { x with change := none })) b Reg.Hw.CHANGING false
  let s :=
    if c.kind = 0 then
      let s := (List.range 6).foldl (fun s x =>
        if spareUsed s h x && spareRepl s h x == c.wire then fset (fflag s b (Reg.Hw.IN_USE x) false) b (Reg.Hw.REPL x) 0 else s) s
      let s := fset (fflag s b (Reg.Hw.IN_USE c.spare) true) b (Reg.Hw.REPL c.spare) c.wire
      jEvent (showSpares (finc s b Reg.Hw.SWAP_CNT) h) 0x80 h c.wire
    else if c.kind = 3 then fflag s b Reg.Hw.CLK_SEL true
    else
      let s := fset (fset s b Reg.Hw.STATE 2) b Reg.Hw.HALF_SEL c.spare
      mapRows (jEvent (assignSpares s h (badIn s h (32 * c.spare) (32 * c.spare + 32))) 0x81 h c.wire) (h / 8 * 8)
  drainQueue 80 h s

/-- The stages of a change (R265): the transmitter has the request and drives the new mapping; the receiver has the marker and reads
the new mapping. -/
def nextStage (s : State) (h stage : Nat) : State :=
  match (hwGet s h).change with
  | none => s
  | some c => if c.stage ≠ stage then s else hwUpd s h (fun x => { x with change := some { c with stage := stage + 1 } })

/-- REPAIR_REQUEST, REPAIR_MARKER, REPAIR_CONFIRM (R265): the stages of the change in progress. -/
def opRepairStage (h stage : Nat) (s : State) : State :=
  match (hwGet s h).change with
  | none => s
  | some c =>
    if c.stage ≠ stage then s
    else if stage = 2 then finishChange s h c
    else nextStage s h stage

/-! ### Blocks (R252, R253) -/

/-- The half in use and the spare that carries data wire w under the mapping in force, and under that of the change in progress
(R260, R265). -/
def halfOf (s : State) (h : Nat) : Option Nat := if hwState s h = 2 then some (fget s (hb h) Reg.Hw.HALF_SEL) else none
def spareOf (s : State) (h w : Nat) : Option Nat := (List.range 6).find? (fun x => spareUsed s h x && spareRepl s h x == w)
def newHalf (s : State) (h : Nat) (c : HwChange) : Option Nat := if c.kind = 1 ∨ c.kind = 2 then some c.spare else halfOf s h
def newSpare (s : State) (h : Nat) (c : HwChange) (w : Nat) : Option Nat :=
  if c.kind = 0 then (if w = c.wire then some c.spare else spareOf s h w)
  else if c.kind = 3 then spareOf s h w
  else (((goodSpares s h).zip (badIn s h (32 * c.spare) (32 * c.spare + 32))).find? (fun a => a.2 == w)).map (·.1)

/-- The data wire of bit j of block byte i (R252). -/
def dataWire (half : Option Nat) (i j : Nat) : Nat :=
  match half with
  | some k => 32 * k + 8 * (i % 4) + j
  | none => 8 * (i % 8) + j
/-- The wire, with a spare in its place. -/
def onSpare (spare : Nat → Option Nat) (w : Nat) : Nat :=
  match spare w with
  | some x => 64 + x
  | none => w
def oldWire (s : State) (h i j : Nat) : Nat := onSpare (spareOf s h) (dataWire (halfOf s h) i j)
def newWire (s : State) (h : Nat) (c : HwChange) (i j : Nat) : Nat := onSpare (newSpare s h c) (dataWire (newHalf s h c) i j)
/-- The wire on which the receiver reads bit j of block byte i (R252, R265): the new one from the block after the marker. -/
def wireOf (s : State) (h i j : Nat) : Nat :=
  match (hwGet s h).change with
  | some c => if c.stage = 2 then newWire s h c i j else oldWire s h i j
  | none => oldWire s h i j
/-- The wires that the transmitter drives with it (R265): in a swap both from the request to the confirmation, when it parks the old one
low. -/
def wiresDriven (s : State) (h i j : Nat) : List Nat :=
  match (hwGet s h).change with
  | some c => if c.kind = 0 ∧ c.stage ≠ 0 then [oldWire s h i j, newWire s h c i j] else [wireOf s h i j]
  | none => [oldWire s h i j]

/-- The threshold of R263. -/
def wireThr (s : State) (h w : Nat) : Nat := if 72 ≤ w then 4 else max 1 (fget s (hb h) Reg.Hw.WIRE_ERR_THR)
/-- The wire has failed in this run. -/
def wireBad (s : State) (h w : Nat) : Bool :=
  if w < 64 then badData s h w
  else if w < 70 then spareBad s h (w - 64)
  else if w < 72 then (fget s (hb h) Reg.Hw.BAD_CLK).testBit (w - 70)
  else (fget s (hb h) Reg.Hw.BAD_SB).testBit (w - 72)

/-- Count one error on a wire (R263). -/
def wireError (h : Nat) (s : State) (w : Nat) : State := finc (finc s (hb h) (Reg.Hw.WIN_ERR w)) (hb h) (Reg.Hw.TOT_ERR w)
/-- Errors found together are counted, and then each wire whose count stands at the threshold fails (R263, R266). -/
def wireErrors (s : State) (h : Nat) (ws : List Nat) : State :=
  let t := ws.foldl (wireError h) s
  wiresFail t h (ws.filter (fun w => decide (wireThr t h w ≤ fget t (hb h) (Reg.Hw.WIN_ERR w)) && !wireBad t h w))

/-- The wires on which the bytes from `lo` to `hi - 1` of two copies of a block differ. -/
def diffWires (s : State) (h lo hi : Nat) (a b : List Byte) : List Nat :=
  ((List.range hi).drop lo).flatMap (fun i =>
    let x := (a.getD i 0) ^^^ (b.getD i 0)
    ((List.range 8).filter (fun j => x.getLsbD j)).map (fun j => wireOf s h i j))

/-- The payload bits of a block in the order of transmission, each with its wire. -/
def payloadBits (s : State) (h : Nat) (b : List Byte) : List (Nat × Bool) :=
  ((List.range 36).drop 2).flatMap (fun i => (List.range 8).map (fun j => (wireOf s h i j, (b.getD i 0).getLsbD j)))
/-- Follow the PRBS31 of each wire (R263; x^31 + x^28 + 1, notes/assumptions/45.md) over payload bits: the new histories, and the wires
whose bit differs from the sequence. -/
def prbsFollow : Tab (List Bool) → List (Nat × Bool) → Tab (List Bool) × List Nat
  | t, [] => (t, [])
  | t, x :: l =>
    let p := tget [] t x.1
    let want := if p.length = 31 then xor (p.getD 30 false) (p.getD 27 false) else x.2
    let r := prbsFollow (tset [] t x.1 ((want :: p).take 31)) l
    (r.1, if want = x.2 then r.2 else x.1 :: r.2)

/-- The CRC of a block is good. -/
def blockCrc (b : List Byte) : Bool := (crc32c (b.take 36)).toNat == leAt b 36 4
def blockKind (b : List Byte) : Nat := (b.getD 1 0).toNat % 4

/-- The flits of a data block's payload behind the bytes carried over, and the bytes to carry on (R252): `OFS` is where the first flit
starts that starts in the payload; nothing when a form is malformed or `OFS` does not fit it. -/
def dataFlits (comp : Bool) (carry : List Byte) (ofs : Nat) (pay : List Byte) : Option (List (List Byte × Bool) × List Byte) :=
  let cont (r : List (List Byte × Bool) × List Byte) : Bool := decide (r.1.length ≤ (if carry = [] then 0 else 1))
  if ofs = 63 then
    match decStream comp 80 (carry ++ pay) with
    | some r => if cont r && (r.2.isEmpty || (r.1.isEmpty && !carry.isEmpty)) then some r else none
    | none => none
  else if ofs < 34 ∧ pay.getD ofs 0 ≠ 0 then
    match decStream comp 80 (carry ++ pay.take ofs), decStream comp 80 (pay.drop ofs) with
    | some a, some b => if cont a && a.2.isEmpty then some (a.1 ++ b.1, b.2) else none
    | _, _ => none
  else none

/-- The flits of a good block, or nothing when it fails as a `CRC` error would (R255). -/
def blockFlits (comp : Bool) (carry : List Byte) (b : List Byte) : Option (List (List Byte × Bool) × List Byte) :=
  if blockKind b = 0 then dataFlits comp carry ((b.getD 1 0).toNat / 4) ((b.drop 2).take 34)
  else if blockKind b = 2 then none
  else some ([], carry)

/-- A block that fails its check (R253): counted, its copy kept, a NAK sent; the bit errors of an idle block are counted on their wires
(R263); the sixteenth failure in succession retires. -/
def blockFails (s : State) (h : Nat) (b : List Byte) : State :=
  let s := finc s (hb h) Reg.Hw.CRC_ERR_CNT
  let s := hwUpd s h (fun x => { x with naked := true, resend := none, failCopy := some b, failRun := x.failRun + 1 })
  if 16 ≤ (hwGet s h).failRun then retireHw s h 0xFF
  else if blockKind b = 1 then wireErrors s h (prbsFollow (hwGet s h).prbs (payloadBits s h b)).2
  else s

/-- One delivered flit joins its packet (R254); flits sent outside the network's own routing are counted here (R275). -/
def flitDelivered (h : Nat) (s : State) (f : List Byte × Bool) : State :=
  let x := hwGet s h
  let fs := x.asm ++ [f.1]
  let bad := x.asmBad || f.2
  let hdr := flitBits (fs.headD [])
  let known := s.way.any (fun y => y.2.link == linkHw h && headerFlit y.1 == hdr)
  let s := if known then s
    else faddSat (finc s (hb h) Reg.Hw.FLIT_CNT) (hb h) Reg.Hw.LIT_CNT (flitLits (fbit s (hb h) Reg.Hw.COMP) f.1)
  if fs.length ≤ hbits hdr 47 4 then hwUpd s h (fun y => { y with asm := fs, asmBad := bad })
  else packetCross h (flitsPacket bad fs) (hwUpd s h (fun y => { y with asm := [], asmBad := false }))

/-- A good block in sequence: its flits are delivered, a failed copy of it is compared, and a marker applies the change (R253, R263,
R265). -/
def blockPasses (s : State) (h : Nat) (b : List Byte) (r : List (List Byte × Bool) × List Byte) : State :=
  let x := hwGet s h
  let s := hwUpd s h (fun y =>
    { y with rxSeq := (y.rxSeq + 1) % 256, naked := false, failCopy := none, failRun := 0, carry := r.2
             prbs := if blockKind b = 1 then (prbsFollow y.prbs (payloadBits s h b)).1 else y.prbs })
  let s := answerBytes (r.1.foldl (flitDelivered h) s) .okay (r.1.flatMap (fun f => f.1))
  let s := match x.failCopy with
    | none => s
    | some c =>
      if blockKind c = 1 then wireErrors s h (diffWires s h 0 2 c b ++ diffWires s h 36 40 c b)
      else wireErrors s h (diffWires s h 0 40 c b)
  if blockKind b = 3 then nextStage s h 1 else s

/-- The receiving end checks a block (R253): until the failed block arrives again every other one is discarded. -/
def blockReceived (h : Nat) (b : List Byte) (expected : Bool) (s : State) : State :=
  let x := hwGet s h
  if x.naked && !expected then (if blockCrc b then s else finc s (hb h) Reg.Hw.CRC_ERR_CNT)
  else if !blockCrc b then blockFails s h b
  else if (b.getD 0 0).toNat ≠ x.rxSeq then s
  else match blockFlits (fbit s (hb h) Reg.Hw.COMP) x.carry b with
    | none => blockFails s h b
    | some r => blockPasses s h b r

/-- What the transmitting end keeps of a block: its bytes, where the crossing showed them whole. -/
def keptCopy (b : List Byte) : Option (List Byte) := if blockCrc b then some b else none

/-- HAWSER_BLOCK: a block crosses (R253). While the transmitting end re-sends, it is the next block kept; else it is a new one, which
the transmitting end keeps. A block that this end would not send does not cross. -/
def opHawserBlock (h : Nat) (b : List Byte) (s : State) : State :=
  let x := hwGet s h
  let next (n : Nat) : Bool := !blockCrc b || (b.getD 0 0).toNat == (x.base + n) % 256
  if !hwRuns s h || b.length ≠ 40 then s
  else match x.resend with
    | some n =>
      if !next n || (blockCrc b && (x.kept.getD n none).isSome && x.kept.getD n none != some b) then s
      else
        let s := hwUpd s h (fun y => { y with
          kept := if blockCrc b then y.kept.set n (some b) else y.kept
          resend := if n + 1 < y.kept.length then some (n + 1) else none })
        blockReceived h b ((x.base + n) % 256 == x.rxSeq) s
    | none =>
      if 128 ≤ x.kept.length || !next x.kept.length then s
      else blockReceived h b false (hwUpd s h (fun y => { y with kept := y.kept ++ [keptCopy b] }))

/-- HAWSER_ACK (R253): blocks up to `seq` are acknowledged and dropped. -/
def opHawserAck (h seq : Nat) (s : State) : State :=
  if !hwRuns s h then s
  else
    let x := hwGet s h
    let n := (seq + 257 - x.base) % 256
    if n ≤ x.kept.length then
      hwUpd s h (fun x => { x with kept := x.kept.drop n, base := (x.base + n) % 256, resend := x.resend.map (fun k => k - n) })
    else s

/-- HAWSER_NAK (R253): the transmitting end re-sends from the failed block onward. -/
def opHawserNak (h seq : Nat) (s : State) : State :=
  if !hwRuns s h then s
  else
    let x := hwGet s h
    let n := (seq + 256 - x.base) % 256
    if x.naked && decide (n < x.kept.length) then
      hwUpd (faddSat s (hb h) Reg.Hw.REPLAY_CNT (x.kept.length - n)) h (fun x => { x with resend := some n })
    else s

/-- WIRE_FAIL (R263): the errors that took the wire's count to its threshold are counted, and it fails, in the order of its cycle. -/
def opWireFail (h : Nat) (ws : List Nat) (s : State) : State :=
  if !hwRuns s h then s
  else wiresFail (ws.foldl (fun s w =>
    if (70 ≤ w ∧ w < 72) ∨ wireBad s h w = true then s
    else
      let n := wireThr s h w - fget s (hb h) (Reg.Hw.WIN_ERR w)
      faddSat (faddSat s (hb h) (Reg.Hw.WIN_ERR w) n) (hb h) (Reg.Hw.TOT_ERR w) n) s) h ws
/-- Failures of this hawser's wires that wait in the queue: sampled in the same cycle (notes/assumptions/10.md). -/
def wiresWaiting (s : State) (h : Nat) : List Nat :=
  s.pending.filterMap (fun c => match c with
    | .wireFail d n w => if 16 * d.val + n.val = h then some w.val else none
    | _ => none)

/-- WIRE_WIN_EXPIRE (R263): a new window begins. -/
def opWireWinExpire (h : Nat) (s : State) : State :=
  (List.range 76).foldl (fun s w => fset s (hb h) (Reg.Hw.WIN_ERR w) 0) s

/-- The action of `HW_CLR` (R275). -/
def actHwClr (h : Nat) (s : State) : State :=
  fwipe (csrWipe s (hb h + 0x044) (hb h + 0x058)) (hb h) ((List.range 76).map Reg.Hw.TOT_ERR)

/-- The action of `TEST_GO` (R275). -/
def actTestGo (h : Nat) (s : State) : State :=
  if fbit s (hb h) Reg.Hw.CHANGING || !hwRuns s h then fflag s (hb h) Reg.Hw.TEST_REJECT true
  else wireFails s h (fget s (hb h) Reg.Hw.TEST_WIRE)

/-! ### Phase B (R259) -/

/-- Data wires that the record counts bad: failed in two or more of the last four runs (R261), or, for the alternative of step
0x11, in any (16 R497). -/
def recordBad (s : State) (h w : Nat) (all : Bool) : Bool :=
  let n := (s.flash.wires.filter (fun r => r.contains (128 * h + w))).length
  decide ((if all then 1 else 2) ≤ n)

/-- What steps 2 to 4 of R259 found on one hawser enters its registers, with fuses and record; then R260. -/
def testHawser (s : State) (h : Nat) (t : HawserTest) (alt : Bool) (fl2 : Bool) : State :=
  let b := hb h
  let bad := (t.badStatic ++ (if alt then [] else t.badPrbs)).map (fun w => w.val)
  let fusedW := ((List.range 6).filter (fun x => fusedWire s h x != 0)).map (fun x => fusedWire s h x - 1)
  let s := (List.range 64).foldl (fun s w => if bad.contains w || fusedW.contains w || recordBad s h w alt then setBadData s h w else s) s
  let s := (List.range 6).foldl (fun s x =>
    if bad.contains (64 + x) || s.fuses.badSpares.contains (8 * h + x) then fsetBit (fflag s b (Reg.Hw.SPARE_BAD x) true) b Reg.Hw.BAD_SPARE x true else s) s
  let s := fset s b Reg.Hw.SPARES_FUSED fusedW.length
  let s := fset (fset s b Reg.Hw.BAD_CLK t.badClk.toNat) b Reg.Hw.BAD_SB t.badSb.toNat
  selectState (fflag s b Reg.Hw.COMP fl2) h

def hn (d : Fin 8) (n : Fin 16) : Nat := 16 * d.val + n.val

def execHawserBlock (d : Fin 8) (n : Fin 16) (block : List Byte) (s : State) : Out := .next (opHawserBlock (hn d n) block s)
def execHawserAck (d : Fin 8) (n : Fin 16) (seq : BitVec 8) (s : State) : Out := .next (opHawserAck (hn d n) seq.toNat s)
def execHawserNak (d : Fin 8) (n : Fin 16) (seq : BitVec 8) (s : State) : Out := .next (opHawserNak (hn d n) seq.toNat s)
def execWireFail (d : Fin 8) (n : Fin 16) (wire : Fin 76) (s : State) : Out := 
  .next (opWireFail (hn d n) (wire.val :: wiresWaiting s (hn d n)) s)
def execWireWinExpire (d : Fin 8) (n : Fin 16) (s : State) : Out := .next (opWireWinExpire (hn d n) s)
def execRepairRequest (d : Fin 8) (n : Fin 16) (s : State) : Out := .next (opRepairStage (hn d n) 0 s)
def execRepairMarker (d : Fin 8) (n : Fin 16) (s : State) : Out := .next (opRepairStage (hn d n) 1 s)
def execRepairConfirm (d : Fin 8) (n : Fin 16) (s : State) : Out := .next (opRepairStage (hn d n) 2 s)

end Sys2Proof.Machine
end

