-- ==== Sys2Proof/Machine/Sha.lean ====
section
/-! DEFINITION. SHA-384 (FIPS 180-4), for the image-header hash that `REGION_STATUS` returns (13 R398). The standard's constants
are written as what they are: fractional parts of roots of primes. -/

namespace Sys2Proof.Machine

/-- The largest r with r^k at most n, for n below 2^(k * bits). -/
def iroot (k bits n : Nat) : Nat :=
  (List.range bits).foldl (fun r i => if (r + 2 ^ (bits - 1 - i)) ^ k ≤ n then r + 2 ^ (bits - 1 - i) else r) 0
/-- The first 80 primes. -/
def primes80 : List Nat := (List.range 410).filter (fun n => decide (2 ≤ n) && (List.range 20).all (fun d => d < 2 || d == n || n % d != 0) && n != 361)
/-- The round constants: the first 64 bits of the fractional parts of the cube roots. -/
def shaK : List (BitVec 64) := primes80.map (fun p => BitVec.ofNat 64 (iroot 3 68 (p * 2 ^ 192)))
/-- The initial value: the fractional parts of the square roots of the ninth to sixteenth primes. -/
def shaIv : List (BitVec 64) := ((primes80.drop 8).take 8).map (fun p => BitVec.ofNat 64 (iroot 2 68 (p * 2 ^ 128)))

def rotr64 (x : BitVec 64) (n : Nat) : BitVec 64 := x.rotateRight n

/-- The message schedule of a block of 16 words. -/
def shaSched (m : List (BitVec 64)) : List (BitVec 64) :=
  (List.range 64).foldl (fun w j =>
    let x := w.getD (j + 1) 0
    let y := w.getD (j + 14) 0
    let s0 := rotr64 x 1 ^^^ rotr64 x 8 ^^^ (x >>> 7)
    let s1 := rotr64 y 19 ^^^ rotr64 y 61 ^^^ (y >>> 6)
    w ++ [w.getD j 0 + s0 + w.getD (j + 9) 0 + s1]) m

/-- One round on the eight working words. -/
def shaRound (v : List (BitVec 64)) (kw : BitVec 64) : List (BitVec 64) :=
  let a := v.getD 0 0; let b := v.getD 1 0; let c := v.getD 2 0; let d := v.getD 3 0
  let e := v.getD 4 0; let f := v.getD 5 0; let g := v.getD 6 0; let h := v.getD 7 0
  let t1 := h + (rotr64 e 14 ^^^ rotr64 e 18 ^^^ rotr64 e 41) + ((e &&& f) ^^^ (~~~e &&& g)) + kw
  let t2 := (rotr64 a 28 ^^^ rotr64 a 34 ^^^ rotr64 a 39) + ((a &&& b) ^^^ (a &&& c) ^^^ (b &&& c))
  [t1 + t2, a, b, c, d + t1, e, f, g]

/-- One block of 128 bytes. -/
def shaBlock (h : List (BitVec 64)) (b : List Byte) : List (BitVec 64) :=
  let w := shaSched ((List.range 16).map (fun i => BitVec.ofNat 64 (beNat ((b.drop (8 * i)).take 8))))
  let v := ((shaK.zip w).map (fun p => p.1 + p.2)).foldl shaRound h
  (h.zip v).map (fun p => p.1 + p.2)

/-- The blocks of a padded message; `n` counts them. -/
def shaBlocks : Nat → List (BitVec 64) → List Byte → List (BitVec 64)
  | 0, h, _ => h
  | n + 1, h, m => shaBlocks n (shaBlock h (m.take 128)) (m.drop 128)

/-- SHA-384 of a byte string. -/
def sha384 (m : List Byte) : List Byte :=
  let p := m ++ [0x80] ++ List.replicate ((239 - m.length % 128) % 128) 0 ++ natBe (8 * m.length) 16
  ((shaBlocks (p.length / 128) shaIv p).take 6).flatMap (fun w => natBe w.toNat 8)

end Sys2Proof.Machine
end

