-- ==== Sys2Proof/Machine/Steps.lean ====
section
/-! DEFINITION. The steps of a start and the step table (16 R496 to R498), and the manifest in force (16 R485 to R487). -/

namespace Sys2Proof.Machine

/-- The steps that have an alternative mode (16 R497); step 0x31 follows 10 R299 instead. -/
def stepHasAlt (code : Nat) : Bool := [0x11, 0x20, 0x21, 0x22, 0x23, 0x32, 0x33, 0x40, 0x42].contains code
def stepKey (code arg : Nat) : Nat := 65536 * code + arg
def stepGet (s : State) (code arg : Nat) : StepRec := tget {} s.flash.steps (stepKey code arg)
/-- The step runs its alternative at this start (R498). -/
def stepAlt (s : State) (code arg : Nat) : Bool :=
  stepHasAlt code && ((stepGet s code arg).kept || (stepGet s code arg).lastFailed)
/-- A step begins (R496). -/
def stepBegin (s : State) (code arg : Nat) (alt : Bool) : State :=
  fflag (fflag (fset (fset s 0 Reg.Hub.JS_CODE code) 0 Reg.Hub.JS_ARG arg) 0 Reg.Hub.JS_DONE false) 0 Reg.Hub.JS_ALT alt
/-- The step table's entry after a run (R498). -/
def stepTable (s : State) (code arg : Nat) (alt ok : Bool) : State :=
  let x := stepGet s code arg
  let y : StepRec := if alt then { x with lastFailed := false }
    else if ok then { x with failRun := 0, lastFailed := false }
    else { failRun := min 3 (x.failRun + 1), kept := x.kept || decide (3 ≤ x.failRun + 1), lastFailed := true }
  { s with flash := { s.flash with steps := tset {} s.flash.steps (stepKey code arg) y } }
/-- A step ends: `JS_DONE`, the step table and the journal record (R496, R498; results of R495). -/
def stepEnd (s : State) (code arg : Nat) (alt ok : Bool) (det : Nat) : State :=
  let s := if fget s 0 Reg.Hub.JS_CODE = code ∧ fget s 0 Reg.Hub.JS_ARG = arg then fflag s 0 Reg.Hub.JS_DONE true else s
  let s := if code = 0x31 then s else stepTable s code arg alt ok
  journal s code ((if alt then 2 else 0) + (if ok then 0 else 1)) arg det
/-- A whole step in one mode. -/
def stepRun (s : State) (code arg : Nat) (alt ok : Bool) (det : Nat) : State := stepEnd (stepBegin s code arg alt) code arg alt ok det

/-! ### The manifest in force -/

/-- A field of the manifest. -/
def mfGet (s : State) (o n : Nat) : Nat := leAt s.boot.manifest o n
/-- Length of part i (R486). -/
def partLen (s : State) (i : Nat) : Nat := mfGet s (0x28 + 64 * i) 4

end Sys2Proof.Machine
end

