-- ==== Sys2Proof/Machine/Load.lean ====
section
/-! DEFINITION. Configuration loads (14 R407 to R425, R428): image headers, segment records, checks, fallback, failure and the
staged release. -/

namespace Sys2Proof.Machine

/-! ### States -/

/-- `CFG_STATE` (14 R435): 0 IDLE, 1 LOADING, 2 RELEASING, 3 USER, 4 FAILED. -/
def cfgState (s : State) : Nat := fget s cfgBase Reg.Cfg.CFG_STATE
def setCfgState (s : State) (v : Nat) : State := fset s cfgBase Reg.Cfg.CFG_STATE v
/-- Rank of a check: its order, then its code (R413). -/
def rankOf (order code : Nat) : Nat := 256 * order + code
/-- The failed check that ranks first. -/
def firstFail (a b : Option LoadFail) : Option LoadFail :=
  match a, b with
  | none, b => b
  | a, none => a
  | some x, some y => if y.rank < x.rank then some y else some x
def failIf (c : Bool) (order code : Nat) : Option LoadFail := if c then some ⟨rankOf order code, code, 0, 0⟩ else none

/-- A load that expects its header. -/
def newLoad (s : State) (partialLoad golden retry : Bool) (mb die islands : Nat) : LoadSt :=
  { partialLoad := partialLoad, golden := golden, mb := mb, die := die, islands := islands, stage := 0, flags := 0, designId := 0
    hashOk := 0, tagOk := 0, segs := [], cur := 0, addr := 0, left := 0, written := 0, dieRec := none, fail := none
    startUs := upUs s, imageHash := 0, retry := retry, bytes := 0 }

/-- Every frame to all-zero, and no island holds an image. -/
def clearAll (s : State) : State :=
  allIsl.foldl (fun s n => islUpd s n (fun i => { i with image := false, pendRel := false, region := 0, src := none })) { s with frames := [] }

/-- Begin a full load (R421). -/
def startFull (s : State) (golden retry : Bool) : State :=
  { setCfgState (clearAll s) 1 with load := some (newLoad s false golden retry 0 0 0), port := [] }

/-- Record a rejection (R435). -/
def recordErr (s : State) (f : LoadFail) (partialLoad : Bool) : State :=
  let s := fset (fset s cfgBase Reg.Cfg.ERR_CODE f.code) cfgBase Reg.Cfg.ERR_DIE f.die
  fset (fflag (fflag s cfgBase Reg.Cfg.ERR_PARTIAL partialLoad) cfgBase Reg.Cfg.ERR_VALID true) cfgBase Reg.Cfg.ERR_FRAME f.frame

/-- Phase p of the start ends and the next begins (16 R474, R508). -/
def phaseEnd (s : State) (p : Nat) : State :=
  let s := fset (fset s 0 (Reg.Hub.PHASE_MS p) (min 0xFFFF (upUs s / 1000))) 0 Reg.Hub.BOOT_PHASE (p + 1)
  if p = 4 ∧ s.boot.dmc = true then journalFlush s else s
/-- Phase E ends with the full load of the start. -/
def loadEnd (s : State) : State := if fget s 0 Reg.Hub.BOOT_PHASE = 4 then phaseEnd s 4 else s

/-- `CFG_ERR_N` is asserted (R423; 16 R482): configuration FAILED, until a later load reaches USER, or a halted start. -/
def cfgErr (s : State) : Bool := s.boot.halted || cfgState s == 4 || s.load.any (fun l => l.retry)
/-- `CFG_DONE` is released (R423): step 3 of the staged release has been reached. -/
def cfgDone (s : State) : Bool := cfgState s == 3 && s.isl.all (fun p => p.2.hold || p.2.rel == 0)

/-- Configuration FAILED (R423). -/
def cfgFailed (s : State) (f : LoadFail) : State :=
  loadEnd { setCfgState (alarmCfg (clearAll s) 2 f.frame f.code f.die) 4 with load := none }

/-- Begin the golden load, or fail where the flash holds none (R422, R423). `alt`: step 0x40 runs its alternative. -/
def goldenLoad (s : State) (f : LoadFail) : State :=
  if partLen s 6 = 0 then cfgFailed (stepRun s 0x41 0 false false f.code) f
  else startFull (stepBegin s 0x41 0 false) true false

/-- A full image is rejected (R413, R422, R423). -/
def rejectFull (s : State) (l : LoadSt) (f : LoadFail) : State :=
  let s := recordErr s f false
  if l.retry then cfgFailed s f
  else if l.golden then
    let s := if fget s cfgBase Reg.Cfg.OP_ERR_CODE = 0 then stepEnd s 0x40 0 true false f.code else s
    cfgFailed (stepEnd s 0x41 0 false false f.code) f
  else
    let s := alarmCfg (fset s cfgBase Reg.Cfg.OP_ERR_CODE f.code) 1 f.frame f.code f.die
    goldenLoad (clearAll (stepEnd s 0x40 0 false false f.code)) f

/-- A partial image is rejected (R428): before DRAIN nothing is touched; afterwards every named island fails. An image above
`FL` has a status of its own (13 R378). -/
def rejectPartial (s : State) (l : LoadSt) (f : LoadFail) : State :=
  let s := recordErr { s with load := none } f true
  let s := if l.stage < 2 then s else (loadIslands l).foldl regionFail s
  mbFinish s l.mb (if f.code = 5 then stFeature else stFailed) (detail 2 f.code 0) []

def reject (s : State) (l : LoadSt) (f : LoadFail) : State := if l.partialLoad then rejectPartial s l f else rejectFull s l f
def formatFail : LoadFail := ⟨rankOf 1 1, 1, 0, 0⟩

/-! ### The header (R407 to R410, R413) -/

/-- Bytes of a header: 0x000 to 0x39F. -/
def hdrBytes : Nat := 0x3A0
/-- Segment entry i of a header (R408). -/
def segOf (b : List Byte) (i : Nat) : Seg :=
  let o := 0x60 + 32 * i
  ⟨leAt b o 1, leAt b (o + 4) 4, leAt b (o + 8) 4, leAt b (o + 12) 4, leAt b (o + 16) 8⟩
def segsOf (b : List Byte) : List Seg := (List.range (min 8 (leAt b 0xA 2))).map (segOf b)

/-- One segment entry is well formed. -/
def segOk (b : List Byte) (encrypted : Bool) (i : Nat) : Bool :=
  let o := 0x60 + 32 * i
  let x := segOf b i
  decide (x.die ≤ 7) && leAt b (o + 1) 3 == 0 && leAt b (o + 24) 8 == 0 && x.offset % 64 == 0 && decide (0x3C0 ≤ x.offset) &&
  decide (x.offset + x.length ≤ leAt b 0x50 4) && decide (x.islands < 2 ^ 48) && (!encrypted || decide (16 ≤ x.length))

/-- Two segments neither overlap nor name one die (R408). -/
def segsApart (xs : List Seg) : Bool :=
  decide (xs.Pairwise (fun x y => x.die ≠ y.die ∧ (x.offset + x.length ≤ y.offset ∨ y.offset + y.length ≤ x.offset)))

/-- Check 1 on the header: magic, version, lengths, segment table, reserved bits (R407, R408). -/
def headerOkCfg (b : List Byte) : Bool :=
  let n := leAt b 0xA 2
  let flags := leAt b 6 2
  decide (hdrBytes ≤ b.length) && leAt b 0 4 == 0x53425A53 && leAt b 4 2 == 1 && decide (flags < 32) &&
  (leAt b 8 1 == 1 || leAt b 8 1 == 2) && (leAt b 9 1 == 2 || leAt b 9 1 == 3) && decide (1 ≤ n ∧ n ≤ 8) &&
  (!flags.testBit 0 || n == 1) && (flags.testBit 3 || leAt b 0x10 8 == 0) && (flags.testBit 0 || leAt b 0x28 16 == 0) &&
  leAt b 0x54 12 == 0 && (List.range n).all (segOk b (flags.testBit 1)) &&
  (List.range 8).all (fun i => i < n || (leAt b (0x60 + 32 * i) 32 == 0 && leAt b (0x1C0 + 48 * i) 48 == 0)) &&
  segsApart (segsOf b)

/-- `DESIGN_ID` in force. -/
def designInForce (s : State) : Nat :=
  (List.range 4).foldl (fun v k => v + 2 ^ (32 * k) * fget s cfgBase (Reg.Cfg.DESIGN_ID k)) 0

/-- The checks made on the header (R413): 1 to 6 and `TARGET`; for a partial load also 7, 8 and `BASE_MISMATCH` (R428). -/
def headerFail (s : State) (l : LoadSt) (b : List Byte) (chk : ImageCheck) : Option LoadFail :=
  let flags := leAt b 6 2
  if !headerOkCfg b then some formatFail
  else
    let common := firstFail (failIf (leAt b 0xC 4 != 0x9680) 2 2)
      (firstFail (failIf (flags.testBit 3 && leAt b 0x10 8 != s.fuses.dieId) 3 3)
      (firstFail (failIf (decide (s.fuses.speed < leAt b 9 1)) 4 4)
      (firstFail (failIf (decide (featureLevel s < leAt b 8 1)) 5 5)
        (failIf (!chk.keyOk || !chk.sigOk) 6 6))))
    if l.partialLoad then
      let x := segOf b 0
      firstFail common (firstFail (failIf (!chk.hashOk.getLsbD 0) 7 7)
        (firstFail (failIf (flags.testBit 1 && (s.fuses.devKeyBlank || !chk.tagOk.getLsbD 0)) 8 8)
        (firstFail (failIf (flags.testBit 0 && leAt b 0x28 16 != designInForce s) 8 0x11)
          (failIf (!flags.testBit 0 || x.die != l.die || x.islands != l.islands) 8 0x12))))
    else firstFail common (failIf (flags.testBit 0) 8 0x12)

/-- Every island of a partial load is behind its cleats. -/
def loadIsolated (s : State) (l : LoadSt) : Bool := (loadIslands l).all (fun n => islState s n == 2)

/-- A header at the load that expects it. -/
def takeHeader (s : State) (l : LoadSt) (b : List Byte) (chk : ImageCheck) : State :=
  match headerFail s l b chk with
  | some f => reject s l f
  | none => { s with load := some { l with
      stage := 1, flags := leAt b 6 2, designId := leAt b 0x18 16, hashOk := chk.hashOk.toNat, tagOk := chk.tagOk.toNat, segs := segsOf b
      imageHash := BitVec.ofNat 32 (leNat ((sha384 (b.take hdrBytes)).take 4)) } }

/-- IMAGE_HEADER. While configuration is FAILED a header begins a new load (R423). In the second reading of a partial image it
brings the outcomes of checks 7 and 8 over the bytes read for the write. -/
def opImageHeader (b : List Byte) (chk : ImageCheck) (s : State) : State :=
  let s := { s with port := s.port.drop b.length }
  match s.load with
  | some l =>
    if l.stage = 0 then takeHeader s l b chk
    else if l.partialLoad && l.stage == 2 && loadIsolated s l then
      { s with load := some { l with hashOk := chk.hashOk.toNat, tagOk := chk.tagOk.toNat } }
    else s
  | none =>
    if cfgState s = 4 then takeHeader (startFull s false true) (newLoad s false false true 0 0 0) b chk else s

/-! ### Records (R411, R412) -/

/-- The segment in progress. -/
def curSeg (l : LoadSt) : Seg := l.segs.getD l.cur ⟨0, 0, 0, 0, 0⟩
/-- Frames of the segment are discarded: its die is absent or fenced (R414). -/
def discards (s : State) (l : LoadSt) : Bool := !present s (curSeg l).die || fenced s (curSeg l).die

/-- The load reads records now: a full load its segments; a partial load its first reading, or its second once its islands are
behind their cleats (R428). -/
def loadReads (s : State) (l : LoadSt) : Bool :=
  (l.stage == 1) || (l.partialLoad && l.stage == 2 && loadIsolated s l)
/-- Frames are written now. -/
def writesNow (s : State) (l : LoadSt) : Bool := (!l.partialLoad || l.stage == 2) && !discards s l

/-- A record breaks R411 or R412. In the second reading of a partial image that is a difference, `HASH` (R413). -/
def recordBroken (s : State) (l : LoadSt) : State :=
  if l.partialLoad && l.stage == 2 then reject s l ⟨rankOf 7 7, 7, 0, l.die⟩
  else reject s l { formatFail with die := (curSeg l).die }

/-- Step 4 of R428: the reconfigurable frames of the named islands are cleared once, before the first record of the write. -/
def clearNamed (s : State) (l : LoadSt) : State :=
  if l.partialLoad && l.stage == 2 && l.written == 0 && l.left == 0 then (loadIslands l).foldl clearReconf s else s

/-- A record of n bytes is read. -/
def readBytes (l : LoadSt) (n : Nat) : LoadSt := { l with bytes := l.bytes + n }
/-- Bytes of the segment's records: its tag stands outside them (R408, R410). -/
def recordLen (l : LoadSt) : Nat := (curSeg l).length - (if l.flags.testBit 1 then 16 else 0)

/-- A record with a frame address may stand here (R411). -/
def addrOk (l : LoadSt) (n : Nat) (a : Nat) : Bool :=
  decide (1 ≤ n ∧ n ≤ 2000) && decide (a < 2 ^ 20) && a / 2 ^ 17 == (curSeg l).die && (curSeg l).islands.testBit (a / 2 ^ 11 % 64) &&
  decide (a / 2 ^ 11 % 64 < 48) && decide (a % 2 ^ 11 + n ≤ 2000)

/-- The island of a frame address, and its frame. -/
def addrIsl (a : Nat) : Nat := a / 2 ^ 17 * 48 + a / 2 ^ 11 % 64
def addrFrame (a : Nat) : Nat := a % 2 ^ 11

/-- One frame of a load: checks 9 to 14, then the write (R413). After a failure no further frame is written. -/
def loadFrame (s : State) (l : LoadSt) (a : Nat) (d : BitVec 4096) (crcOk : Bool) : State × LoadSt :=
  let l := { l with written := l.written + 1 }
  if !writesNow s l || l.fail.isSome then (s, l)
  else if !crcOk then (s, { l with fail := some ⟨rankOf 9 9, 9, a, (curSeg l).die⟩ })
  else match frameChecks s (addrIsl a) (addrFrame a) d l.partialLoad with
    | some c => (s, { l with fail := some ⟨rankOf c.1 c.2, c.2, a, (curSeg l).die⟩ })
    | none =>
      let x : Frame := ⟨d, frameCheck d, if l.partialLoad then 2 else 1, l.partialLoad && l.flags.testBit 4, false⟩
      (frameWrite s a x, l)

/-- The words of a frame as bits. -/
def frameBits (ws : List Word) : BitVec 4096 := BitVec.ofNat 4096 (ws.foldr (fun w v => w.toNat + 2 ^ 32 * v) 0)
def wordBytes (ws : List Word) : List Byte := ws.flatMap (fun w => natLe w.toNat 4)

/-- The rebuilt words of a compressed frame (R412) from word k on: none where the literals do not last. -/
def rebuildWords (zm rm : Nat) : Nat → Nat → Word → List Word → Option (List Word × List Word)
  | 0, _, _, lits => some ([], lits)
  | n + 1, k, prev, lits =>
    if zm.testBit k then (rebuildWords zm rm n (k + 1) 0 lits).map (fun p => (0 :: p.1, p.2))
    else if rm.testBit k then (rebuildWords zm rm n (k + 1) prev lits).map (fun p => (prev :: p.1, p.2))
    else match lits with
      | [] => none
      | w :: t => (rebuildWords zm rm n (k + 1) w t).map (fun p => (w :: p.1, p.2))

/-- A frame record: the words and their CRC, or a format error (R412). -/
def parseFrame (compressed : Bool) (ws : List Word) : Option (List Word × Word) :=
  if !compressed then
    match ws.drop 128 with
    | [c] => some (ws.take 128, c)
    | _ => none
  else match ws with
    | [] => none
    | c :: t =>
      if c = 0 then (match t.drop 128 with
        | [x] => some (t.take 128, x)
        | _ => none)
      else if c = 1 then
        let mask (l : List Word) : Nat := l.foldr (fun w v => w.toNat + 2 ^ 32 * v) 0
        let zm := mask (t.take 4)
        let rm := mask ((t.drop 4).take 4)
        if rm.testBit 0 || zm &&& rm != 0 then none
        else match rebuildWords zm rm 128 0 0 (t.drop 8) with
          | some (f, [x]) => some (f, x)
          | _ => none
      else none

/-- FRAMES (R411): names consecutive frames to be written. -/
def opFrames (n a : Nat) (s : State) : State :=
  match s.load with
  | none => s
  | some l =>
    if !loadReads s l || l.left != 0 then s
    else
      let s := { s with port := s.port.drop 8 }
      if !addrOk l n a then recordBroken s l
      else { clearNamed s l with load := some (readBytes { l with addr := a, left := n } 8) }

/-- FRAME_RECORD (R412, R413). -/
def opFrameRecord (ws : List Word) (s : State) : State :=
  match s.load with
  | none => s
  | some l =>
    if !loadReads s l || l.left == 0 then s
    else
      let s := { s with port := s.port.drop (4 * ws.length) }
      match parseFrame (l.flags.testBit 2) ws with
      | none => recordBroken s l
      | some p =>
        let r := loadFrame s l l.addr (frameBits p.1) (crc32c (wordBytes p.1) == p.2)
        { r.1 with load := some (readBytes { r.2 with addr := l.addr + 1, left := l.left - 1 } (4 * ws.length)) }

/-- Consecutive frames set to all-zero. -/
def zeroFrames : Nat → Nat → State → LoadSt → State × LoadSt
  | 0, _, s, l => (s, l)
  | n + 1, a, s, l => let r := loadFrame s l a 0 true; zeroFrames n (a + 1) r.1 r.2

/-- ZERO (R411). -/
def opZero (n a : Nat) (s : State) : State :=
  match s.load with
  | none => s
  | some l =>
    if !loadReads s l || l.left != 0 then s
    else
      let s := { s with port := s.port.drop 8 }
      if !addrOk l n a then recordBroken s l
      else
        let r := zeroFrames n a (clearNamed s l) l
        { r.1 with load := some (readBytes r.2 8) }

/-- DIE_REC (R411): exactly one in a full segment, none in a partial one; applied when the segment has passed. -/
def opDieRec (n : Nat) (ws : List Word) (s : State) : State :=
  match s.load with
  | none => s
  | some l =>
    if !loadReads s l || l.left != 0 then s
    else
      let s := { s with port := s.port.drop (4 + 4 * ws.length) }
      if l.partialLoad || n != 18 || ws.length != 18 || l.dieRec.isSome then recordBroken s l
      else { s with load := some (readBytes { l with dieRec := some ws } (4 + 4 * ws.length)) }

/-- NOP (R411). -/
def opSegmentNop (arg : Nat) (s : State) : State :=
  match s.load with
  | none => s
  | some l =>
    if !loadReads s l || l.left != 0 then s
    else
      let s := { s with port := s.port.drop 4 }
      if arg = 0 then { s with load := some (readBytes l 4) } else recordBroken s l

/-! ### The end of a segment (R413) -/

/-- `ECLK_N` is legal for the grade (07 R200). -/
def eclkOk (s : State) (n : Nat) : Bool := decide (16 ≤ n) && decide (n ≤ (if s.fuses.speed = 3 then 40 else 36))

/-- One splice number of a die breaks 03 R91 or R92. -/
def spliceBad (s : State) (d id : Nat) : Bool :=
  let ms := ((List.range 48).map (fun i => 48 * d + i)).filter (fun n => cfgSpliceId s n == id)
  match ms with
  | [] => false
  | r :: _ =>
    !(decide (id ≤ 8) && decide (2 ≤ ms.length ∧ ms.length ≤ 12) && connected ms && islHolder s r != 0x1F &&
      ms.all (fun m => islHolder s m == islHolder s r && cfgSpliceRoot s m == (m == r)))
/-- Trees of island n whose `SRC` faces another member. -/
def facesMember (s : State) (n : Nat) : Bool := spliced s n && (List.range 4).any (fun x => srcFacesMember s n (cfgSrc s n x))

/-- Check 15 on a segment. -/
def check15 (s : State) (l : LoadSt) : Option LoadFail :=
  let d := (curSeg l).die
  let named := ((List.range 48).filter (fun i => (curSeg l).islands.testBit i)).map (fun i => 48 * d + i)
  let recs := (l.dieRec.getD []).map (fun w => w.toNat)
  let spineN (k : Nat) : Nat := if l.partialLoad then fget s (dieBase d) (Reg.Die.SPINE_N k) else recs.getD k 0 % 256
  let splice := if l.partialLoad then named.any (facesMember s)
    else ((List.range 15).any (fun k => spliceBad s d (k + 1))) || (List.range 48).any (fun i => facesMember s (48 * d + i))
  let clock := (!l.partialLoad && ((List.range 8).any (fun k => !(decide (4 ≤ spineN k) && decide (spineN k ≤ 160))) ||
      (List.range 10).any (fun e => !eclkOk s (recs.getD (8 + e) 0 % 64)))) ||
    named.any (fun n => !genOk s (spineN (cfgSpineSel s n)) (cfgGenMul s n) (cfgGenDiv s n))
  (firstFail (failIf splice 15 0x0F) (failIf clock 15 0x10)).map (fun f => { f with die := d })

/-- The die record takes effect (R421 step 4). -/
def applyDieRec (s : State) (d : Nat) (ws : List Word) : State :=
  let v (k : Nat) : Nat := (ws.getD k 0).toNat
  let s := (List.range 8).foldl (fun s k =>
    let en := (v k).testBit 8
    fflag (fflag (fset s (dieBase d) (Reg.Die.SPINE_N k) (v k % 256)) (dieBase d) (Reg.Die.SPINE_EN k) en) (dieBase d) (Reg.Die.SPINE_LOCK k) en) s
  (List.range 10).foldl (fun s e =>
    eisUpd (fset s (eisBase (10 * d + e)) Reg.Eisl.ECLK_N (v (8 + e) % 64)) (10 * d + e) (fun x => { x with eclk := v (8 + e) % 64 })) s

/-- Named islands whose dies are there: they wait for their release. -/
def awaitRelease (s : State) (ns : List Nat) : State :=
  ns.foldl (fun s n =>
    fflag (islUpd s n (fun i => { i with image := true, pendRel := true, region := 1 })) (islBase n) Reg.Isl.LOCKED false) s

/-- Every segment of a full image has passed (R421 step 6): the fabric waits for its release. -/
def fullPassed (s : State) (l : LoadSt) : State :=
  let s := { setCfgState s 2 with load := some { l with stage := 3 } }
  let s := fset s cfgBase Reg.Cfg.LOAD_US (min (upUs s - l.startUs) 0xFFFFFFFF)
  let s := l.segs.foldl (fun s x => if present s x.die && !fenced s x.die then awaitRelease s (segIslands x) else s) s
  if l.retry then s
  else if l.golden then
    let s := if fget s cfgBase Reg.Cfg.OP_ERR_CODE = 0 then stepEnd s 0x40 0 true true 0 else s
    loadEnd (stepEnd s 0x41 0 false true 0)
  else loadEnd (stepEnd s 0x40 0 false true 0)

/-- What failed in the segment that ends, the first in rank: its structure (`END` stands last, R411), its frames, its hash and tag, then check 15. -/
def segFail (s : State) (l : LoadSt) (arg : Nat) : Option LoadFail :=
  let d := (curSeg l).die
  let bad (c : Bool) (order code : Nat) : Option LoadFail := (failIf c order code).map (fun f => { f with die := d })
  let made := firstFail (bad (arg != 0 || l.written != (curSeg l).frames || l.bytes + 4 != recordLen l || (!l.partialLoad && l.dieRec.isNone)) 1 1)
    (firstFail (bad (!l.hashOk.testBit l.cur) 7 7)
    (firstFail (bad (l.flags.testBit 1 && (s.fuses.devKeyBlank || !l.tagOk.testBit l.cur)) 8 8) l.fail))
  match made with
  | some f => some f
  | none => if writesNow s l then check15 s l else none

/-- END (R413, R421, R428). -/
def opEnd (arg : Nat) (s : State) : State :=
  match s.load with
  | none => s
  | some l =>
    if !loadReads s l || l.left != 0 then s
    else
      let s := clearNamed { s with port := s.port.drop 4 } l
      match segFail s l arg with
      | some f =>
        let second := l.partialLoad && l.stage == 2
        reject s l (if second && f.code = 1 then { f with code := 7 } else f)
      | none =>
        if l.partialLoad then
          if l.stage = 1 then
            let s := (loadIslands l).foldl (fun s n => if islState s n = 0 then drainStart s n 3 false else s) s
            { s with load := some { l with stage := 2, written := 0, bytes := 0 } }
          else { awaitRelease s (loadIslands l) with load := some { l with stage := 3 } }
        else
          let s := if discards s l then jEvent s 0x89 (curSeg l).die 0 else applyDieRec s (curSeg l).die (l.dieRec.getD [])
          let l := { l with cur := l.cur + 1, written := 0, dieRec := none, bytes := 0 }
          if l.cur < l.segs.length then { s with load := some l } else fullPassed s l

/-- SOURCE_TIMEOUT (R418, R413): a check that was made and failed keeps its code. JTAG never times out; the golden image comes
from flash. -/
def opSourceTimeout (s : State) : State :=
  match s.load with
  | none => s
  | some l =>
    if l.partialLoad || l.stage == 3 || (!l.golden && s.fuses.srcStrap == 3) then s
    else reject s l (l.fail.getD ⟨rankOf 255 0x13, 0x13, 0, 0⟩)

/-! ### The release (R424, R425) -/

/-- The named islands of the load that wait for a release that can come. -/
def stillWaiting (s : State) (ns : List Nat) : Bool := ns.any (fun n => (islGet s n).pendRel && islMayRun s n)

/-- A full image is in force (R421, R422): the islands that no segment names stay held; every island of a die in service is in RUN
for its router. -/
def fullInForce (s : State) (l : LoadSt) : State :=
  let s := (List.range 4).foldl (fun s k => fset s cfgBase (Reg.Cfg.DESIGN_ID k) (l.designId / 2 ^ (32 * k))) (setCfgState s 3)
  let s := fflag (fflag s cfgBase Reg.Cfg.GOLDEN l.golden) cfgBase Reg.Cfg.NO_READBACK (l.flags.testBit 4)
  let s := (allIsl.filter (fun n => present s (n / 48) && !fenced s (n / 48) && islState s n == 3)).foldl (fun s n => setIslState s n 0) s
  let s := allIsl.foldl (fun s n => if islMayRun s n then s else islUpd s n (fun i => { i with pendRel := false })) s
  { s with load := none, port := [], boot := { s.boot with fromPort := !l.golden && (l.retry || s.fuses.srcStrap != 0) } }

/-- The load ends once no island of it waits any more. -/
def finishLoad (s : State) : State :=
  match s.load with
  | none => s
  | some l =>
    if l.stage != 3 then s
    else if l.partialLoad then
      if (loadIslands l).any (fun n => (islGet s n).pendRel) then s else partialDone s l
    else if stillWaiting s (l.segs.flatMap segIslands) then s
    else fullInForce s l

/-- LOCK_FAIL (R424): an island that waits for its release and whose generator has not locked. In a partial load every named
island fails (R428). -/
def opLockFail (n : Nat) (s : State) : State :=
  if (islGet s n).pendRel && !islLocked s n && islState s n != 5 then
    let a := frameKey n 0
    let s := alarmCfg s 3 a 0x14 (n / 48)
    match s.load with
    | some l =>
      if l.partialLoad && (loadIslands l).contains n then rejectPartial s l ⟨rankOf 16 0x14, 0x14, a, n / 48⟩
      else finishLoad (islUpd s n (fun i => { i with pendRel := false }))
    | none => islUpd s n (fun i => { i with pendRel := false })
  else s

def execImageHeader (b : List Byte) (chk : ImageCheck) (s : State) : Out := .next (opImageHeader b chk s)
def execFrames (n : BitVec 24) (addr : Word) (s : State) : Out := .next (opFrames n.toNat addr.toNat s)
def execFrameRecord (words : List Word) (s : State) : Out := .next (opFrameRecord words s)
def execZero (n : BitVec 24) (addr : Word) (s : State) : Out := .next (opZero n.toNat addr.toNat s)
def execDieRec (n : BitVec 24) (words : List Word) (s : State) : Out := .next (opDieRec n.toNat words s)
def execSegmentNop (arg : BitVec 24) (s : State) : Out := .next (opSegmentNop arg.toNat s)
def execEndRecord (arg : BitVec 24) (s : State) : Out := .next (opEnd arg.toNat s)
def execSourceTimeout (s : State) : Out := .next (opSourceTimeout s)
def execLockFail (d : Fin 8) (i : Fin 48) (s : State) : Out := .next (opLockFail (islId d i) s)
def execStagedRelease (s : State) : Out := .next (finishLoad (opStagedRelease s))

end Sys2Proof.Machine
end

