-- ==== Sys2Proof/Machine/Bight.lean ====
section
/-! DEFINITION. The bight (12 R366 to R371): bypasses of ports A and B, ring frames, and the node's registers. -/

namespace Sys2Proof.Machine

def btUp (b : Bool) : Fld := if b then Reg.Bight.B_UP else Reg.Bight.A_UP
def btOpen (b : Bool) : Fld := if b then Reg.Bight.B_OPEN else Reg.Bight.A_OPEN
def btEn (b : Bool) : Fld := if b then Reg.Bight.B_EN else Reg.Bight.A_EN
def bypassOpen (s : State) (b : Bool) : Bool := fbit s pwrBase (btOpen b)
/-- Close a port's bypass. -/
def closeBypass (s : State) (b : Bool) : State := fflag s pwrBase (btOpen b) false
def closeBights (s : State) : State := closeBypass (closeBypass s false) true

/-- A closing condition of R367 other than the missing release. -/
def mustClose (s : State) (b : Bool) : Bool :=
  !s.pwr.ao || !s.pwr.mainEn || s.pwr.hubReset || fget s pwrBase Reg.Pwr.DEV_STATE != 0 || !fbit s pwrBase (btEn b)

/-- From when port b may be released again (R368). -/
def btReady (s : State) (b : Bool) : Nat := if b then s.bight.readyB else s.bight.readyA
def setReady (s : State) (b : Bool) (v : Nat) : State :=
  { s with bight := if b then { s.bight with readyB := v } else { s.bight with readyA := v } }

/-- BIGHT_LANE_UP (R368): CDR locked, comma-aligned, no code error for 1 ms. A lane that was lost is up for 100 ms before its release. -/
def opBightLaneUp (b : Bool) (s : State) : State :=
  if s.pwr.hubReset || fbit s pwrBase (btUp b) then s
  else fflag (if btReady s b = 0 then s else setReady s b (s.up + 100000000)) pwrBase (btUp b) true

/-- BIGHT_RELEASE (R368, 16 R481): the DMC opens the bypass of a port that is up and enabled, after DONE. A closing condition
that meets the release wins (R367). -/
def opBightRelease (b : Bool) (s : State) : State :=
  if fbit s pwrBase (btUp b) && s.boot.dmc && fget s 0 Reg.Hub.BOOT_PHASE == 6 && !mustClose s b && decide (btReady s b ≤ s.up) then fflag s pwrBase (btOpen b) true else s

/-- BIGHT_LANE_LOST (R368): the lane was lost for 1 ms. -/
def opBightLaneLost (b : Bool) (s : State) : State :=
  closeBypass (setReady (fflag s pwrBase (btUp b) false) b (if fbit s pwrBase (btUp b) || btReady s b != 0 then 1 else 0)) b

/-- BIGHT_WATCHDOG (R369): firmware failed to refresh the watchdog; a close is counted where a bypass was open. -/
def opBightWatchdog (s : State) : State :=
  if bypassOpen s false || bypassOpen s true then closeBights (finc s pwrBase Reg.Bight.CLOSE_CNT) else s

/-- The bytes of a word list in ascending address order. -/
def frameWord (f : List Byte) (w : Nat) : Nat := leAt f (4 * w) 4

/-- Show the head of the receive queue (R371): the frame without its CRC. -/
def showRx (s : State) : State :=
  let q := s.bight.rx
  let h := q.headD (false, [])
  let s := fset (fflag (fset s pwrBase Reg.Bight.RX_LEN h.2.length) pwrBase Reg.Bight.RX_PORT h.1) pwrBase Reg.Bight.RX_WAIT q.length
  (List.range 64).foldl (fun s w => fset s pwrBase (Reg.Bight.RX_BUF w) (frameWord h.2 w)) s

/-- A ring frame's CRC is good (R370). -/
def ringCrcOk (f : List Byte) : Bool := leAt f (f.length - 4) 4 == (crc32c (f.take (f.length - 4))).toNat

/-- RING_FRAME_RECEIVE (R370): a frame for this node, or from it, is not forwarded even where its CRC turns out bad, since forwarding is
cut-through (notes/assumptions/26.md); counted, copied, and forwarded as the answer; an empty answer forwards nothing. A closed port takes
no frame. -/
def opRingFrameReceive (b : Bool) (f : List Byte) (s : State) : State :=
  if !bypassOpen s b || f.length < 7 || 255 < f.length then s
  else
    let me := fget s pwrBase Reg.Bight.RING_ADDR
    let dst := (f.getD 0 0).toNat
    let src := (f.getD 1 0).toNat
    let good := ringCrcOk f
    let s := if good then s else finc s pwrBase Reg.Bight.RX_CRC_CNT
    let s := if good && (dst == me || dst == 0xFF) then
        if s.bight.rx.length < 8 then showRx { s with bight := { s.bight with rx := s.bight.rx ++ [(b, f.take (f.length - 4))] } }
        else finc s pwrBase Reg.Bight.RX_DROP_CNT
      else s
    answerBytes s .okay (if dst = me ∨ src = me then [] else f)

/-- RING_FRAME_INSERT (R370): between forwarded frames, with the elastic buffer empty; the frame sent is the answer. -/
def opRingFrameInsert (elasticEmpty : Bool) (s : State) : State :=
  match s.bight.tx with
  | none => s
  | some t =>
    if elasticEmpty && bypassOpen s t.1 then
      answerBytes (fflag { s with bight := { s.bight with tx := none } } pwrBase Reg.Bight.TX_BUSY false) .okay t.2
    else s

/-- The action of `TX_GO` (R371): the frame of `TX_BUF` with its CRC appended. -/
def actTxGo (s : State) : State :=
  let n := fget s pwrBase Reg.Bight.TX_LEN
  let b := fbit s pwrBase Reg.Bight.TX_PORT
  if fbit s pwrBase Reg.Bight.TX_BUSY || !bypassOpen s b || n < 3 || 251 < n then s
  else
    let f := ((List.range 64).flatMap (fun w => natLe (fget s pwrBase (Reg.Bight.TX_BUF w)) 4)).take n
    fflag { s with bight := { s.bight with tx := some (b, f ++ natLe (crc32c f).toNat 4) } } pwrBase Reg.Bight.TX_BUSY true

/-- The action of `RX_POP` (R371). -/
def actRxPop (s : State) : State := showRx { s with bight := { s.bight with rx := s.bight.rx.drop 1 } }

def execBightLaneUp (b : Bool) (s : State) : Out := .next (opBightLaneUp b s)
def execBightRelease (b : Bool) (s : State) : Out := .next (opBightRelease b s)
def execBightLaneLost (b : Bool) (s : State) : Out := .next (opBightLaneLost b s)
def execBightWatchdog (s : State) : Out := .next (opBightWatchdog s)
def execRingFrameReceive (b : Bool) (f : List Byte) (s : State) : Out := .next (opRingFrameReceive b f s)
def execRingFrameInsert (e : Bool) (s : State) : Out := .next (opRingFrameInsert e s)

end Sys2Proof.Machine
end

