-- ==== Sys2Proof/Machine/EngLoad.lean ====
section
/-! DEFINITION. Engine images (13 `ENGINE_LOAD`, 07 R206, R221), the DMC's reads of bulk data (13 R380), and engine islands
powered off, woken and released (15 R455; 05 R132; 07 R220). -/

namespace Sys2Proof.Machine

/-! ### Bulk data (13 R380) -/

/-- A read of the DMC is held behind a reset, a zero-fill or a re-key of its page, as a request is (11 R315, R328, R331): that work
completes while the command waits (notes/assumptions/50.md). -/
def dmcWaits (s : State) (a : Nat) : State :=
  let s := if resetCovers s a then opSubtreeResetDone s else s
  let s := if (tget [] s.sec.fills (granOf a)).isEmpty then s else opZeroFillDone (granOf a) s
  if (tget [] s.sec.rekeys (a / 4096)).isEmpty then s else opRekeyDone (a / 4096) s
/-- One read of the DMC with the `PART` of the sender's partition: at most 1,024 bytes of one 4 KiB page (11 R305). -/
def dmcChunk (s : State) (part a n : Nat) : Resp × List Byte × State :=
  let c := a / 2 ^ 36
  let st := mcState s c
  let last := a + (n - 1)
  if decide (8 ≤ c) || st == 4 || (decide (2 ≤ st) && decide (mcLines s c ≤ last % 2 ^ 36 / 64)) then (.decodeErr, [], s)
  else
    let u := granUse s (granOf a)
    match u.1 with
    | none => (.partErr, [], u.2)
    | some x =>
      let s := u.2
      if x.owner ≠ part ∨ 16 < part then (.partErr, [], s)
      else if st < 2 || (mcGet s c).standby || (partGet s part).escalated || (partGet s part).state == 3 || !fbit s secBase Reg.Sec.KEY_READY then
        (.domainOff, [], s)
      else
        let lines := (List.range ((a + n - 1) / 64 - a / 64 + 1)).map (a / 64 + ·)
        let s := dmcWaits s a
        let r := readLines part (granGet s (granOf a)).init lines s
        let worst := (r.1.map rdResp).foldl (fun a b => if isErr b then worse a b else a) .okay
        let bytes := r.1.flatMap (fun x => natLe (rdData x).toNat 64)
        (if isErr worst then worst else .okay, (bytes.drop (a % 64)).take n, r.2)

/-- Read bytes in chunks that end at multiples of 1,024; the first error ends it. `k` bounds the chunks. -/
def dmcReads (part : Nat) : Nat → Nat → Nat → State → Resp × List Byte × State
  | 0, _, _, s => (.okay, [], s)
  | k + 1, a, n, s =>
    if n = 0 then (.okay, [], s)
    else
      let m := min n (1024 - a % 1024)
      let r := dmcChunk s part a m
      if r.1 = .okay then
        let q := dmcReads part k (a + m) (n - m) r.2.2
        (q.1, r.2.1 ++ q.2.1, q.2.2)
      else (r.1, [], r.2.2)
def dmcRead (s : State) (part a n : Nat) : Resp × List Byte × State := dmcReads part (n / 1024 + 2) a n s

/-! ### Flash -/

/-- Bytes of a slot of the flash; an unlisted byte reads as erased. -/
def flashByte (s : State) (slot o : Nat) : Byte := tget 0xFF s.flash.bytes (2 ^ 30 * slot + o)
def flashBytes (s : State) (slot o n : Nat) : List Byte := (List.range n).map (fun i => flashByte s slot (o + i))
/-- Offset of part i in its slot. -/
def partOff (s : State) (i : Nat) : Nat := mfGet s (0x24 + 64 * i) 4

/-- Offset, length and SHA-384 of part i of a manifest (16 R486). -/
def mPartOff (m : List Byte) (i : Nat) : Nat := leAt m (0x24 + 64 * i) 4
def mPartLen (m : List Byte) (i : Nat) : Nat := leAt m (0x28 + 64 * i) 4
def mPartSha (m : List Byte) (i : Nat) : List Byte := (m.drop (0x30 + 64 * i)).take 48
/-- Part i of slot k matches its SHA-384 (R489). -/
def partHashOk (s : State) (k : Nat) (m : List Byte) (i : Nat) : Bool :=
  sha384 (flashBytes s k (mPartOff m i) (mPartLen m i)) == mPartSha m i

/-! ### Engine images -/

/-- What an engine image holds. -/
structure EngImg where
  level : Nat
  entry : Nat
  bundles : List Byte
  frame : Nat
  persBase : Nat
  persLen : Nat
  data : List Byte
  deriving DecidableEq, Repr

/-- Parse an engine image: its format and 07 R206. -/
def parseImg (b : List Byte) : Option EngImg :=
  let n := leAt b 0xA 2
  let fa := leAt b 0xC 2
  let pb := leAt b 0xE 2
  let pl := leAt b 0x10 2
  let nd := leAt b 0x12 2
  let fits := decide (32 ≤ b.length) && leAt b 0 4 == 0x49455A53 && leAt b 4 2 == 1 && (leAt b 6 1 == 1 || leAt b 6 1 == 2) && leAt b 7 1 == 0 &&
    leAt b 0x18 8 == 0 && decide (leAt b 8 2 < 1024) && decide (1 ≤ n ∧ n ≤ 1024) && decide (nd ≤ 32768) &&
    decide (32 + 8 * n + nd ≤ b.length) && (crc32c (b.drop 32)).toNat == leAt b 0x14 4
  let region := fa % 16 == 0 && pb % 16 == 0 && pl % 16 == 0 && decide (pb ≤ fa) && decide (fa + 0x230 ≤ pb + pl) && decide (pb + pl ≤ 32768)
  if fits && region then some ⟨leAt b 6 1, leAt b 8 2, (b.drop 32).take (8 * n), fa, pb, pl, (b.drop (32 + 8 * n)).take nd⟩ else none

/-- Bytes as codewords with valid check bits; memory beyond them is zero (13 `ENGINE_LOAD`). -/
def codewords (bs : List Byte) : Tab (BitVec 13) := (bs.zipIdx.map (fun p => (p.2, encByte p.1))).filter (fun p => p.2 != 0)

/-- Set an engine's binding (07 R221). -/
def setBind (s : State) (n cls : Nat) (bound : Bool) : State :=
  let s := fflag (fset s (engBase n) Reg.Eng.CLASS cls) (engBase n) Reg.Eng.BOUND bound
  eisUpd s (n / 16) (fun x => { x with binds := tset 0 x.binds (n % 16) (cls % 8 + (if bound then 8 else 0)) })

/-- An image enters an engine: both memories, with nothing left to correct in them, the region registers, the control registers of 05
R144 from the frame, `st` of both banks 0 (R143), an empty inbox; the engine is `STOPPED`. Committed entries that have not drained stay (07 R212). -/
def installImg (s : State) (n : Nat) (m : EngImg) : State :=
  let fr := (m.data ++ List.replicate (32768 - m.data.length) 0).drop m.frame |>.take 0x230
  let c (k a : Nat) : Nat × Word := (k, convReg k (BitVec.ofNat 32 (leAt fr a 4)))
  let ctl : List (Nat × Word) := [c 50 0x220, (51, 0), (52, 0), c 53 0x224, c 54 0x228, c 55 0x22C]
  let s := engUpd s n (fun e =>
    { e with pm := codewords m.bundles, dm := codewords m.data, inbox := [], staged := [], ovf := false, fly := [], starting := 0
             main := { e.main with r := tset 0 e.main.r 49 0 }, shadow := { e.shadow with r := tset 0 e.shadow.r 49 0 }
             wbs := [], old := [], frame := [], half := 0, loadWait := false, flow := .seq, bank := false, afterRet := false, pc := m.entry
             ctl := ctl.foldl (fun t p => tset 0 t p.1 p.2) [] })
  let b := engBase n
  let s := fset (fset s b Reg.Eng.ENTRY m.entry) b Reg.Eng.FRAME_ADDR m.frame
  let s := fset (fset s b Reg.Eng.PERS_BASE m.persBase) b Reg.Eng.PERS_LEN m.persLen
  setEngState s n 1

/-- The reload of one engine from the source that it last loaded (15 R455): part 4 of the manifest with its hash checked again, event
0x97 where it differs (16 R491), or a descriptor. -/
def reloadImg (s : State) (n : Nat) : Bool × State :=
  let x := eisGet s (n / 16)
  let src := tget {} x.srcs (n % 16)
  if src.kind = 0 then (true, s)
  else
    let k := fget s 0 Reg.Hub.RUN_SLOT
    let good := src.kind != 1 || partHashOk s k s.boot.manifest 4
    let s := if good then s else jEvent s 0x97 4 (16 * (n / 160) + n / 16 % 10)
    let r : Resp × List Byte × State := if src.kind = 1 then (if good then .okay else .poisoned, flashBytes s k src.addr src.len, s)
      else dmcRead s src.part src.addr src.len
    let s := r.2.2
    match (if r.1 = .okay then parseImg r.2.1 else none) with
    | some m => if m.level ≤ featureLevel s then (true, installImg s n m) else (false, s)
    | none => (false, s)

/-! ### Engine islands -/

/-- Power an engine island off (15 R455): runs end as at a deadline; memories, inboxes and entries are lost; a raw access not yet made
times out (05 R170). -/
def eisPowerOff (s : State) (e st : Nat) : State :=
  let s := (List.range 16).foldl (fun s k =>
    let n := 16 * e + k
    engSet (haltRun s n 1) n {}) s
  let raw := (List.range 16).filter (fun k => fbit s (engBase (16 * e + k)) Reg.Eng.RAW_BUSY)
  let s := csrClear s (eisBase e) (eisBase e + 0x10000)
  let s := raw.foldl (fun s k => fflag s (engBase (16 * e + k)) Reg.Eng.RAW_TIMEOUT true) s
  nicReset (eisUpd s e (fun x => { x with pst := st, hold := true, phase := 0, relRun := 0 })) (eisNode e)

/-- The engine island may be in service under the plan (13 R392, R393). -/
def eisMayRun (s : State) (e : Nat) : Bool :=
  (eisHolder s e == 0x1F || partRunning s (eisHolder s e)) && !fenced s (dieOfEis e)

/-- Wake an engine island (15 R455): the generator locks, the class values return, every engine reloads; the hold ends once an
engine holds an image (05 R132). Answers the first engine whose source is not readable. -/
def eisWake (s : State) (e : Nat) : Option Nat × State :=
  let b := eisBase e
  let s := eisUpd s e (fun x => { x with pst := 0 })
  let s := fset s b Reg.Eisl.ECLK_N (eisGet s e).eclk
  let s := (eisGet s e).periods.foldl (fun s p =>
    fset (fset (fset s b (Reg.Eisl.PERIOD p.1) p.2.1) b (Reg.Eisl.PHASE p.1) p.2.2.1) b (Reg.Eisl.BUDGET p.1) p.2.2.2) s
  let r := (List.range 16).foldl (fun (p : Option Nat × State) k =>
    let q := reloadImg p.2 (16 * e + k)
    (if q.1 || p.1.isSome then p.1 else some k, q.2)) (none, s)
  let s := (List.range 16).foldl (fun s k =>
    let b := tget 0 (eisGet s e).binds k
    setBind s (16 * e + k) (b % 8) (decide (8 ≤ b))) r.2
  let loaded := (List.range 16).any (fun k => engState s (16 * e + k) != 0)
  (r.1, if loaded && eisMayRun s e then eisUpd s e (fun x => { x with hold := false }) else s)

end Sys2Proof.Machine
end

