-- ==== Sys2Proof/Machine/Power.lean ====
section
/-! DEFINITION. Device states (15 R439 to R451, R471; 17 R513, R514, R519): hub reset, STANDBY, DORMANT and the wake sources. -/

namespace Sys2Proof.Machine

/-! ### Hub reset -/

/-- The fields of the always-on domain, with the base of their windows (15 R472, 16 R508). -/
def aoFields : List (Nat × Fld) :=
  [(0, Reg.Hub.JS_CODE), (0, Reg.Hub.JS_ARG), (0, Reg.Hub.JS_DONE), (0, Reg.Hub.JS_ALT), (0, Reg.Hub.START_CNT), (0, Reg.Hub.WD_RESTART_CNT)] ++
  [(pwrBase, Reg.Pwr.LAST_WAKE), (pwrBase, Reg.Pwr.THERM_TRIP), (pwrBase, Reg.Pwr.PG_FAIL), (pwrBase, Reg.Pwr.WAKE_EN),
   (pwrBase, Reg.Pwr.I2C_WAKE_ADDR), (pwrBase, Reg.Pwr.AO_TIMER), (pwrBase, Reg.Pwr.DORMANT_CNT)]
def keepAo (s t : State) : State := aoFields.foldl (fun t p => fset t p.1 p.2 (fget s p.1 p.2)) t

/-- What outlives the loss of every supply: flash and fuses, levels of pins and sensors, messages already sent, and the queue. -/
def unpowered (s : State) : State :=
  let p : PowerSt := { sysRst := s.pwr.sysRst, junction := s.pwr.junction, plantBatt := s.pwr.plantBatt, marginLow := s.pwr.marginLow }
  let pins := (s.pcie.filter (fun x => !x.2.perst)).map (fun x => (x.1, ({ perst := false } : PcieSt)))
  { pending := s.pending, free := s.free, pwr := p, fuses := s.fuses, flash := s.flash, pcie := pins, msi := s.msi }

/-- Hub reset is asserted (17 R513): only the always-on domain and what outlives every supply keep their values. -/
def underReset (s : State) : State :=
  let t := unpowered s
  let p := { t.pwr with ao := s.pwr.ao, mainEn := s.pwr.mainEn, dormant := s.pwr.dormant, tripEvent := s.pwr.tripEvent, railEvent := s.pwr.railEvent }
  keepAo s { t with pwr := p }

/-- `MAIN_PWR_EN` is driven low and the device is DORMANT (R447, R471). -/
def goDormant (s : State) : State :=
  let s := underReset s
  pwrUpd s (fun p => { p with mainEn := false, dormant := true })

/-! ### Device states -/

/-- Device states of `DEV_STATE` (R472). -/
def devState (s : State) : Nat := fget s pwrBase Reg.Pwr.DEV_STATE
def setDevState (s : State) (v : Nat) : State := fset s pwrBase Reg.Pwr.DEV_STATE v

/-- The always-on sensor, which is the hub's, reads above 100 °C (R471, 17 R513). -/
def aoHot (s : State) : Bool := decide (800 < (BitVec.ofNat 16 (hottest s (dieSensors 8))).toInt)

/-- Wake source n is enabled (R449). -/
def wakeEnabled (s : State) (n : Nat) : Bool := (fget s pwrBase Reg.Pwr.WAKE_EN).testBit n
/-- Sources that count for STANDBY, or for DORMANT. -/
def wakeSources (dormant : Bool) : List Nat := if dormant then [0, 1, 2] else [0, 1, 2, 3]
/-- The device sleeps, or has not left its sleep: its fabric dies and DRAM are out of reach (R446). -/
def asleep (s : State) : Bool := decide (2 ≤ devState s)
/-- The timer counts in STANDBY and DORMANT (R451). -/
def aoCounts (s : State) : Bool := s.pwr.ao && (s.pwr.dormant || devState s == 2)
/-- Source n is about to be sampled: its row waits in the queue (R442; notes/assumptions/49.md). -/
def wakeWaits (s : State) (n : Nat) : Bool :=
  s.pending.any (fun i => match i with
    | .wakeN => n == 0
    | .i2cWakeMatch a => n == 1 && a.toNat == fget s pwrBase Reg.Pwr.I2C_WAKE_ADDR
    | .aoTimer => n == 2 && aoCounts s && fget s pwrBase Reg.Pwr.AO_TIMER != 0
    | _ => false)
/-- A source counts for the state and is sampled in this microsecond of the always-on clock (R442, R444); `bell`: a doorbell waits. -/
def wakeMeets (s : State) (dormant bell : Bool) : Bool :=
  !aoHot s && (wakeSources dormant).any (fun n => wakeEnabled s n &&
    (tget 0 s.pwr.fired n == upUs s + 1 || wakeWaits s n || (n == 3 && bell)))
/-- The entry to DORMANT ends: the journal's last-step register shows no step unfinished, and `MAIN_PWR_EN` goes low; a wake sampled
since the commit point is served at once (R447). -/
def dormantEntry (s : State) : State :=
  let t := goDormant (finc (fflag s 0 Reg.Hub.JS_DONE true) pwrBase Reg.Pwr.DORMANT_CNT)
  match s.pwr.wake with
  | some src => fset (pwrUpd t (fun p => { p with mainEn := true })) pwrBase Reg.Pwr.LAST_WAKE (2 ^ src)
  | none => t
/-- The commit point of an entry to DORMANT: from RUN, the bights close and islands in RUN begin DRAIN (R447). -/
def dormantCommit (s : State) : State :=
  let s' := if devState s = 2 then s
    else (allIsl.filter (fun n => islState s n == 0)).foldl (fun s n => drainStart s n 1 true) (closeBights s)
  pwrUpd (setDevState s' 4) (fun p => { p with wake := none })
/-- The entry to DORMANT runs (R443, R447). -/
def dormantCycle (s : State) : State := if devState s = 4 then dormantEntry s else s

/-- How a request for a device sleep ends (R440, R444). -/
inductive SleepAns where
  | same | noSource | abandoned | committed
  deriving DecidableEq, Repr

/-- The commit point of an entry from RUN (R443): the bights close, islands in RUN begin DRAIN. -/
def sleepCommit (s : State) : State :=
  let isl := allIsl.filter (fun n => islState s n == 0)
  let rv := (List.range 9).map (fun r => (railGet s r).waiting.getD ((railGet s r).out.getD (vSet s r)))
  let s := setDevState (closeBights s) 1
  let s := pwrUpd s (fun p =>
    { p with wake := none, runIsl := isl, runV := rv
             runEis := allEis.filter (fun e => (eisGet s e).pst == 0)
             runQuads := (List.range 32).filter (fun q => (quadGet s q).pst == 0) })
  isl.foldl (fun s n => drainStart s n 1 true) s

/-- A request for STANDBY or DORMANT past the checks of its sender (R440 to R444, R447); `bell`: a doorbell meets it. -/
def sleepRequest (s : State) (dormant bell : Bool) : SleepAns × State :=
  if (devState s = 1 ∨ devState s = 2) ∧ dormant = false then (.same, s)
  else if !(wakeSources dormant).any (wakeEnabled s) then (.noSource, s)
  else if wakeMeets s dormant bell then (.abandoned, finc s pwrBase Reg.Pwr.SLEEP_ABORT_CNT)
  else if dormant then (.committed, dormantCommit s)
  else (.committed, sleepCommit s)

/-! ### STANDBY -/

/-- An island that the entry finds on goes OFF; one on its way to OFF_LOCKED gets there (R443 step 3). -/
def islSleep (s : State) (n : Nat) : State :=
  let st := islState s n
  if (nocGet s n).kind = 3 then s
  else if st = 0 ∨ st = 1 ∨ st = 2 ∨ st = 5 then
    let k := (nocGet s n).kind
    let s := if st = 2 then s else islIsolate (answerPending s n) n
    islPowerOff (islUpd s n (fun i => { i with pendRel := false })) n (if k = 2 then 4 else 3)
  else s

/-- Steps 2 to 5 of the exit: channels and domains serve again, and the device is in RUN. -/
def exitWork (s : State) : State :=
  let p := s.pwr
  let s := pwrUpd (setDevState s 0) (fun p => { p with runIsl := [], runEis := [], runQuads := [] })
  let s := (List.range 8).foldl mcUnstandby s
  let s := p.runIsl.foldl (fun s n =>
    if (islGet s n).image && islMayRun s n then wakeStart s n
    else if islState s n = 3 then setIslState s n 0 else s) s
  let s := (p.runEis.filter (fun e => !fenced s (dieOfEis e))).foldl (fun s e => (eisWake s e).2) s
  (p.runQuads.filter (fun q => !fenced s (q / 4))).foldl quadWake s
/-- Step 1 is over once every rail request is acknowledged, or its rail frozen. -/
def exitGo (s : State) : State :=
  if devState s = 3 ∧ (List.range 9).all (fun r => (railGet s r).out.isNone) = true then exitWork s else s
/-- The exit of R445 begins: the rails return to their values. The bights follow by BIGHT_RELEASE. No source is recorded where
the exit was requested. -/
def standbyExit (s : State) (src : Option Nat) : State :=
  let rv := s.pwr.runV
  let s := setDevState s 3
  let s := match src with
    | some k => fset s pwrBase Reg.Pwr.LAST_WAKE (2 ^ k)
    | none => s
  let s := pwrUpd s (fun p => { p with wake := none, runV := [] })
  exitGo ((rv.zipIdx).foldl (fun s x => if x.1 = vSet s x.2 ∧ (railGet s x.2).out.isNone then s else railTarget s x.2 x.1) s)

/-- STANDBY_ENTRY_DONE (R443 steps 3 to 6): the state is STANDBY; a wake sampled since the commit point starts the exit (R444). -/
def opStandbyEntryDone (s : State) : State :=
  if devState s ≠ 1 then s
  else
    let late := allIsl.filter (fun n => (islState s n == 0 || islState s n == 5) && (nocGet s n).kind != 3)
    let s := pwrUpd s (fun p => { p with runIsl := p.runIsl ++ late })
    let s := allIsl.foldl islSleep s
    let s := (allEis.filter (fun e => (eisGet s e).pst == 0)).foldl (fun s e => eisPowerOff s e 3) s
    let s := ((List.range 32).filter (fun q => (quadGet s q).pst == 0)).foldl (fun s q => quadOff s q 3) s
    let s := (List.range 8).foldl mcStandby s
    let s := setDevState (sleepRails s) 2
    match s.pwr.wake with
    | some src => standbyExit s (some src)
    | none => s

/-! ### Wake -/

/-- An enabled wake source fires (R442, R444, R445, R448): in RUN it is only sampled, past a commit point it waits, in STANDBY and
DORMANT it wakes. Sources are ignored above 100 °C (R471). -/
def wakeFire (s : State) (src : Nat) : State :=
  if !s.pwr.ao || s.pwr.sysRst || !wakeEnabled s src || aoHot s then s
  else if s.pwr.dormant then
    if s.pwr.mainEn || src = 3 then s
    else fset (pwrUpd s (fun p => { p with mainEn := true })) pwrBase Reg.Pwr.LAST_WAKE (2 ^ src)
  else if s.pwr.hubReset then s
  else
    let s := pwrUpd s (fun p => { p with fired := tset 0 p.fired src (upUs s + 1) })
    match devState s with
    | 1 => pwrUpd s (fun p => { p with wake := some (p.wake.getD src) })
    | 2 => standbyExit s (some src)
    | 4 => if src = 3 then s else pwrUpd s (fun p => { p with wake := some (p.wake.getD src) })
    | _ => s

/-- I2C_WAKE_MATCH (R450): the comparator sees `I2C_WAKE_ADDR`. -/
def opI2cWakeMatch (addr : Nat) (s : State) : State :=
  if addr = fget s pwrBase Reg.Pwr.I2C_WAKE_ADDR then wakeFire s 1 else s

/-- AO_TIMER (R451): the timer reaches 0 and fires. -/
def opAoTimer (s : State) : State :=
  if aoCounts s ∧ fget s pwrBase Reg.Pwr.AO_TIMER ≠ 0 then wakeFire (fset s pwrBase Reg.Pwr.AO_TIMER 0) 2 else s

/-- SUPPLY_TIMEOUT (R448): supplies not valid within 100 ms. -/
def opSupplyTimeout (s : State) : State :=
  if s.pwr.ao && s.pwr.mainEn && s.pwr.hubReset then
    fflag (pwrUpd s (fun p => { p with mainEn := false, dormant := true, railEvent := true })) pwrBase Reg.Pwr.PG_FAIL true
  else s

/-- What the DMC can see of R441's idle device: no host session on a running partition, no command, no fabric lane UP. -/
def deviceIdle (s : State) : Bool :=
  s.sessions.all (fun x => x.part == 0 || (partGet s x.part).state != 2) &&
  (List.range 32).all (fun n => !mbBusy s n) && (List.range 128).all (fun n => linkState s n != 5)

/-- THERMAL_TRIP (R471). -/
def opThermalTrip (sensor : Nat) (s : State) : State :=
  if s.pwr.ao && s.pwr.mainEn then
    let s := goDormant s
    fflag (pwrUpd s (fun p => { p with tripEvent := some sensor })) pwrBase Reg.Pwr.THERM_TRIP true
  else s

/-! ### Reset and supplies (17) -/

/-- SYS_RST_N (R513): low resets the device from any state; the release drives `MAIN_PWR_EN` high, and waits above 100 °C. -/
def opSysRstN (level : Bool) (s : State) : State :=
  if level then
    if !s.pwr.sysRst || aoHot s then s
    else pwrUpd s (fun p => { p with sysRst := false, mainEn := p.ao, dormant := false })
  else
    let s := underReset s
    pwrUpd s (fun p => { p with sysRst := true })

/-- RAIL_FAULT (R519): hub reset; event 0x8D at the next start. -/
def opRailFault (s : State) : State :=
  if s.pwr.hubReset then s
  else
    let s := underReset s
    pwrUpd s (fun p => { p with railEvent := true })

/-- AO_POWER_GOOD (R514). -/
def opAoPowerGood (s : State) : State :=
  if s.pwr.ao then s else pwrUpd s (fun p => { p with ao := true, mainEn := !p.sysRst })

/-- VCC_AO_LOSS (R514, R518; 12 R367, R372): the device is unpowered and every bypass is closed. -/
def opVccAoLoss (s : State) : State := unpowered s

/-- Rail requests end, and with the last of them step 1 of a STANDBY exit (R445, R462). -/
def execAvsAck (r : Fin 9) (s : State) : Out := .next (exitGo (opAvsAck r.val s))
def execAvsTimeout (r : Fin 9) (s : State) : Out := .next (exitGo (opAvsTimeout r.val s))
def execRailDeviation (r : Fin 9) (s : State) : Out := .next (exitGo (opRailDeviation r.val s))
def execStandbyEntryDone (s : State) : Out := .next (opStandbyEntryDone s)
def execSupplyTimeout (s : State) : Out := .next (opSupplyTimeout s)
def execWakeN (s : State) : Out := .next (wakeFire s 0)
def execI2cWakeMatch (addr : BitVec 7) (s : State) : Out := .next (opI2cWakeMatch addr.toNat s)
def execAoTimer (s : State) : Out := .next (opAoTimer s)
def execThermalTrip (sensor : Fin 52) (s : State) : Out := .next (opThermalTrip sensor.val s)
def execSysRstN (level : Bool) (s : State) : Out := .next (opSysRstN level s)
def execRailFault (_r : Nat) (s : State) : Out := .next (opRailFault s)
def execAoPowerGood (s : State) : Out := .next (opAoPowerGood s)
def execVccAoLoss (s : State) : Out := .next (opVccAoLoss s)

end Sys2Proof.Machine
end

