-- ==== Sys2Proof/Machine/Boot.lean ====
section
/-! DEFINITION. The start of the device (16 R474 to R493, R504 to R506): phases A to F, manifests, the plan check, the plan lock
by the DMC. Times are those of the model's clock. -/

namespace Sys2Proof.Machine

/-! ### Halt and steps -/

/-- The start halts (R482). -/
def haltStart (s : State) : State :=
  closeBights (fset { s with boot := { s.boot with halted := true } } 0 Reg.Hub.BOOT_PHASE 7)
def bootPhase (s : State) : Nat := fget s 0 Reg.Hub.BOOT_PHASE
/-- Phase p is in progress. -/
def inPhase (s : State) (p : Nat) : Bool := !s.pwr.hubReset && bootPhase s == p

/-- A step with an alternative (R497, R498): in the normal mode a failure leads to the alternative in the same start (R482). -/
def stepTry (s : State) (code arg : Nat) (normal alt : State → Bool × State) : Bool × State :=
  if stepAlt s code arg then
    let r := alt (stepBegin s code arg true)
    (r.1, stepEnd r.2 code arg true r.1 0)
  else
    let r := normal (stepBegin s code arg false)
    let s := stepEnd r.2 code arg false r.1 0
    if r.1 then (true, s)
    else
      let q := alt (stepBegin s code arg true)
      (q.1, journal (fflag q.2 0 Reg.Hub.JS_DONE true) code (if q.1 then 2 else 3) arg 0)

/-! ### Phase A (R475, R476; 17 R515, R516) -/

/-- The step that the last start left unfinished counts as failed (R482, R496, R498). -/
def lastStep (s : State) : State :=
  let code := fget s 0 Reg.Hub.JS_CODE
  let arg := fget s 0 Reg.Hub.JS_ARG
  if code = 0 ∨ fbit s 0 Reg.Hub.JS_DONE then s
  else
    let s := if code = 0x31 then s else stepTable s code arg (fbit s 0 Reg.Hub.JS_ALT) false
    journal s code 6 arg 0

/-- What the hub fuses and straps give from the end of phase A (01 R42; 14 R415). -/
def loadFuses (s : State) : State :=
  let f := s.fuses
  let s := fset s 0 Reg.Hub.IDCODE (f.stepping * 2 ^ 28 + 0x96804D7)
  let s := fset (fset s 0 Reg.Hub.SPEED f.speed) 0 Reg.Hub.TEMP f.temp
  let s := fset s 0 Reg.Hub.RB_FUSE f.rollback
  let s := fset s pwrBase Reg.Pwr.TJ_ALARM (if f.temp = 2 then 105 else 100)
  let s := (List.range 9).foldl (fun s r => fset s pwrBase (Reg.Pwr.AGE_OFS r) (tget 0 s.flash.aging r)) s
  fset (fset s cfgBase Reg.Cfg.SRC_STRAP f.srcStrap) cfgBase Reg.Cfg.IOHOLD f.iohold

/-- Phase A from the release of hub reset. -/
def phaseA (s : State) : State :=
  let s := pwrUpd { s with up := 0, tim := {} } (fun p => { p with hubReset := false, dormant := false })
  let s := lastStep (finc s 0 Reg.Hub.START_CNT)
  let s := stepRun s 0x01 0 false true 0
  let s := stepRun s 0x02 0 false s.fuses.majority 0
  if !s.fuses.majority then haltStart s
  else
    let s := stepRun s 0x03 0 false s.fuses.sysclk 0
    if !s.fuses.sysclk then haltStart s
    else phaseEnd { loadFuses s with tap := { on := true } } 0

/-- SUPPLIES_VALID (R475): every rail lies in its window. -/
def opSuppliesValid (s : State) : State :=
  if s.pwr.ao && s.pwr.mainEn && s.pwr.hubReset && !s.pwr.sysRst then phaseA s else s

/-- START_WATCHDOG (R482): the phase in progress passed its limit; there is none in phase E from HSPI or JTAG. -/
def opStartWatchdog (s : State) : State :=
  if s.pwr.hubReset || s.boot.halted || decide (5 < bootPhase s) || (bootPhase s == 4 && decide (2 ≤ s.fuses.srcStrap)) then s
  else phaseA (finc (underReset s) 0 Reg.Hub.WD_RESTART_CNT)

/-! ### Phase B (09 R259, R260, R269, R271, R273) -/

/-- An absent die (R259 step 1): its hawsers are RETIRED, each with its event (R267); the compression of FL2 shows on them too (R273). -/
def dieAbsent (fl2 : Bool) (s : State) (d : Nat) : State :=
  let s := fsetBit (fflag s (dieBase d) Reg.Die.FENCED true) 0 Reg.Hub.DIES_FENCED d true
  (List.range 16).foldl (fun s n =>
    jEvent (fflag (fset s (hwBase d n) Reg.Hw.STATE 3) (hwBase d n) Reg.Hw.COMP fl2) 0x82 (16 * d + n) 0) s

/-- A present die: identity, the 16 hawsers tested, rows mapped. A hawser that is not FULL is
journalled (R267), and one that is RETIRED raises alarm HW (R268, R270). -/
def diePresent (ds : List DieFound) (ts : List HawserTest) (alt fl2 : Bool) (s : State) (d : Nat) : State :=
  let x := ds.getD d ⟨false, 0, 0⟩
  let b := dieBase d
  let s := fset (fset (fset s b Reg.Die.POSITION d) b Reg.Die.STEPPING x.stepping.toNat) b Reg.Die.DIE_FL x.fl.toNat
  let s := (List.range 16).foldl (fun s n =>
    let h := 16 * d + n
    let s := testHawser s h (ts.getD h ⟨[], [], 0, 0⟩) alt fl2
    match hwState s h with
    | 2 => jEvent s 0x81 h 0
    | 3 => jEvent (alarmHw s 1 [d, n]) 0x82 h 0
    | _ => s) s
  mapRows (mapRows s (16 * d)) (16 * d + 8)

def deadDirection (s : State) (d : Nat) : Bool :=
  [0, 8].any (fun o => (List.range 8).all (fun z => hwState s (16 * d + o + z) == 3))

/-- PHASE_B. -/
def opPhaseB (ds : List DieFound) (ts : List HawserTest) (s : State) : State :=
  if !inPhase s 1 then s
  else
    let here := (List.range 8).filter (fun d => (ds.getD d ⟨false, 0, 0⟩).present)
    let s := stepBegin s 0x10 0 false
    let s := fset s 0 Reg.Hub.DIES_PRESENT ((here.map (2 ^ ·)).sum)
    let fl := (here.map (fun d => (ds.getD d ⟨false, 0, 0⟩).fl.toNat)).foldl min 2
    let s := ((List.range 8).filter (fun d => !here.contains d)).foldl (dieAbsent (fl == 2 && !here.isEmpty)) s
    let s := stepEnd s 0x10 0 false (!here.isEmpty) 0
    if here.isEmpty then haltStart s
    else
      let alt := stepAlt s 0x11 0
      let s := stepBegin s 0x11 0 alt
      let s := here.foldl (diePresent ds ts alt (fl == 2)) s
      let s := { s with flash := { s.flash with wires := [] :: s.flash.wires.take 3 } }
      let s := (here.filter (deadDirection s)).foldl fenceDie s
      let s := stepEnd s 0x11 0 alt true 0
      phaseEnd (stepRun (fset s 0 Reg.Hub.FL fl) 0x12 0 false true 0) 1

/-! ### Manifests (R484 to R490) -/

def mfBytes : Nat := 3232
def slotManifest (s : State) (k : Nat) : List Byte := flashBytes s k 0 mfBytes
/-- The part table (R486). -/
def partTableOk (m : List Byte) : Bool :=
  let o (i : Nat) : Nat := mPartOff m i
  let n (i : Nat) : Nat := mPartLen m i
  (List.range 7).all (fun i =>
    leAt m (0x20 + 64 * i) 4 == i && o i % 4096 == 0 && decide (0x1000 ≤ o i) && decide (o i + n i ≤ 2 ^ 30) && (decide (4 ≤ i) || n i != 0)) &&
  (List.range 7).all (fun i => (List.range 7).all (fun j =>
    i == j || n i == 0 || n j == 0 || decide (o i + n i ≤ o j) || decide (o j + n j ≤ o i))) &&
  leAt m (0x20 + 64 * 7) 64 == 0

/-- The header (R485) and the part table: the format of a manifest. `PRODUCT` belongs to the binding. -/
def mfFormat (m : List Byte) : Bool :=
  leAt m 0 4 == 0x464D5A53 && leAt m 4 2 == 1 && decide (leAt m 6 2 < 4) && decide (1 ≤ leAt m 0xC 4) &&
  ((leAt m 6 2).testBit 1 || leAt m 0x10 8 == 0) && decide (leAt m 0x18 4 ≤ 64) && leAt m 0x1C 4 == 0 && partTableOk m

/-- The records hold only what R487 permits (R490). -/
def mfRecords (m : List Byte) : Bool :=
  let pcie (c : Nat) : Bool :=
    let o := 0x240 + 16 * c
    let k := leAt m (o + 8) 1
    decide (leAt m o 1 ≤ 2) && leAt m (o + 1) 1 == 0 && decide (k ≤ 9) && leAt m (o + 9) 1 == 0 && leAt m (o + 10) 2 % 2 ^ k == 0 && leAt m (o + 12) 4 == 0
  let mem (n : Nat) : Bool :=
    let o := 0x2B0 + 16 * n
    decide (leAt m o 1 ≤ 1) && decide (leAt m (o + 1) 1 < 64) && decide (leAt m (o + 2) 1 ≤ 3) && leAt m (o + 3) 1 == 0 && leAt m (o + 8) 8 == 0
  decide (leAt m 0x220 1 < 128) && decide (leAt m 0x221 1 < 16) && leAt m 0x226 26 == 0 && pcie 0 && pcie 1 &&
  (List.range 9).all (fun r => leAt m (0x260 + 4 * r) 1 == (if r < 5 then 0 else 1)) && leAt m (0x260 + 36) 28 == 0 &&
  leAt m 0x2AA 6 == 0 && (List.range 8).all mem

/-- A manifest's check, as a result of R506: 0 none failed. `newer`: a generation above the active one is required (R504). -/
def mfCheck (s : State) (m : List Byte) (c : SlotCheck) (newer : Bool) : Nat :=
  if !mfFormat m then 3
  else if (!s.fuses.keyBlank && !c.keyOk) || !c.sigOk then 6
  else if leAt m 8 4 ≠ 0x9680 ∨ ((leAt m 6 2).testBit 1 ∧ leAt m 0x10 8 ≠ s.fuses.dieId) then 4
  else if !mfRecords m then 3
  else if newer ∧ leAt m 0xC 4 ≤ s.flash.generation then 5
  else if leAt m 0x18 4 < s.fuses.rollback then 5
  else 0

/-- Run the manifest of a slot: the links take the PCIe record (R478). -/
def useSlot (s : State) (k : Nat) (m : List Byte) : State :=
  let s := fflag { s with boot := { s.boot with manifest := m } } 0 Reg.Hub.RUN_SLOT (k == 1)
  let s := fset s 0 Reg.Hub.GENERATION (leAt m 0xC 4)
  [0, 1].foldl (fun s c => (List.range 4).foldl (fun s l => fset s (pcieBase c l) Reg.Pcie.BIFUR (leAt m (0x240 + 16 * c) 1)) s) s

/-- Step 0x21 in one mode (R490, R497). -/
def tryManifest (c0 c1 : SlotCheck) (k : Nat) (s : State) : Bool × State :=
  let m := slotManifest s k
  if mfCheck s m (if k = 0 then c0 else c1) false = 0 then (true, useSlot s k m) else (false, s)

def runSlot (s : State) : Nat := fget s 0 Reg.Hub.RUN_SLOT
/-- A part of the run slot, or of equal SHA-384 from the other slot (R497). -/
def ownPart (i : Nat) (s : State) : Bool × State := (partHashOk s (runSlot s) s.boot.manifest i, s)
def otherPart (i : Nat) (s : State) : Bool × State :=
  let k := 1 - runSlot s
  let m := slotManifest s k
  (mfFormat m && mPartSha m i == mPartSha s.boot.manifest i && partHashOk s k m i, s)

/-! ### Staged verification (R504 to R506) -/

/-- The engine images of part 4 (R488): die, engine island, mask, class and `BIND`, address and length of the image; `none` where
the part is malformed. `k` bounds the entries. -/
def engEntries (s : State) (slot base len : Nat) : Nat → Nat → Option (List (Nat × Nat × Nat × Nat × Nat × Nat))
  | 0, _ => none
  | k + 1, o =>
    if len ≤ o then none
    else
      let h := flashBytes s slot (base + o) 12
      if leAt h 0 1 = 0xFF then some []
      else
        let n := leAt h 8 4
        if leAt h 0 1 ≤ 7 ∧ leAt h 1 1 ≤ 9 ∧ leAt h 4 1 < 16 ∧ leAt h 5 3 = 0 ∧ o + 12 + n ≤ len then
          (engEntries s slot base len k (o + 12 + (n + 15) / 16 * 16)).map
            (fun t => (leAt h 0 1, leAt h 1 1, leAt h 2 2, leAt h 4 1, base + o + 12, n) :: t)
        else none
def entriesOf (s : State) (slot : Nat) (m : List Byte) : Option (List (Nat × Nat × Nat × Nat × Nat × Nat)) :=
  if mPartLen m 4 = 0 then some [] else engEntries s slot (mPartOff m 4) (mPartLen m 4) (mPartLen m 4 / 12 + 1) 0

/-- Result of part 4. -/
def verifyEngines (s : State) (k : Nat) (m : List Byte) : Nat :=
  match entriesOf s k m with
  | none => 3
  | some es => es.foldl (fun r e =>
      if r != 1 then r
      else match parseImg (flashBytes s k e.2.2.2.2.1 e.2.2.2.2.2) with
        | none => 3
        | some g => if featureLevel s < g.level then 7 else 1) 1

/-- Result of a bitstream (checks 1 to 7 of 14 R413). -/
def verifyImage (s : State) (k : Nat) (m : List Byte) (i : Nat) (c : ImageCheck) : Nat :=
  let b := flashBytes s k (mPartOff m i) hdrBytes
  match headerFail s (newLoad s false false false 0 0 0) b c with
  | some f => if f.code = 2 ∨ f.code = 3 then 4 else if f.code = 4 ∨ f.code = 5 then 7 else if f.code = 6 then 6 else 3
  | none => if (List.range (leAt b 0xA 2)).all (fun j => c.hashOk.getLsbD j) then 1 else 2

def verifyPart (s : State) (k : Nat) (m : List Byte) (c : SlotCheck) (i : Nat) : Nat :=
  if mPartLen m i = 0 then 1
  else if !partHashOk s k m i then 2
  else if i = 4 then verifyEngines s k m
  else if i = 5 then verifyImage s k m 5 c.op
  else if i = 6 then verifyImage s k m 6 c.golden
  else 1


/-- Raise the rollback count to that of the manifest in force (R505). -/
def burnRollback (s : State) : State :=
  let r := mfGet s 0x18 4
  if s.fuses.rollback < r then fset { s with fuses := { s.fuses with rollback := r } } 0 Reg.Hub.RB_FUSE r else s

/-- Steps whose part changed between two manifests, and 0x20 and 0x21 (R504). -/
def changedSteps (a b : List Byte) : List Nat :=
  [0x20, 0x21] ++ (([(0x23, 0), (0x22, 1), (0x33, 2), (0x32, 3), (0x42, 4), (0x40, 5), (0x41, 6)] : List (Nat × Nat)).filter
    (fun p => mPartSha a p.2 != mPartSha b p.2 || mPartLen a p.2 != mPartLen b p.2)).map (fun p => p.1)

/-- Activate slot k (R504): selector, fuses, step table, event. -/
def activate (s : State) (k : Nat) (m : List Byte) : State :=
  let old := s.boot.manifest
  let s := { s with flash := { s.flash with staging := false } }
  let s := selWrite s (fun x => markSel { x with active := k, generation := leAt m 0xC 4 } k false)
  let s := burnRollback (useSlot s k m)
  let ch := changedSteps old m
  let s := { s with flash := { s.flash with steps := s.flash.steps.filter (fun p => !ch.contains (p.1 / 65536)) } }
  jEvent (fflag s 0 Reg.Hub.ACTIVE_SLOT (k == 1)) 0x90 k (leAt m 0xC 2)

def setVerify (s : State) (v : List Nat) : State := { s with flash := { s.flash with verify := v } }
def postponed : List Nat := List.replicate 8 8

/-- Activation is postponed (R502, R504). -/
def updateHeld (s : State) : Bool := s.flash.ownerLock || s.pwr.plantBatt || s.pwr.marginLow

/-- Step 0x20 in the normal mode: a rejection is an outcome of the step, not its failure. -/
def verifyStaged (c : SlotCheck) (k : Nat) (s : State) : Bool × State :=
  let m := slotManifest s k
  if updateHeld s then (true, jEvent (setVerify s postponed) 0x98 k (leAt m 0xC 2))
  else
    let r := mfCheck s m c true
    let rs := if r = 0 then (List.range 7).map (verifyPart s k m c) ++ [1] else List.replicate 7 0 ++ [r]
    let s := setVerify s rs
    if rs.all (· == 1) then (true, activate s k m)
    else (true, jEvent (setMarker { s with flash := { s.flash with staging := false } } k false) 0x91 k (leAt m 0xC 2))
def skipStaged (s : State) : Bool × State := (true, setVerify s postponed)

/-! ### The plan check (13 R389, R390) -/

def planRec (m : List Byte) (p : Nat) : PartRec :=
  let o := 0x360 + 128 * p
  let f := leAt m o 1
  let rng (j : Nat) : GRange :=
    let a := o + 0x58 + 8 * j
    { first := leAt m a 4 % 2 ^ 22, count := leAt m (a + 4) 3 % 2 ^ 23, prelock := (leAt m a 8).testBit 63 }
  { valid := f.testBit 0, autoSr := f.testBit 1, steward := f.testBit 2, maxSess := leAt m (o + 1) 1, fns := leAt m (o + 2) 2
    mailboxes := leAt m (o + 4) 4, ports := leAt m (o + 8) 1, islands := (List.range 8).map (fun d => leAt m (o + 0x10 + 6 * d) 6)
    eisl := (List.range 8).map (fun d => leAt m (o + 0x40 + 2 * d) 2), quads := leAt m (o + 0x50) 4, granges := (List.range 4).map rng }

/-- Reserved bits and bits for objects that do not exist are 0. -/
def recClean (m : List Byte) (p : Nat) : Bool :=
  let o := 0x360 + 128 * p
  decide (leAt m o 1 < 8) && decide (leAt m (o + 8) 1 < 8) && leAt m (o + 9) 7 == 0 &&
  (List.range 8).all (fun d => decide (leAt m (o + 0x40 + 2 * d) 2 < 1024)) && leAt m (o + 0x54) 4 == 0 && leAt m (o + 0x78) 8 == 0 &&
  (List.range 4).all (fun j =>
    let w := leAt m (o + 0x58 + 8 * j) 8
    (w / 2 ^ 22) % 2 ^ 10 == 0 && (w / 2 ^ 55) % 2 ^ 8 == 0)

/-- Two partitions share nothing. -/
def recsApart (a b : PartRec) : Bool :=
  let z (x y : Nat) : Bool := x &&& y == 0
  z a.fns b.fns && z a.mailboxes b.mailboxes && z a.ports b.ports && z a.quads b.quads &&
  (List.range 8).all (fun d => z (a.islands.getD d 0) (b.islands.getD d 0) && z (a.eisl.getD d 0) (b.eisl.getD d 0)) &&
  a.granges.all (fun x => b.granges.all (fun y =>
    x.count == 0 || y.count == 0 || decide (x.first + x.count ≤ y.first) || decide (y.first + y.count ≤ x.first)))

/-- The plan is valid (R390). -/
def planOk (m : List Byte) : Bool :=
  let rs := (List.range 17).map (planRec m)
  let vs := (List.range 17).filter (fun p => (rs.getD p {}).valid)
  let r (p : Nat) : PartRec := rs.getD p {}
  (r 0).valid && (r 0).mailboxes.testBit 0 && vs.all (recClean m) &&
  vs.all (fun p => vs.all (fun q => decide (q ≤ p) || recsApart (r p) (r q))) &&
  decide ((vs.filter (fun p => (r p).steward)).length ≤ 1) &&
  vs.all (fun p => (r p).granges.all (fun x => decide (x.first + x.count ≤ 2 ^ 22)))

/-- The plan in which P0 alone is valid. -/
def p0Plan : List PartRec :=
  [{ valid := true, maxSess := 4, fns := 0xFFFF, mailboxes := 0xFFFFFFFF, ports := 7, islands := List.replicate 8 (2 ^ 48 - 1)
     eisl := List.replicate 8 0x3FF, quads := 0xFFFFFFFF, granges := [{ first := 0, count := 2 ^ 22, prelock := false }] }]

/-- Step 0x24 (R390, R392). -/
def checkPlan (s : State) : State :=
  let m := s.boot.manifest
  let ok := planOk m
  let s := stepBegin s 0x24 0 false
  let plan := if ok then (List.range 17).map (planRec m) else p0Plan
  let s := { s with plan := plan }
  let s := (List.range 17).foldl (fun s p =>
    partUpd s p (fun x => { x with state := if !(planGet s p).valid then 0 else if p = 0 then 2 else 1 })) s
  let s := if ok then s else jEvent (alarmCfg (fflag s 0 Reg.Hub.PLAN_BAD true) 6 0 0 0) 0x88 0 0
  stepEnd s 0x24 0 false ok 0

/-! ### Phase C (R478) -/

/-- Step 0x25 of a PCIe controller. -/
def pcieStart (ok : BitVec 2) (s : State) (c : Nat) : State :=
  let good := ok.getLsbD c
  let s := stepRun s 0x25 c false good 0
  let s := pcieUpd s c (fun x => { x with up := good, failed := !good })
  if good then s else alarmHw s 5 [c]

/-- What the device record of the manifest sets, the events of the last run, and the rails (R461, R471, R472; R487, R499). -/
def endC (s : State) : State :=
  let s := match s.pwr.tripEvent with
    | some k => jEvent (alarmPower s 5 k) 0x8C 0 0
    | none => s
  let s := if s.pwr.railEvent then jEvent s 0x8D 0 0 else s
  let s := pwrUpd s (fun p => { p with tripEvent := none, railEvent := false })
  let s := fset (fset s pwrBase Reg.Pwr.I2C_WAKE_ADDR (mfGet s 0x220 1)) pwrBase Reg.Pwr.WAKE_EN (mfGet s 0x221 1)
  let s := fset s pwrBase Reg.Pwr.AUTO_IDLE_S (mfGet s 0x222 2)
  (List.range 9).foldl (fun s r => railTarget s r (startValue s r)) s

/-- Phase C after the manifest in force is settled. -/
def phaseC2 (s : State) : State :=
  let s := burnRollback s
  let r := stepTry s 0x22 0 (ownPart 1) (otherPart 1)
  if !r.1 then haltStart r.2
  else
    let q := stepTry r.2 0x23 0 (ownPart 0) (otherPart 0)
    if !q.1 then haltStart q.2
    else
      let s := journalFlush { q.2 with boot := { q.2.boot with dmc := true } }
      phaseEnd (endC (checkPlan s)) 2

/-- PHASE_C, before the doorbells held are served. -/
def opPhaseC (c0 c1 : SlotCheck) (pcieOk : BitVec 2) (s : State) : State :=
  if !inPhase s 2 then s
  else
    let s := journalMend s
    let act := s.flash.active
    let s := if s.flash.bad then jEvent s 0x96 0 0 else s
    let s := fflag (fflag s 0 Reg.Hub.ACTIVE_SLOT (act == 1)) 0 Reg.Hub.UNSECURED s.fuses.keyBlank
    let r := stepTry s 0x21 act (tryManifest c0 c1 act) (tryManifest c0 c1 (1 - act))
    if !r.1 then haltStart r.2
    else
      let s := [0, 1].foldl (pcieStart pcieOk) r.2
      let k := 1 - act
      let s := if !s.flash.bad && marker s k then (stepTry s 0x20 k (verifyStaged (if k = 0 then c0 else c1) k) skipStaged).2 else s
      phaseC2 s

/-! ### Phase D (R479) -/

/-- The memory key (step 0x30; 11 R307). -/
def drawKey (trng : Bool) (s : State) : State :=
  let s := stepRun s 0x30 0 false trng 0
  if trng then
    let k := Config.freeKey s.free
    fflag { s with free := s.free + 1, sec := { s.sec with key := some k } } secBase Reg.Sec.KEY_READY true
  else jEvent (secAlarm (fflag s secBase Reg.Sec.TRNG_FAIL true) 9 0x1F 0) 0x87 0 0

/-- A die service controller (step 0x33): a die without one is fenced. -/
def dscStart (dsc : BitVec 8) (s : State) (d : Nat) : State :=
  if !present s d || fenced s d then s
  else
    let r := stepTry s 0x33 d (fun s => (dsc.getLsbD d && (ownPart 2 s).1, s)) (otherPart 2)
    if r.1 then r.2 else fenceDie r.2 d

/-- A quad's microcode (step 0x32): its reference is good when the PLL locks; a quad without microcode is OFF_LOCKED. -/
def quadBoot (quads : BitVec 40) (s : State) (q : Nat) : State :=
  if decide (q < 32) && (!present s (q / 4) || fenced s (q / 4)) then s
  else
    let r := stepTry s 0x32 q (fun s => (quads.getLsbD q && (ownPart 3 s).1, s)) (otherPart 3)
    if r.1 then quadStart (fflag r.2 (quadBase q) Reg.Quad.REFCLK_OK true) q
    else alarmLink (quadUpd r.2 q (fun x => { x with pst := 4 })) 7 q 0xFF

/-- What is fitted on a channel (10 R278): an RDIMM as its SPD gives it, a module of another kind (3, which no row of R278 has), else
components as the manifest describes them; and the serial number or revision whose change resets the rate-step record (R299). -/
def channelFit (s : State) (n : Nat) (f : Option Fit) : Option Fit :=
  let o := 0x2B0 + 16 * n
  let c := mfGet s (o + 1) 1
  let described : Option Fit := if mfGet s o 1 = 1 then
      some { kind := BitVec.ofNat 2 c, width := BitVec.ofNat 2 (c / 4), density := c.testBit 4, ranks2 := c.testBit 5
             spdRate := BitVec.ofNat 2 (mfGet s (o + 2) 1), slow := false, ecc := true, serial := mfGet s (o + 4) 4 }
    else none
  match f with
  | some x => some (if x.kind = 1 then x else { x with kind := 3 })
  | none => described

/-- Registers that training leaves at values of the firmware's choosing (R296 to R302). -/
def trainedOffs : List Nat :=
  ((List.range 9).map (0x300 + 4 * ·)) ++ [0x400, 0x404, 0x408, 0x410, 0x440] ++ ((List.range 32).map (0x500 + 4 * ·)) ++
  ((List.range 40).map (0x600 + 4 * ·)) ++ ((List.range 64).map (0x700 + 4 * ·)) ++ ((List.range 1024).map (0x1000 + 4 * ·)) ++
  ((List.range 128).map (0x2000 + 4 * ·))
/-- Each such field takes a free value; a `RX_VREF` is at most 80 (R302). -/
def trainFree (s : State) (n : Nat) : State :=
  trainedOffs.foldl (fun s off => (Reg.Mc.fields off).foldl (fun s f =>
    if f.ty = .wo ∨ f.ty = .w1c then s
    else
      let w := freeWord s
      fset w.2 (mcBase n) f (if f.wd = 7 ∧ 0x1000 ≤ off ∧ off < 0x2000 then w.1.toNat % 81 else w.1.toNat)) s) s

/-- The end of step 0x31 for a channel (16 R499). -/
def trainJournal (n res det : Nat) (s : State) : State := journal (fflag s 0 Reg.Hub.JS_DONE true) 0x31 res n det
/-- Training of a channel (step 0x31; 10 R277 to R279, R295 to R299). -/
def channelBoot (fits : List (Option Fit)) (train : List TrainOutcome) (s : State) (n : Nat) : State :=
  let b := mcBase n
  let s := stepBegin s 0x31 n false
  match channelFit s n (fits.getD n none) with
  | none => trainJournal n 4 256 (fset (fset s b Reg.Mc.STATE 4) b Reg.Mc.DISABLE_CAUSE 1)
  | some f =>
    let s := mcUpd s n (fun m => { m with fit := some f })
    if !fitSupported f then trainJournal n 1 512 (mcDisable s n 2 0 false)
    else
      let s := if (rateGet s n).serial = f.serial then s else rateSet s n { serial := f.serial, rate := 0, exhausted := false }
      if (rateGet s n).exhausted then trainJournal n 1 1280 (mcDisable s n 5 0 true)
      else
        let k := max (rateGet s n).rate (max f.spdRate.toNat (if f.kind = 1 then 1 else 0))
        let s := fset (fset (fset s b Reg.Mc.STATE 1) b Reg.Mc.RATE_IDX k) b Reg.Mc.KIND f.kind.toNat
        let s := fset (fflag (fflag s b Reg.Mc.DENSITY f.density) b Reg.Mc.RANKS2 f.ranks2) b Reg.Mc.WIDTH f.width.toNat
        match train.getD n .pass with
        | .goesOn => s
        | .pass => trainJournal n 0 0 (actRunGo n (trainFree s n))
        | .failStep t => trainJournal n 1 (3 * 256 + t.toNat) (actDisableGo n true t.toNat (trainFree s n))
        | .timeLimit t => trainJournal n 1 (4 * 256 + t.toNat) (opTrainingTimeLimit n t.toNat (trainFree s n))

/-- Phase D ends once no channel trains any more (R479). -/
def phaseDEnd (s : State) : State :=
  if (List.range 8).any (fun n => mcState s n == 1) then s
  else phaseEnd (showAutoSr { s with boot := { s.boot with training := false } }) 3
/-- PHASE_D. -/
def opPhaseD (fits : List (Option Fit)) (train : List TrainOutcome) (quads : BitVec 40) (dsc : BitVec 8) (trng : Bool) (s : State) : State :=
  if !inPhase s 3 || s.boot.training then s
  else
    let s := (List.range 8).foldl (dscStart dsc) (drawKey trng s)
    let s := (List.range 40).foldl (quadBoot quads) s
    let s := (List.range 8).foldl (channelBoot fits train) { s with boot := { s.boot with training := true } }
    phaseDEnd s

/-- The training of a channel that was in TRAIN in `s` may have ended in `t`: its step ends, and phase D with the last one. -/
def trainEnd (n : Nat) (s t : State) : State :=
  if mcState s n ≠ 1 ∨ mcState t n = 1 then t
  else
    let t := if mcState t n = 2 then trainJournal n 0 0 t
      else trainJournal n 1 (256 * mcF t n Reg.Mc.DISABLE_CAUSE + mcF t n Reg.Mc.FAIL_STEP) t
    if t.boot.training then phaseDEnd t else t
/-- TRAINING_TIME_LIMIT (10 R298). -/
def opTrainingLimit (n step : Nat) (s : State) : State := trainEnd n s (opTrainingTimeLimit n step s)

/-! ### Phase E (R480, R488; 14 R421, R422) -/

/-- Load the entries of one engine island; the first failure ends it, and every engine stays in `NO_IMAGE`. -/
def loadEntries (slot : Nat) : List (Nat × Nat × Nat × Nat × Nat × Nat) → State → Bool × State
  | [], s => (true, s)
  | (d, n, mask, cb, addr, len) :: t, s =>
    match parseImg (flashBytes s slot addr len) with
    | none => (false, s)
    | some g =>
      if featureLevel s < g.level then (false, s)
      else
        let e := 10 * d + n
        let s := (engMask e mask).foldl (fun s k =>
          let s := setBind (installImg s k g) k (cb % 8) (decide (8 ≤ cb))
          eisUpd s e (fun x => { x with srcs := tset {} x.srcs (k % 16) { kind := 1, addr := addr, len := len, part := 0 } })) s
        loadEntries slot t s

/-- Step 0x42 of one engine island. -/
def enginesBoot (s : State) (e : Nat) (es : List (Nat × Nat × Nat × Nat × Nat × Nat)) (hashOk : Bool) : State :=
  let arg := 16 * (e / 10) + e % 10
  if !present s (e / 10) || fenced s (e / 10) then journal s 0x42 4 arg 0
  else
    let before := s
    (stepTry s 0x42 arg
      (fun s =>
        let r := if hashOk then loadEntries (runSlot s) es s else (false, s)
        if r.1 then r
        else
          let t := fset (fset r.2 0 Reg.Hub.JS_CODE 0x42) 0 Reg.Hub.JS_ARG arg
          let keep := t.csr.filter (fun p => !(decide (8 * engBase (16 * e) ≤ p.1) && decide (p.1 < 8 * (eisBase e + 0x10000))))
          (false, { t with eng := before.eng, eis := before.eis, csr := keep }))
      (fun s => (true, s))).2

/-- The engine images of manifest part 4, island by island. -/
def bootEngines (s : State) : State :=
  let k := runSlot s
  let m := s.boot.manifest
  let ok := mPartLen m 4 == 0 || partHashOk s k m 4
  let es := (entriesOf s k m).getD []
  (allEis.filter (fun e => es.any (fun x => 10 * x.1 + x.2.1 == e))).foldl
    (fun s e => enginesBoot s e (es.filter (fun x => 10 * x.1 + x.2.1 == e)) ok) s

/-- PHASE_E: the full load begins, and the engine images are loaded. -/
def opPhaseE (s : State) : State :=
  if !inPhase s 4 || s.load.isSome || cfgState s != 0 then s
  else
    let s := (allEis.filter (fun e => present s (dieOfEis e) && !fenced s (dieOfEis e))).foldl (fun s e => eisUpd s e (fun x => { x with pst := 0 })) s
    let s := bootEngines s
    let f : LoadFail := ⟨rankOf 255 0x13, 0x13, 0, 0⟩
    if stepAlt s 0x40 0 then
      let s := stepBegin s 0x40 0 true
      goldenLoad (if partLen s 6 = 0 then stepEnd s 0x40 0 true false 0x13 else s) f
    else
      let s := stepBegin s 0x40 0 false
      if s.fuses.srcStrap = 0 ∧ partLen s 5 = 0 then rejectFull s (newLoad s false false false 0 0 0) f
      else startFull s false false

/-! ### Phase F (R481, R493) -/

/-- Engine islands at the release: their generators lock, and those in service leave the hold. -/
def eisService (s : State) : State :=
  (allEis.filter (fun e => (eisGet s e).pst == 0)).foldl (fun s e =>
    let s := opEclkLock e s
    if eisMayRun s e then eisRelease s e else s) s

/-- The staged release of the start: islands that are not locked stay held (14 R424). -/
def bootRelease (locked : List Nat) (s : State) : Bool × State :=
  let s := locked.foldl (fun s n => if (islGet s n).pendRel then fflag s (islBase n) Reg.Isl.LOCKED true else s) s
  let bad := allIsl.filter (fun n => (islGet s n).pendRel && !islLocked s n)
  (bad.isEmpty, finishLoad (opStagedRelease (bad.foldl (fun s n => opLockFail n s) s)))

/-- The lock at the end of phase F (step 0x51): made by the DMC with `AUTO_LOCK`, else left to P0. -/
def autoLock (s : State) : State :=
  if (mfGet s 6 2).testBit 0 || protLocked s then stepEnd (lockPlan (stepBegin s 0x51 0 false)) 0x51 0 false true 0
  else journal (fflag (stepBegin s 0x51 0 false) 0 Reg.Hub.JS_DONE true) 0x51 4 0 0

/-- PHASE_F. A device whose configuration is FAILED goes on without a release (14 R423). -/
def opPhaseF (locked : List Nat) (s : State) : State :=
  if !inPhase s 5 then s
  else
    let s := stepBegin s 0x50 0 false
    let s := if cfgState s = 4 then journal (fflag s 0 Reg.Hub.JS_DONE true) 0x50 4 0 0
      else
        let r := bootRelease locked s
        stepEnd r.2 0x50 0 false r.1 0
    let s := autoLock (eisService s)
    let s := phaseEnd s 5
    stepRun { s with boot := { s.boot with doneUs := some (upUs s) } } 0x5F 0 false true 0

/-- A write of `PROT_LOCK` waits in the queue (R493; notes/assumptions/49.md). -/
def lockMeets (s : State) : Bool :=
  s.pending.any (fun i => match i with
    | .protLock w v => w.part == 0 && v.getLsbD 0
    | _ => false)
/-- LOCK_WAIT (R493): `LOCK_WAIT_S` seconds after DONE; a lock that meets P0's own is not journalled. -/
def opLockWait (s : State) : State :=
  if inPhase s 6 && s.boot.dmc && !protLocked s && !(mfGet s 6 2).testBit 0 && mfGet s 0x224 2 != 0 then
    (if lockMeets s then lockPlan s else jEvent (lockPlan s) 0x95 0 0)
  else s

def execSuppliesValid (s : State) : Out := .next (opSuppliesValid s)
def execStartWatchdog (s : State) : Out := .next (opStartWatchdog s)
def execPhaseB (dies : List DieFound) (tests : List HawserTest) (s : State) : Out := .next (opPhaseB dies tests s)
def execTrainingTimeLimit (n : Fin 8) (step : BitVec 4) (s : State) : Out := .next (opTrainingLimit n.val step.toNat s)
def execPhaseD (fits : List (Option Fit)) (train : List TrainOutcome) (quads : BitVec 40) (dsc : BitVec 8) (trng : Bool) (s : State) : Out :=
  .next (opPhaseD fits train quads dsc trng s)
def execPhaseE (s : State) : Out := .next (opPhaseE s)
def execPhaseF (locked : List (Fin 8 × Fin 48)) (s : State) : Out := .next (opPhaseF (locked.map (fun p => islId p.1 p.2)) s)
def execLockWait (s : State) : Out := .next (opLockWait s)

end Sys2Proof.Machine
end

