-- ==== Sys2Proof/Machine/Scrub.lean ====
section
/-! DEFINITION. Configuration memory in the field: upsets (02 R66, R67), the scrubber and the repair of frames (14 R432 to R434,
02 R68, R69), load ports (14 R417) and raw access (14 R436). -/

namespace Sys2Proof.Machine

/-! ### Upsets -/

/-- `SR` of control set x of a cluster is driven by a select that is forced or all-zero, inverted and asynchronous (R53, R67). -/
def srForced (s : State) (n t K x : Nat) : Bool :=
  let o := 1493 * K
  let sel := cfgTile s n t (o + 656 + 12 * (65 + 2 * x)) 12
  let cs := cfgTile s n t (o + 1475 + 9 * x + 4) 5
  (selected 12 sel).isNone && cs.testBit 2 && !cs.testBit 3

/-- The flip-flops of control set x of a cluster go to `SRVALn` (R54 row 2). -/
def forceSet (s : State) (n t K x : Nat) : State :=
  (List.range 16).foldl (fun s f =>
    if ffSet s n t K f = (x == 1) then ffPut s n t K f (ffSrval s n t K f) else s) s

/-- The tiles whose records reach into frame f. -/
def frameTiles (f : Nat) : List Nat := (List.range 800).filter (fun t => decide (7680 * t < 4096 * (f + 1)) && decide (4096 * f < 7680 * (t + 1)))

/-- After a change of frame f of a running island, an asynchronous `SR` that stands at 1 by its select sets its flip-flops. -/
def settleSr (s : State) (n f : Nat) : State :=
  if (islGet s n).hold || 1500 ≤ f then s
  else (frameTiles f).foldl (fun s t => (List.range 4).foldl (fun s K => (List.range 2).foldl (fun s x =>
    if srForced s n t K x then forceSet s n t K x else s) s) s) s

/-- CONFIG_UPSET: the listed bits of a stored frame flip; bits from 4,096 are the hidden check bits (R401). -/
def opConfigUpset (n f : Nat) (bits : List Nat) (s : State) : State :=
  let k := frameKey n f
  let x := frameGet s k
  let d := bits.foldl (fun d b => if b < 4096 then d ^^^ BitVec.ofNat 4096 (2 ^ b) else d) x.data
  let c := bits.foldl (fun c b => if b < 4096 then c else c ^^^ BitVec.ofNat 14 (2 ^ (b - 4096))) x.chk
  settleSr (frameSet s k { x with data := d, chk := c }) n f

/-! ### The scrubber -/

/-- Island n is under a load. -/
def underLoad (s : State) (n : Nat) : Bool :=
  match s.load with
  | none => false
  | some l => if l.partialLoad then decide (2 ≤ l.stage) && (loadIslands l).contains n else true

/-- Record an error of the scrubber (R437). -/
def csRecord (s : State) (d a : Nat) (ue : Bool) : State :=
  fflag (fflag (fset s (dieBase d) Reg.Die.CS_FRAME a) (dieBase d) Reg.Die.CS_UE ue) (dieBase d) Reg.Die.CS_VALID true

/-- A corrected bit in a select field is counted and recorded (02 R69). -/
def selRecord (s : State) (n f b : Nat) : State :=
  if isSelectBit n f b then
    let q := dieBase (n / 48)
    let s := fset (fset (fset (finc s q Reg.Die.SEL_UPSET_CNT) q Reg.Die.FRAME f) q Reg.Die.ISLAND (n % 48)) q Reg.Die.BIT b
    fflag s q Reg.Die.VALID true
  else s

/-- The scrubber decodes one frame (R432). A repaired multiplexer shows its source at once, so that the next edge captures the restored
value: R68 allows 0 as well (DESIGN CHOICE, notes/assumptions/51.md). -/
def scrubOne (s : State) (n f : Nat) : State :=
  let k := frameKey n f
  let d := n / 48
  let a := k % 2 ^ 17
  let x := frameGet s k
  let r := frameDecode x
  if r.dbe then
    if x.ueSeen then s
    else
      let s := finc (csRecord (frameSet s k { x with ueSeen := true }) d a true) (dieBase d) Reg.Die.CS_UE_CNT
      alarmCfg s 4 k 0 d
  else if r.sbe then
    let y := BitVec.ofNat 4096 r.data
    let diff := y ^^^ x.data
    let s := frameSet s k { x with data := y, chk := frameCheck y }
    let s := finc (csRecord s d a false) (dieBase d) Reg.Die.CS_CE_CNT
    let s := if diff = 0 then s else selRecord s n f diff.toNat.log2
    settleSr s n f
  else s

/-- A position after a scrubbed or skipped frame; the end of a lap (R432, R437). -/
def csAdvance (s : State) (d pos : Nat) : State :=
  if pos < 96000 then { s with csPos := tset 0 s.csPos d pos }
  else
    let now := upUs s
    let s := fset s (dieBase d) Reg.Die.CS_LAP (min (now - tget 0 s.csStart d) 0xFFFFFF)
    let s := fincWrap s (dieBase d) Reg.Die.CS_LAPS
    { s with csPos := tset 0 s.csPos d 0, csStart := tset 0 s.csStart d now }

/-- SCRUB_FRAME (R432): the next frame in ascending order; an island under a load is skipped for the lap, and no
frame is decoded in a cycle in which a frame of the die is written. -/
def opScrubFrame (d : Nat) (s : State) : State :=
  if !fbit s (dieBase d) Reg.Die.CS_EN || !present s d || fenced s d || tget 0 s.frameAt d == s.up + 1 then s
  else
    let pos := tget 0 s.csPos d
    let n := 48 * d + pos / 2000
    if underLoad s n then csAdvance s d ((pos / 2000 + 1) * 2000)
    else csAdvance (scrubOne s n (pos % 2000)) d (pos + 1)

/-- Restart the scrubber from frame 0 of island 0. -/
def csRestart (s : State) (d : Nat) : State := { s with csPos := tset 0 s.csPos d 0, csStart := tset 0 s.csStart d (upUs s) }

/-- SCRUB_STALL (R434): a lap took too long without a load on the die; a scrubber that is off laps nothing. -/
def opScrubStall (d : Nat) (s : State) : State :=
  if !fbit s (dieBase d) Reg.Die.CS_EN || (List.range 48).any (fun i => underLoad s (48 * d + i)) || !s.boot.dmc || fenced s d then s
  else jEvent (finc (csRestart s d) (dieBase d) Reg.Die.CS_STALL_CNT) 0x86 d 0

/-- What a read of the descriptor's bytes is answered by the granule table and the state of the channels, the first granule that
refuses; the lines' own errors come with COMMAND_COMPLETE. -/
def descPermit (s : State) (part a n : Nat) : Resp :=
  let one (g : Nat) : Resp :=
    let c := g / 2 ^ 19
    let st := mcState s c
    let last := min (a + (n - 1)) (g * 131072 + 131071)
    if decide (8 ≤ c) || st == 4 || (decide (2 ≤ st) && decide (mcLines s c ≤ last % 2 ^ 36 / 64)) then .decodeErr
    else if (granGet s g).owner ≠ part then .partErr
    else if st < 2 || (mcGet s c).standby || !fbit s secBase Reg.Sec.KEY_READY then .domainOff
    else .okay
  let gs := (List.range ((a + n - 1) / 131072 - a / 131072 + 1)).map (a / 131072 + ·)
  ((gs.map one).find? (fun r => r != .okay)).getD .okay

/-- The image that wrote a frame of island n can be read (R433): a `REGION_LOAD`'s while its sender still holds the granules of the
descriptor; a full load's while its flash copy is the image in force. -/
def frameSource (s : State) (n origin : Nat) : Bool :=
  match (islGet s n).src with
  | some x => if origin = 1 then !s.boot.fromPort else s.load.isNone && decide (descPermit s x.2.2 x.1 x.2.1 = .okay)
  | none => origin != 2 && !s.boot.fromPort

/-- FRAME_REPAIR (R433): a frame recorded as uncorrectable is rewritten from the image that wrote it, or its island and splice are
held. `source` is what that image holds, none where its segment hash fails. A frame that fails the verifier's checks, which every frame written passes
through (02 R64), is not written. -/
def opFrameRepair (n f : Nat) (source : Option (BitVec 4096)) (s : State) : State :=
  let k := frameKey n f
  let x := frameGet s k
  let obj := n / 48 * 64 + n % 48
  if !x.ueSeen then s
  else
    let found := if frameSource s n x.origin then source else none
    let bad := found.bind (fun d => frameChecks s n f d false)
    match (if bad.isSome then none else found) with
    | some d => jEvent (settleSr (frameWrite s k { x with data := d, chk := frameCheck d, ueSeen := false }) n f) 0x94 obj 0
    | none =>
      let s := match bad with
        | some c => recordErr s ⟨0, c.2, k, n / 48⟩ false
        | none => s
      let s := (spliceMembers s n).foldl (fun s m => islUpd (islClamp s m) m (fun i => { i with region := 4, pendRel := false })) s
      jEvent (alarmCfg s 5 k 0 (n / 48)) 0x94 obj 1

def actCsClr (d : Nat) (s : State) : State := csrWipe s (dieBase d + 0x304) (dieBase d + 0x318)
def actCfgErrClr (s : State) : State := csrWipe s (cfgBase + 0x004) (cfgBase + 0x00C)
def actSelClr (d : Nat) (s : State) : State := csrWipe s (dieBase d + 0x100) (dieBase d + 0x108)

/-! ### Load ports (R417) -/

/-- The port takes image bytes: it is the source of the operational load, or configuration is FAILED and it is the strap's host
port or JTAG (R419, R423). -/
def portTakes (s : State) (src : Nat) : Bool :=
  let failed := s.fuses.srcStrap == src || src == 3
  match s.load with
  | some l => !l.partialLoad && !l.golden && l.stage != 3 && (if l.retry then failed else s.fuses.srcStrap == src)
  | none => cfgState s == 4 && failed
def portPut (s : State) (b : List Byte) : State := { s with port := s.port ++ b }
/-- HPAR_WORD: a word moves while the 256-word buffer has room. -/
def opHparWord (v : Word) (s : State) : State :=
  if portTakes s 1 && decide (s.port.length + 4 ≤ 1024) then portPut s (natLe v.toNat 4) else s
def opHspiByte (b : Byte) (s : State) : State := if portTakes s 2 then portPut s [b] else s
/-- CFG_IN (17 R526): image words from TDI. -/
def opCfgWord (v : Word) (s : State) : State := if portTakes s 3 then portPut s (natLe v.toNat 4) else s

/-! ### Raw access (R436) -/

/-- The action of `RAWF_GO`. -/
def actRawfGo (s : State) : State := fflag s cfgBase Reg.Cfg.RAWF_BUSY true

/-- A raw access is refused: its island is under a load, its die absent or fenced, its address names no frame, or it reads what a
`NO_READBACK` image wrote. -/
def rawfRefused (s : State) (a : Nat) (write : Bool) : Bool :=
  let n := addrIsl a
  decide (48 ≤ a / 2 ^ 11 % 64) || decide (2000 ≤ addrFrame a) || underLoad s n || !present s (n / 48) || fenced s (n / 48) ||
  (!write && (fbit s cfgBase Reg.Cfg.NO_READBACK || (frameGet s a).noRead))

/-- RAWF_ACCESS. A raw write keeps the record of which image the frame belongs to. -/
def opRawfAccess (s : State) : State :=
  if !fbit s cfgBase Reg.Cfg.RAWF_BUSY then s
  else
    let s := fflag s cfgBase Reg.Cfg.RAWF_BUSY false
    let a := fget s cfgBase Reg.Cfg.RAWF_ADDR
    let write := fbit s cfgBase Reg.Cfg.RAWF_WRITE
    let n := addrIsl a
    let f := addrFrame a
    if rawfRefused s a write then fflag s cfgBase Reg.Cfg.RAWF_REFUSED true
    else if write then
      let d := BitVec.ofNat 4096 ((List.range 128).foldl (fun v w => v + 2 ^ (32 * w) * fget s cfgBase (Reg.Cfg.RAWF_BUF w)) 0)
      let x := frameGet s a
      let after := frameWrite s a { x with data := d, chk := BitVec.ofNat 14 (fget s cfgBase Reg.Cfg.RAWF_HIDDEN), ueSeen := false }
      let bad := match frameChecks s n f d true with
        | some c => some c.2
        | none => if f == 1968 && facesMember after n then some 0x0F else none
      match bad with
      | some code => fflag (recordErr s ⟨0, code, a, n / 48⟩ false) cfgBase Reg.Cfg.RAWF_REJECT true
      | none => fflag (settleSr after n f) cfgBase Reg.Cfg.RAWF_DONE true
    else
      let x := frameGet s a
      let s := (List.range 128).foldl (fun s w => fset s cfgBase (Reg.Cfg.RAWF_BUF w) (x.data.toNat / 2 ^ (32 * w))) s
      fflag (fset s cfgBase Reg.Cfg.RAWF_HIDDEN x.chk.toNat) cfgBase Reg.Cfg.RAWF_DONE true

def execConfigUpset (d : Fin 8) (i : Fin 48) (f : Fin 2000) (bits : List (Fin 4110)) (s : State) : Out :=
  .next (opConfigUpset (islId d i) f.val (bits.map (fun b => b.val)) s)
def execScrubFrame (d : Fin 8) (s : State) : Out := .next (opScrubFrame d.val s)
def execScrubStall (d : Fin 8) (s : State) : Out := .next (opScrubStall d.val s)
def execFrameRepair (d : Fin 8) (i : Fin 48) (f : Fin 2000) (source : Option (BitVec 4096)) (s : State) : Out :=
  .next (opFrameRepair (islId d i) f.val source s)
def execHparWord (v : Word) (s : State) : Out := .next (opHparWord v s)
def execHspiByte (b : Byte) (s : State) : Out := .next (opHspiByte b s)
def execRawfAccess (s : State) : Out := .next (opRawfAccess s)

end Sys2Proof.Machine
end

