-- ==== Sys2Proof/Machine/Cmd.lean ====
section
/-! DEFINITION. Mailbox commands: the command slot, who reaches a mailbox, the checks before a command runs, the objects that
commands hold, and the commands of identity, sessions and partitions (13 R374 to R382, R392 to R398). -/

namespace Sys2Proof.Machine

/-- A command as its checks see it: mailbox, opcode, the mailbox's partition, path, session, length and payload. -/
structure Cmd where
  n : Nat
  op : Nat
  part : Nat
  path : Path
  session : Nat
  len : Nat
  pl : List Byte
  deriving DecidableEq, Repr

/-! ### Ends -/

def cmdOk (c : Cmd) (payload : List Byte) (s : State) : State := mbFinish s c.n stOk 0 payload
def cmdBad (c : Cmd) (s : State) : State := mbFinish s c.n stBadArg 0 []
def cmdDenied (c : Cmd) (src code : Nat) (s : State) : State := mbFinish s c.n stDenied (detail src code 0) []
def cmdFailed (c : Cmd) (src code idx : Nat) (s : State) : State := mbFinish s c.n stFailed (detail src code idx) []
/-- What a command names is off, fenced, absent or out of reach in STANDBY (R398; 15 R446). -/
def cmdOff (c : Cmd) (idx : Nat) (s : State) : State := cmdFailed c 1 (respCode .domainOff) idx s
/-- The command stays BUSY. -/
def cmdWait (c : Cmd) (w : Wait) (s : State) : State := mbUpd s c.n (fun m => { m with wait := w })

/-! ### Paths (R382, R385, R419) -/

/-- A PCIe function of a link answers memory requests: its controller runs, the link is up, phase C has ended. -/
def pcieLive (s : State) (c k f : Nat) : Bool :=
  (pcieGet s c).up && !(pcieGet s c).perst && fbit s (pcieBase c k) Reg.Pcie.DL_UP && decide (k < pcieLinks s c) &&
  decide (f < pciePer s c) && s.boot.dmc
/-- Function number of a controller from a link's own. -/
def pcieFn (s : State) (c k f : Nat) : Nat := k * pciePer s c + f

/-- The partition that a path stamps; none where the path reaches nothing. -/
def pathPart (s : State) (p : Path) : Option Nat :=
  let some? (h : Nat) (live : Bool) : Option Nat := if live && h != 0x1F then some h else none
  match p with
  | .pcie c k f => some? (fnHolder s c.val (pcieFn s c.val k.val f.val)) (pcieLive s c.val k.val f.val)
  | .hpar => some? (portHolder s 0) (cfgState s == 3)
  | .hspi => some? (portHolder s 1) (cfgState s == 3)
  | .i2c => some? (portHolder s 2) true
  | .fabric d i => some? (islHolder s (islId d i)) (canSend s (islNode (islId d i)))

/-- The path's partition may use mailbox n (01 R38); I²C only one of its own (R383). -/
def mbReach (s : State) (p : Path) (part n : Nat) : Bool :=
  mbHolder s n == part || (part == 0 && p != .i2c)

/-- Two paths are one for a session: all islands of a partition share theirs (R382). -/
def samePath (a b : Path) : Bool :=
  match a, b with
  | .fabric _ _, .fabric _ _ => true
  | a, b => a == b

/-! ### The command slot (R374) -/

def slotWord (m : MbSt) (k : Nat) : Word := tget 0 m.pay k
/-- Payload bytes of the slot. -/
def slotBytes (m : MbSt) (n : Nat) : List Byte := ((List.range 60).flatMap (fun k => natLe (slotWord m k).toNat 4)).take n
/-- The header and the payload of a request enter the slot. -/
def slotFill (s : State) (r : MbReq) (op : Nat) : State :=
  mbUpd s r.mb.val (fun m =>
    let k := (r.payload.length + 3) / 4
    let ws := (List.range (min k 60)).map (fun i => (i, BitVec.ofNat 32 (leAt r.payload (4 * i) 4)))
    { m with hdr0 := BitVec.ofNat 32 (op + 65536 * r.len.toNat), hdr1 := BitVec.ofNat 32 (r.session.toNat + 65536 * r.seq.toNat)
             pay := ws.foldl (fun t p => tset 0 t p.1 p.2) m.pay })

/-! ### Checks before the payload (R378) -/

/-- The length that a command's table gives (R398). -/
def cmdLen (op : Nat) : Option Nat :=
  match op with
  | 0x01 | 0x71 | 0x83 => some 0
  | 0x02 | 0x51 | 0x72 => some 1
  | 0x10 => some 20
  | 0x11 | 0x52 => some 2
  | 0x12 | 0x40 | 0x42 => some 12
  | 0x20 | 0x30 | 0x70 => some 32
  | 0x21 | 0x22 => some 14
  | 0x31 => some 16
  | 0x32 | 0x50 | 0x80 | 0x81 => some 5
  | 0x41 => some 3
  | 0x53 => some 6
  | 0x60 | 0x61 | 0x62 => some 8
  | 0x82 | 0xF0 => some 4
  | _ => none
def lenRight (c : Cmd) : Bool :=
  match cmdLen c.op with
  | some n => c.len == n
  | none => decide (c.len ≤ 240)

/-- The commands that need no session, and carry 0 (R397). -/
def noSession (op : Nat) : Bool := [0x01, 0x02, 0x10, 0xF1].contains op
/-- The session is live, of the mailbox's partition, and came over this path (R395). -/
def sessOk (s : State) (c : Cmd) : Bool :=
  s.sessions.any (fun x => x.id == c.session && x.part == c.part && samePath x.path c.path)
/-- The session and path check (R383, R395, R397). -/
def sessRight (s : State) (c : Cmd) : Bool :=
  (c.path != .i2c || (cmdRow c.op).any (fun r => r.i2c)) &&
  (if noSession c.op then c.session == 0 else if c.op = 0xF0 then c.session == 0 || sessOk s c else sessOk s c)
/-- The commands of a PENDING and of a STOPPED partition (R392). -/
def pendingOk (op : Nat) : Bool := [0x01, 0x02, 0xF1].contains op
def stoppedOk (op : Nat) : Bool := [0x01, 0x02, 0xF1, 0x10, 0x11, 0x12, 0x51, 0x52, 0x80, 0x81, 0x82].contains op
/-- Commands of P0 alone. -/
def p0Only (op : Nat) : Bool := [0x70, 0x71, 0x72, 0x83].contains op

/-- The first check that fails: opcode, `LEN`, session and path, partition (R378). -/
def cmdGate (s : State) (c : Cmd) : Option (Nat × Word) :=
  let st := (partGet s c.part).state
  if (cmdRow c.op).isNone then some (stBadOpcode, 0)
  else if !lenRight c then some (stBadArg, 0)
  else if !sessRight s c then some (stDenied, detail 7 0 0)
  else if st = 2 then (if p0Only c.op && c.part != 0 then some (stDenied, 0) else none)
  else if st = 3 then (if stoppedOk c.op then none else some (stDenied, detail 6 0 0))
  else if pendingOk c.op then none
  else some (stDenied, detail 5 0 0)

/-! ### Objects (R377) -/

/-- What a command can hold. -/
inductive Obj where
  | isl (n : Nat)
  | eis (n : Nat)
  | lane (n : Nat)
  | grans (lo hi : Nat)
  | reset
  | slot
  | journal
  deriving DecidableEq, Repr

/-- Two objects meet. -/
def objMeets (a b : Obj) : Bool :=
  match a, b with
  | .grans l h, .grans l' h' => decide (l < h') && decide (l' < h)
  | a, b => a == b

/-- The objects that a command needs. -/
def cmdObjs (s : State) (op : Nat) (pl : List Byte) : List Obj :=
  match op with
  | 0x20 | 0x21 => (regionIslands pl).map Obj.isl
  | 0x30 | 0x31 => [.eis (eisOf pl)]
  | 0x40 | 0x42 => [.lane (laneOf pl)]
  | 0x50 => match pb pl 0 with
    | 0 => (spliceMembers s (pb pl 1 % 8 * 48 + pb pl 2 % 48)).map Obj.isl
    | 1 => [.eis (pb pl 1 % 8 * 10 + pb pl 2 % 10)]
    | 2 => (quadLanes (pb pl 1 % 8 * 4 + pb pl 2 % 4)).map Obj.lane
    | _ => []
  | 0x61 => [.grans (leAt pl 0 4) (leAt pl 0 4 + leAt pl 4 4)]
  | 0x60 =>
    if leAt pl 0 4 = 0xFFFFFFFF then [.grans 0 (2 ^ 22)] else [.grans (leAt pl 0 4) (leAt pl 0 4 + leAt pl 4 4)]
  | 0x62 =>
    let g := spanGrans s (pb pl 0) (leAt pl 4 4)
    [.reset, .grans g.1 g.2]
  | 0x70 | 0x72 => [.slot]
  | 0x83 => [.journal]
  | _ => []

/-- The objects that the command running in mailbox m holds. -/
def heldBy (s : State) (m : Nat) : List Obj :=
  if mbBusy s m && (mbGet s m).wait == .run then cmdObjs s (mbGet s m).ropcode (mbGet s m).cmd else []
/-- No command of another mailbox holds what command c needs. -/
def objsFree (s : State) (c : Cmd) : Bool :=
  (List.range 32).all (fun m => m == c.n || (heldBy s m).all (fun a => (cmdObjs s c.op c.pl).all (fun b => !objMeets a b)))
/-- Go on with the command once its objects are free; until then it waits (R377). -/
def withObjs (c : Cmd) (go : State → State) (s : State) : State := if objsFree s c then go s else cmdWait c .object s

/-! ### Identity, sessions and partitions -/

/-- The bytes from a to b - 1 of a payload are 0. -/
def zeros (pl : List Byte) (a b : Nat) : Bool := (List.range (b - a)).all (fun i => pb pl (a + i) == 0)
def liveSessions (s : State) (p : Nat) : Nat := (partSessions s p).length

/-- `DEV_INFO` (R398). -/
def cmdDevInfo (c : Cmd) (s : State) : State :=
  let dies := (List.range 8).map (fun d => byte (fget s (dieBase d) Reg.Die.STEPPING + 16 * fget s (dieBase d) Reg.Die.DIE_FL))
  let word4 := readFields s 0 (Reg.Hub.fields 4)
  let head := natLe (fget s 0 Reg.Hub.IDCODE) 4 ++ natLe word4.toNat 4 ++ natLe (mfGet s 0x2C 4) 4
  cmdOk c (head ++ [3, byte (featureLevel s)] ++ natLe 0x9680 2 ++ dies ++ natLe s.fuses.dieId 8 ++ natLe (fget s 0 Reg.Hub.GENERATION) 4) s

/-- `IF_LEVEL`. -/
def cmdIfLevel (c : Cmd) (s : State) : State := if pb c.pl 0 = 0 ∨ pb c.pl 0 = 3 then cmdOk c [3] s else cmdBad c s

/-- `ATTACH` (R394, R395). -/
def cmdAttach (c : Cmd) (s : State) : State :=
  let lease := leAt c.pl 2 2
  if 1 < pb c.pl 0 ∨ pb c.pl 1 ≠ 0 ∨ 3600 < lease then cmdBad c s
  else if (planGet s c.part).maxSess ≤ liveSessions s c.part ∨ 64 ≤ s.sessions.length then mbFinish s c.n stNoResource 0 []
  else
    let id := freshSession s
    let s := { s with sessions := s.sessions ++ [⟨id, c.part, c.path, lease, (c.pl.drop 4).take 16, s.up + 1⟩], nextSession := id % 65535 + 1 }
    let s := if pb c.pl 0 = 1 then restartPart s c.part else s
    cmdOk c (natLe id 2 ++ [byte c.part, byte (liveSessions s c.part), byte (partGet s c.part).state]) s

/-- `DETACH` (R393, R396). -/
def cmdDetach (c : Cmd) (s : State) : State :=
  let p := pb c.pl 1
  if c.part ≠ 0 ∧ p ≠ c.part then cmdDenied c 0 0 s
  else if 3 < pb c.pl 0 ∨ 16 < p then cmdBad c s
  else
    let s := if (pb c.pl 0).testBit 0 then stopPart s p 3 else s
    let s := endSessions s (fun x => x.part == p && ((pb c.pl 0).testBit 1 || x.id == c.session))
    cmdOk c [byte (liveSessions s p)] s

/-- `PART_INFO`. -/
def cmdPartInfo (c : Cmd) (s : State) : State :=
  let p := pb c.pl 0
  let first := leAt c.pl 4 4
  let cnt := leAt c.pl 8 4
  if c.part ≠ 0 ∧ p ≠ c.part then cmdDenied c 0 0 s
  else if 16 < p ∨ !zeros c.pl 1 4 ∨ 128 < cnt ∨ 2 ^ 22 < first + cnt then cmdBad c s
  else
    let r := planGet s p
    let x := partGet s p
    let flags := (if r.valid then 1 else 0) + (if r.autoSr then 2 else 0) + (if r.steward then 4 else 0)
    let owned := s.sec.gran.filter (fun e => e.2.owner == p)
    let inPlan := (r.granges.map (fun g => g.count)).sum
    let off := ((List.range 8).filter (fun d => fenced s d && holdsOnDie r d)).map (2 ^ ·)
    let entry (k : Nat) : Byte :=
      let g := granGet s (first + k)
      if c.part = 0 ∨ g.owner = c.part then byte (granByte g) else 0xFF
    let head := [byte p, byte x.state, byte (liveSessions s p), byte flags] ++ natLe r.mailboxes 4 ++ natLe r.fns 2 ++ [byte r.ports]
    let counts := [byte (fget s secBase (Reg.Sec.SEC_CNT p))] ++ natLe owned.length 4 ++ natLe (owned.filter (fun e => e.2.init)).length 4
    let plan := natLe inPlan 4 ++ [byte x.cause, byte off.sum] ++ List.replicate 6 0
    let held := (List.range 8).flatMap (fun d => natLe (r.islands.getD d 0) 6) ++ (List.range 8).flatMap (fun d => natLe (r.eisl.getD d 0) 2)
    cmdOk c (head ++ counts ++ plan ++ held ++ natLe r.quads 4 ++ [0, 0, 0, 0] ++ (List.range cnt).map entry) s

/-- `ECHO`. -/
def cmdEcho (c : Cmd) (s : State) : State := cmdOk c (c.pl.take c.len) s

end Sys2Proof.Machine
end

