-- ==== Sys2Proof/Machine/CmdRegion.lean ====
section
/-! DEFINITION. Mailbox commands on islands and engines: `REGION_LOAD`, `REGION_UNLOAD`, `REGION_STATUS`, `ENGINE_LOAD`,
`PERIOD_SET`, `ENGINE_STATS` (13 R398; 14 R428 to R431; 07 R202 to R205, R219, R221). -/

namespace Sys2Proof.Machine

/-- A die cannot be reached: absent, fenced, or the device is in STANDBY (01 R30; 15 R446). -/
def dieOut (s : State) (d : Nat) : Bool := !present s d || fenced s d || asleep s

/-- A descriptor that may not be read ends the command (R380). -/
def descEnd (c : Cmd) (r : Resp) (s : State) : State :=
  if r = .partErr then cmdDenied c 3 (respCode r) s else cmdFailed c 3 (respCode r) 0 s

/-! ### Logic islands -/

/-- The sender holds every island that the command names, or is P0. -/
def holdsRegion (s : State) (c : Cmd) : Bool :=
  c.part == 0 || (decide (pb c.pl 0 ≤ 7) && ((c.pl.drop 2).take (min 12 (pb c.pl 1))).all (fun b =>
    decide (b.toNat ≤ 47) && islHolder s (pb c.pl 0 * 48 + b.toNat) == c.part))
/-- The die, the count and the island numbers are in range, no island is named twice, bytes past them are 0. -/
def regionOk (c : Cmd) : Bool :=
  let n := pb c.pl 1
  let l := (c.pl.drop 2).take n
  decide (pb c.pl 0 ≤ 7) && decide (1 ≤ n ∧ n ≤ 12) && l.all (fun b => decide (b.toNat ≤ 47)) && decide l.Nodup && zeros c.pl (2 + n) 14 &&
    (c.len ≤ 14 || zeros c.pl 14 16)
/-- Every splice that the command touches is named whole (03 R95). -/
def splicesWhole (s : State) (ns : List Nat) : Bool := ns.all (fun n => (spliceMembers s n).all (fun m => ns.contains m))
/-- An island of the list moves between power states: a transition of another command, or a wake, holds it. -/
def regionMoves (s : State) (ns : List Nat) : Bool := ns.any (fun n => islState s n == 1 || islState s n == 5)
/-- The first island of the list that is off (R398). -/
def regionOff (s : State) (ns : List Nat) : Option Nat := ns.find? (fun n => [3, 4, 6].contains (islState s n))

/-- The checks that a load and an unload share, and what follows on islands in RUN or held. -/
def regionCmd (c : Cmd) (go : List Nat → State → State) (s : State) : State :=
  let ns := regionIslands c.pl
  if !holdsRegion s c then cmdDenied c 0 0 s
  else if !regionOk c || !splicesWhole s ns || (c.op == 0x20 && (descAt c.pl 16).isNone) then cmdBad c s
  else if dieOut s (pb c.pl 0) then cmdOff c (ns.headD 0 % 48) s
  else withObjs c (fun s =>
    if regionMoves s ns then cmdWait c .object s
    else match regionOff s ns with
      | some n => cmdOff c (n % 48) s
      | none => go ns s) s

/-- `REGION_LOAD` (14 R428): the image is expected; one load at a time (notes/assumptions/33.md). -/
def cmdRegionLoad (c : Cmd) (s : State) : State :=
  regionCmd c (fun ns s =>
    if s.load.isSome then cmdWait c .object s
    else match descAt c.pl 16 with
      | none => cmdBad c s
      | some x =>
        let r := descPermit s c.part x.1 x.2
        if r ≠ .okay then descEnd c r s
        else
          let mask := (ns.map (fun n => 2 ^ (n % 48))).sum
          cmdWait c .run { s with load := some (newLoad s true false false c.n (pb c.pl 0) mask) }) s

/-- `REGION_UNLOAD` (14 R431): steps 2 and 3 of R428 begin. -/
def cmdRegionUnload (c : Cmd) (s : State) : State :=
  regionCmd c (fun ns s =>
    let s := ns.foldl (fun s n =>
      let s := islUpd s n (fun i => { i with pendRel := false })
      if islState s n = 0 then drainStart s n 3 false else nocUpd s n (fun x => { x with kind := 3 })) s
    cmdWait c .run s) s
/-- Step 4 of R428 for an unload: frames cleared, no image, held. -/
def unloadIsl (s : State) (n : Nat) : State :=
  let s := islUpd (clearReconf s n) n (fun i => { i with image := false, pendRel := false, region := 0, imageHash := 0, src := none })
  nocUpd s n (fun x => { x with kind := 0 })
/-- The end of an unload, once every island is behind its cleats. -/
def regionUnloadEnd (c : Cmd) (s : State) : State :=
  let ns := regionIslands c.pl
  if ns.all (fun n => islState s n == 2) then cmdOk c [] (ns.foldl unloadIsl s) else s

/-- State byte of `REGION_STATUS`. -/
def regionState (s : State) (n : Nat) : Nat :=
  let loading := match s.load with
    | some l => if l.partialLoad then (loadIslands l).contains n else true
    | none => false
  let i := islGet s n
  if loading then 1 else if i.region = 4 then 4 else if !i.image then 0 else if i.hold then 3 else 2
/-- `REGION_STATUS`. -/
def cmdRegionStatus (c : Cmd) (s : State) : State :=
  if !holdsRegion s c then cmdDenied c 0 0 s
  else if !regionOk c then cmdBad c s
  else cmdOk c ((regionIslands c.pl).flatMap (fun n =>
    [byte (regionState s n), byte (islState s n), 0, 0] ++ natLe (islGet s n).imageHash.toNat 4)) s

/-! ### Engines -/

/-- The sender holds the engine island that bytes 0 and 1 name. -/
def holdsEngines (s : State) (c : Cmd) : Bool :=
  c.part == 0 || (decide (pb c.pl 0 ≤ 7) && decide (pb c.pl 1 ≤ 9) && eisHolder s (pb c.pl 0 * 10 + pb c.pl 1) == c.part)
def enginesOk (c : Cmd) : Bool := decide (pb c.pl 0 ≤ 7) && decide (pb c.pl 1 ≤ 9)
/-- The checks of the engine commands up to reach; `ok` is what each adds to the ranges. -/
def engineCmd (c : Cmd) (ok : Bool) (go : State → State) (s : State) : State :=
  if !holdsEngines s c then cmdDenied c 0 0 s
  else if !enginesOk c || !ok then cmdBad c s
  else if dieOut s (pb c.pl 0) then cmdOff c (pb c.pl 1) s
  else go s

/-- The engines of the command's mask. -/
def cmdEngines (c : Cmd) : List Nat := engMask (eisOf c.pl) (leAt c.pl 2 2)

/-- `ENGINE_LOAD`: the image is read and checked; engines that do not run begin their load at once, the others at the end of
their runs (07 R219). -/
def cmdEngineLoad (c : Cmd) (s : State) : State :=
  let e := eisOf c.pl
  engineCmd c (decide (pb c.pl 4 < 16) && zeros c.pl 5 16 && (descAt c.pl 16).isSome) (withObjs c (fun s =>
    if (eisGet s e).pst ≠ 0 then cmdOff c (e % 10) s
    else match descAt c.pl 16 with
      | none => cmdBad c s
      | some x =>
        let r := dmcRead s c.part x.1 x.2
        if r.1 ≠ .okay then descEnd c r.1 r.2.2
        else
          let s := r.2.2
          match parseImg r.2.1 with
          | none => cmdFailed c 8 0 0 s
          | some g =>
            if featureLevel s < g.level then mbFinish s c.n stFeature 0 []
            else
              let s := (cmdEngines c).foldl (fun s n => engUpd s n (fun x => { x with loadWait := true })) s
              mbUpd s c.n (fun m => { m with wait := .run, data := r.2.1 }))) s
/-- The end of an engine load: every engine of the mask whose run has ended, and that is not loaded yet, takes the image, its binding
and its source, and the engine island leaves its hold (05 R132); the command ends when none is left (07 R219). -/
def engineLoadEnd (c : Cmd) (s : State) : State :=
  let e := eisOf c.pl
  match descAt c.pl 16, parseImg (mbGet s c.n).data with
    | some x, some g =>
      let now := (cmdEngines c).filter (fun n => (engGet s n).loadWait && !engRunning s n)
      let s := now.foldl (fun s n =>
        let s := setBind (installImg s n g) n (pb c.pl 4 % 8) (decide (8 ≤ pb c.pl 4))
        eisUpd s e (fun y => { y with srcs := tset {} y.srcs (n % 16) { kind := 2, addr := x.1, len := x.2, part := c.part } })) s
      let s := if now.isEmpty || !eisMayRun s e then s else eisRelease s e
      if (cmdEngines c).any (loadHeld s) then s else cmdOk c [] s
    | _, _ => cmdFailed c 8 0 0 s

/-- An `EVT` from the DMC to engine k of engine island e (08 R226). -/
def evtPacket (e k part : Nat) : Packet :=
  { dstDie := BitVec.ofNat 4 (e / 10), dstNode := BitVec.ofNat 8 (eisNode e), dstUnit := BitVec.ofNat 4 k
    srcDie := 8, srcNode := 0, srcUnit := 0, part := BitVec.ofNat 5 part, prio := 1, vn := 2, op := opEvt, len := 0, tag := 0
    nw := false, rsv := 0, resp := 0, size := 0, addr := 0, firstBe := 0, lastBe := 0, rsvd := false, poisoned := false, data := [] }

/-- Class values as `PERIOD_SET` gives them are right (07 R202). -/
def classOk (period phase budget : Nat) : Bool := period == 0 || (decide (phase < period) && decide (1 ≤ budget ∧ budget ≤ period))

/-- The class values of an engine island (07 R202, R220): kept, and in its registers while it is powered. -/
def setClass (s : State) (e k : Nat) (v : Nat × Nat × Nat) : State :=
  let old := (k, classVals s e k)
  let s := eisUpd s e (fun x => { x with
    periods := tset (0, 0, 0) x.periods k v, was := (if x.wasAt = s.up + 1 then x.was else []) ++ [old], wasAt := s.up + 1 })
  let b := eisBase e
  if (eisGet s e).pst = 0 then fset (fset (fset s b (Reg.Eisl.PERIOD k) v.1) b (Reg.Eisl.PHASE k) v.2.1) b (Reg.Eisl.BUDGET k) v.2.2 else s
/-- An engine's class as it stands. -/
def classOf (s : State) (n : Nat) : Nat := tget 0 (eisGet s (n / 16)).binds (n % 16) % 8

/-- `PERIOD_SET` (R398): class values, unbind, bind, then `EVT`s. -/
def cmdPeriodSet (c : Cmd) (s : State) : State :=
  let e := eisOf c.pl
  let f := pb c.pl 3
  let u (o : Nat) : Nat := leAt c.pl o 2
  let ok := decide (pb c.pl 2 ≤ 7) && decide (f < 4) && (!f.testBit 0 || classOk (u 4) (u 6) (u 8))
  engineCmd c ok (withObjs c (fun s =>
    let s := if f.testBit 0 then setClass s e (pb c.pl 2) (if u 4 = 0 then (0, 0, 0) else (u 4, u 6, u 8)) else s
    let s := if f.testBit 1 then
        let s := (engMask e (u 12)).foldl (fun s n => setBind s n (classOf s n) false) s
        (engMask e (u 10)).foldl (fun s n => setBind s n (pb c.pl 2) true) s
      else s
    let s := (engMask e (u 14)).foldl (fun s n => (inject s (evtPacket e (n % 16) c.part)).2) s
    cmdOk c [] s)) s

/-- The 28 bytes of `ENGINE_STATS` for one engine. -/
def engStats (s : State) (n : Nat) : List Byte :=
  let g (f : Fld) : Nat := fget s (engBase n) f
  [byte (g Reg.Eng.STATE), byte (g Reg.Eng.FAULT_CAUSE), byte (g Reg.Eng.LAST_END), byte (g Reg.Eng.CLASS + 8 * g Reg.Eng.BOUND)] ++
    natLe (g Reg.Eng.STARTS) 4 ++ natLe (g Reg.Eng.OVERRUN) 4 ++ natLe (g Reg.Eng.COMMITS) 4 ++ natLe (g Reg.Eng.COMMIT_DROP) 2 ++
    natLe (g Reg.Eng.DONE_DROP) 2 ++ natLe (g Reg.Eng.IN_DROP) 2 ++ natLe (g Reg.Eng.MSG_ERR) 2 ++ natLe (g Reg.Eng.DONE_TICKS) 2 ++ [0, 0]
/-- `ENGINE_STATS`. -/
def cmdEngineStats (c : Cmd) (s : State) : State :=
  let ns := cmdEngines c
  engineCmd c (decide (ns.length ≤ 8) && decide (pb c.pl 4 < 2)) (fun s =>
    let out := ns.flatMap (engStats s)
    cmdOk c out (if pb c.pl 4 = 1 then ns.foldl (fun s n => actSchedClr n s) s else s)) s

end Sys2Proof.Machine
end

