-- ==== Sys2Proof/Machine/CmdLink.lean ====
section
/-! DEFINITION. Mailbox commands on lanes: `LINK_SET`, `LINK_STATUS`, `LINK_TEST` (13 R398; 12 R336, R338, R339, R354, R357, R360;
15 R456). -/

namespace Sys2Proof.Machine

/-- The sender holds the quad that bytes 0 and 1 name, or is P0. -/
def holdsLink (s : State) (c : Cmd) : Bool :=
  c.part == 0 || (decide (pb c.pl 0 ≤ 7) && decide (pb c.pl 1 ≤ 3) && quadHolder s (4 * pb c.pl 0 + pb c.pl 1) == c.part)

/-! ### `LINK_SET` -/

/-- A raw line rate in kb/s lies in the mode's range (R339). -/
def rawRateOk (q m r : Nat) : Bool :=
  if m = 0x10 then decide (1250000 ≤ r ∧ r ≤ 58000000)
  else if m = 0x11 then decide (20000000 ≤ r ∧ r ≤ (if q % 4 = 3 then 226000000 else 116000000))
  else true
/-- Twice the baud rate of a lane in kBd (R339). -/
def baud2 (m rate : Nat) : Nat :=
  match m with
  | 0x01 => 2500000
  | 0x02 => 20625000
  | 0x03 | 0x05 => 51562500
  | 0x04 | 0x06 => 53125000
  | 0x07 => 106250000
  | 0x10 => 2 * rate
  | 0x11 => rate
  | 0x20 => 226000000
  | _ => 0
/-- Two rates are in a ratio that is a power of two. -/
def pow2Ratio (a b : Nat) : Bool := (List.range 12).any (fun k => a * 2 ^ k == b || b * 2 ^ k == a)
/-- The baud rates, doubled, that a lane may come to run at: that of its mode, and those of the modes that it advertises. -/
def rates (m adv rate : Nat) : List Nat := baud2 m rate :: ((List.range 7).filter (fun k => adv.testBit k)).map (fun k => baud2 (k + 1) rate)
/-- Lanes of the quad outside the lane's group that are out of P2, or that will leave it because they are enabled, run at rates that go
with the new one, whatever auto-negotiation resolves (R338; notes/assumptions/46.md). -/
def baudFits (s : State) (n m adv rate : Nat) : Bool :=
  ((quadLanes (n / 4)).filter (fun k => k != n && !(groupOf n m).contains k && laneMode s k != 0 && !fbit s (lb k) Reg.Lane.GROUP_MEMBER &&
    (fget s (lb k) Reg.Lane.PSTATE != 2 || (laneGet s k).enabled))).all (fun k =>
      (rates m adv rate).all (fun a => (rates (laneMode s k) (laneGet s k).adv (laneGet s k).rate).all (fun b => pow2Ratio a b)))

/-- The settings of an enable are in range (R398). -/
def linkSettings (c : Cmd) : Bool :=
  let m := pb c.pl 4
  modeFits (pb c.pl 1) (pb c.pl 2) m && decide (pb c.pl 5 < 8) && decide (leAt c.pl 6 2 < 128) && rawRateOk (pb c.pl 1) m (leAt c.pl 8 4)

/-- A `LINK_SET` enable on a lane of a quad that runs (R349, R354, R360). -/
def linkEnable (c : Cmd) (n : Nat) (s : State) : State :=
  let m := pb c.pl 4
  let st := linkState s n
  let same := laneMode s n == m
  let s := quadUpd s (n / 4) (fun x => { x with wakeAt := s.up + 1 })
  let s := laneUpd s n (fun x => { x with enabled := true, fec := pb c.pl 5, adv := leAt c.pl 6 2, rate := leAt c.pl 8 4 })
  if st = 10 then laneRestart (setMode (laneEndTest s n) n m) n
  else
    let s := fset (fset s (lb n) Reg.Lane.ATTEMPT 0) (lb n) Reg.Lane.FAIL_RUN 0
    if st = 6 && same then setLink s n 4 0
    else laneAttempt (setMode (laneQuiet (laneUpd s n (fun x => { x with rx := [], txq := [], txPhase := 0, tsq := [], inj := false })) n) n m) n

/-- `LINK_SET`. -/
def cmdLinkSet (c : Cmd) (s : State) : State :=
  let q := quadOf c.pl
  let n := laneOf c.pl
  let act := pb c.pl 3
  if !holdsLink s c then cmdDenied c 0 0 s
  else if !(decide (pb c.pl 0 ≤ 7) && decide (pb c.pl 1 ≤ 3) && decide (pb c.pl 2 ≤ 3) && decide (act ≤ 2)) ||
      (act == 1 && !linkSettings c) || fbit s (lb n) Reg.Lane.GROUP_MEMBER then cmdBad c s
  else if dieOut s (pb c.pl 0) then cmdOff c (n % 16) s
  else withObjs c (fun s =>
    match act with
    | 0 => cmdOk c [] (if (quadGet s q).pst = 0 then laneDisable s n else laneUpd s n (fun x => { x with enabled := false }))
    | 1 =>
      if (quadGet s q).pst = 4 || !fbit s (quadBase q) Reg.Quad.REFCLK_OK then cmdFailed c 8 0 (n % 16) s
      else
        let s := if (quadGet s q).pst = 0 then s else quadWake s q
        if !fbit s (quadBase q) Reg.Quad.MCU_RUN then cmdFailed c 8 0 (n % 16) s
        else if !baudFits s n (pb c.pl 4) (leAt c.pl 6 2) (leAt c.pl 8 4) then cmdBad c s
        else cmdOk c [] (linkEnable c n s)
    | _ => if linkState s n = 5 then cmdOk c [] (setLink s n 6 1) else cmdFailed c 8 0 (n % 16) s) s

/-! ### `LINK_STATUS` -/

/-- The 24 bytes of a lane. -/
def laneStatus (s : State) (n : Nat) : List Byte :=
  let g (f : Fld) : Nat := fget s (lb n) f
  [byte (g Reg.Lane.LINK_STATE), byte (g Reg.Lane.MODE), byte (g Reg.Lane.PSTATE), byte (g Reg.Lane.LAST_CAUSE), byte (g Reg.Lane.ATTEMPT),
    byte (g Reg.Lane.FAIL_RUN)] ++ natLe (g Reg.Lane.WAIT_LEFT) 2 ++ natLe (g Reg.Lane.UP_CNT) 2 ++ natLe (g Reg.Lane.DOWN_CNT) 2 ++
    natLe (g Reg.Lane.ABANDON_CNT) 2 ++ natLe (g Reg.Lane.FAIL_CNT) 2 ++ natLe (g Reg.Lane.EYE_H) 2 ++ natLe (g Reg.Lane.EYE_V) 2 ++
    natLe (g Reg.Lane.FEC_UNCORR_CNT) 4
/-- `LINK_STATUS`. -/
def cmdLinkStatus (c : Cmd) (s : State) : State :=
  let q := 4 * (pb c.pl 0 % 8) + pb c.pl 1 % 4
  if !holdsLink s c then cmdDenied c 0 0 s
  else if !(decide (pb c.pl 0 ≤ 7) && decide (pb c.pl 1 ≤ 3) && decide (pb c.pl 2 < 16)) then cmdBad c s
  else if dieOut s (pb c.pl 0) then cmdOff c (q % 4) s
  else cmdOk c (((List.range 4).filter (fun l => (pb c.pl 2).testBit l)).flatMap (fun l => laneStatus s (4 * q + l))) s

/-! ### `LINK_TEST` -/

/-- A PAM4 mode (R339). -/
def pam4 (m : Nat) : Bool := [0x04, 0x06, 0x07, 0x11, 0x20].contains m
/-- The pattern that a lane takes: an NRZ lane refuses PRBS13Q and PRBS31Q (R357). -/
def patternRefused (s : State) (n p : Nat) : Bool := !pam4 (laneMode s n) && (p == 3 || p == 7)

/-- A lane enters TEST with the payload's pattern, checker and loopback; refused patterns stay off and set `TEST_REJECT` (R357, R360).
The checker's counts start at 0. -/
def enterTest (c : Cmd) (n : Nat) (s : State) : State :=
  let b := lb n
  let gen := pb c.pl 4
  let chk := pb c.pl 5
  let no := patternRefused s n gen || patternRefused s n chk
  let s := laneUpd (laneQuiet s n) n (fun x => { x with rx := [], txq := [], txPhase := 0, tsq := [], inj := false })
  let s := setLink (fset s b Reg.Lane.WAIT_LEFT 0) n 10 0
  let s := fset s b Reg.Lane.PRBS_GEN (if patternRefused s n gen then 0 else gen)
  let s := fset s b Reg.Lane.PRBS_CHK (if patternRefused s n chk then 0 else chk)
  let s := fset s b Reg.Lane.LOOPBACK (pb c.pl 6)
  let s := csrClear (fflag (laneUpd s n (fun x => { x with waitAt := 0, chkPhase := 0, chkRun := 0 })) b Reg.Lane.CHK_LOCK false) (b + 0x070) (b + 0x080)
  if no then fflag s b Reg.Lane.TEST_REJECT true else s

/-- The lane of the command is the hub's (die 8). -/
def hubLane (c : Cmd) : Bool := pb c.pl 0 == 8
/-- A lane that `LINK_TEST` can take: its quad's microcontroller runs, and a hub lane's PCIe controller is disabled (R360). -/
def testable (s : State) (c : Cmd) : Bool :=
  let q := quadOf c.pl
  fbit s (quadBase q) Reg.Quad.MCU_RUN && fbit s (quadBase q) Reg.Quad.REFCLK_OK && (!hubLane c || !(pcieGet s ((q - 32) / 4)).up) &&
    linkState s (laneOf c.pl) != 9

/-- The end of a test: the counts are returned and the lane leaves TEST. -/
def linkTestEnd (c : Cmd) (s : State) : State :=
  let n := laneOf c.pl
  let s := testResult s n
  cmdOk c (testCounts s n) (if linkState s n = 10 then laneLeaveTest s n else s)

/-- `LINK_TEST`. -/
def cmdLinkTest (c : Cmd) (s : State) : State :=
  let n := laneOf c.pl
  let act := pb c.pl 3
  let ms := leAt c.pl 8 4
  let where' := if hubLane c then decide (pb c.pl 1 ≤ 7) else decide (pb c.pl 0 ≤ 7) && decide (pb c.pl 1 ≤ 3)
  if (if hubLane c then c.part != 0 else !holdsLink s c) then cmdDenied c 0 0 s
  else if !(where' && decide (pb c.pl 2 ≤ 3) && decide (act ≤ 1) && zeros c.pl 7 8) || fbit s (lb n) Reg.Lane.GROUP_MEMBER ||
      (act == 0 && !(decide (pb c.pl 4 ≤ 7) && decide (pb c.pl 5 ≤ 7) && decide (pb c.pl 6 ≤ 3) && decide (ms ≤ 3600000))) then cmdBad c s
  else if !hubLane c && dieOut s (pb c.pl 0) then cmdOff c (n % 16) s
  else withObjs c (fun s =>
    if act = 1 then (if linkState s n = 10 then linkTestEnd c s else cmdFailed c 8 0 (n % 16) s)
    else if !testable s c then cmdFailed c 8 0 (n % 16) s
    else
      let s := enterTest c n s
      if ms = 0 then cmdOk c [] s else cmdWait c .run s) s

end Sys2Proof.Machine
end

