-- ==== Sys2Proof/Machine/CmdPower.lean ====
section
/-! DEFINITION. Mailbox commands on power and health: `POWER_SET`, `DEVICE_STATE`, `HEALTH_READ`, `POLICY_SET` (13 R398; 15 R440 to
R447, R452 to R456, R460, R464). -/

namespace Sys2Proof.Machine

/-! ### `POWER_SET` -/

/-- The sender holds the domain that bytes 0 to 2 name, or is P0. -/
def holdsDomain (s : State) (c : Cmd) : Bool :=
  let d := pb c.pl 1
  let i := pb c.pl 2
  c.part == 0 || (decide (d ≤ 7) && match pb c.pl 0 with
    | 0 => decide (i ≤ 47) && islHolder s (48 * d + i) == c.part
    | 1 => decide (i ≤ 9) && eisHolder s (10 * d + i) == c.part
    | _ => decide (i ≤ 3) && quadHolder s (4 * d + i) == c.part)

/-- An island's power state that a command asks for: 0 RUN, 1 OFF, 2 OFF_LOCKED, as a NoC state (08 R248). -/
def wantState (st : Nat) : Nat := if st = 0 then 0 else st + 2
/-- The island is on its way down under a transition. -/
def goingDown (s : State) (n : Nat) : Bool := islState s n == 1 || (islState s n == 2 && (nocGet s n).kind != 0)

/-! ### Meetings of a power-down with a wake (00 R11; 08 R246; 15 R457) -/

/-- The mailbox command that a row submits, with its opcode. -/
def rowReq (i : Instr) : Option (Nat × MbReq) :=
  match i with
  | .badOpcode r o => some (o.toNat, r)
  | .devInfo r => some (0x01, r)
  | .ifLevel r => some (0x02, r)
  | .attach r => some (0x10, r)
  | .detach r => some (0x11, r)
  | .partInfo r => some (0x12, r)
  | .regionLoad r => some (0x20, r)
  | .regionUnload r => some (0x21, r)
  | .regionStatus r => some (0x22, r)
  | .engineLoad r => some (0x30, r)
  | .periodSet r => some (0x31, r)
  | .engineStats r => some (0x32, r)
  | .linkSet r => some (0x40, r)
  | .linkStatus r => some (0x41, r)
  | .linkTest r => some (0x42, r)
  | .powerSet r => some (0x50, r)
  | .deviceState r => some (0x51, r)
  | .healthRead r => some (0x52, r)
  | .policySet r => some (0x53, r)
  | .memAlloc r => some (0x60, r)
  | .memRelease r => some (0x61, r)
  | .subtreeReset r => some (0x62, r)
  | .updateStage r => some (0x70, r)
  | .updateStatus r => some (0x71, r)
  | .ownerLock r => some (0x72, r)
  | .journalRead r => some (0x80, r)
  | .alarmRead r => some (0x81, r)
  | .alarmAck r => some (0x82, r)
  | .journalClear r => some (0x83, r)
  | .abort r => some (0xF0, r)
  | .echo r => some (0xF1, r)
  | _ => none
/-- The command that a waiting row submits, where its path reaches the mailbox, which is free. -/
def rowSampled (s : State) (i : Instr) : Option Cmd :=
  match rowReq i with
  | none => none
  | some (op, r) =>
    let n := r.mb.val
    let c : Cmd := { n := n, op := op, part := mbHolder s n, path := r.path, session := r.session.toNat, len := r.len.toNat, pl := r.payload }
    match pathPart s r.path with
    | none => none
    | some p => if mbReach s r.path p n && !mbBusy s n && (mbGet s n).bell.isNone && s.boot.dmc then some c else none
/-- The command passes the checks before its payload too. -/
def rowCmd (s : State) (op : Nat) (i : Instr) : Option Cmd := (rowSampled s i).filter (fun c => c.op == op && (cmdGate s c).isNone)
/-- `POWER_SET` RUN for a domain of kind t whose number over all dies is one of `ns`. -/
def asksRun (c : Cmd) (t : Nat) (ns : List Nat) : Bool :=
  let per := if t = 0 then 48 else if t = 1 then 10 else 4
  pb c.pl 0 == t && pb c.pl 3 == 0 && decide (pb c.pl 1 ≤ 7) && decide (pb c.pl 2 < per) && ns.contains (per * pb c.pl 1 + pb c.pl 2)
/-- A `POWER_SET` RUN for the domain waits in the queue: it is sampled in the same cycle. -/
def runMeets (s : State) (t : Nat) (ns : List Nat) : Bool :=
  s.pending.any (fun i => (rowCmd s 0x50 i).any (fun c => holdsDomain s c && asksRun c t ns))
/-- A `LINK_SET` enable for a lane of quad q waits in the queue. -/
def linkMeets (s : State) (q : Nat) : Bool :=
  s.pending.any (fun i => (rowCmd s 0x40 i).any (fun c =>
    holdsLink s c && pb c.pl 3 == 1 && decide (pb c.pl 0 ≤ 7) && 4 * pb c.pl 0 + pb c.pl 1 % 4 == q))
/-- A command of the session waits in the queue (13 R396). -/
def leaseMeets (s : State) (id : Nat) : Bool :=
  s.pending.any (fun i => (rowSampled s i).any (fun c => c.session == id && sessOk s c))
/-- The packet that a row brings to its target's router. -/
def rowPacket (i : Instr) : Option Packet :=
  match i with
  | .rd p | .wr p | .msg p => some p
  | _ => none
/-- A packet that wakes island n, which is OFF, waits in the queue. -/
def packetMeets (s : State) (n : Nat) : Bool :=
  islState s n == 3 && wakePermitted s n && s.pending.any (fun i =>
    (rowPacket i).any (fun p => dstOf p == islNode n && !p.nw && headerOk p && !nodeRefused s p))

/-- A doorbell of another mailbox, and not one that asks for DORMANT, waits in the queue: wake source 3 meets a sleep request
(15 R442, R447, R449). -/
def bellMeets (s : State) (own : Option Nat) : Bool :=
  s.pending.any (fun i => (rowSampled s i).any (fun c => own != some c.n && !(c.op == 0x50 && pb c.pl 0 == 3 && pb c.pl 3 == 4)))

/-- RUN was asked for: what a power-down sampled in the same cycle meets. -/
def islAsked (s : State) (n : Nat) : State := islUpd s n (fun i => { i with wakeAt := s.up + 1 })
/-- A power-down of the islands meets a wake of them. -/
def islMet (s : State) (ms : List Nat) : Bool :=
  runMeets s 0 ms || ms.any (fun m => (islGet s m).wakeAt == s.up + 1 && (islState s m == 0 || islState s m == 5))

/-! ### Domains -/

/-- RUN for a logic island and its splice (R452): one with an image wakes; without an image, or with its partition stopped, it is
powered and stays held. -/
def islWant (c : Cmd) (n : Nat) (s : State) : State :=
  let ms := spliceMembers s n
  let st := islState s n
  let s := ms.foldl islAsked s
  if st = 0 ∨ st = 2 then cmdOk c [0] s
  else if st = 5 then cmdWait c .run s
  else if ms.all (fun m => (islGet s m).image && islMayRun s m) then
    cmdWait c .run (wakeStart (ms.foldl (fun s m => if islState s m = 4 then setIslState s m 3 else s) s) n)
  else cmdOk c [0] (ms.foldl (fun s m => setIslState (islUpd s m (fun i => { i with wakeFailed := false })) m 0) s)

/-- OFF or OFF_LOCKED for a logic island and its splice (R452, R454, R457). -/
def islDown (c : Cmd) (n st : Nat) (keep : Bool) (s : State) : State :=
  let ms := spliceMembers s n
  let now := islState s n
  if now = wantState st then cmdOk c [0] s
  else if now = 3 ∨ now = 4 ∨ now = 6 then
    if ms.any (packetMeets s) then cmdOk c [1] s
    else cmdOk c [0] (ms.foldl (fun s m => setIslState s m (offState s m (wantState st))) s)
  else
    let s := ms.foldl (fun s m => islUpd s m (fun i => { i with keepBram := keep, pendRel := false })) s
    cmdWait c .run (ms.foldl (fun s m =>
      if islState s m = 2 then nocUpd s m (fun x => { x with kind := st, device := false }) else drainStart s m st false) s)

/-- Target 0. -/
def powerIsland (c : Cmd) (s : State) : State :=
  let n := 48 * pb c.pl 1 + pb c.pl 2
  let st := pb c.pl 3
  withObjs c (fun s =>
    if st != 0 && (islState s n == 0 || islState s n == 5) && islMet s (spliceMembers s n) then cmdOk c [1] s
    else if goingDown s n || (islState s n == 5 && st != 0) then cmdWait c .object s
    else if st = 0 then islWant c n s else islDown c n st (pb c.pl 4 == 1) s) s
/-- The end of a logic island's transition; a wake that failed is reported with `WAKE_FAIL`. -/
def powerIslandEnd (c : Cmd) (s : State) : State :=
  let n := pb c.pl 1 % 8 * 48 + pb c.pl 2 % 48
  let ms := spliceMembers s n
  if pb c.pl 3 = 0 then
    if ms.any (fun m => islState s m == 6) then cmdFailed c 1 (respCode .wakeFail) (n % 48) s
    else if ms.all (fun m => islState s m == 0 && !(islGet s m).pendRel) then cmdOk c [0] s
    else s
  else if ms.any (goingDown s) then s
  else cmdOk c [0] s

/-- Target 1 (R455, R457). -/
def powerEngines (c : Cmd) (s : State) : State :=
  let e := 10 * pb c.pl 1 + pb c.pl 2
  let st := wantState (pb c.pl 3)
  withObjs c (fun s =>
    let now := (eisGet s e).pst
    let asked (s : State) : State := eisUpd s e (fun x => { x with wakeAt := s.up + 1 })
    if now = st then cmdOk c [0] (if st = 0 then asked s else s)
    else if now = 0 ∧ (runMeets s 1 [e] = true ∨ (eisGet s e).wakeAt = s.up + 1) then cmdOk c [1] s
    else if st = 0 then
      let r := eisWake (asked s) e
      match r.1 with
      | some k => cmdFailed c 8 0 k r.2
      | none => cmdOk c [0] r.2
    else if now = 0 then cmdOk c [0] (eisPowerOff s e st)
    else cmdOk c [0] (eisUpd s e (fun x => { x with pst := st }))) s

/-- Target 2 (R456, R457). -/
def powerQuad (c : Cmd) (s : State) : State :=
  let q := 4 * pb c.pl 1 + pb c.pl 2
  let st := wantState (pb c.pl 3)
  withObjs c (fun s =>
    let now := (quadGet s q).pst
    let asked (s : State) : State := quadUpd s q (fun x => { x with wakeAt := s.up + 1 })
    if now = st then cmdOk c [0] (if st = 0 then asked s else s)
    else if now = 0 ∧ (runMeets s 2 [q] = true ∨ linkMeets s q = true ∨ (quadGet s q).wakeAt = s.up + 1) then cmdOk c [1] s
    else if st = 0 then cmdOk c [0] (quadWake (asked s) q)
    else if now = 0 then cmdOk c [0] (quadOff s q st)
    else cmdOk c [0] (quadUpd s q (fun x => { x with pst := st }))) s

/-- Target 3 (R440 to R447): the response is written at the commit point; a request during an entry waits for its end. -/
def powerDevice (c : Cmd) (s : State) : State :=
  let st := pb c.pl 3
  if !protLocked s then cmdDenied c 5 0 s
  else if !(planGet s c.part).steward then cmdDenied c 0 0 s
  else if !(st == 0 || st == 3 || st == 4) || 1 < pb c.pl 4 then cmdBad c s
  else if (devState s = 1 ∧ st ≠ 3) ∨ (devState s = 3 ∧ st ≠ 0) then cmdWait c .object s
  else if st = 0 then
    cmdOk c [0] (if devState s = 2 then standbyExit s (if wakeEnabled s 3 then some 3 else none) else s)
  else match (sleepRequest s (st == 4) (bellMeets s (some c.n))).1 with
    | .same => cmdOk c [0] s
    | .noSource => cmdBad c s
    | .abandoned => cmdOk c [1] (sleepRequest s (st == 4) (bellMeets s (some c.n))).2
    | .committed => cmdOk c [0] (sleepRequest s (st == 4) (bellMeets s (some c.n))).2

/-- AUTO_IDLE (R441): the DMC's own request, journalled. Before the plan lock it is refused (R440). -/
def opAutoIdle (s : State) : State :=
  let dormant := fbit s pwrBase Reg.Pwr.AUTO_TARGET
  let st := devState s
  if fget s pwrBase Reg.Pwr.AUTO_IDLE_S = 0 ∨ s.boot.dmc = false ∨ deviceIdle s = false ∨ ¬(st = 0 ∨ (st = 2 ∧ dormant = true)) then s
  else
    let s := jEvent s 0x8E (if dormant then 4 else 3) 0
    if protLocked s then (sleepRequest s dormant (bellMeets s none)).2 else s

def execAutoIdle (s : State) : Out := .next (opAutoIdle s)

/-- `POWER_SET`. -/
def cmdPowerSet (c : Cmd) (s : State) : State :=
  let t := pb c.pl 0
  let top := if t = 0 then 47 else if t = 1 then 9 else 3
  if 3 < t then cmdBad c s
  else if t = 3 then powerDevice c s
  else if !holdsDomain s c then cmdDenied c 0 0 s
  else if !(decide (pb c.pl 1 ≤ 7) && decide (pb c.pl 2 ≤ top) && decide (pb c.pl 3 ≤ 2) && decide (pb c.pl 4 ≤ 1)) then cmdBad c s
  else if dieOut s (pb c.pl 1) then cmdOff c (pb c.pl 2) s
  else if t = 0 then powerIsland c s
  else if t = 1 then powerEngines c s
  else powerQuad c s

/-! ### State and health -/

/-- `DEVICE_STATE`. -/
def cmdDeviceState (c : Cmd) (s : State) : State :=
  let d := pb c.pl 0
  let shown (held v : Nat) : Byte := if c.part = 0 ∨ held = c.part then byte v else 0xFF
  let head := [byte (devState s), byte (featureLevel s), byte (fget s 0 Reg.Hub.DIES_PRESENT), byte (fget s 0 Reg.Hub.DIES_FENCED),
    byte (fget s 0 Reg.Hub.PROT_LOCK), 0, 0, 0]
  let isl := (List.range 48).map (fun i => shown (islHolder s (48 * d + i)) (islState s (48 * d + i)))
  let eis := (List.range 10).map (fun e => shown (eisHolder s (10 * d + e)) (eisGet s (10 * d + e)).pst)
  let quads := (List.range 4).map (fun q => shown (quadHolder s (4 * d + q)) (quadGet s (4 * d + q)).pst)
  if 7 < d then cmdBad c s else cmdOk c (head ++ isl ++ eis ++ quads) s

/-- Section 0 of `HEALTH_READ`. -/
def healthSummary (s : State) (p : Nat) : List Byte :=
  let open' := s.alarms.filter (fun a => !a.acked && alarmSeen s p a)
  let cls := ((List.range 5).filter (fun k => open'.any (fun a => a.cls == k))).map (2 ^ ·)
  let chans (st : Nat) : Nat := (((List.range 8).filter (fun n => mcState s n == st)).map (2 ^ ·)).sum
  [byte (devState s), byte (policy s), byte cls.sum, 0, byte (fget s 0 Reg.Hub.DIES_PRESENT), byte (fget s 0 Reg.Hub.DIES_FENCED),
    byte (chans 4), byte (chans 3)] ++ natLe (hottest s (List.range 52)) 2

/-- Section 1: four bytes per hawser of a die. -/
def healthHawsers (s : State) (d : Nat) : List Byte :=
  (List.range 16).flatMap (fun n =>
    let g (f : Fld) : Nat := fget s (hb (16 * d + n)) f
    [byte (g Reg.Hw.STATE + 4 * g Reg.Hw.HALF_SEL + 8 * g Reg.Hw.CLK_SEL), byte (g Reg.Hw.SPARES_FREE), byte (g Reg.Hw.SWAP_CNT),
      byte (g Reg.Hw.ROWS)])

/-- Section 2: eight bytes per channel. -/
def healthChannels (s : State) : List Byte :=
  (List.range 8).flatMap (fun n =>
    [byte (mcState s n), byte (mcF s n Reg.Mc.RATE_IDX), byte (mcF s n Reg.Mc.DISABLE_CAUSE), byte (mcF s n Reg.Mc.FAIL_STEP)] ++
      natLe (min 0xFFFF (mcF s n Reg.Mc.CE_CNT)) 2 ++ natLe (min 0xFFFF (mcF s n Reg.Mc.UE_CNT)) 2)

/-- One record of section 3 (15 R460): Fd for d from 0 to 7 on rail d + 1, 8 the hub on rail 0. -/
def healthRecord (s : State) (d : Nat) : List Byte :=
  let r := (d + 1) % 9
  let x := railGet s r
  let y := lastSecond s r
  let status := if frozen s r then 1 else if highBound s r ≤ vSet s r then 2 else 0
  natLe (y.hot.getD (hottest s (dieSensors d))) 2 ++ natLe (vSet s r) 2 ++ natLe (fget s pwrBase (Reg.Pwr.V_MEAS r)) 2 ++ natLe x.amp 2 ++ natLe x.watt 2 ++
    natLe x.wouldBe 2 ++ [byte (fget s pwrBase (Reg.Pwr.AGE_OFS r)), byte (if d = 8 then 0xFF else y.lo)] ++
    natLe (min 0xFFFF y.st) 2 ++ natLe (min 0xFFFF y.ex) 2 ++ [byte status, 0]
/-- Section 3. -/
def healthSensors (s : State) : List Byte :=
  let watts := (((List.range 9).map (fun r => (railGet s r).watt)).sum + 5) / 10
  [byte (policy s), 9] ++ natLe (fget s pwrBase Reg.Pwr.V_LOW) 2 ++ natLe (fget s pwrBase Reg.Pwr.V_HIGH) 2 ++ natLe watts 2 ++
    (List.range 9).flatMap (healthRecord s)

/-- Section 4: the poisoned spans that touch granules of the sender's partition (11 R330). -/
def healthSec (s : State) (p : Nat) : List Byte :=
  let spans := psSlots.filterMap (psEntry s)
  let touch := spans.filter (fun x =>
    let g := spanGrans s x.1 x.2
    s.sec.gran.any (fun e => decide (g.1 ≤ e.1) && decide (e.1 < g.2) && e.2.owner == p))
  let b (f : Fld) (w : Nat) : Nat := if fbit s secBase f then w else 0
  [byte (b Reg.Sec.KEY_READY 1 + b Reg.Sec.WIN_ACTIVE 2 + b Reg.Sec.WIN_POISONED 4), byte (fget s secBase (Reg.Sec.SEC_CNT p)),
    byte (if (partGet s p).escalated then 1 else 0), byte touch.length] ++
    touch.flatMap (fun x => [byte x.1, 0, 0, 0] ++ natLe x.2 4)

/-- `HEALTH_READ`. -/
def cmdHealthRead (c : Cmd) (s : State) : State :=
  let d := pb c.pl 1
  match pb c.pl 0 with
  | 0 => if d ≠ 0 then cmdBad c s else cmdOk c (healthSummary s c.part) s
  | 1 => if 7 < d then cmdBad c s else if asleep s then cmdOff c d s else cmdOk c (healthHawsers s d) s
  | 2 => if d ≠ 0 then cmdBad c s else cmdOk c (healthChannels s) s
  | 3 => if d ≠ 0 then cmdBad c s else cmdOk c (healthSensors s) s
  | 4 => if d ≠ 0 then cmdBad c s else cmdOk c (healthSec s c.part) s
  | _ => cmdBad c s

/-! ### `POLICY_SET` -/

/-- Every rail that a partition bounds keeps a voltage in its bounds. -/
def boundsMeet (s : State) (p : Nat) : Bool :=
  ((List.range 9).filter (fun r => (boundParts s r).contains p)).all (fun r => decide (lowBound s r ≤ highBound s r))
/-- `POLICY_SET` (15 R464): from P0 the policy and the device's bounds, from a host its own bounds; both take effect at the next period
of the loop. -/
def cmdPolicySet (c : Cmd) (s : State) : State :=
  let pol := pb c.pl 0
  let lo := leAt c.pl 2 2
  let hi := leAt c.pl 4 2
  let range := decide (700 ≤ lo ∧ lo ≤ 880) && decide (700 ≤ hi ∧ hi ≤ 880) && pb c.pl 1 == 0
  if c.part ≠ 0 ∧ pol ≠ 0xFF then cmdDenied c 0 0 s
  else if !range || (c.part == 0 && (decide (2 < pol) || decide (hi < lo))) then cmdBad c s
  else if c.part = 0 then
    cmdOk c [] (pwrUpd s (fun p =>
      { p with bounds := tset (0, 0) p.bounds 0 (lo, hi), nextPolicy := if pol = policy s then none else some pol }))
  else
    let t := pwrUpd s (fun p => { p with bounds := tset (0, 0) p.bounds c.part (lo, hi) })
    if boundsMeet (applyBounds t) c.part then cmdOk c [] t else cmdDenied c 0 0 s

end Sys2Proof.Machine
end

