-- ==== Sys2Proof/Machine/CmdMem.lean ====
section
/-! DEFINITION. Mailbox commands on memory, field update, journal and alarms: `MEM_ALLOC` to `JOURNAL_CLEAR` (13 R398, R399; 11
R312, R313, R331; 16 R500 to R506). -/

namespace Sys2Proof.Machine

/-! ### `MEM_ALLOC`, `MEM_RELEASE` -/

/-- Granules of a range that some partition or the metadata own. -/
def takenIn (s : State) (lo hi : Nat) : List Nat :=
  (s.sec.gran.filter (fun e => decide (lo ≤ e.1) && decide (e.1 < hi) && e.2.owner != 0x1F)).map (fun e => e.1)
/-- The lowest start of a free run of n granules inside one range. -/
def freeRun (s : State) (n : Nat) (x : GRange) : Option Nat :=
  let hi := x.first + x.count
  (x.first :: (takenIn s x.first hi).map (· + 1)).find? (fun a => decide (a + n ≤ hi) && (takenIn s a (a + n)).isEmpty)
/-- The lowest run over the ranges of a partition. -/
def lowestRun (s : State) (p n : Nat) : Option Nat :=
  ((planGet s p).granges.filterMap (freeRun s n)).foldl (fun m a => some (match m with
    | none => a
    | some b => min a b)) none

/-- `MEM_ALLOC`. -/
def cmdMemAlloc (c : Cmd) (s : State) : State :=
  let first := leAt c.pl 0 4
  let n := leAt c.pl 4 4
  let take (a : Nat) (s : State) : State := cmdOk c (natLe a 4 ++ natLe n 4) (assignRange s a n c.part false)
  if !(decide (1 ≤ n ∧ n ≤ 524288)) || !(decide (first < 2 ^ 22) || first == 0xFFFFFFFF) then cmdBad c s
  else if first ≠ 0xFFFFFFFF ∧ !rangesCover (planGet s c.part).granges 5 first (first + n) then cmdDenied c 0 0 s
  else withObjs c (fun s =>
    if first = 0xFFFFFFFF then
      match lowestRun s c.part n with
      | some a => take a s
      | none => mbFinish s c.n stNoResource 0 []
    else if (takenIn s first (first + n)).isEmpty then take first s
    else mbFinish s c.n stNoResource 0 []) s

/-- Every granule of the range is the sender's and not locked. -/
def mayRelease (s : State) (p lo n : Nat) : Bool :=
  (s.sec.gran.filter (fun e => decide (lo ≤ e.1) && decide (e.1 < lo + n) && e.2.owner == p && !e.2.locked)).length == n
/-- Granules given back: zeroized, owner 0x1F (11 R313). -/
def releaseGrans (s : State) (lo n : Nat) : State :=
  secUpd s (fun e => { e with gran := (e.gran.map (fun x =>
    if lo ≤ x.1 ∧ x.1 < lo + n then (x.1, { x.2 with owner := 0x1F, init := false, flip := 0, bad := false }) else x)).filter (fun x => decide (x.2 ≠ {})) })
/-- The end of a release, once no work of the engine covers a granule of it (11 R312). -/
def memReleaseEnd (c : Cmd) (s : State) : State :=
  let lo := leAt c.pl 0 4
  let n := leAt c.pl 4 4
  if granWork s lo (lo + n) then s else cmdOk c [] (releaseGrans s lo n)
/-- `MEM_RELEASE`: reported complete once every request of the old owner is answered. -/
def cmdMemRelease (c : Cmd) (s : State) : State :=
  let lo := leAt c.pl 0 4
  let n := leAt c.pl 4 4
  if !(decide (lo < 2 ^ 22) && decide (1 ≤ n ∧ n ≤ 2 ^ 22)) then cmdBad c s
  else if !mayRelease s c.part lo n then cmdDenied c 0 0 s
  else withObjs c (fun s => if granWork s lo (lo + n) then cmdWait c .run s else memReleaseEnd c s) s

/-! ### `SUBTREE_RESET` -/

/-- Level and index name a node of the window, or the whole window (11 R331). -/
def resetOk (s : State) (k i : Nat) : Bool :=
  fbit s secBase Reg.Sec.WIN_ACTIVE && (if k = 15 then i == 0 else decide (k ≤ winDepth s) && decide (i < winPages s / 8 ^ k))
/-- The sender may reset the span (11 R330, R331). -/
def resetMay (s : State) (p k i : Nat) : Bool :=
  let g := spanGrans s k i
  p == 0 || (k != 15 && (s.sec.gran.filter (fun e => decide (g.1 ≤ e.1) && decide (e.1 < g.2) && e.2.owner == p)).length == g.2 - g.1)
/-- `SUBTREE_RESET`: the payload is checked before the sender. -/
def cmdSubtreeReset (c : Cmd) (s : State) : State :=
  let k := pb c.pl 0
  let i := leAt c.pl 4 4
  if !zeros c.pl 1 4 || !resetOk s k i then cmdBad c s
  else if !resetMay s c.part k i then cmdDenied c 0 0 s
  else if asleep s ∧ k < winDepth s then cmdOff c 0 s
  else withObjs c (fun s => cmdWait c .run (secUpd s (fun e => { e with reset := some (k, i) }))) s
/-- SUBTREE_RESET_DONE: the reset completes, and the command that asked for it. -/
def opResetDone (s : State) : State :=
  let asked := (List.range 32).filter (fun n => mbBusy s n && (mbGet s n).wait == .run && (mbGet s n).ropcode == 0x62)
  asked.foldl (fun s n => mbFinish s n stOk 0 []) (opSubtreeResetDone s)

/-! ### Field update (16 R501 to R503, R506) -/

/-- What blocks a stage at its doorbell, and at a page of it (16 R502, R503). -/
def stageBlock (s : State) (doorbell : Bool) : Option Nat :=
  if doorbell && s.flash.ownerLock then some 1
  else if s.pwr.plantBatt then some 2
  else if s.pwr.marginLow then some 3
  else none
/-- A chunk begins: the slot is incomplete; with bit 0 of the flags it is stale as a whole. -/
def stageBegin (s : State) (flags : Nat) : State :=
  let k := idleSlot s
  let s := setMarker { s with flash := { s.flash with staging := true } } k false
  if flags.testBit 0 then
    { s with flash := { s.flash with marked := s.flash.marked.filter (· != k) ++ [k], fresh := s.flash.fresh.filter (fun j => j / 16384 != k) } }
  else s
/-- The arguments of `UPDATE_STAGE` are in range. -/
def stageOk (c : Cmd) : Bool :=
  match descAt c.pl 16 with
  | none => false
  | some x => decide (pb c.pl 4 < 4) && zeros c.pl 5 16 && decide (x.2 ≤ 2 ^ 20) && decide (4096 * leAt c.pl 0 4 + x.2 ≤ 2 ^ 30)
/-- `UPDATE_STAGE`. -/
def cmdUpdateStage (c : Cmd) (s : State) : State :=
  match descAt c.pl 16 with
  | none => cmdBad c s
  | some x =>
    if !stageOk c then cmdBad c s
    else match stageBlock s true with
      | some k => cmdDenied c 8 k s
      | none => withObjs c (fun s =>
        if asleep s then cmdOff c 0 s
        else
          let r := dmcRead s c.part x.1 x.2
          if r.1 ≠ .okay then descEnd c r.1 r.2.2
          else mbUpd (stageBegin r.2.2 (pb c.pl 4)) c.n (fun m => { m with wait := .run, data := r.2.1 })) s
/-- The end of a chunk: written, or stopped at a page by a condition of R502 that arose (16 R503). -/
def updateStageEnd (c : Cmd) (s : State) : State :=
  match stageBlock s false with
  | some k => cmdDenied c 8 k (stageStop s c.n)
  | none =>
    let k := idleSlot s
    let d := (mbGet s c.n).data
    let s := flashWrite s k (4096 * leAt c.pl 0 4) d
    let s := if (pb c.pl 4).testBit 1 then
        jEvent (setMarker { s with flash := { s.flash with staging := false } } k true) 0x8F k (leAt (slotManifest s k) 0xC 4)
      else s
    cmdOk c (natLe d.length 4) s

/-- `UPDATE_STATUS`. -/
def cmdUpdateStatus (c : Cmd) (s : State) : State :=
  let staged := if marker s (idleSlot s) then 2 else if s.flash.staging then 1 else 0
  let results := (List.range 8).map (fun i => byte (s.flash.verify.getD i 0))
  let flag (b : Bool) : Byte := if b then 1 else 0
  cmdOk c (natLe s.flash.generation 4 ++ [byte staged] ++ results ++
    [flag s.flash.ownerLock, flag (s.pwr.plantBatt || s.pwr.marginLow), 0] ++ natLe (fget s 0 Reg.Hub.RB_FUSE) 4) s
/-- `OWNER_LOCK`. -/
def cmdOwnerLock (c : Cmd) (s : State) : State :=
  let v := pb c.pl 0
  if 1 < v then cmdBad c s
  else withObjs c (fun s => cmdOk c [] (jEvent { s with flash := { s.flash with ownerLock := v == 1 } } 0x92 v 0)) s

/-! ### Journal and alarms -/

/-- A journal record's 16 bytes (16 R495); one that fails in both copies reads with code 0x00 (R494). -/
def jBytes (r : JRec) : List Byte :=
  natLe r.index 4 ++ natLe r.start 2 ++ [byte (if r.copies % 4 = 0 then 0 else r.code), byte r.result] ++ natLe r.arg 2 ++ natLe r.detail 2 ++ natLe r.time 4
/-- `JOURNAL_READ` (16 R500). -/
def cmdJournalRead (c : Cmd) (s : State) : State :=
  let n := pb c.pl 4
  if !(decide (1 ≤ n ∧ n ≤ 14)) then cmdBad c s
  else
    let rs := (s.flash.journal.filter (fun r => decide (leAt c.pl 0 4 ≤ r.index))).take n
    cmdOk c ([byte rs.length, 0, 0, 0] ++ natLe (s.flash.nextJ - 1) 4 ++ List.replicate 8 0 ++ rs.flatMap jBytes) s
/-- `JOURNAL_CLEAR` (16 R500). -/
def cmdJournalClear (c : Cmd) (s : State) : State :=
  withObjs c (fun s => cmdOk c [] (jEvent { s with flash := { s.flash with steps := [], rates := [] } } 0x93 0 0)) s

/-- An alarm record's 24 bytes (R399). -/
def alarmBytes (a : Alarm) : List Byte :=
  natLe a.seq 4 ++ [byte a.cls, byte a.cause, byte a.part, if a.acked then 1 else 0] ++ natLe a.ns 4 ++ natLe a.sec 2 ++ [0, 0] ++
    (a.loc ++ List.replicate 8 0).take 8
/-- `ALARM_READ`. -/
def cmdAlarmRead (c : Cmd) (s : State) : State :=
  let n := pb c.pl 4
  if !(decide (1 ≤ n ∧ n ≤ 9)) then cmdBad c s
  else
    let seen := s.alarms.filter (alarmSeen s c.part)
    let rs := (seen.filter (fun a => decide (leAt c.pl 0 4 ≤ a.seq))).take n
    let newest := (seen.getLast?.map (fun a => a.seq)).getD 0
    let flags := (if alarmAsserted s then 1 else 0) + (if s.alarmLost then 2 else 0)
    cmdOk c ([byte rs.length, byte flags, 0, 0] ++ natLe newest 4 ++ List.replicate 8 0 ++ rs.flatMap alarmBytes) s
/-- Records that the partition may acknowledge (R399). -/
def mayAck (p : Nat) (a : Alarm) : Bool := p == 0 || a.part == p
/-- `ALARM_ACK`. -/
def cmdAlarmAck (c : Cmd) (s : State) : State :=
  let last := leAt c.pl 0 4
  let al := s.alarms.map (fun a => if decide (a.seq ≤ last) && mayAck c.part a then { a with acked := true } else a)
  let s := { s with alarms := al, alarmLost := s.alarmLost && !(c.part == 0 && decide (s.lostSeq ≤ last)) }
  cmdOk c (natLe ((al.filter (fun a => !a.acked && alarmSeen s c.part a)).length) 4) s

def execSubtreeResetDone (s : State) : Out := .next (opResetDone s)

end Sys2Proof.Machine
end

