-- ==== Sys2Proof/Machine/CmdRun.lean ====
section
/-! DEFINITION. How mailbox commands run: doorbells, dispatch, waiting for objects, completion, time limits, `ABORT`, lost paths and
the restart of the DMC (13 R375 to R378, R381, R387, R395 to R400). -/

namespace Sys2Proof.Machine

/-! ### Dispatch -/

/-- The command in service at a mailbox. -/
def svcCmd (s : State) (n : Nat) : Cmd :=
  let m := mbGet s n
  { n := n, op := m.ropcode, part := mbHolder s n, path := m.path.getD .i2c, session := m.rsession, len := m.cmd.length, pl := m.cmd }

/-- The last command of mailbox n completed in the present cycle (00 R9, R10). -/
def doneNow (s : State) (n : Nat) : Bool := (mbGet s n).state == 2 && (mbGet s n).doneAt == s.up + 1
/-- `ABORT` from another mailbox (R381, R397); one that meets the completion of its target comes too late. -/
def cmdAbort (c : Cmd) (s : State) : State :=
  let t := pb c.pl 0
  let m := mbGet s t
  if t ≤ 31 ∧ mbHolder s t ≠ c.part then cmdDenied c 7 0 s
  else if 31 < t ∨ pb c.pl 1 ≠ 0 then cmdBad c s
  else if t = c.n ∨ !(mbBusy s t || doneNow s t) ∨ m.rseq ≠ leAt c.pl 2 2 then cmdBad c s
  else if m.rsession ≠ 0 ∧ c.session ≠ m.rsession then cmdDenied c 7 0 s
  else if stoppable m.ropcode && !doneNow s t && !completesNow s t then cmdOk c [] (stopCommand s t stAborted 0)
  else mbFinish s c.n stTooLate 0 []

/-- A command past its first checks (R398). -/
def cmdBody (c : Cmd) (s : State) : State :=
  match c.op with
  | 0x01 => cmdDevInfo c s
  | 0x02 => cmdIfLevel c s
  | 0x10 => cmdAttach c s
  | 0x11 => cmdDetach c s
  | 0x12 => cmdPartInfo c s
  | 0x20 => cmdRegionLoad c s
  | 0x21 => cmdRegionUnload c s
  | 0x22 => cmdRegionStatus c s
  | 0x30 => cmdEngineLoad c s
  | 0x31 => cmdPeriodSet c s
  | 0x32 => cmdEngineStats c s
  | 0x40 => cmdLinkSet c s
  | 0x41 => cmdLinkStatus c s
  | 0x42 => cmdLinkTest c s
  | 0x50 => cmdPowerSet c s
  | 0x51 => cmdDeviceState c s
  | 0x52 => cmdHealthRead c s
  | 0x53 => cmdPolicySet c s
  | 0x60 => cmdMemAlloc c s
  | 0x61 => cmdMemRelease c s
  | 0x62 => cmdSubtreeReset c s
  | 0x70 => cmdUpdateStage c s
  | 0x71 => cmdUpdateStatus c s
  | 0x72 => cmdOwnerLock c s
  | 0x80 => cmdJournalRead c s
  | 0x81 => cmdAlarmRead c s
  | 0x82 => cmdAlarmAck c s
  | 0x83 => cmdJournalClear c s
  | 0xF0 => cmdAbort c s
  | 0xF1 => cmdEcho c s
  | _ => mbFinish s c.n stBadOpcode 0 []

/-! ### Waiting for objects (R377) -/

def waiting (s : State) (n : Nat) : Bool := mbBusy s n && (mbGet s n).wait == .object
/-- Commands that wait begin once their objects are free, the lowest mailbox first. -/
def retryWaiting (s : State) : State :=
  (List.range 32).foldl (fun s n => if waiting s n then cmdBody (svcCmd s n) s else s) s

/-! ### Doorbells (R375, R376) -/

/-- The command in the slot, as a request. -/
def slotReq (s : State) (n : Nat) (p : Path) : MbReq :=
  let m := mbGet s n
  { mb := ⟨n % 32, Nat.mod_lt _ (by decide)⟩, path := p, len := m.hdr0.extractLsb' 16 8, session := m.hdr1.extractLsb' 0 16
    seq := m.hdr1.extractLsb' 16 16, payload := slotBytes m (min 240 (m.hdr0.toNat / 65536 % 256)) }

/-- The doorbell as a wake source (15 R442, R449): not that of a request for DORMANT, and not the
one that asks for STANDBY. -/
def bellWakes (before : Nat) (c : Cmd) (s : State) : State :=
  let device := c.op == 0x50 && pb c.pl 0 == 3
  if device && (pb c.pl 3 == 4 || (pb c.pl 3 == 3 && before != 2)) then s else wakeFire s 3

/-- The lease of the command's session is renewed (R395). -/
def renew (c : Cmd) (s : State) : State :=
  if sessOk s c then { s with sessions := s.sessions.map (fun x => if x.id = c.session then { x with seen := s.up + 1 } else x) } else s
/-- The DMC samples a doorbell: BUSY, the lease, the checks, the command. -/
def serveSlot (s : State) (n : Nat) (p : Path) : State :=
  let before := devState s
  let r := slotReq s n p
  let s := mbBegin s r ((mbGet s n).hdr0.extractLsb' 0 16).toNat
  let c := { svcCmd s n with len := r.len.toNat }
  let s := match cmdGate (renew c s) c with
    | some e => mbFinish (renew c s) n e.1 e.2 []
    | none => cmdBody c (renew c s)
  retryWaiting (bellWakes before c s)

/-- The result of an in-slot `ABORT` (R381, R397). -/
def abortSeen (s : State) (n code : Nat) : State := mbUpd s n (fun m => { m with abortSeen := true, abortCode := code })
/-- An in-slot `ABORT` of the command in service: it counts over that command's path alone. -/
def abortSlot (s : State) (n : Nat) (p : Path) : State :=
  let m := mbGet s n
  if !mbBusy s n && !doneNow s n then s
  else if !m.path.any (samePath p) then abortSeen s n stDenied
  else if stoppable m.ropcode && mbBusy s n && !completesNow s n then retryWaiting (abortSeen (stopCommand s n stAborted 0) n stOk)
  else abortSeen s n stTooLate

/-- The mailbox counts as BUSY for writes of its command slot. -/
def slotClosed (s : State) (n : Nat) : Bool := mbBusy s n || (mbGet s n).bell.isSome

/-- A doorbell of a mailbox that is not BUSY: served, or held until firmware runs. -/
def ringBell (s : State) (n : Nat) (p : Path) : State :=
  if s.boot.dmc then serveSlot s n p else mbUpd s n (fun m => { m with bell := some p })
/-- The doorbell of an in-slot `ABORT`; behind a held doorbell it is held as well. -/
def ringAbort (s : State) (n : Nat) (p : Path) : State :=
  if mbBusy s n || doneNow s n then (let s := abortSlot s n p; wakeFire s 3)
  else mbUpd s n (fun m => { m with abortBell := some p })
/-- The firmware runs: the doorbells held are served (R376). -/
def serveBells (s : State) : State :=
  if !s.boot.dmc then s
  else (List.range 32).foldl (fun s n =>
    match (mbGet s n).bell with
    | none => s
    | some p =>
      let a := (mbGet s n).abortBell
      let s := serveSlot (mbUpd s n (fun m => { m with bell := none, abortBell := none })) n p
      match a with
      | some q => abortSlot s n q
      | none => s) s

/-- A command submitted over a path (R374, R375, R382): header, payload and doorbell. It is not taken where the path reaches no
mailbox, and discarded while the mailbox is BUSY, but for an in-slot `ABORT`. -/
def mailboxRow (op : Nat) (r : MbReq) (s : State) : State :=
  let n := r.mb.val
  if s.pwr.hubReset then s
  else match pathPart s r.path with
    | none => answer s .none 0
    | some part =>
      if !mbReach s r.path part n then answer s (if r.path = .i2c then .none else .partErr) 0
      else
        let s := answer s .okay 0
        if slotClosed s n then (if op = 0xF0 ∧ r.len = 0 then ringAbort s n r.path else s)
        else if op = 0xF0 ∧ r.len = 0 ∧ doneNow s n = true ∧ (mbGet s n).path.any (samePath r.path) = true then ringAbort s n r.path
        else ringBell (slotFill s r op) n r.path

/-! ### Completion (R375, R378) -/

/-- Islands that a region command leaves on their way: isolated where they stand. -/
def settleRegion (s : State) (ns : List Nat) : State :=
  ns.foldl (fun s n =>
    if (nocGet s n).kind = 3 then
      let s := if islState s n = 1 then islIsolate (answerPending s n) n else s
      nocUpd s n (fun x => { x with kind := 0 })
    else s) s

/-- The hardware is done with the command in service. -/
def cmdDone (n : Nat) (s : State) : State :=
  let c := svcCmd s n
  match c.op with
  | 0x21 => regionUnloadEnd c s
  | 0x30 => engineLoadEnd c s
  | 0x42 => linkTestEnd c s
  | 0x50 => if pb c.pl 0 = 0 then powerIslandEnd c s else s
  | 0x61 => memReleaseEnd c s
  | 0x70 => updateStageEnd c s
  | _ => s

/-- What a command that ends early leaves: its stop effect, the islands of an unload settled. -/
def endEarly (s : State) (n code : Nat) (det : Word) : State :=
  let m := mbGet s n
  if stoppable m.ropcode then stopCommand s n code det
  else mbFinish (if m.ropcode = 0x21 then settleRegion s (regionIslands m.cmd) else s) n code det []

/-- A command's operation failed (R380); a partial load still in its first reading has touched nothing (14 R428). -/
def cmdBroken (n src code idx : Nat) (s : State) : State :=
  let st := if src = 3 ∧ code = respCode .partErr then stDenied else stFailed
  let det := detail src code idx
  if (mbGet s n).ropcode = 0x20 ∧ s.load.any (fun l => l.partialLoad && decide (l.stage < 2)) = true then
    mbFinish { s with load := none } n st det []
  else endEarly s n st det

/-- COMMAND_COMPLETE. -/
def opCommandComplete (n : Nat) (fin : Finish) (s : State) : State :=
  if !mbBusy s n then s
  else match (mbGet s n).wait with
    | .none => s
    | .object => retryWaiting s
    | .run => match fin with
      | .ok => retryWaiting (cmdDone n s)
      | .failed src code idx => retryWaiting (cmdBroken n src.toNat code.toNat idx.toNat s)

/-- COMMAND_TIMEOUT (R398). No command passes its bound while it waits for an object, or for a run to end. -/
def opCommandTimeout (n : Nat) (s : State) : State :=
  let c := svcCmd s n
  if !mbBusy s n || (mbGet s n).wait != .run || (c.op == 0x30 && (cmdEngines c).any (loadHeld s)) then s
  else retryWaiting (endEarly s n stTimeout 0)

/-- OBJECT_WAIT_TIMEOUT (R377): a command whose object stayed held ends BUSY. -/
def opObjectWaitTimeout (n : Nat) (s : State) : State :=
  if waiting s n then
    let s := cmdBody (svcCmd s n) s
    if waiting s n then mbFinish s n stBusy 0 [] else s
  else s

/-! ### Sessions and paths (R396) -/

/-- LEASE_EXPIRE (R396): a command of the session that is sampled in the same cycle renews the lease. -/
def opLeaseExpire (id : Nat) (s : State) : State :=
  endSessions s (fun x => x.id == id && x.lease != 0 && x.seen != s.up + 1 && !leaseMeets s id)
/-- Leases run out: the time since the session's last command (R395, R396). -/
def leaseCycle (s : State) : State := endSessions s (fun x => x.lease != 0 && decide (x.seen + x.lease * 1000000000 ≤ s.up + 1))

/-- A link's fields while it is down, and its loss counted (R388). -/
def linkLost (s : State) (c k : Nat) : State :=
  let b := pcieBase c k
  let s := if fbit s b Reg.Pcie.DL_UP then finc s b Reg.Pcie.DOWN_CNT else s
  freset s b [Reg.Pcie.SPEED, Reg.Pcie.WIDTH, Reg.Pcie.FLIT, Reg.Pcie.DL_UP, Reg.Pcie.IN_L1]
/-- A function is reset: its sessions end, its MSI-X table returns to its reset (PRESUMED, PCIe Base; notes/assumptions/40.md). -/
def fnReset (s : State) (c k f : Nat) : State :=
  let s := endSessions s (fun x => match x.path with
    | .pcie c' k' f' => c'.val == c && k'.val == k && f'.val == f
    | _ => false)
  fnUpd s (8 * c + pcieFn s c k f) (fun _ => {})
def linkFns (s : State) (c k : Nat) : State := (List.range (pciePer s c)).foldl (fun s f => fnReset s c k f) s
/-- A link goes down: its functions, and the controller's interface (08 R236). -/
def linkDropped (s : State) (c k : Nat) : State := nicReset (linkLost (linkFns s c k) c k) (pcieNode c)

/-- PATH_LOSS: only PCIe paths are lost (R382, R396). -/
def opPathLoss (p : Path) (how : LossKind) (s : State) : State :=
  match p with
  | .pcie c k f =>
    match how with
    | .linkDown => linkDropped s c.val k.val
    | .perst =>
      let s := pcieUpd s c.val (fun x => { x with perst := true })
      if s.pwr.hubReset then s else (List.range (pcieLinks s c.val)).foldl (fun s k => linkDropped s c.val k) s
    | .flr => fnReset s c.val k.val f.val
  | _ => s

/-! ### Restart of the DMC (R400) -/

/-- A command in service at the restart: its effect is what the hardware reached. -/
def restartEnds (s : State) (n : Nat) : State :=
  let m := mbGet s n
  let mine := decide (m.ropcode = 0x20) && m.wait == .run
  let s :=
    if mine then
      let touched := s.load.any (fun l => decide (2 ≤ l.stage))
      let s := { s with load := s.load.filter (fun l => !l.partialLoad) }
      if touched then
        let ns := regionIslands m.cmd
        ns.foldl (fun s k => islUpd s k (fun i => { i with image := false, pendRel := false, region := 4, src := none })) (settleRegion s ns)
      else s
    else if m.ropcode = 0x21 ∧ m.wait = .run then settleRegion s (regionIslands m.cmd)
    else if m.ropcode = 0x70 ∧ m.wait = .run then stageStop s n
    else s
  mbFinish s n stFailed (detail 4 0 0) []

/-- DMC_RESTART: by the watchdog, or by an uncorrectable error of the DMC's SRAM; firmware that has stopped closes the bights (12 R369). -/
def opDmcRestart (sram : Bool) (s : State) : State :=
  if !s.boot.dmc then s
  else
    let why := if sram then 2 else 1
    let s := ((List.range 32).filter (mbBusy s)).foldl restartEnds s
    let s := (List.range 1280).foldl (fun s n => if (engGet s n).loadWait then engUpd s n (fun e => { e with loadWait := false }) else s) s
    let s := opBightWatchdog (nicReset (endSessions s (fun _ => true)) dmcNode)
    serveBells (jEvent (alarmHw s 4 [why]) 0x85 0 why)

/-! ### Meanings -/

def execBadOpcode (r : MbReq) (opcode : BitVec 16) (s : State) : Out := .next (mailboxRow opcode.toNat r s)
def execDevInfo (r : MbReq) (s : State) : Out := .next (mailboxRow 0x01 r s)
def execIfLevel (r : MbReq) (s : State) : Out := .next (mailboxRow 0x02 r s)
def execAttach (r : MbReq) (s : State) : Out := .next (mailboxRow 0x10 r s)
def execDetach (r : MbReq) (s : State) : Out := .next (mailboxRow 0x11 r s)
def execPartInfo (r : MbReq) (s : State) : Out := .next (mailboxRow 0x12 r s)
def execRegionLoad (r : MbReq) (s : State) : Out := .next (mailboxRow 0x20 r s)
def execRegionUnload (r : MbReq) (s : State) : Out := .next (mailboxRow 0x21 r s)
def execRegionStatus (r : MbReq) (s : State) : Out := .next (mailboxRow 0x22 r s)
def execEngineLoad (r : MbReq) (s : State) : Out := .next (mailboxRow 0x30 r s)
def execPeriodSet (r : MbReq) (s : State) : Out := .next (mailboxRow 0x31 r s)
def execEngineStats (r : MbReq) (s : State) : Out := .next (mailboxRow 0x32 r s)
def execLinkSet (r : MbReq) (s : State) : Out := .next (mailboxRow 0x40 r s)
def execLinkStatus (r : MbReq) (s : State) : Out := .next (mailboxRow 0x41 r s)
def execLinkTest (r : MbReq) (s : State) : Out := .next (mailboxRow 0x42 r s)
def execPowerSet (r : MbReq) (s : State) : Out := .next (mailboxRow 0x50 r s)
def execDeviceState (r : MbReq) (s : State) : Out := .next (mailboxRow 0x51 r s)
def execHealthRead (r : MbReq) (s : State) : Out := .next (mailboxRow 0x52 r s)
def execPolicySet (r : MbReq) (s : State) : Out := .next (mailboxRow 0x53 r s)
def execMemAlloc (r : MbReq) (s : State) : Out := .next (mailboxRow 0x60 r s)
def execMemRelease (r : MbReq) (s : State) : Out := .next (mailboxRow 0x61 r s)
def execSubtreeReset (r : MbReq) (s : State) : Out := .next (mailboxRow 0x62 r s)
def execUpdateStage (r : MbReq) (s : State) : Out := .next (mailboxRow 0x70 r s)
def execUpdateStatus (r : MbReq) (s : State) : Out := .next (mailboxRow 0x71 r s)
def execOwnerLock (r : MbReq) (s : State) : Out := .next (mailboxRow 0x72 r s)
def execJournalRead (r : MbReq) (s : State) : Out := .next (mailboxRow 0x80 r s)
def execAlarmRead (r : MbReq) (s : State) : Out := .next (mailboxRow 0x81 r s)
def execAlarmAck (r : MbReq) (s : State) : Out := .next (mailboxRow 0x82 r s)
def execJournalClear (r : MbReq) (s : State) : Out := .next (mailboxRow 0x83 r s)
def execAbort (r : MbReq) (s : State) : Out := .next (mailboxRow 0xF0 r s)
def execEcho (r : MbReq) (s : State) : Out := .next (mailboxRow 0xF1 r s)
def execCommandComplete (mb : Fin 32) (fin : Finish) (s : State) : Out := .next (opCommandComplete mb.val fin s)
def execCommandTimeout (mb : Fin 32) (s : State) : Out := .next (opCommandTimeout mb.val s)
def execObjectWaitTimeout (mb : Fin 32) (s : State) : Out := .next (opObjectWaitTimeout mb.val s)
def execLeaseExpire (session : BitVec 16) (s : State) : Out := .next (opLeaseExpire session.toNat s)
def execPathLoss (p : Path) (how : LossKind) (s : State) : Out := .next (opPathLoss p how s)
def execDmcRestart (sram : Bool) (s : State) : Out := .next (opDmcRestart sram s)
def execPhaseC (chk0 chk1 : SlotCheck) (pcieOk : BitVec 2) (s : State) : Out := .next (serveBells (opPhaseC chk0 chk1 pcieOk s))

end Sys2Proof.Machine
end

