-- ==== Sys2Proof/Machine/Logic.lean ====
section
/-! DEFINITION. User logic in one nanosecond (02 R46 to R63, 03 R76 to R79, R85 to R88, R94; 04 R106, R119; 12 R340, R342;
14 R426; 17 R522): the nets of a running island from its configuration, the regional trees, the flip-flops, and what the design
drives into block memories, hitches, lanes and user I/O. The manual fixes neither the phase of a clock nor the value of a
combinational loop: these are free bits (notes/assumptions/43.md). A nanosecond is taken in four quarters, and edges of one quarter all
see the state before it. -/

namespace Sys2Proof.Machine

/-! ### Nets -/

/-- A net of an island: the driver of origin wire k' in direction d, input j of cluster K, output u, `CO` of stage i of the carry
column (8 K + cell). The tile is its index 40 c + r. -/
inductive Net where
  | wire (t d k : Nat)
  | input (t K j : Nat)
  | out (t u : Nat)
  | co (t i : Nat)
  deriving DecidableEq, Repr

/-- Nets of an island: 800 tiles of 96 wires, 272 inputs, 128 outputs and 32 carries. -/
def netCount : Nat := 422400
def netNo : Net → Nat
  | .wire t d k => 528 * t + 24 * d + k
  | .input t K j => 528 * t + 96 + 68 * K + j
  | .out t u => 528 * t + 368 + u
  | .co t i => 528 * t + 496 + i
/-- What a free bit is for. -/
def bitLoop (n : Nat) (x : Net) : Nat := 8 * (netCount * n + netNo x)
def bitLand (n t K j : Nat) : Nat := 8 * (netCount * n + netNo (.input t K j)) + 1
def bitGen (n : Nat) : Nat := 8 * n + 2
def bitSpine (k : Nat) : Nat := 8 * k + 3
def bitBank (n : Nat) : Nat := 8 * n + 4

/-- The readable wire w of a tile as the net of its driver (R60); `none` where it is not built. -/
def readWire (t w : Nat) : Option Net :=
  match tileAt (t / 40) (t % 40) (opposite (w / 28)) (readDist (w % 28)) with
  | some o =>
    if wireBuilt o.1 o.2 (w / 28) (readOrigin (w % 28)) then some (.wire (40 * o.1 + o.2) (w / 28) (readOrigin (w % 28))) else none
  | none => none

/-! ### Landings -/

/-- The hitch that lands on cluster K of a tile (03 R88): its edge and number. -/
def hitchAt (i c r K : Nat) : Option (Nat × Nat) :=
  ((List.range 4).filter (fun e => (islNbr i e).isSome)).findSome? (fun e =>
    ((List.range 24).find? (fun k => hitchTile c r e k && hitchCluster e k == K)).map (fun k => (e, k)))

/-- Signal j of the hitches k across edge e of island n (03 R85, R88 to R90, R94): `HS_READY` of the outgoing one, `HD_VALID` and
`HD_DATA` of the incoming one. In through mode the data is what was registered; else data without a word is open while the source is on. -/
def hitchSignal (s : State) (fb : Nat → Bool) (n e k j : Nat) : Bool :=
  match hitchDst n e with
  | none => false
  | some m =>
    if j = 37 then
      hitchLive s n m && (sameSplice s n m || (decide (hitchUsed (hitchGet s (hitchKey n e k)) < 4) && hitchReady s m (opposite e)))
    else
      let h := hitchGet s (hitchKey m (opposite e) k)
      match h.head with
      | w :: _ => hitchOpen s m n && (j == 36 || w.getLsbD j)
      | [] =>
        j != 36 && hitchOpen s m n && (islGet s m).image && decide (islState s m < 3) &&
          (if sameSplice s m n then h.thru.getLsbD j else fb (8 * (64 * hitchKey m (opposite e) k + j) + 6))

/-- Output v of a port of a block memory (04 R106, R112). -/
def bramSignal (s : State) (n c r j : Nat) : Bool :=
  let b := 10 * (c / 4) + r / 4
  let v := j + 20 * (r % 2)
  let o := if r % 4 < 2 then (bramGet s (bramKey n b)).outA else (bramGet s (bramKey n b)).outB
  (cfgBram s n b).cascade != 2 &&
    (if v < 36 then o.dout.getLsbD v else if v = 36 then o.collide else if v = 37 then o.sbe else if v = 38 then o.dbe else o.bwe)

/-- The lane that attaches to column c of island n (12 R340). -/
def laneAt (n c : Nat) : Nat := 4 * (4 * (n / 48) + (if n % 48 < 40 then n % 48 - 6 else n % 48 - 44)) + c / 5
/-- Signal v of a lane into the fabric (12 R339 to R343); data while its valid signal is 0 is a free bit. -/
def laneSignal (s : State) (n v : Nat) (free : Bool) : Bool :=
  let x := laneGet s n
  attached s (n / 4) && !fbit s (lb n) Reg.Lane.GROUP_MEMBER &&
    (if v < 512 then (if x.rxValid then x.rxNow.data.getLsbD v else free)
    else if v < 528 then (if x.rxValid then x.rxNow.hdr.getLsbD (v - 512) else free)
    else if v = 528 then x.rxValid
    else if v = 529 then linkState s n == 5
    else if v = 530 then txReady s n
    else if v < 595 then (match (if x.rxValid then x.rxNow.ts else none) with
      | some t => t.testBit (v - 531)
      | none => free)
    else if v = 595 then x.rxValid && x.rxNow.ts.isSome
    else if v < 660 then (if x.txTsv then x.txTs.testBit (v - 596) else free)
    else x.txTsv)

/-! ### The network port (08 R240, R241) -/

/-- The packet presented on `RSI`: an answer of the interface, then the responses in the order they came; a poisoned one carries
`RESP` = `POISONED` (08 R223). -/
def rsiPacket (s : State) (n : Nat) : Option Packet :=
  ((nicGet s (islNode n)).errs ++ (nicGet s (islNode n)).got).head?.map (fun p => if p.poisoned then { p with resp := 7 } else p)
/-- The packet presented on `RQI`: the first that user logic has not taken. -/
def rqiPacket (s : State) (n : Nat) : Option Packet := ((nocGet s n).rqi.drop (nocGet s n).taken).head?
def lastBeat (p : Packet) (k : Nat) : Bool := decide (4 * p.len.toNat + 3 ≤ k)
/-- Beat k of a packet (08 R240). -/
def beatOf (p : Packet) (k : Nat) : BitVec 128 := ((flitsOf p).getD (k / 4) 0).extractLsb' (128 * (k % 4)) 128
/-- `READY` of `RQO`: in RUN, no packet waits for its injection and a reservation is free; a packet in progress ends in DRAIN (08 R241,
R242). -/
def rqoReady (s : State) (n : Nat) : Bool :=
  let i := islGet s n
  !i.hold && !i.rqoLast && (islState s n == 0 || (islState s n == 1 && !i.rqo.isEmpty)) && (freeId s (islNode n)).isSome
/-- `READY` of `RSO`: a request that user logic has taken awaits its response. -/
def rsoReady (s : State) (n : Nat) : Bool := !(islGet s n).hold && (nocGet s n).taken != 0
/-- Signal x of a presented packet: `DATA`, `VALID`, `LAST`. -/
def beatSignal (p : Option Packet) (k x : Nat) (free : Bool) : Bool :=
  match p with
  | some p => if x < 128 then (beatOf p k).getLsbD x else if x = 128 then true else lastBeat p k
  | none => if x = 128 then false else free
/-- Signal x of channel ch into the fabric. -/
def portSignal (s : State) (n ch x : Nat) (free : Bool) : Bool :=
  match ch with
  | 0 => rqoReady s n
  | 1 => beatSignal (rsiPacket s n) (islGet s n).rsiBeat x free
  | 2 => beatSignal (rqiPacket s n) (islGet s n).rqiBeat x free
  | _ => rsoReady s n

/-! ### User I/O (17 R522, R528) -/

/-- The attach tile of user I/O j as an index. -/
def uioNo (i j : Nat) : Nat :=
  match uioTile i j with
  | some p => 40 * p.1 + p.2
  | none => 0
/-- The TAP holds the pins with cells (17 R528). -/
def tapHolds (s : State) : Bool := s.tap.on && irHolds s.tap.ir
/-- What stands at the system side of the cells of user I/O j of island n, from the design's nets: clamp values while the island is
held (R13; 14 R420, R426, R427; 17 R522); `none` where nothing drives it, or the die fenced itself (09 R272). -/
def uioSystem (s : State) (v : Net → Bool) (n j : Nat) : Option Bool :=
  if cfgState s ≠ 3 ∨ s.selfFenced.contains (n / 48) = true then none
  else
    let i := islGet s n
    let cleat (o : Nat) (last : Nat) : Bool :=
      let c := cfgBits s n 1970 (4 * j + o) 2
      if c = 2 then last.testBit j else c == 1
    let d := if i.hold then (cleat 2 i.ioOe, cleat 0 i.ioOut) else (v (.out (uioNo (n % 48) j) 1), v (.out (uioNo (n % 48) j) 0))
    if d.1 then some d.2 else none
/-- What drives the pin of user I/O j: the boundary-scan cells while the TAP holds it, nothing under `HIGHZ` (R13; 17 R528). The places of
its cells in the register follow the package's balls (17 R527), which Config leaves open. -/
def uioDrive (s : State) (v : Net → Bool) (n j : Nat) : Option Bool :=
  if tapHolds s then
    let cell (k : Nat) : Bool := s.tap.bsr.getLsbD (Config.uioCell (12 * n + j) k)
    if s.tap.ir = irHighz ∨ cell 2 = false then none else some (cell 1)
  else uioSystem s v n j

/-- The landing signal of input j of cluster K (03 R88; 04 R106; 08 R240; 12 R340; 17 R522), from the nets `v`. A pin that nothing drives
comes from outside: a free bit; a bank without voltage lands 0 (17 R524). -/
def landing (s : State) (fb : Nat → Bool) (v : Net → Bool) (n t K j : Nat) : Bool :=
  let c := t / 40
  let r := t % 40
  let free := fb (bitLand n t K j)
  match if j < 38 then hitchAt (n % 48) c r K else none with
  | some h => hitchSignal s fb n h.1 h.2 j
  | none =>
    if K = 3 ∧ c % 4 = 3 ∧ j < 20 then bramSignal s n c r j
    else if K = 3 ∧ c = 0 then portSignal s n (r / 10) (14 * (r % 10) + j) free
    else match (if K = 0 ∧ j = 0 then (List.range 12).find? (fun u => uioTile (n % 48) u == some (c, r)) else none) with
    | some u => fb (bitBank n) && ((uioDrive s v n u).getD free)
    | none => match laneRow (n % 48) with
      | some lr => if r = lr ∧ K < 3 then laneSignal s (laneAt n c) (192 * (c % 5) + 64 * K + j) free else free
      | none => free

/-! ### Evaluation -/

/-- Configuration bits of the cell of stage i (14 R403). -/
def cellBits (s : State) (n t i o len : Nat) : Nat := cfgTile s n t (1493 * (i / 8) + 82 * (i % 8) + o) len
/-- Input p of the cell: `I0` to `I5`, `X0`, `X1` (02 R57). -/
def cellIn (v : Net → Bool) (t i p : Nat) : Bool := v (.input t (i / 8) (8 * (i % 8) + p))
def cellO6 (s : State) (v : Net → Bool) (n t i : Nat) : Bool :=
  let x := cellIn v t i
  lutO6 (BitVec.ofNat 64 (cellBits s n t i 0 64)) (x 0) (x 1) (x 2) (x 3) (x 4) (x 5)
def cellO5 (s : State) (v : Net → Bool) (n t i : Nat) : Bool :=
  let x := cellIn v t i
  lutO5 (BitVec.ofNat 64 (cellBits s n t i 0 64)) (x 1) (x 2) (x 3) (x 4) (x 5)
/-- `CI` of stage i (02 R49 to R51): cell A takes what `CIN_SEL` selects; the chain starts at tile row 0. -/
def cellCi (s : State) (v : Net → Bool) (n t i : Nat) : Bool :=
  if i % 8 ≠ 0 then v (.co t (i - 1))
  else muxOut 3 (cfgTile s n t (1493 * (i / 8) + 1472) 3) (fun p =>
    if p = 0 then (if i ≠ 0 then v (.co t (i - 1)) else if t % 40 = 0 then false else v (.co (t - 1) 31))
    else if p = 1 then true else cellIn v t i 6)
/-- `SUM` and `CO` of stage i (02 R49). -/
def cellCarry (s : State) (v : Net → Bool) (n t i : Nat) : Bool × Bool :=
  carryStage (cellO6 s v n t i) (muxOut 2 (cellBits s n t i 68 2) (fun p => if p = 0 then cellO5 s v n t i else cellIn v t i 6))
    (cellCi s v n t i)

/-- The value of a net from the values of the nets it reads (02 R48, R56 to R63). A single set bit that an upset has moved to an absent
position connects nothing, which gives 0: the spec is silent there (DESIGN CHOICE, notes/assumptions/51.md). -/
def netStep (s : State) (fb : Nat → Bool) (n : Nat) (v : Net → Bool) : Net → Bool
  | .wire t d k => muxOut 12 (cfgTile s n t (5972 + 12 * (24 * d + k)) 12) (fun p =>
      if p < 4 then v (.out t (wmuxOut d k p)) else ((readWire t (wmuxWire d k p)).map v).getD false)
  | .input t K j =>
    let m := muxOut 12 (cfgTile s n t (1493 * K + 656 + 12 * j) 12) (fun p =>
      if p = 0 then true
      else if p < 5 then v (.out t (32 * K + (j + 8 * (p - 1)) % 32))
      else if p < 7 then v (.out t (32 * ((K + p - 4) % 4) + j % 32))
      else ((readWire t (imuxWire K j p)).map v).getD false)
    if hasLanding (n % 48) (t / 40) (t % 40) K j then
      muxOut 2 (cfgTile s n t (7124 + 2 * (68 * K + j)) 2) (fun p => if p = 0 then m else landing s fb v n t K j)
    else m
  | .out t u =>
    let i := u / 4
    match u % 4 with
    | 0 => muxOut 2 (cellBits s n t i 64 2) (fun p => if p = 0 then cellO6 s v n t i else (cellCarry s v n t i).1)
    | 1 => muxOut 2 (cellBits s n t i 66 2) (fun p => if p = 0 then cellO5 s v n t i else (cellCarry s v n t i).2)
    | q => ffQ s n t (i / 8) (2 * (i % 8) + (q - 2))
  | .co t i => (cellCarry s v n t i).2

/-- The values of the nets, read to a depth; a net that the depth does not reach lies in a combinational loop, whose value is open
(02 R62). -/
def netVal (s : State) (fb : Nat → Bool) (n : Nat) : Nat → Net → Bool
  | 0 => fun x => fb (bitLoop n x)
  | k + 1 => netStep s fb n (netVal s fb n k)
/-- The value of a net: no path without a loop is longer than the number of nets. -/
def netOf (s : State) (fb : Nat → Bool) (n : Nat) : Net → Bool := netVal s fb n netCount

/-- A border signal of the design: the 4-position select at bit `o` of the range at `f0`, whose position p takes tile output
u = (sg + 32 p) mod 128 (03 R88; 04 R106; 12 R340). -/
def border (s : State) (v : Net → Bool) (n f0 o t sg : Nat) : Bool :=
  muxOut 4 (cfgBits s n f0 o 4) (fun p => v (.out t ((sg + 32 * p) % 128)))
/-- The number that `w` signals from `lo` on spell, the first the lowest bit. -/
def busOf (f : Nat → Bool) (lo w : Nat) : Nat := ((List.range w).map (fun i => if f (lo + i) then 2 ^ i else 0)).sum

/-! ### Clocks -/

/-- `FCLK0` and `FCLK1` (03 R76). -/
def fclk (s : State) (v : Net → Bool) (n f : Nat) : Bool :=
  match selected 8 (cfgBits s n 1968 (128 + 8 * f) 8) with
  | some m => v (.out (400 + 5 * m) (4 * f))
  | none => false

/-- A clock one quarter of a nanosecond later: its phase grows by `add`, and its level changes at `lim`. The manual fixes neither its
phase nor, while it relocks, its edges: the first edge, and an edge while `locked` is false, fall where the free bit `b` says
(03 R75; notes/assumptions/43.md). -/
def clkStep (add lim : Nat) (b locked : Bool) (c : ClkSt) : ClkSt :=
  if !c.started then (if b then { c with phase := 0, lvl := true, started := true } else c)
  else if c.phase + add < lim then { c with phase := c.phase + add }
  else if !locked && !b then c
  else { c with phase := c.phase + add - lim, lvl := !c.lvl }

/-- A spine line: 6.25 MHz times `SPINE_N`, stopped low while disabled (03 R73). -/
def spineStep (fb : Nat → Bool) (s : State) (k : Nat) : State :=
  let c := tget {} s.spine k
  let n := fget s (dieBase (k / 8)) (Reg.Die.SPINE_N (k % 8))
  { s with spine := tset {} s.spine k (if spineEn s (k / 8) (k % 8) then clkStep n 320 (fb (bitSpine k)) true c else {}) }

/-- The generator of root n (03 R74, R97): f_GEN is its spine line's frequency times (`GEN_MUL` + 1) / (`GEN_DIV` + 1), each period
lengthened by the steps in force at its rising edge, where a new period of the margin registers' clear begins (R104). -/
def genStep (fb : Nat → Bool) (s : State) (n : Nat) : State :=
  let b := islBase n
  let g := (islGet s n).gen
  let add := fget s (dieBase (n / 48)) (Reg.Die.SPINE_N (fget s b Reg.Isl.SPINE_SEL)) * (fget s b Reg.Isl.GEN_MUL + 1)
  let g' := clkStep add (20 * (fget s b Reg.Isl.GEN_DIV + 1) * (16 + g.steps)) (fb (bitGen n)) (fbit s b Reg.Isl.LOCKED) g
  if !g.lvl && g'.lvl then marginFresh (islUpd s n (fun i => { i with gen := { g' with steps := fget s b Reg.Isl.STEPS } })) b
  else islUpd s n (fun i => { i with gen := g' })

/-- The divider (03 R77): it counts rising edges of the source; a new `DIV` takes effect at the terminal count. -/
def treeStep (div : Nat) (t : TreeSt) (lvl : Bool) : TreeSt :=
  if lvl && !t.src then
    if t.div ≤ t.cnt then { t with src := lvl, cnt := 0, div := div, out := true }
    else { t with src := lvl, cnt := t.cnt + 1, out := decide (t.cnt + 1 < (t.div + 2) / 2) }
  else { t with src := lvl, out := if t.div = 0 then lvl else t.out }

def treePut (s : State) (n x : Nat) (t : TreeSt) : State := islUpd s n (fun i => { i with trees := tset {} i.trees x t })

/-- Step 1 of a switch (03 R79, R80): the tree runs on the old clock until two of its rising edges are seen, and is gated at the next
falling edge at which the tree is low; 64 rising edges of the new clock force it. -/
def switchOld (s : State) (n x : Nat) (t : TreeSt) (lo ln : Bool) : State :=
  let u := treeStep t.div t lo
  let rises := t.rises + (ln && !t.new).toNat
  if decide (2 ≤ t.edges) && t.src && !lo && !u.out then swGate (treePut s n x u) n x
  else if 64 ≤ rises then swGate (fsetBit s (islBase n) Reg.Isl.SW_FORCED x true) n x
  else treePut s n x { u with edges := min 2 (t.edges + (lo && !t.src).toNat), rises := rises, new := ln }

/-- Steps 2 and 3 (03 R79, R81): two rising edges of the new clock, its next falling edge, and the rising edge with which the tree starts.
A write held behind a switch that is stuck takes its place (R82). -/
def switchNew (s : State) (n x : Nat) (t : TreeSt) (ln : Bool) : State :=
  let up := ln && !t.new
  let down := !ln && t.new
  match (if swStuck s n x then tget none (islGet s n).swHeld x else none) with
  | some v => swRetarget s n x v
  | none =>
    if t.edges < 2 then treePut s n x { t with edges := t.edges + up.toNat, new := ln, seen := t.seen || up || down }
    else if t.edges = 2 then treePut s n x { t with edges := if down then 3 else 2, new := ln }
    else if up then swFinish s n x { src := true, div := fget s (islBase n) (Reg.Isl.DIV x), out := true }
    else treePut s n x { t with new := ln }

/-- Tree x of root n (03 R76 to R82): its source's level in `u`; fabric clocks come from the nets of `s`, and an `HCLK` from the tree as
it stood in `s`. -/
def treeCycle (fb : Nat → Bool) (s u : State) (n x : Nat) : State :=
  let t := treeGet s n x
  let lvl (src : Nat) : Bool := clockLevel { u with isl := tmod {} s.isl n (fun i => { i with gen := (islGet u n).gen }) } (fclk s (netOf s fb n) n) n src
  let src := fget u (islBase n) (Reg.Isl.SRC x)
  if !treeBusy u n x then treePut u n x (treeStep (fget u (islBase n) (Reg.Isl.DIV x)) t (lvl src))
  else if tget false (islGet u n).swStep2 x then switchNew u n x t (lvl src)
  else switchOld u n x t (lvl (tget 0 (islGet u n).swOld x)) (lvl src)

/-- The clocks one quarter of a nanosecond later: spine lines, generators, trees. -/
def clocksCycle (fb : Nat → Bool) (s : State) (roots : List Nat) : State :=
  let u := (List.range 64).foldl (spineStep fb) s
  let u := roots.foldl (genStep fb) u
  roots.foldl (fun u n => (List.range 4).foldl (fun u x => treeCycle fb s u n x) u) u

/-- A rising edge on the tree that a 4-bit one-hot field selects, between `s` and `u`. -/
def rose (s u : State) (n sel : Nat) : Bool :=
  match selected 4 sel with
  | some x => !treeOut s n x && treeOut u n x
  | none => false
/-- A falling edge likewise. -/
def fell (s u : State) (n sel : Nat) : Bool :=
  match selected 4 sel with
  | some x => treeOut s n x && !treeOut u n x
  | none => false

/-! ### Flip-flops -/

/-- Control set x of a cluster (02 R52, R53): its clock edge between `s` and `u`, `CE` and `SR` after inversion. A `CLK_SEL` that an upset
forces to a constant gives no edge: R67 allows at most one capture at that moment, and the model takes none (DESIGN CHOICE,
notes/assumptions/51.md). -/
def ctlSet (s u : State) (v : Net → Bool) (n t K x : Nat) : FfCtl :=
  let sel := cfgTile s n t (1493 * K + 1475 + 9 * x) 4
  let m := cfgTile s n t (1493 * K + 1479 + 9 * x) 5
  ⟨false, if m.testBit 0 then fell s u n sel else rose s u n sel, xor (v (.input t K (64 + 2 * x))) (m.testBit 1),
    xor (v (.input t K (65 + 2 * x))) (m.testBit 2), m.testBit 3, m.testBit 4⟩

/-- The D input of flip-flop f (02 R48). -/
def ffD (s : State) (v : Net → Bool) (n t K f : Nat) : Bool :=
  let i := 8 * K + f / 2
  if f % 2 = 0 then
    muxOut 3 (cellBits s n t i 70 3) (fun p =>
      if p = 0 then cellO6 s v n t i else if p = 1 then (cellCarry s v n t i).1 else cellIn v t i 6)
  else
    muxOut 3 (cellBits s n t i 73 3) (fun p =>
      if p = 0 then cellO5 s v n t i else if p = 1 then (cellCarry s v n t i).2 else cellIn v t i 7)

/-- Q of flip-flop f after the edges between `s` and `u` (02 R54). -/
def ffNew (s u : State) (fb : Nat → Bool) (n t K f : Nat) : Bool :=
  let v := netOf s fb n
  ffNext (ctlSet s u v n t K (ffSet s n t K f).toNat) (ffInit s n t K f) (ffSrval s n t K f) (ffD s v n t K f) (ffQ s n t K f)

/-- The flip-flops of island n after the edges between `s` and `e`, in `u`. -/
def ffCycle (fb : Nat → Bool) (s e u : State) (n : Nat) : State :=
  (activeTiles s n).foldl (fun u t => tileFfs.foldl (fun u x => ffPut u n t x.1 x.2 (ffNew s e fb n t x.1 x.2)) u) u

/-- Asynchronous set and reset act at once (02 R54 row 2): again while they change a flip-flop, at most as often as an island has
flip-flops. -/
def settle (fb : Nat → Bool) (n : Nat) : Nat → State → State
  | 0, s => s
  | k + 1, s =>
    let t := ffCycle fb s s s n
    if t.ff = s.ff then s else settle fb n k t

/-! ### What the design drives -/

/-- The inputs of a port of block b (04 R106). -/
def bramInput (s : State) (v : Net → Bool) (n b port : Nat) : BramIn :=
  let g (sg : Nat) : Bool :=
    border s v n 1950 (512 * b + 25 + 4 * (58 * port + sg)) (40 * (4 * (b / 10) + 3) + 4 * (b % 10) + 2 * port + sg % 2) sg
  ⟨BitVec.ofNat 16 (busOf g 0 16), BitVec.ofNat 36 (busOf g 16 36), BitVec.ofNat 4 (busOf g 52 4), g 56, g 57⟩

/-- Block b at the edges of its port clocks between `s` and `e`, at time t in quarters of a nanosecond (04 R109, R113, R119). -/
def bramCycle (fb : Nat → Bool) (t : Nat) (s e u : State) (n b : Nat) : State :=
  let c := cfgBram s n b
  let ea := rose s e n c.clkA
  let eb := rose s e n c.clkB
  if ea || eb then
    let q := bramInput s (netOf s fb n) n b 1
    bramEdges n b t (if ea then some (bramInput s (netOf s fb n) n b 0) else none) (if eb then some q else none) q u
  else u

/-- The attach tile of hitch k of edge e (03 R88). -/
def hitchTileNo (e k : Nat) : Nat :=
  match e with
  | 0 => 40 * hitchPos 0 k + 39
  | 1 => 760 + hitchPos 1 k
  | 2 => 40 * hitchPos 2 k
  | _ => hitchPos 3 k
/-- Source signal sg of hitch k of edge e (03 R88). -/
def hitchSource (s : State) (v : Net → Bool) (n e k sg : Nat) : Bool := border s v n (1960 + e) (152 * k + 4 * sg) (hitchTileNo e k) sg

/-- Outgoing hitch k at a source edge (03 R85, R87, R94): a word offered enters where `HS_READY` was 1, and slots taken before this
edge can be written again from the next one. In through mode the register stage takes what is offered. -/
def hitchSend (fb : Nat → Bool) (s u : State) (n e k : Nat) : State :=
  let v := netOf s fb n
  let key := hitchKey n e k
  let word := BitVec.ofNat 36 (busOf (hitchSource s v n e k) 0 36)
  let offered := hitchSource s v n e k 36
  match hitchDst n e with
  | none => u
  | some m =>
    if !hitchLive s n m then u
    else if sameSplice s n m then hitchSet u key { head := if offered then [word] else [], thru := word }
    else
      let h := hitchGet u key
      let ready := hitchSignal s fb n e k 37
      hitchSet u key { h with back := 0, flight := if ready && offered then h.flight ++ [(word, 0)] else h.flight }

/-- Incoming hitch k across edge e at a destination edge (03 R85, R87): the word taken leaves, and a word that has seen its second edge is
presented. -/
def hitchReceive (fb : Nat → Bool) (s u : State) (n e k : Nat) : State :=
  match hitchDst n e with
  | none => u
  | some m =>
    let key := hitchKey m (opposite e) k
    let h := hitchGet s key
    if !hitchOpen s m n || sameSplice s m n then u
    else
      let taken := !h.head.isEmpty && hitchSource s (netOf s fb n) n e k 37
      let seen := h.flight.map (fun w => (w.1, w.2 + 1))
      hitchSet u key { h with
        head := h.head.drop taken.toNat ++ (seen.filter (fun w => decide (2 ≤ w.2))).map (fun w => w.1)
        flight := seen.filter (fun w => decide (w.2 < 2)), back := h.back + taken.toNat }

/-- The incoming hitches across an edge of island n, at an edge of their tree (03 R86, R90). -/
def hitchesIn (fb : Nat → Bool) (s e u : State) (n edge : Nat) : State :=
  if rose s e n (cfgHtree s n edge true) then
    let u := (List.range 24).foldl (fun u k => hitchReceive fb s u n edge k) u
    islUpd u n (fun i => { i with rxWait := tset 0 i.rxWait edge (tget 0 i.rxWait edge - 1) })
  else u
/-- The outgoing ones. -/
def hitchesOut (fb : Nat → Bool) (s e u : State) (n edge : Nat) : State :=
  if rose s e n (cfgHtree s n edge false) then (List.range 24).foldl (fun u k => hitchSend fb s u n edge k) u else u

/-- A lane at an edge of its tree (12 R340, R342): a word offered with `TX_READY` = 1 enters, and the next received word is presented. -/
def laneCycle (fb : Nat → Bool) (s e u : State) (n l : Nat) : State :=
  let x := laneAt n (5 * l)
  let row := (laneRow (n % 48)).getD 0
  let g (sg : Nat) : Bool := border s (netOf s fb n) n 1965 (4 * (530 * l + sg)) (40 * (5 * l + sg / 106) + row) sg
  if rose s e n (cfgBits s n 1965 (8480 + 4 * l) 4) then
    let u := laneEdge u x
    if txReady s x && g 528 then opTxWord x (BitVec.ofNat 512 (busOf g 0 512)) (BitVec.ofNat 16 (busOf g 512 16)) (g 529) u else u
  else u

/-- Signal x of channel ch from the fabric (08 R240). -/
def portSource (s : State) (v : Net → Bool) (n ch x : Nat) : Bool := border s v n 1964 (4 * (131 * ch + x)) (10 * ch + x / 14) x
/-- A packet that user logic sent beat by beat: its header and payload flits; `none` where `LAST` does not stand at the end that `LEN`
gives (notes/assumptions/48.md). -/
def beatsFlits (l : List (BitVec 128)) : Option (BitVec 512 × List (BitVec 512)) :=
  let flit (k : Nat) : BitVec 512 := BitVec.ofNat 512 (leNat (((l.drop (4 * k)).take 4).flatMap (fun b => natLe b.toNat 16)))
  let len := hbits (flit 0) 47 4
  if l.length = 4 * (1 + len) then some (flit 0, (List.range len).map (fun k => flit (k + 1))) else none

/-- `RQO` has a whole packet: it is injected; a refused header is answered over `RSI` (08 R227, R228, R241). It waits while no
reservation has room. -/
def rqoInject (n : Nat) (s : State) : State :=
  let node := islNode n
  let flush (s : State) : State := islUpd s n (fun i => { i with rqo := [], rqoLast := false })
  let fail (s : State) (p : Packet) : State := flush (nicUpd s node (fun x => { x with errs := x.errs ++ [responseTo p .decodeErr []] }))
  let own (p : Packet) : Packet := { p with srcDie := BitVec.ofNat 4 (node / 256), srcNode := BitVec.ofNat 8 node, srcUnit := 0 }
  match beatsFlits (islGet s n).rqo with
  | none => fail s (own (packetOf false (BitVec.ofNat 512 (leNat (((islGet s n).rqo.take 4).flatMap (fun b => natLe b.toNat 16)))) []))
  | some f =>
    let p := own (packetOf false f.1 f.2)
    if !headerOk p then fail s p
    else
      let r := injectNow s p
      if r.1 then flush r.2 else s

/-- `RSO` has a whole response: `RESP`, `SIZE` and the data are user logic's, the rest is the request's (08 R241). -/
def rsoAnswer (n : Nat) (s : State) : State :=
  let bytes (h : BitVec 512) (pay : List (BitVec 512)) : List Byte :=
    (if pay.isEmpty then natLe (hbits h 256 256) 32 else pay.flatMap (fun f => natLe f.toNat 64)).take (hbits h 74 10)
  let l := (islGet s n).rso
  let s := islUpd s n (fun i => { i with rso := [] })
  match beatsFlits l with
  | none => opIslandResponse n 7 [] s
  | some f => opIslandResponse n (hbits f.1 71 3) (if (bytes f.1 f.2).length = hbits f.1 74 10 then bytes f.1 f.2 else []) s

/-- The response presented on `RSI` is taken whole. -/
def rsiTaken (n : Nat) (s : State) : State :=
  let node := islNode n
  let s := islUpd s n (fun i => { i with rsiBeat := 0 })
  match (nicGet s node).errs with
  | _ :: t => nicUpd s node (fun x => { x with errs := t })
  | [] => match (nicGet s node).got with
    | g :: t => nicUpd s node (fun x => { x with got := t, rsv := x.rsv.filter (fun r => r.id != g.rsv.toNat) })
    | [] => s
/-- The packet presented on `RQI` is taken whole: a message leaves the buffer, a request awaits its response. -/
def rqiTaken (n : Nat) (s : State) : State :=
  let s := islUpd s n (fun i => { i with rqiBeat := 0 })
  match rqiPacket s n with
  | none => s
  | some p =>
    if p.op = opMsg then nocUpd s n (fun x => { x with rqi := x.rqi.eraseIdx x.taken }) else nocUpd s n (fun x => { x with taken := x.taken + 1 })

/-- The network port at an edge of its tree (08 R240): each channel moves a beat where `VALID` and `READY` were 1. -/
def portCycle (fb : Nat → Bool) (s e u : State) (n : Nat) : State :=
  if !rose s e n (cfgBits s n 1964 (4 * 524) 4) then u
  else
    let g (ch x : Nat) : Bool := portSource s (netOf s fb n) n ch x
    let beat (ch : Nat) : BitVec 128 := BitVec.ofNat 128 (busOf (g ch) 0 128)
    let u := if rqoReady s n && g 0 128 then islUpd u n (fun i => { i with rqo := i.rqo ++ [beat 0], rqoLast := g 0 129 }) else u
    let u := if (islGet u n).rqoLast then rqoInject n u else u
    let u := if g 1 130 then (match rsiPacket s n with
      | some p => if lastBeat p (islGet s n).rsiBeat then rsiTaken n u else islUpd u n (fun i => { i with rsiBeat := i.rsiBeat + 1 })
      | none => u) else u
    let u := if g 2 130 then (match rqiPacket s n with
      | some p => if lastBeat p (islGet s n).rqiBeat then rqiTaken n u else islUpd u n (fun i => { i with rqiBeat := i.rqiBeat + 1 })
      | none => u) else u
    if rsoReady s n && g 3 128 then
      let u := islUpd u n (fun i => { i with rso := i.rso ++ [beat 3] })
      if g 3 129 then rsoAnswer n u else u
    else u

/-- The values that hold-last cleats keep: those at the last rising edge of `RCLK_A` (14 R426, 17 R522). -/
def uioCycle (fb : Nat → Bool) (s e u : State) (n : Nat) : State :=
  if hasUio (n % 48) && rose s e n 1 then
    islUpd u n (fun i => { i with ioOut := busOf (fun j => netOf s fb n (.out (uioNo (n % 48) j) 0)) 0 12
                                  ioOe := busOf (fun j => netOf s fb n (.out (uioNo (n % 48) j) 1)) 0 12 })
  else u

/-! ### One nanosecond -/

/-- The islands whose logic runs. -/
def runningIsl (s : State) : List Nat := allIsl.filter (fun n => islRuns s n)
/-- The clocks of island n are ungated: step 3 of its staged release is over (14 R425). -/
def ungated (s : State) (n : Nat) : Bool := (islGet s n).rel == 0
/-- A nanosecond of the staged release of the islands that are between its steps. -/
def releaseCycle (s : State) : State :=
  { s with isl := s.isl.map (fun p => if p.2.hold then p else (p.1, { p.2 with rel := p.2.rel - 1 })) }

/-- A quarter of a nanosecond of user logic under the free bits `fb`, at time t in quarters of a nanosecond: all edges in it see the
state before it. -/
def logicCycle (fb : Nat → Bool) (t : Nat) (s : State) : State :=
  let ns := runningIsl s
  let s := ns.foldl (fun s n => settle fb n 51200 s) s
  let ns := ns.filter (ungated s)
  let e := clocksCycle fb s (ns.filter (fun n => spliceRoot s n == n))
  let u := ns.foldl (ffCycle fb s e) e
  let u := ns.foldl (fun u n => (List.range 50).foldl (fun u b => bramCycle fb t s e u n b) u) u
  let u := ns.foldl (fun u n => (List.range 4).foldl (fun u d => hitchesIn fb s e u n d) u) u
  let u := ns.foldl (fun u n => (List.range 4).foldl (fun u d => hitchesOut fb s e u n d) u) u
  let u := ns.foldl (portCycle fb s e) u
  let u := (ns.filter (fun n => (laneRow (n % 48)).isSome)).foldl (fun u n => (List.range 4).foldl (fun u l => laneCycle fb s e u n l) u) u
  ns.foldl (uioCycle fb s e) u

/-- A quarter with free bits of its own; while no island runs and no spine line is on nothing is drawn. -/
def logicQuarter (s : State) (q : Nat) : State :=
  if (runningIsl s).isEmpty && (List.range 64).all (fun k => !spineEn s (k / 8) (k % 8)) && s.spine.isEmpty then s
  else logicCycle (Config.freeBit s.free) (4 * s.up + q) { s with free := s.free + 1 }
/-- User logic and the clocks in an idle nanosecond. -/
def logicIdle (s : State) : State := releaseCycle ((List.range 4).foldl logicQuarter s)

end Sys2Proof.Machine
end

