-- ==== Sys2Proof/Machine/Access.lean ====
section
/-! DEFINITION. The CSR space (01 R35 to R43; 15 R446, R458): windows, who may reach them, the outcome of an access, and what each
register reads and does when written. -/

namespace Sys2Proof.Machine

/-! ### Outcomes (R36, R38, R39) -/

/-- A partition may reach an offset of a window (R38). -/
def mayReach (s : State) (part : Nat) (w : Win) (o : Nat) (write : Bool) : Bool :=
  part == 0 || (decide (part ≤ 16) && match w with
    | .mailbox n => mbHolder s n == part
    | .isl n => islHolder s n == part
    | .eis e => eisHolder s e == part
    | .quad q => quadHolder s q == part
    | .hub => !write
    | .die _ => !write && decide (o < 8)
    | .tim => !write
    | _ => false)

/-- A block's registers are out of reach: its clock or power is off, its die fenced or absent (R30, R39, R41; 15 R446, R458). -/
def blockOff (s : State) (w : Win) : Bool :=
  (match winDie w with
    | some d => !present s d || fenced s d || asleep s
    | none => false) ||
  (match w with
    | .mc n => (mcGet s n).standby || asleep s
    | .isl n => (islGet s n).hold
    | .eis e => (eisGet s e).pst != 0 || ((eisGet s e).hold && (eisGet s e).eclk == 0)
    | .quad q => (quadGet s q).pst != 0
    | _ => false)

/-- `OFF_ACCESS` of the hub, or of a die that answers itself (R39, R42, R43). -/
def setOffAccess (s : State) (w : Win) : State :=
  match winDie w with
  | some d => if present s d && !fenced s d then fflag s (dieBase d) Reg.Die.OFF_ACCESS true else fflag s 0 Reg.Hub.OFF_ACCESS true
  | none => fflag s 0 Reg.Hub.OFF_ACCESS true
/-- A partition error met at a die is counted there (08 R239). -/
def countPartErr (s : State) (w : Win) : State :=
  match winDie w with
  | some d => if present s d && !fenced s d then finc s (dieBase d) Reg.Die.PART_ERR_CNT else s
  | none => s

/-- The rows 1 to 3 of R39: the window of an access that is served, or its refusal. -/
def csrGate (s : State) (part a size : Nat) (write : Bool) : Except Resp (Win × Nat) × State :=
  match (if size = 4 ∧ a % 4 = 0 then winOf a else none) with
  | none => (.error .decodeErr, s)
  | some (w, o) =>
    if !mayReach s part w o write then (.error .partErr, countPartErr s w)
    else if blockOff s w then (.error .domainOff, setOffAccess s w)
    else (.ok (w, o), s)

/-! ### Register fields of a window -/

/-- The base and the fields at an offset; an offset that the tables do not list has none and reads 0. The clock and margin
registers of a splice member show the root's (03 R102). -/
def winFields (s : State) (w : Win) (o : Nat) : Nat × List Fld :=
  match w with
  | .hub => (0, Reg.Hub.fields o)
  | .mailbox n => (mbBase n, [])
  | .mc n => (mcBase n, Reg.Mc.fields o)
  | .sec => (secBase, Reg.Sec.fields o)
  | .pcie c => if o < 0x400 then (pcieBase c (o / 0x100), Reg.Pcie.fields (o % 0x100)) else (0, [])
  | .quad q =>
    if o < 0x1000 then (quadBase q, Reg.Quad.fields o)
    else if o < 0x5000 then (laneBase q (o / 0x1000 - 1), Reg.Lane.fields (o % 0x1000)) else (0, [])
  | .tim => (timBase, Reg.Tim.fields o)
  | .pwr => (pwrBase, Reg.Pwr.fields o ++ Reg.Bight.fields o)
  | .cfg => (cfgBase, Reg.Cfg.fields o)
  | .die d => (dieBase d, Reg.Die.fields o)
  | .isl n =>
    if 0x200 ≤ o then (islBase n, if hasUio (n % 48) then Reg.Isl.fields o else [])
    else if o = 0 ∨ (0x10 ≤ o ∧ o < 0x20) ∨ (0x30 ≤ o ∧ o < 0x44) then (islBase (spliceRoot s n), Reg.Isl.fields o)
    else (islBase n, Reg.Isl.fields o)
  | .eis e =>
    if o < 0x1000 then (eisBase e, Reg.Eisl.fields o ++ Reg.Isl.margin.filter (fun f => f.off == o))
    else (engBase (16 * e + (o - 0x1000) / 0x800), Reg.Eng.fields ((o - 0x1000) % 0x800))
  | .hw h => (hwBase (h / 16) (h % 16), Reg.Hw.fields o)

/-! ### Reads -/

/-- In hub lanes, offsets 0x000 to 0x00C and 0x080 to 0x090 read 0 (12 R363). -/
def hubLaneBlank (w : Win) (o : Nat) : Bool :=
  match w with
  | .quad q => decide (32 ≤ q) && decide (0x1000 ≤ o ∧ o < 0x5000) &&
      (decide (o % 0x1000 ≤ 0x00C) || decide (0x080 ≤ o % 0x1000 ∧ o % 0x1000 ≤ 0x090))
  | _ => false

/-- `TAP_VAL` (12 R345, R363): a tap that adapts has a free value, which it keeps when adaptation stops. -/
def tapValue (s : State) (n : Nat) : Nat × State :=
  let sel := fget s (lb n) Reg.Lane.TAP_SEL
  if 39 < sel ∨ (24 ≤ sel ∧ fbit s (lb n) Reg.Lane.DFE_OFF = true) then (0, s)
  else if (linkState s n == 4 || linkState s n == 5) && !fbit s (lb n) Reg.Lane.ADAPT_FREEZE then
    let w := freeWord s
    let v := w.1.toNat % 2048
    (v, laneUpd w.2 n (fun x => { x with taps := tset 0 x.taps sel v }))
  else (tget 0 (laneGet s n).taps sel, s)

/-- The bits that user I/O register j of island n samples at the read (17 R524): the bank's voltage, from outside, and the pin, which
carries what its driver gives while the bank is on, and else what stands outside. -/
def uioNow (s : State) (n j : Nat) : Word × State :=
  let w := freeWord s
  match if w.1 &&& 0x600 = 0 then none else uioDrive s (netOf s (Config.freeBit s.free) n) n j with
  | some v => ((w.1 &&& 0x600) ||| (if v then 0x100 else 0), w.2)
  | none => (w.1 &&& 0x700, w.2)

/-- What a link in use has met since the last read of its registers: PCIe errors and L1, free values (13 R388; notes/assumptions/40.md). -/
def pcieMet (s : State) (b : Nat) : State :=
  if fbit s b Reg.Pcie.DL_UP then
    let w := freeWord s
    let v := freeWord w.2
    let s := faddSat (faddSat v.2 b Reg.Pcie.CORR_CNT (w.1.toNat % 65536)) b Reg.Pcie.UNCORR_CNT (w.1.toNat / 65536)
    fflag s b Reg.Pcie.IN_L1 (v.1.getLsbD 0)
  else s

/-- The value that a served read gives (R6; row 4 of R39). -/
def csrValue (s : State) (w : Win) (o : Nat) : Word × State :=
  let f := winFields s w o
  let plain (s : State) : Word := readFields s f.1 f.2
  if hubLaneBlank w o then (0, s)
  else match w with
    | .mailbox n => (rspWord (mbGet s n) o, s)
    | .pcie _ => let s := if f.2 = [] then s else pcieMet s f.1; (readFields s f.1 f.2, s)
    | .tim => let s := if o = 0 then latchTime s else s; (plain s, s)
    | .isl n =>
      if 0x200 ≤ o ∧ f.2 ≠ [] then (let u := uioNow s n ((o - 0x200) / 4); (plain u.2 ||| u.1, u.2)) else (plain s, s)
    | .quad q =>
      if 0x1000 ≤ o ∧ o < 0x5000 ∧ o % 0x1000 = 0x04C then
        let n := 4 * q + (o / 0x1000 - 1)
        let t := tapValue s n
        let t' := fset t.2 (lb n) Reg.Lane.TAP_VAL t.1
        (readFields t' (lb n) (Reg.Lane.fields 0x04C), t')
      else (plain s, s)
    | _ => (plain s, s)

/-- A read: its outcome under R39, with the value. -/
def csrRead (s : State) (part a size : Nat) : Resp × Word × State :=
  match csrGate s part a size false with
  | (.error r, s) => (r, 0, s)
  | (.ok (w, o), s) => let v := csrValue s w o; (.okay, v.1, v.2)

/-! ### Writes -/

/-- Who writes: the path that a mailbox doorbell comes over, and whether it is the DMC. -/
structure By where
  path : Option Path := none
  dmc : Bool := false
  deriving DecidableEq, Repr

/-- A value that a field takes; others are discarded. `v` is the word written. -/
def fieldTakes (s : State) (v : Word) (f : Fld) (x : Nat) : Bool :=
  if f = Reg.Die.RSP_TIMEOUT then decide (250 ≤ x)
  else if f = Reg.Die.DRAIN_MAX then x != 0
  else if f = Reg.Tim.SET_NS ∨ f = Reg.Tim.PPS_OFFSET then decide (x ≤ 999999999)
  else if f = Reg.Tim.PPS_WIDTH then decide (1 ≤ x ∧ x ≤ 999999)
  else if f = Reg.Mc.WQ_HIGH then decide (wfield Reg.Mc.WQ_LOW v < x ∧ x ≤ 64)
  else if f = Reg.Mc.SR_IDLE then x != 0
  else if f = Reg.Bight.RING_ADDR then x != 0xFF
  else if f = Reg.Sec.META_GRAN then !fbit s secBase Reg.Sec.WIN_ACTIVE
  else if f = Reg.Hw.WIRE_WIN then x != 0
  else true
/-- A write by the field types (R6, R7) of the fields that take their values. -/
def writeTaken (s : State) (b : Nat) (fs : List Fld) (v : Word) : State :=
  writeFields s b (fs.filter (fun f => fieldTakes s v f (wfield f v))) v
/-- Bit k of the word written. -/
def bitOf (v : Word) (k : Nat) : Bool := v.getLsbD k
/-- Do `act` where bit k is 1. -/
def onBit (v : Word) (k : Nat) (act : State → State) (s : State) : State := if bitOf v k then act s else s

/-- A word written to a mailbox window (13 R374 to R376). -/
def mailboxWrite (p : Option Path) (n o : Nat) (v : Word) (s : State) : State :=
  let arm (b : Bool) (s : State) : State := mbUpd s n (fun m => { m with abortArm := b })
  if slotClosed s n then
    if o = 0 then arm (v == 0xF0) s
    else if o = 0xC ∧ bitOf v 0 = true ∧ (mbGet s n).abortArm = true then (match p with
      | some p => ringAbort (arm false s) n p
      | none => arm false s)
    else arm false s
  else match o with
    | 0 => mbUpd s n (fun m => { m with hdr0 := v })
    | 4 => mbUpd s n (fun m => { m with hdr1 := v })
    | 8 => s
    | 0xC => (match p with
      | some p =>
        let m := mbGet s n
        onBit v 0 (fun s =>
          if doneNow s n && (m.abortArm || m.hdr0 == 0xF0) && m.path.any (samePath p) then ringAbort (arm false s) n p
          else ringBell s n p) s
      | none => s)
    | _ => mbUpd s n (fun m => { m with pay := tset 0 m.pay ((o - 0x10) / 4) v })

/-- A word written to a controller's window (10 R295 to R302). -/
def mcWrite (by' : By) (n o : Nat) (v : Word) (s : State) : State :=
  let b := mcBase n
  let plain (s : State) : State := writeTaken s b (Reg.Mc.fields o) v
  if o = 0x4 ∨ (0x300 ≤ o ∧ o < 0x400) then
    if mcState s n ≠ 1 then s
    else if o = 0x4 ∧ wfield Reg.Mc.BANK_HASH v ≠ fget s b Reg.Mc.BANK_HASH then dramRehash (plain s) n
    else plain s
  else if o = 0x8 then trainEnd n s (onBit v 1 (actDisableGo n by'.dmc (wfield Reg.Mc.STEP v)) (onBit v 0 (actRunGo n) s))
  else if o = 0x210 then onBit v 0 (actMcErrClr n) s
  else if o = 0x400 then
    if !bitOf v 0 then plain s else if trnGoOk s n then actTrnGo n (plain s) else goReject s n
  else if o = 0x440 then
    if !bitOf v 31 then plain s
    else if mrGoOk s n then mcUpd (plain s) n (fun m => { m with mr := true }) else goReject s n
  else if 0x1000 ≤ o ∧ phyFields o 0 ≠ [] then
    if mcState s n = 1 then writeFields s b (phyFields o v) v else mcUpd s n (fun m => { m with phy := m.phy ++ [(o, v)] })
  else plain s

/-- The generators of a die that lock to spine line k: those of islands with an image, the root's in a splice (03 R93). -/
def gensOn (s : State) (d k : Nat) : List Nat :=
  ((List.range 48).map (fun i => 48 * d + i)).filter (fun n =>
    (islGet s n).image && spliceRoot s n == n && fget s (islBase n) Reg.Isl.SPINE_SEL == k)

/-- A word written to a spine register (03 R73 to R75): a `SPINE_N` outside 4 to 160 is discarded, and so is one that would take an
f_GEN out of its range, which sets `GEN_BAD` there. A change of the line unlocks the generators that lock to it. -/
def spineWrite (d k : Nat) (v : Word) (s : State) : State :=
  let b := dieBase d
  let n := wfield (Reg.Die.SPINE_N k) v
  let was := (fget s b (Reg.Die.SPINE_N k), fbit s b (Reg.Die.SPINE_EN k))
  let bad := if !rwlOpen s then [] else
    (gensOn s d k).filter (fun m => !genOk s n (fget s (islBase m) Reg.Isl.GEN_MUL) (fget s (islBase m) Reg.Isl.GEN_DIV))
  let takes := decide (4 ≤ n ∧ n ≤ 160) && (bad.isEmpty || n == was.1)
  let s := if decide (4 ≤ n ∧ n ≤ 160) && !takes then bad.foldl (fun s m => fflag s (islBase m) Reg.Isl.GEN_BAD true) s else s
  let s := writeFields s b ((Reg.Die.fields (0x200 + 4 * k)).filter (fun f => f != Reg.Die.SPINE_N k || takes)) v
  let s := fflag s b (Reg.Die.SPINE_LOCK k) (fbit s b (Reg.Die.SPINE_EN k))
  if (fget s b (Reg.Die.SPINE_N k), fbit s b (Reg.Die.SPINE_EN k)) = was then s
  else (gensOn s d k).foldl (fun s m => fflag s (islBase m) Reg.Isl.LOCKED false) s

/-- A word written to a die common window (03 R73; 08 R248; 14 R437). -/
def dieWrite (d o : Nat) (v : Word) (s : State) : State :=
  let b := dieBase d
  let fs := Reg.Die.fields o
  if o = 0x108 then onBit v 0 (actSelClr d) s
  else if o = 0x1024 then onBit v 0 (actNocClr d) s
  else if o = 0x318 then onBit v 1 (actCsClr d) (onBit v 0 (fun s => csRestart s d) s)
  else if 0x200 ≤ o ∧ o < 0x220 then spineWrite d ((o - 0x200) / 4) v s
  else writeTaken s b fs v

/-- A word written to a logic island's window (03 R102, R103; 04 R126, R127; 17 R524). -/
def islWrite (n o : Nat) (v : Word) (s : State) : State :=
  let f := winFields s (.isl n) o
  let plain (s : State) : State := writeTaken s f.1 f.2 v
  if o = 0 then generatorWrite s n v
  else if 0x10 ≤ o ∧ o < 0x20 then treeWrite s n ((o - 0x10) / 4) v
  else if o = 0x40 then onBit v 0 (actMarginClr f.1) s
  else if o = 0x118 then onBit v 0 (actMemClr n) s
  else if o = 0x120 then
    if fbit s (islBase n) Reg.Isl.RAW_BUSY && bitOf v 31 then s else onBit v 31 (actBramRawGo n) (plain s)
  else plain s

/-- A word written to an engine island's window (05 R169, R170; 07 R200, R220, R221). -/
def eisWrite (e o : Nat) (v : Word) (s : State) : State :=
  let f := winFields s (.eis e) o
  let plain (s : State) : State := writeTaken s f.1 f.2 v
  if o = 0 then
    let n := wfield Reg.Eisl.ECLK_N v
    let was := fget s (eisBase e) Reg.Eisl.ECLK_N
    let s := writeFields s (eisBase e) ((Reg.Eisl.fields 0).filter (fun f => f != Reg.Eisl.ECLK_N || eclkOk s n)) v
    if fget s (eisBase e) Reg.Eisl.ECLK_N = was then s else fflag s (eisBase e) Reg.Eisl.ECLK_LOCK false
  else if o = 0x40 then onBit v 0 (actMarginClr (eisBase e)) s
  else if o < 0x1000 then plain s
  else
    let k := 16 * e + (o - 0x1000) / 0x800
    match (o - 0x1000) % 0x800 with
    | 0x14 => onBit v 0 (actEngErrClr k) s
    | 0x20 => if fbit s (engBase k) Reg.Eng.RAW_BUSY && bitOf v 31 then s else onBit v 31 (actEngRawGo k) (plain s)
    | 0x68 => onBit v 0 (actSchedClr k) s
    | _ => plain s

/-- The transmitter taps of lane n after a write of 0x040 or 0x044 (12 R344): in raw modes and TEST, when they are legal. A write
of 0x044 that leaves the taps as they stand, as one that clears `TXEQ_REJECT` does, is no change. -/
def txcWrite (n o : Nat) (v : Word) (s : State) : State :=
  let b := lb n
  let s := writeFields s b ((Reg.Lane.fields o).filter (fun f => f == Reg.Lane.TXEQ_REJECT)) v
  let g (f : Fld) : Nat := if f.off = o then wfield f v else fget s b f
  let taps := [Reg.Lane.TXC_M3, Reg.Lane.TXC_M2, Reg.Lane.TXC_M1, Reg.Lane.TXC_P1, Reg.Lane.TXC_0]
  let same := taps.all (fun f => g f == fget s b f)
  let legal := txcLegal (g Reg.Lane.TXC_M3) (g Reg.Lane.TXC_M2) (g Reg.Lane.TXC_M1) (g Reg.Lane.TXC_P1) (g Reg.Lane.TXC_0)
  if same && o == 0x44 then s
  else if (rawMode (laneMode s n) || linkState s n == 10) && legal then taps.foldl (fun s f => fset s b f (g f)) s
  else fflag s b Reg.Lane.TXEQ_REJECT true
/-- Pattern, checker and loopback (12 R357, R360): in TEST alone; a pattern that the lane refuses leaves its field. -/
def testWrite (n : Nat) (v : Word) (s : State) : State :=
  let b := lb n
  if linkState s n ≠ 10 then fflag s b Reg.Lane.TEST_REJECT true
  else
    let pat (f : Fld) (s : State) : State :=
      let p := wfield f v
      if 7 < p ∨ patternRefused s n p = true then fflag s b Reg.Lane.TEST_REJECT true else fset s b f p
    let was := fget s b Reg.Lane.PRBS_CHK
    let s := fset (pat Reg.Lane.PRBS_CHK (pat Reg.Lane.PRBS_GEN s)) b Reg.Lane.LOOPBACK (wfield Reg.Lane.LOOPBACK v)
    if fget s b Reg.Lane.PRBS_CHK = was then s else fflag s b Reg.Lane.CHK_LOCK false
/-- A word written to a lane's registers (12 R344, R345, R357 to R364). -/
def laneWrite (n o : Nat) (v : Word) (s : State) : State :=
  let b := lb n
  let fs := Reg.Lane.fields o
  match o with
  | 0x20 => onBit v 0 (actLaneClr n) s
  | 0x40 => txcWrite n o v s
  | 0x44 => txcWrite n o v s
  | 0x48 => writeFields s b (fs.filter (fun f => f != Reg.Lane.CTLE_PEAK || wfield Reg.Lane.CTLE_OVR v == 1)) v
  | 0x60 => testWrite n v s
  | 0x64 =>
    let s := writeFields s b fs v
    let s := if wfield Reg.Lane.INJ_MODE v = 0 then laneUpd s n (fun x => { x with inj := false }) else s
    onBit v 31 (actInjGo n) s
  | _ => writeFields s b fs v

/-- A word written to the power and health window (15 R472; 12 R367, R371). -/
def pwrWrite (o : Nat) (v : Word) (s : State) : State :=
  let s' := writeTaken s pwrBase (Reg.Pwr.fields o ++ Reg.Bight.fields o) v
  match o with
  | 0xA0 => onBit v 0 (fun s => fwipe s pwrBase (Reg.Pwr.SLEEP_ABORT_CNT :: (List.range 9).map Reg.Pwr.AVS_RETRY_CNT)) s
  | 0x80000 => [false, true].foldl (fun s b => if fbit s pwrBase (btEn b) then s else closeBypass s b) s'
  | 0x80010 => onBit v 31 actRxPop s
  | 0x80014 => onBit v 31 actTxGo s'
  | _ => s'

/-- A word written to the timing unit (07 R193, R195, R197, R199). -/
def timWrite (o : Nat) (v : Word) (s : State) : State :=
  let s' := writeTaken s timBase (Reg.Tim.fields o) v
  match o with
  | 0x20 =>
    let x := v.toInt
    let c : Int := if x < -2147484 then -2147484 else if 2147484 < x then 2147484 else x
    fset s timBase Reg.Tim.RATE_ADJ (BitVec.ofInt 32 c).toNat
  | 0x2C => onBit v 31 actSetGo s'
  | 0x4C => if bitOf v 31 then s' else { s' with tim := { s'.tim with pps := false, ppsLeft := 0 } }
  | _ => s'

/-- A word written to a PCIe controller's link registers (13 R388). -/
def pcieWrite (c o : Nat) (v : Word) (s : State) : State :=
  if o < 0x400 ∧ o % 0x100 = 0x10 then
    onBit v 0 (fun s => csrWipe s (pcieBase c (o / 0x100) + 0x004) (pcieBase c (o / 0x100) + 0x010)) s
  else s

/-- A word written to the security window (11 R317, R334). -/
def secWrite (o : Nat) (v : Word) (s : State) : State :=
  match o with
  | 0x10 => if rwlOpen s then winWrite v s else s
  | 0x100 => onBit v 0 actSecClr s
  | 0x104 => actSecCntClr (v.toNat % 2 ^ 17) s
  | _ => writeTaken s secBase (Reg.Sec.fields o) v

/-- A word written to the configuration controller (14 R435, R436). -/
def cfgWrite (o : Nat) (v : Word) (s : State) : State :=
  match o with
  | 0x24 => onBit v 0 actCfgErrClr s
  | 0x30 =>
    if fbit s cfgBase Reg.Cfg.RAWF_BUSY && bitOf v 31 then s else onBit v 31 actRawfGo (writeFields s cfgBase (Reg.Cfg.fields o) v)
  | _ => writeFields s cfgBase (Reg.Cfg.fields o) v

/-- A word written to a hawser's window (09 R275). -/
def hwWrite (h o : Nat) (v : Word) (s : State) : State :=
  let b := hwBase (h / 16) (h % 16)
  let s' := writeTaken s b (Reg.Hw.fields o) v
  match o with
  | 0x60 => onBit v 0 (actHwClr h) s
  | 0x64 => onBit v 31 (actTestGo h) s'
  | _ => s'

/-- What a served write does (row 4 of R39). -/
def csrStore (by' : By) (w : Win) (o : Nat) (v : Word) (s : State) : State :=
  match w with
  | .hub => if o = 0xC then onBit v 0 lockPlan s else writeFields s 0 (Reg.Hub.fields o) v
  | .mailbox n => mailboxWrite by'.path n o v s
  | .mc n => mcWrite by' n o v s
  | .sec => secWrite o v s
  | .pcie c => pcieWrite c o v s
  | .quad q =>
    if o < 0x1000 then writeFields s (quadBase q) (Reg.Quad.fields o) v
    else if o < 0x5000 ∧ !hubLaneBlank w o then laneWrite (4 * q + (o / 0x1000 - 1)) (o % 0x1000) v s
    else s
  | .tim => timWrite o v s
  | .pwr => pwrWrite o v s
  | .cfg => cfgWrite o v s
  | .die d => dieWrite d o v s
  | .isl n => islWrite n o v s
  | .eis e => eisWrite e o v s
  | .hw h => hwWrite h o v s

/-- A write: its outcome under R39. -/
def csrWrite (by' : By) (s : State) (part a size : Nat) (v : Word) : Resp × State :=
  match csrGate s part a size true with
  | (.error r, s) => (r, s)
  | (.ok (w, o), s) => (.okay, csrStore by' w o v s)

/-! ### CSR packets (08 R226, R238, R239; 13 R382) -/

/-- The path of a source node: a logic island's. -/
def nodePath (node : Nat) : Option Path :=
  match nodeKind node with
  | .island n => some (.fabric ⟨n / 48 % 8, Nat.mod_lt _ (by decide)⟩ ⟨n % 48, Nat.mod_lt _ (by decide)⟩)
  | _ => none

/-- The CSR node maps the address: the hub's maps the whole space, a die's its own die. -/
def csrNodeMaps (p : Packet) : Bool :=
  match nodeKind (dstOf p) with
  | .hubCsr => true
  | .dieCsr d => p.addr.toNat / 0x1000000 == d + 1
  | _ => false

/-- A `CSR_RD` or `CSR_WR` at its target. -/
def csrAtTarget (write : Bool) (p : Packet) (s : State) : State :=
  let a := if p.addr.toNat < 2 ^ 32 then p.addr.toNat else 0xFFFFFFFC
  if !shapeOk p || !csrNodeMaps p then respond s p .decodeErr []
  else if p.poisoned then
    let g := csrGate s p.part.toNat a p.size.toNat write
    respond g.2 p (match g.1 with
      | .error r => r
      | .ok _ => .poisoned) []
  else if write then
    let r := csrWrite ⟨nodePath (srcOf p), srcOf p == dmcNode⟩ s p.part.toNat a p.size.toNat (BitVec.ofNat 32 (leAt p.data 0 4))
    respond r.2 p r.1 []
  else
    let r := csrRead s p.part.toNat a p.size.toNat
    respond r.2.2 p r.1 (natLe r.2.1.toNat 4)

/-- Arrival of a CSR packet. -/
def csrArrive (write : Bool) (p : Packet) (s : State) : State :=
  if s.pwr.hubReset || p.op != (if write then opCsrWr else opCsrRd) then s
  else match takeNet s p with
  | none => s
  | some s => csrAtTarget write p s

def execCsrRd (p : Packet) (s : State) : Out := .next (csrArrive false p s)
def execCsrWr (p : Packet) (s : State) : Out := .next (csrArrive true p s)

end Sys2Proof.Machine
end

