-- ==== Sys2Proof/Machine/Pcie.lean ====
section
/-! DEFINITION. Access from outside: PCIe links, configuration requests and BARs (13 R384 to R388, R393), I²C (13 R383) and the
host ports in register mode (14 R419). -/

namespace Sys2Proof.Machine

/-! ### Links (R384, R385) -/

/-- The data link of link k of controller c is up, so that requests reach it. -/
def linkLive (s : State) (c k : Nat) : Bool :=
  (pcieGet s c).up && !(pcieGet s c).perst && fbit s (pcieBase c k) Reg.Pcie.DL_UP && decide (k < pcieLinks s c)

/-- A rate, width and mode that a link of the controller can settle at: 1 to 6; a power of two up to its bifurcation; Flit mode is
always in use at 64.0 GT/s. -/
def linkSettles (s : State) (c speed width : Nat) (flit : Bool) : Bool :=
  decide (1 ≤ speed ∧ speed ≤ 6) && [1, 2, 4, 8, 16].contains width && decide (width * pcieLinks s c ≤ 16) && (flit || speed != 6)

/-- DATA_LINK_UP: a link of a controller that runs, with `PERSTn_N` released, comes up. -/
def opDataLinkUp (c k speed width : Nat) (flit : Bool) (s : State) : State :=
  let b := pcieBase c k
  if (pcieGet s c).up && !(pcieGet s c).perst && decide (k < pcieLinks s c) && !fbit s b Reg.Pcie.DL_UP &&
      linkSettles s c speed width flit then
    fflag (fflag (fset (fset s b Reg.Pcie.SPEED speed) b Reg.Pcie.WIDTH width) b Reg.Pcie.FLIT flit) b Reg.Pcie.DL_UP true
  else s

/-- PERST_RELEASE: the links of a controller may train (DATA_LINK_UP). -/
def opPerstRelease (c : Nat) (s : State) : State := pcieUpd s c (fun x => { x with perst := false })

/-! ### Configuration requests (R385) -/

/-- What a configuration request gets. -/
inductive CfgAns where
  | done | retry | unsupported
  deriving DecidableEq, Repr

/-- The answer of function f of a live link. -/
def cfgAnswer (s : State) (c k f : Nat) : CfgAns :=
  if pciePer s c ≤ f then .unsupported
  else if !s.boot.dmc then .retry
  else
    let h := fnHolder s c (pcieFn s c k f)
    if h = 0x1F then (if f = 0 then .done else .unsupported)
    else if (partGet s h).state = 1 then .retry
    else .done

/-- PCIE_CONFIG_REQUEST: a completed request answers the Vendor and the Device ID. Retry is answered here as `none`,
Unsupported Request `DECODE_ERR`. -/
def opPcieConfigRequest (c k f : Nat) (s : State) : State :=
  if !linkLive s c k then s
  else match cfgAnswer s c k f with
  | .done => answer s .okay (BitVec.ofNat 32 (mfGet s (0x242 + 16 * c) 2 + 65536 * 0x9680))
  | .retry => answer (finc s (pcieBase c k) Reg.Pcie.RRS_CNT) .none 0
  | .unsupported => answer (finc s (pcieBase c k) Reg.Pcie.UR_CNT) .decodeErr 0

/-! ### BARs (R386, R393) -/

/-- An access that arrived over a PCIe link: controller, link, function; write data or none; bytes. -/
structure BarReq where
  c : Fin 2
  k : Fin 4
  f : Fin 8
  write : Bool
  data : List Byte
  deriving DecidableEq, Repr

def BarReq.path (r : BarReq) : Path := .pcie r.c r.k r.f
def BarReq.fn (r : BarReq) (s : State) : Nat := 8 * r.c.val + pcieFn s r.c.val r.k.val r.f.val

/-- One 32-bit access to the CSR space from function r. -/
def barCsr (r : BarReq) (part a i size : Nat) (s : State) : Resp × Word × State :=
  if r.write then
    let w := csrWrite ⟨some r.path, false⟩ s part a size (BitVec.ofNat 32 (leAt r.data i 4))
    (w.1, 0, w.2)
  else csrRead s part a size

/-- An access to the CSR space: 64 aligned bits are two accesses in ascending order (01 R36). -/
def barSpace (r : BarReq) (part a size : Nat) (s : State) : State :=
  let c := r.c.val
  let k := r.k.val
  if size = 8 ∧ a % 8 = 0 then
    let x := barCsr r part a 0 4 s
    let y := barCsr r part (a + 4) 4 4 x.2.2
    let v := pcieSeen y.2.2 c k (if isErr x.1 then x.1 else y.1)
    answerBytes v.2 v.1 (if r.write then [] else natLe x.2.1.toNat 4 ++ natLe y.2.1.toNat 4)
  else
    let x := barCsr r part a 0 size s
    let v := pcieSeen x.2.2 c k x.1
    answerBytes v.2 v.1 (if r.write then [] else natLe x.2.1.toNat 4)

/-- A word written to the MSI-X table: unmasking a pending vector sends it (PRESUMED, PCIe Base; notes/assumptions/40.md). -/
def msixWrite (s : State) (fn i : Nat) (v : Word) : State :=
  let v := if i % 4 = 3 then v &&& 1 else v
  let s := fnUpd s fn (fun x => { x with table := tset (if i % 4 = 3 then 1 else 0) x.table i v })
  if i % 4 = 3 ∧ v = 0 ∧ (fnGet s fn).pba.testBit (i / 4) then
    msiSignal (fnUpd s fn (fun x => { x with pba := x.pba - 2 ^ (i / 4) })) fn (i / 4)
  else s
/-- A 32-bit access to a function's MSI-X table or pending bits; none elsewhere. -/
def msixAccess (r : BarReq) (off : Nat) (s : State) : Option (Word × State) :=
  let fn := r.fn s
  if 0x10000 ≤ off ∧ off < 0x10400 then
    let i := (off - 0x10000) / 4
    if r.write then some (0, msixWrite s fn i (BitVec.ofNat 32 (leAt r.data 0 4))) else some (msixWord s fn i, s)
  else if 0x18000 ≤ off ∧ off < 0x18008 then
    some (if r.write then 0 else BitVec.ofNat 32 ((fnGet s fn).pba / 2 ^ (8 * (off - 0x18000))), s)
  else none

/-- The pieces of a DRAM access, each fit for one packet (08 R225): whole lines up to 512 bytes, else bytes of one line, at most 32. -/
def memPieces : Nat → Nat → Nat → List (Nat × Nat)
  | 0, _, _ => []
  | fuel + 1, a, n =>
    if n = 0 then []
    else
      let m := if a % 64 = 0 ∧ 64 ≤ n then 64 * min 8 (n / 64) else min n (min 32 (64 - a % 64))
      (a, m) :: memPieces fuel (a + m) (n - m)

/-- The packet of a piece: `TAG` names the link. -/
def memPacket (r : BarReq) (part a : Nat) (data : List Byte) (size : Nat) : Packet :=
  { dstDie := 8, dstNode := BitVec.ofNat 8 (8 + a / 2 ^ 36), dstUnit := 0
    srcDie := 8, srcNode := BitVec.ofNat 8 (pcieNode r.c.val), srcUnit := 0
    part := BitVec.ofNat 5 part, prio := 1, vn := 0, op := if r.write then opWr else opRd
    len := if r.write then BitVec.ofNat 4 (lenOf size) else 0
    tag := BitVec.ofNat 12 r.k.val, nw := false, rsv := 0, resp := 0, size := BitVec.ofNat 10 size, addr := BitVec.ofNat 48 a
    firstBe := BitVec.allOnes 64, lastBe := BitVec.allOnes 64, rsvd := false, poisoned := false, data := data }

/-- BAR4: the controller sends `RD` or `WR` packets; RESPONSE_TAKE completes them. While its interface has no room for all of
them, the access waits on the link. -/
def barMemory (r : BarReq) (part off size : Nat) (s : State) : State :=
  let rec0 := 0x240 + 16 * r.c.val
  let a := off + mfGet s (rec0 + 10) 2 * 2 ^ 30
  if 2 ^ (30 + mfGet s (rec0 + 8) 1) < off + size ∨ 2 ^ 39 < a + size then
    (let v := pcieSeen s r.c.val r.k.val .decodeErr; answer v.2 v.1 0)
  else
    let send (x : Bool × State) (p : Nat × Nat) : Bool × State :=
      if x.1 then inject x.2 (memPacket r part p.1 (if r.write then (r.data.drop (p.1 - a)).take p.2 else []) p.2) else x
    let x := (memPieces 64 a size).foldl send (true, s)
    if x.1 then x.2 else s

/-- A PCIe memory access to a BAR of an assigned function (R386). -/
def barServe (r : BarReq) (part bar off size : Nat) (s : State) : State :=
  let c := r.c.val
  let k := r.k.val
  let deny (e : Resp) : State := let v := pcieSeen s c k e; answer v.2 v.1 0
  let stopped := (partGet s part).state == 3
  match bar with
  | 0 =>
    if off < 0x2000 then
      if stopped && mbHolder s (off / 256) != part then deny .domainOff else barSpace r part (0x10000 + off) size s
    else if stopped then deny .domainOff
    else if size = 4 ∧ off % 4 = 0 then
      (match msixAccess r off s with
      | some v => answer v.2 .okay v.1
      | none => deny .decodeErr)
    else if size = 8 ∧ off % 8 = 0 then
      (match msixAccess r off s with
      | some v =>
        (match msixAccess { r with data := r.data.drop 4 } (off + 4) v.2 with
        | some w => answerBytes w.2 .okay (natLe v.1.toNat 4 ++ natLe w.1.toNat 4)
        | none => deny .decodeErr)
      | none => deny .decodeErr)
    else deny .decodeErr
  | 2 => if stopped then deny .domainOff else if 2 ^ 28 ≤ off then deny .decodeErr else barSpace r part off size s
  | 4 => if stopped then deny .domainOff else barMemory r part off size s
  | _ => deny .decodeErr

/-- PCIE_BAR_ACCESS: nothing arrives over a link that is down; a function with no partition, or before phase C ends, has no BARs. -/
def opPcieBarAccess (r : BarReq) (bar off size : Nat) (s : State) : State :=
  if !linkLive s r.c.val r.k.val then s
  else match pathPart s r.path with
  | some part => barServe r part bar off size s
  | none => let v := pcieSeen s r.c.val r.k.val .decodeErr; answer v.2 v.1 0

/-! ### I²C (R383) -/

/-- Bytes written, gathered per word from offset o on: a word is applied with its byte at offset + 3. Bytes of a first word that
the transaction does not give are free (notes/assumptions/41.md). -/
def i2cWrites (part mb : Nat) : List Byte → Nat → Word → State → State
  | [], _, _, s => s
  | b :: t, o, w, s =>
    let i := o % 4
    let w := BitVec.ofNat 32 (w.toNat - (w.toNat / 256 ^ i % 256) * 256 ^ i + b.toNat * 256 ^ i)
    let s := if i = 3 then (csrWrite ⟨some .i2c, false⟩ s part (mbBase mb + o - 3) 4 w).2 else s
    i2cWrites part mb t ((o + 1) % 256) w s
/-- Bytes read from offset o on: the word is latched at its byte at offset + 0. -/
def i2cReads (part mb : Nat) : Nat → Nat → Word → State → List Byte × State
  | 0, _, _, s => ([], s)
  | n + 1, o, w, s =>
    let x : Word × State := if o % 4 = 0 then (let r := csrRead s part (mbBase mb + o) 4; (r.2.1, r.2.2)) else (w, s)
    let r := i2cReads part mb n ((o + 1) % 256) x.1 x.2
    (byte (x.1.toNat / 256 ^ (o % 4)) :: r.1, r.2)

/-- I2C_TRANSACTION: a mailbox number above 31 or not of the I²C partition gets NACK, answered here as `PART_ERR`; so does every
transaction in DORMANT (15 R450). -/
def opI2cTransaction (mb off : Nat) (write : Bool) (data : List Byte) (count : Nat) (s : State) : State :=
  if s.pwr.dormant then answer s .partErr 0
  else if s.pwr.hubReset then s
  else match pathPart s .i2c with
  | none => answer s .partErr 0
  | some part =>
    if 31 < mb ∨ mbReach s .i2c part mb = false then answer s .partErr 0
    else
      let f := if off % 4 = 0 then ((0 : Word), s) else freeWord s
      if write then answer (i2cWrites part mb data off f.1 f.2) .okay 0
      else let r := i2cReads part mb count off f.1 f.2; answerBytes r.2 .okay r.1

/-! ### Host ports (14 R419) -/

/-- HOST_REGISTER_ACCESS: an unassigned port, or any before the staged release, answers nothing. -/
def opHostRegisterAccess (hspi write : Bool) (addr : Nat) (v : Word) (s : State) : State :=
  let p : Path := if hspi then .hspi else .hpar
  match pathPart s p with
  | none => s
  | some part =>
    if write then (let r := csrWrite ⟨some p, false⟩ s part addr 4 v; answer r.2 r.1 0)
    else (let r := csrRead s part addr 4; answer r.2.2 r.1 r.2.1)

def execPerstRelease (c : Fin 2) (s : State) : Out := .next (opPerstRelease c.val s)
def execDataLinkUp (c : Fin 2) (k : Fin 4) (speed : BitVec 3) (width : BitVec 5) (flit : Bool) (s : State) : Out :=
  .next (opDataLinkUp c.val k.val speed.toNat width.toNat flit s)
def execPcieConfigRequest (c : Fin 2) (k : Fin 4) (f : Fin 8) (s : State) : Out := .next (opPcieConfigRequest c.val k.val f.val s)
def execPcieBarAccess (c : Fin 2) (k : Fin 4) (f : Fin 8) (bar : Fin 6) (off : BitVec 39) (write : Bool) (data : List Byte)
    (size : BitVec 10) (s : State) : Out :=
  .next (opPcieBarAccess ⟨c, k, f, write, data⟩ bar.val off.toNat (if write then data.length else size.toNat) s)
def execI2cTransaction (mb off : Byte) (write : Bool) (data : List Byte) (count : Nat) (s : State) : Out :=
  .next (opI2cTransaction mb.toNat off.toNat write data count s)
def execHostRegisterAccess (hspi write : Bool) (addr v : Word) (s : State) : Out :=
  .next (opHostRegisterAccess hspi write addr.toNat v s)

end Sys2Proof.Machine
end

