-- ==== Sys2Proof/Machine/Tap.lean ====
section
/-! DEFINITION. The TAP (17 R525 to R528; 12 R372). Cells of the boundary-scan register are in the order of R527. -/

namespace Sys2Proof.Machine

/-! ### Instructions -/

/-- Lanes with boundary-scan cells (12 R336): those of the fabric quads Fd.Q0 to Fd.Q2. -/
def scanLanes : List Nat := (List.range 128).filter (fun n => n / 4 % 4 != 3)
/-- A link in UP whose lane is taken goes down (12 R352). -/
def laneTaken (s : State) (n : Nat) : State := if linkState s n = 5 then opLinkDown n s else s
/-- The hub lanes are taken: the PCIe links go down. -/
def pcieTaken (s : State) (c : Nat) : State :=
  (List.range 4).foldl (fun s k => if linkLive s c k then linkDropped s c k else s) s

/-- Update-IR: the instruction comes into force; pins that the TAP takes leave their blocks. -/
def loadIr (s : State) (code : Nat) : State :=
  let was := tapHolds s
  let s := { s with tap := { s.tap with ir := code } }
  if irHolds code && !was then [0, 1].foldl pcieTaken (scanLanes.foldl laneTaken s) else s

/-- Capture-DR and Update-DR of the boundary-scan register: the cells sample the pins, and then hold what was shifted in. -/
def scanCells (s : State) (tdi : BitVec 4878) : State :=
  let v := Config.freePins s.free
  { s with free := s.free + 1, tap := { s.tap with cap := v, bsr := tdi } }

/-- Do `act` while the TAP is reachable (R525). -/
def onTap (s : State) (act : State → State) : State := if s.tap.on then act s else s
/-- An instruction over the boundary-scan register. -/
def tapScan (code : Nat) (tdi : BitVec 4878) (s : State) : State := onTap s (fun s => scanCells (loadIr s code) tdi)
/-- An instruction over the bypass register. -/
def tapPass (code : Nat) (s : State) : State := onTap s (fun s => loadIr s code)
/-- An instruction that reads a 32-bit register. -/
def tapRead (code : Nat) (v : Word) (s : State) : State :=
  onTap s (fun s => answer { loadIr s code with tap := { (loadIr s code).tap with dr := v } } .okay v)

/-- Word 0 of the `DESIGN_ID` in force; 0 before USER (R526). -/
def usercodeOf (s : State) : Word := if cfgState s = 3 then BitVec.ofNat 32 (fget s cfgBase (Reg.Cfg.DESIGN_ID 0)) else 0

/-- CFG_IN (14 R417): the word shifted in goes to the loader. -/
def opCfgIn (v : Word) (s : State) : State :=
  onTap s (fun s => opCfgWord v { loadIr s irCfgIn with tap := { (loadIr s irCfgIn).tap with dr := v } })
/-- Every other code acts as `BYPASS` (R526). -/
def opBypass (code : Nat) (s : State) : State := if irCodes.contains code then s else tapPass code s
/-- Test-Logic-Reset: `IDCODE` is in force, and each pin returns to its block (R528). -/
def opTapReset (s : State) : State := tapPass irIdcode s

def execExtest (tdi : BitVec 4878) (s : State) : Out := .next (tapScan irExtest tdi s)
def execSamplePreload (tdi : BitVec 4878) (s : State) : Out := .next (tapScan irSample tdi s)
def execUsercode (s : State) : Out := .next (tapRead irUsercode (usercodeOf s) s)
def execIdcode (s : State) : Out := .next (tapRead irIdcode (BitVec.ofNat 32 (fget s 0 Reg.Hub.IDCODE)) s)
def execHighz (s : State) : Out := .next (tapPass irHighz s)
def execClamp (s : State) : Out := .next (tapPass irClamp s)
def execExtestPulse (tdi : BitVec 4878) (s : State) : Out := .next (tapScan irPulse tdi s)
def execExtestTrain (tdi : BitVec 4878) (s : State) : Out := .next (tapScan irTrain tdi s)
def execCfgIn (v : Word) (s : State) : Out := .next (opCfgIn v s)
def execBypass (code : BitVec 10) (s : State) : Out := .next (opBypass code.toNat s)
def execTapReset (s : State) : Out := .next (opTapReset s)

end Sys2Proof.Machine
end

