-- ==== Sys2Proof/Machine/Router.lean ====
section
/-! DEFINITION. Routers of the meshes and the hub crossbar (01 R24, R25; 08 R229 to R233, 09 R254, R257, R269): where a packet stands, where
it goes next, room downstream, arbitration, and its delivery. Commands that bring a packet to its target stand for the rest of its way. -/

namespace Sys2Proof.Machine

/-! ### Routes (R229; 09 R269) -/

/-- Where the header of a packet stands: at router (x, y) of die d, in the crossbar, or at its target. -/
inductive Place where
  | mesh (d x y : Nat)
  | hub
  | target
  deriving DecidableEq, Repr

/-- The router downstream of a link; 0 is the interface of node `src`. -/
def placeAt (src l : Nat) : Place :=
  if l = 0 then (if src / 256 < 8 then .mesh (src / 256) (src % 16) (src % 256 / 16) else .hub)
  else if l < 6000 then
    let k := l - 1000
    let d := k / 576
    let x := k / 8 % 9
    let y := k / 72 % 8
    match k % 8 with
    | 0 => .mesh d x y
    | 1 => .mesh d (x - 1) y
    | 2 => .mesh d (x + 1) y
    | 3 => .mesh d x (y - 1)
    | 4 => .mesh d x (y + 1)
    | _ => .target
  else if l < 7000 then
    let h := l - 6000
    if h % 16 < 8 then .hub else .mesh (h / 16) 0 (h % 8)
  else .target

/-- One step of a router of die d from (x, y) toward (x', y'), along the row first or along the column first. -/
def meshStep (d x y x' y' : Nat) (rowFirst : Bool) : Nat :=
  let col := linkMesh d x y (if y' < y then 3 else 4)
  let row := linkMesh d x y (if x' < x then 1 else 2)
  if x = x' ∧ y = y' then linkMesh d x y 5
  else if rowFirst then (if x = x' then col else row)
  else if y = y' then row else col

/-- The output that a packet takes next (R229, R230; 09 R269): within its die along the row and then the column; out of it along its row to
column 0, along that to the row whose hawser carries its traffic, and over; from the hub the other way round. -/
def nextLink (s : State) (p : Packet) (l : Nat) : Option Nat :=
  let dd := dstOf p / 256
  let dx := dstOf p % 16
  let dy := dstOf p % 256 / 16
  let src := srcOf p
  if l = 0 ∧ src / 256 < 8 then some (linkMesh (src / 256) (src % 16) (src % 256 / 16) 0)
  else match placeAt src l with
    | .target => none
    | .hub => if dd = 8 then some (linkHubOut (dstOf p % 256)) else (rowMap s (16 * dd + 8) dy).map (fun z => linkHw (16 * dd + 8 + z))
    | .mesh d x y =>
      if dd = d then some (meshStep d x y dx dy (src / 256 == d))
      else if x ≠ 0 then some (linkMesh d x y 1)
      else (rowMap s (16 * d) (src % 256 / 16)).map (fun z => if y = z then linkHw (16 * d + z) else linkMesh d 0 y (if z < y then 3 else 4))

/-- NoC cycles from the grant of an output until the header stands downstream (01 R25): one per hop, 10 on a hawser, 4 in the
crossbar. -/
def linkDelay (l : Nat) : Nat := if l < 6000 then 1 else if l < 7000 then (if (l - 6000) % 16 < 8 then 10 else 14) else 4
/-- Cycles for which a packet holds an output (R230; 09 R256): one per flit, and on a half-width hawser one per 34 encoded bytes. -/
def linkTime (s : State) (l : Nat) (p : Packet) : Nat :=
  if 6000 ≤ l ∧ l < 7000 ∧ hwState s (l - 6000) = 2 then
    ((flitsOf p).map (fun f => ((encodeFlit p.poisoned (fbit s (hb (l - 6000)) Reg.Hw.COMP) (natLe f.toNat 64)).length + 33) / 34)).sum
  else 1 + p.len.toNat

/-! ### Buffers (R231; 09 R254) -/

abbrev WayEnt := Packet × HopSt

/-- Buffer and input of a packet: its link, or the interface of its source. -/
def inputOf (x : WayEnt) : Nat := if x.2.link = 0 then 8000 + srcOf x.1 else x.2.link
/-- Two packets wait in one buffer. -/
def sameBuffer (x y : WayEnt) : Bool := inputOf x == inputOf y && x.1.vn == y.1.vn && x.1.prio == y.1.prio
/-- Room for the whole packet in the buffer of its `VN` and priority downstream of link o (R230, R231): 10 flits, less those of packets that
stand there or are on their way, and those that still leave it. A target takes every packet (R237). -/
def hasRoom (s : State) (t o : Nat) (p : Packet) : Bool :=
  placeAt (srcOf p) o == .target ||
  decide (((s.way.filter (fun y => y.1.vn == p.vn && y.1.prio == p.prio)).map (fun y =>
    if y.2.link = o then 1 + y.1.len.toNat else if y.2.old = o then y.2.tail - t else 0)).sum + (1 + p.len.toNat) ≤ 10)
/-- The head of its buffer: no packet of the buffer came before it. -/
def isHead (s : State) (x : WayEnt) : Bool :=
  (s.way.takeWhile (fun y => y != x)).all (fun y => !sameBuffer x y || decide (x.2.due < y.2.due)) &&
  (s.way.dropWhile (fun y => y != x)).all (fun y => y == x || !sameBuffer x y || decide (x.2.due ≤ y.2.due))
/-- A hawser takes packets (09 R265): not while it changes width or clock. -/
def hwTakes (s : State) (h : Nat) : Bool :=
  hwRuns s h && (match (hwGet s h).change with
    | some c => c.kind == 0
    | none => true)
/-- Earlier packets of the flow have left the other hawsers of this direction (R233). -/
def flowMoved (s : State) (p : Packet) (o : Nat) : Bool :=
  !(decide (6000 ≤ o) && decide (o < 7000)) ||
    s.way.all (fun y => !sameFlow p y.1 || y.2.link == o || !(decide (6000 ≤ y.2.link) && y.2.link / 8 == o / 8))
/-- The packet is eligible at output o in cycle t (R232). -/
def eligible (s : State) (t o : Nat) (x : WayEnt) : Bool :=
  decide (x.2.due ≤ t) && nextLink s x.1 x.2.link == some o && isHead s x && hasRoom s t o x.1 && flowMoved s x.1 o &&
    (!(decide (6000 ≤ o) && decide (o < 7000)) || hwTakes s (o - 6000))

/-! ### Arbitration (R232, R257) -/

/-- The die whose weights an output uses; a hub node's output has fixed ones. -/
def outDie (o : Nat) : Option Nat := if o < 6000 then some ((o - 1000) / 576) else if o < 7000 then some ((o - 6000) / 16) else none
def ageMax (s : State) (o : Nat) : Nat :=
  match outDie o with
  | some d => max 16 (fget s (dieBase d) Reg.Die.AGE_MAX)
  | none => 256
def weight (s : State) (o k : Nat) : Nat :=
  match outDie o with
  | some d => max 1 (fget s (dieBase d) (if k = 1 then Reg.Die.W1 else if k = 2 then Reg.Die.W2 else Reg.Die.W3))
  | none => if k = 1 then 8 else if k = 2 then 4 else 1
/-- Input port and `VN` of a packet, as the round robins number them. -/
def portKey (x : WayEnt) : Nat := 4 * inputOf x + x.1.vn.toNat
/-- Round robin: the lowest port above the last served, else the lowest. -/
def roundRobin (last : Nat) (xs : List WayEnt) : Option WayEnt :=
  let least (l : List WayEnt) : Option WayEnt := l.find? (fun x => l.all (fun y => decide (portKey x ≤ portKey y)))
  match least (xs.filter (fun x => decide (last < portKey x))) with
  | some x => some x
  | none => least xs
/-- The packet that an output grants, and whether the guard chose it (steps 1 to 3 of R232). -/
def grantOf (s : State) (o : Nat) (xs : List WayEnt) : Option (WayEnt × Bool) :=
  let st := tget {} s.outs o
  let at' (k : Nat) : List WayEnt := xs.filter (fun x => x.1.prio.toNat == k)
  let old := xs.filter (fun x => x.1.prio != 0 && decide (ageMax s o ≤ x.2.wait))
  match roundRobin (tget 0 st.last 0) (at' 0) with
  | some x => some (x, false)
  | none => match old.find? (fun x => old.all (fun y => decide (y.2.wait ≤ x.2.wait))) with
    | some x => some (x, true)
    | none =>
      let ks := [1, 2, 3].filter (fun k => !(at' k).isEmpty)
      match (match ks.find? (fun k => decide (tget 0 st.served k < weight s o k)) with
        | some k => some k
        | none => ks.head?) with
      | some k => (roundRobin (tget 0 st.last k) (at' k)).map (fun x => (x, false))
      | none => none

/-- The arbiter after a grant: a round ends when no priority with an eligible packet has a place left in it. -/
def outAfter (s : State) (t o : Nat) (xs : List WayEnt) (x : WayEnt) (guard : Bool) : OutSt :=
  let st := tget {} s.outs o
  let k := x.1.prio.toNat
  let left := [1, 2, 3].any (fun j => xs.any (fun y => y.1.prio.toNat == j) && decide (tget 0 st.served j < weight s o j))
  let served := if k = 0 ∨ guard = true then st.served else if left then tset 0 st.served k (tget 0 st.served k + 1) else [(k, 1)]
  { busy := t + linkTime s o x.1, last := tset 0 st.last k (portKey x), served := served }

/-- Output o in cycle t: what it grants is decided on `s`, and done in `u` (R230, R232; FLIT_CNT and LIT_CNT of 09 R275). -/
def outCycle (s : State) (t : Nat) (u : State) (o : Nat) : State :=
  let xs := s.way.filter (eligible s t o)
  if t < (tget {} s.outs o).busy then u
  else match grantOf s o xs with
    | none => u
    | some g =>
      let x := g.1
      let hop : HopSt := { link := o, due := t + linkDelay o, old := x.2.link, tail := t + linkTime s o x.1, wait := 0 }
      let u := { u with
        way := u.way.map (fun y => if y = x then (x.1, hop) else y)
        outs := tset {} u.outs o (outAfter s t o xs x g.2) }
      let u := match (if g.2 then outDie o else none) with
        | some d => finc u (dieBase d) Reg.Die.AGE_GUARD_CNT
        | none => u
      if 6000 ≤ o ∧ o < 7000 then
        let b := hb (o - 6000)
        let fs := flitsOf x.1
        faddSat (faddSat u b Reg.Hw.FLIT_CNT fs.length) b Reg.Hw.LIT_CNT
          ((fs.map (fun f => flitLits (fbit s b Reg.Hw.COMP) (natLe f.toNat 64))).sum)
      else u

/-! ### One NoC cycle -/

/-- The packets of the network with their places; a new one stands in its source's interface. -/
def syncWay (t : Nat) : List Packet → List WayEnt → List WayEnt
  | [], _ => []
  | p :: l, w =>
    match w.find? (fun x => x.1 == p) with
    | some x => x :: syncWay t l (w.erase x)
    | none => (p, { due := t }) :: syncWay t l w

/-- A packet reaches its target (R237 to R239). -/
def packetArrive (p : Packet) (s : State) : State :=
  if p.vn = 1 then opResponseArrive p s
  else if p.op = opEvt then opEvtArrive p s
  else if p.op = opTickPkt then tickArrive p s
  else if p.op = opCsrRd then csrArrive false p s
  else if p.op = opCsrWr then csrArrive true p s
  else arrive p.op p s

/-- The whole packet is at its target, or at the hub on its way to a fenced die, which the hub answers (01 R30). -/
def arrived (t : Nat) (x : WayEnt) : Bool :=
  decide (x.2.due + x.1.len.toNat ≤ t) && placeAt (srcOf x.1) x.2.link == .target
def atFence (s : State) (t : Nat) (x : WayEnt) : Bool :=
  decide (x.2.due ≤ t) && placeAt (srcOf x.1) x.2.link == .hub && decide (dstOf x.1 / 256 < 8) && fenced s (dstOf x.1 / 256) && x.1.vn != 1
def fenceAnswer (p : Packet) (s : State) : State :=
  let s := { s with net := s.net.erase p }
  if !answered p.op then s else if nodeRefused s p then respondPart s p else respond s p .domainOff []

/-- One cycle of the network (R230 to R233). -/
def nocCycle (s : State) (t : Nat) : State :=
  let s := { s with way := syncWay t s.net s.way }
  let s := (s.way.filter (atFence s t)).foldl (fun s x => fenceAnswer x.1 s) s
  let s := (s.way.filter (arrived t)).foldl (fun s x => packetArrive x.1 s) s
  let s := { s with way := syncWay t s.net s.way }
  let outs := (s.way.filterMap (fun x => nextLink s x.1 x.2.link)).eraseDups
  let u := outs.foldl (outCycle s t) s
  { u with way := u.way.map (fun x =>
      if s.way.contains x && decide (x.2.due ≤ t) && x.2.link != 0 && isHead s x then (x.1, { x.2 with wait := x.2.wait + 1 }) else x) }

/-- The NoC cycles of 0.625 ns that end in the present nanosecond. -/
def nocIdle (s : State) : State :=
  if s.net.isEmpty && s.way.isEmpty then s
  else ((List.range (nocNow s - 8 * (s.up - 1) / 5)).map (fun k => 8 * (s.up - 1) / 5 + k + 1)).foldl nocCycle s

end Sys2Proof.Machine
end

