-- ==== Sys2Proof/Machine/WriteRows.lean ====
section
/-! DEFINITION. The rows that are a read or a write of one register: each is the CSR access of its address, decided under 01 R38
and R39, with the effect that Machine/Access.lean gives that register. Also MEMORY_UPSET. -/

namespace Sys2Proof.Machine

/-- A write of the word v to the register at a by requester w. -/
def csrWriteRow (w : Who) (a : Nat) (v : Word) (s : State) : State :=
  if s.pwr.hubReset then s
  else let r := csrWrite ⟨nodePath w.node.toNat, w.node.toNat == dmcNode⟩ s w.part.toNat a 4 v; answer r.2 r.1 0
/-- A read of the register at a. -/
def csrReadRow (w : Who) (a : Nat) (s : State) : State :=
  if s.pwr.hubReset then s else let r := csrRead s w.part.toNat a 4; answer r.2.2 r.1 r.2.1

def execUsLo (w : Who) (s : State) : Out := .next (csrReadRow w timBase s)
def execSelClr (w : Who) (d : Fin 8) (v : Word) (s : State) : Out := .next (csrWriteRow w (dieBase d.val + 0x108) v s)
def execGeneratorWrite (w : Who) (d : Fin 8) (i : Fin 48) (v : Word) (s : State) : Out := .next (csrWriteRow w (islBase (islId d i)) v s)
def execTreeSwitch (w : Who) (d : Fin 8) (i : Fin 48) (x : Fin 4) (v : Word) (s : State) : Out := .next (csrWriteRow w (islBase (islId d i) + 0x10 + 4 * x.val) v s)
def execMarginClr (w : Who) (c : ClkDom) (v : Word) (s : State) : Out := .next (csrWriteRow w (clkBase c + 0x40) v s)
def execBramRawGo (w : Who) (d : Fin 8) (i : Fin 48) (v : Word) (s : State) : Out := .next (csrWriteRow w (islBase (islId d i) + 0x120) v s)
def execMemClr (w : Who) (d : Fin 8) (i : Fin 48) (v : Word) (s : State) : Out := .next (csrWriteRow w (islBase (islId d i) + 0x118) v s)
def execEngineErrClr (w : Who) (g : Eng) (v : Word) (s : State) : Out := .next (csrWriteRow w (engBase (engId g) + 0x14) v s)
def execRawGo (w : Who) (g : Eng) (v : Word) (s : State) : Out := .next (csrWriteRow w (engBase (engId g) + 0x20) v s)
def execSchedClr (w : Who) (g : Eng) (v : Word) (s : State) : Out := .next (csrWriteRow w (engBase (engId g) + 0x68) v s)
def execSetGo (w : Who) (v : Word) (s : State) : Out := .next (csrWriteRow w (timBase + 0x2C) v s)
def execEclkNWrite (w : Who) (d : Fin 8) (e : Fin 10) (v : Word) (s : State) : Out := .next (csrWriteRow w (eisBase (eisId d e)) v s)
def execNocClr (w : Who) (d : Fin 8) (v : Word) (s : State) : Out := .next (csrWriteRow w (dieBase d.val + 0x1024) v s)
def execHwClr (w : Who) (d : Fin 8) (n : Fin 16) (v : Word) (s : State) : Out := .next (csrWriteRow w (hwBase d.val n.val + 0x60) v s)
def execTestGo (w : Who) (d : Fin 8) (n : Fin 16) (v : Word) (s : State) : Out := .next (csrWriteRow w (hwBase d.val n.val + 0x64) v s)
def execTrnGo (w : Who) (n : Fin 8) (v : Word) (s : State) : Out := .next (csrWriteRow w (mcBase n.val + 0x400) v s)
def execMrGo (w : Who) (n : Fin 8) (v : Word) (s : State) : Out := .next (csrWriteRow w (mcBase n.val + 0x440) v s)
def execRunGo (w : Who) (n : Fin 8) (v : Word) (s : State) : Out := .next (csrWriteRow w (mcBase n.val + 0x8) v s)
def execDisableGo (w : Who) (n : Fin 8) (v : Word) (s : State) : Out := .next (csrWriteRow w (mcBase n.val + 0x8) v s)
def execPhyWrite (w : Who) (n : Fin 8) (off : BitVec 16) (v : Word) (s : State) : Out := .next (csrWriteRow w (mcBase n.val + off.toNat) v s)
def execMcErrClr (w : Who) (n : Fin 8) (v : Word) (s : State) : Out := .next (csrWriteRow w (mcBase n.val + 0x210) v s)
def execWinEn (w : Who) (v : Word) (s : State) : Out := .next (csrWriteRow w (secBase + 0x10) v s)
def execSecClr (w : Who) (v : Word) (s : State) : Out := .next (csrWriteRow w (secBase + 0x100) v s)
def execSecCntClr (w : Who) (v : Word) (s : State) : Out := .next (csrWriteRow w (secBase + 0x104) v s)
def execInjGo (w : Who) (l : Lane) (v : Word) (s : State) : Out := .next (csrWriteRow w (laneBase l.q.val l.l.val + 0x64) v s)
def execLaneClr (w : Who) (l : Lane) (v : Word) (s : State) : Out := .next (csrWriteRow w (laneBase l.q.val l.l.val + 0x20) v s)
def execTxGo (w : Who) (v : Word) (s : State) : Out := .next (csrWriteRow w (pwrBase + 0x80014) v s)
def execRxPop (w : Who) (v : Word) (s : State) : Out := .next (csrWriteRow w (pwrBase + 0x80010) v s)
def execProtLock (w : Who) (v : Word) (s : State) : Out := .next (csrWriteRow w 0xC v s)
def execPcieClr (w : Who) (c : Fin 2) (k : Fin 4) (v : Word) (s : State) : Out := .next (csrWriteRow w (pcieBase c.val k.val + 0x10) v s)
def execCsRestart (w : Who) (d : Fin 8) (v : Word) (s : State) : Out := .next (csrWriteRow w (dieBase d.val + 0x318) v s)
def execCsClr (w : Who) (d : Fin 8) (v : Word) (s : State) : Out := .next (csrWriteRow w (dieBase d.val + 0x318) v s)
def execCfgErrClr (w : Who) (v : Word) (s : State) : Out := .next (csrWriteRow w (cfgBase + 0x24) v s)
def execRawfGo (w : Who) (v : Word) (s : State) : Out := .next (csrWriteRow w (cfgBase + 0x30) v s)
def execPwrClr (w : Who) (v : Word) (s : State) : Out := .next (csrWriteRow w (pwrBase + 0xA0) v s)

/-! ### Link words (08 R223) -/

/-- The die whose router checks the packet next; none in the hub. -/
def linkDie (s : State) (p : Packet) : Option Nat :=
  match placeAt (srcOf p) ((s.way.find? (fun x => x.1 == p)).map (fun x => x.2.link) |>.getD 0) with
  | .mesh d _ _ => some d
  | .hub => none
  | .target => if dstOf p / 256 < 8 then some (dstOf p / 256) else none
def linkCount (s : State) (p : Packet) (f : Fld) : State :=
  match linkDie s p with
  | some d => finc s (dieBase d) f
  | none => s
/-- The packet with the bits of a word of a flit inverted: 0 the header. -/
def flitXor (p : Packet) (k w x : Nat) : Packet :=
  let fs := (flitsOf p).zipIdx.map (fun f => if f.2 = k then f.1 ^^^ BitVec.ofNat 512 (x * 2 ^ (64 * w)) else f.1)
  packetOf p.poisoned (fs.headD 0) (fs.drop 1)
/-- A word of a flit reaches the next router with the bits of `mask` inverted, its check bits in [71:64]: corrected and counted; where it is
uncorrectable, the packet is discarded for a header flit and poisoned for a payload flit. The code is linear, so that the error pattern
alone decides. -/
def linkUpset (p : Packet) (k w : Nat) (mask : BitVec 72) (s : State) : State :=
  if !s.net.contains p || decide (p.len.toNat < k) then s
  else
    let r := secDecode pos64 7 (mask.toNat % 2 ^ 64) (mask.toNat / 2 ^ 64)
    if r.dbe then
      let s := linkCount s p Reg.Die.FLIT_DBE_CNT
      if k = 0 then { s with net := s.net.erase p, way := s.way.filter (fun x => x.1 != p) } else swapPacket s p { p with poisoned := true }
    else
      let s := if r.sbe then linkCount s p Reg.Die.FLIT_SBE_CNT else s
      if r.data = 0 then s else swapPacket s p (flitXor p k w r.data)

/-! ### Upsets (04 R116; 05 R140; 10 R289; 11 R311, R324; 08 R223; 13 R400) -/

/-- MEMORY_UPSET: stored bits change; who reads them next finds the error. -/
def opMemoryUpset (x : UpsetAt) (s : State) : State :=
  match x with
  | .bram d i n row mask =>
    let k := bramKey (islId d i) n.val
    bramSet s k { bramGet s k with rows := tset 0 (bramGet s k).rows row.val (tget 0 (bramGet s k).rows row.val ^^^ mask) }
  | .engineDm g a mask => engUpd s (engId g) (fun e => { e with dm := tset 0 e.dm a.toNat (tget 0 e.dm a.toNat ^^^ mask) })
  | .enginePm g a mask => engUpd s (engId g) (fun e => { e with pm := tset 0 e.pm a.toNat (tget 0 e.pm a.toNat ^^^ mask) })
  | .dram line data chk =>
    let n := line.toNat / 2 ^ 30
    let l := line.toNat % 2 ^ 30
    dramSet s n l (lineXor (dramGet s n l) ⟨data, chk⟩)
  | .cache k i b mask =>
    (match cacheGet s k.toNat i.toNat with
    | some c => cachePut s k.toNat i.toNat (some { c with flips := tset 0 c.flips b.val (tget 0 c.flips b.val ^^^ mask) })
    | none => s)
  | .granule g mask => if (granGet s g.toNat).bad then s else granSet s g.toNat { granGet s g.toNat with flip := (granGet s g.toNat).flip ^^^ mask }
  | .link p k w mask => linkUpset p k.val w.val mask s
  | .dmcSram => opDmcRestart true s

def execMemoryUpset (x : UpsetAt) (s : State) : Out := .next (opMemoryUpset x s)

end Sys2Proof.Machine
end

