-- ==== Sys2Proof/Machine/Dispatch.lean ====
section
/-! DEFINITION. One arm per command: each calls the meaning of its row. -/

namespace Sys2Proof.Machine

def exec (i : Instr) (s : State) : Host.Outcome State Fault Refusal :=
  match i with
  | .csrWr p => Sys2Proof.Machine.execCsrWr p s
  | .usLo w => Sys2Proof.Machine.execUsLo w s
  | .configUpset d il f bits => Sys2Proof.Machine.execConfigUpset d il f bits s
  | .selClr w d v => Sys2Proof.Machine.execSelClr w d v s
  | .generatorWrite w d il v => Sys2Proof.Machine.execGeneratorWrite w d il v s
  | .generatorLock d il => Sys2Proof.Machine.execGeneratorLock d il s
  | .treeSwitch w d il x v => Sys2Proof.Machine.execTreeSwitch w d il x v s
  | .switchComplete d il x => Sys2Proof.Machine.execSwitchComplete d il x s
  | .switchForce d il x => Sys2Proof.Machine.execSwitchForce d il x s
  | .stretchRequest c slack => Sys2Proof.Machine.execStretchRequest c slack s
  | .stretchRelease c slack => Sys2Proof.Machine.execStretchRelease c slack s
  | .marginClr w c v => Sys2Proof.Machine.execMarginClr w c v s
  | .hitchWrite d il e k data => Sys2Proof.Machine.execHitchWrite d il e k data s
  | .hitchArrive d il e k => Sys2Proof.Machine.execHitchArrive d il e k s
  | .hitchTake d il e k => Sys2Proof.Machine.execHitchTake d il e k s
  | .hitchSlotFree d il e k => Sys2Proof.Machine.execHitchSlotFree d il e k s
  | .bramPortAccess d il n a b => Sys2Proof.Machine.execBramPortAccess d il n a b s
  | .bramScrubStep d il n => Sys2Proof.Machine.execBramScrubStep d il n s
  | .bramScrubWriteback d il n => Sys2Proof.Machine.execBramScrubWriteback d il n s
  | .bramScrubSkip d il n => Sys2Proof.Machine.execBramScrubSkip d il n s
  | .bramRawGo w d il v => Sys2Proof.Machine.execBramRawGo w d il v s
  | .bramRawAccess d il => Sys2Proof.Machine.execBramRawAccess d il s
  | .bramRawTimeout d il => Sys2Proof.Machine.execBramRawTimeout d il s
  | .memClr w d il v => Sys2Proof.Machine.execMemClr w d il v s
  | .slotANop g => Sys2Proof.Machine.execSlotANop g s
  | .addW g rd rs rt => Sys2Proof.Machine.execAddW g rd rs rt s
  | .subW g rd rs rt => Sys2Proof.Machine.execSubW g rd rs rt s
  | .cmpW g rs rt => Sys2Proof.Machine.execCmpW g rs rt s
  | .addH g rd rs rt => Sys2Proof.Machine.execAddH g rd rs rt s
  | .subH g rd rs rt => Sys2Proof.Machine.execSubH g rd rs rt s
  | .addsH g rd rs rt => Sys2Proof.Machine.execAddsH g rd rs rt s
  | .subsH g rd rs rt => Sys2Proof.Machine.execSubsH g rd rs rt s
  | .andW g rd rs rt => Sys2Proof.Machine.execAndW g rd rs rt s
  | .orW g rd rs rt => Sys2Proof.Machine.execOrW g rd rs rt s
  | .xorW g rd rs rt => Sys2Proof.Machine.execXorW g rd rs rt s
  | .andnW g rd rs rt => Sys2Proof.Machine.execAndnW g rd rs rt s
  | .shlW g rd rs sh => Sys2Proof.Machine.execShlW g rd rs sh s
  | .shrW g rd rs sh => Sys2Proof.Machine.execShrW g rd rs sh s
  | .sraW g rd rs sh => Sys2Proof.Machine.execSraW g rd rs sh s
  | .sraH g rd rs sh => Sys2Proof.Machine.execSraH g rd rs sh s
  | .movX g rd rs => Sys2Proof.Machine.execMovX g rd rs s
  | .mvl g rd imm => Sys2Proof.Machine.execMvl g rd imm s
  | .mvh g rd imm => Sys2Proof.Machine.execMvh g rd imm s
  | .conj g rd rs => Sys2Proof.Machine.execConj g rd rs s
  | .mulj g rd rs => Sys2Proof.Machine.execMulj g rd rs s
  | .packH g rd rs rt => Sys2Proof.Machine.execPackH g rd rs rt s
  | .rdst g rd => Sys2Proof.Machine.execRdst g rd s
  | .wrst g rs => Sys2Proof.Machine.execWrst g rs s
  | .accClr g ad => Sys2Proof.Machine.execAccClr g ad s
  | .accSet g ad rs sh => Sys2Proof.Machine.execAccSet g ad rs sh s
  | .accAdd g ad sa ta => Sys2Proof.Machine.execAccAdd g ad sa ta s
  | .accSub g ad sa ta => Sys2Proof.Machine.execAccSub g ad sa ta s
  | .mvfa g rd sa c h => Sys2Proof.Machine.execMvfa g rd sa c h s
  | .mvta g ad rs c h => Sys2Proof.Machine.execMvta g ad rs c h s
  | .ext g rd sa sh => Sys2Proof.Machine.execExt g rd sa sh s
  | .extr g rd sa c sh => Sys2Proof.Machine.execExtr g rd sa c sh s
  | .norm g ad rt => Sys2Proof.Machine.execNorm g ad rt s
  | .ashift g ad rs => Sys2Proof.Machine.execAshift g ad rs s
  | .expx g rd rs c => Sys2Proof.Machine.execExpx g rd rs c s
  | .bfscan g rs c => Sys2Proof.Machine.execBfscan g rs c s
  | .bfpack g rd sa => Sys2Proof.Machine.execBfpack g rd sa s
  | .bfcls g => Sys2Proof.Machine.execBfcls g s
  | .bfxa g => Sys2Proof.Machine.execBfxa g s
  | .cmac g ad rs rt => Sys2Proof.Machine.execCmac g ad rs rt s
  | .cmsc g ad rs rt => Sys2Proof.Machine.execCmsc g ad rs rt s
  | .cmacc g ad rs rt => Sys2Proof.Machine.execCmacc g ad rs rt s
  | .cmscc g ad rs rt => Sys2Proof.Machine.execCmscc g ad rs rt s
  | .cmul g ad rs rt => Sys2Proof.Machine.execCmul g ad rs rt s
  | .cmulc g ad rs rt => Sys2Proof.Machine.execCmulc g ad rs rt s
  | .rmac g ad rs rt => Sys2Proof.Machine.execRmac g ad rs rt s
  | .rmsc g ad rs rt => Sys2Proof.Machine.execRmsc g ad rs rt s
  | .rmul g ad rs rt => Sys2Proof.Machine.execRmul g ad rs rt s
  | .mulW g rd rs rt => Sys2Proof.Machine.execMulW g rd rs rt s
  | .slotBNop g => Sys2Proof.Machine.execSlotBNop g s
  | .ld16Re g rd ai mode md => Sys2Proof.Machine.execLd16Re g rd ai mode md s
  | .ld16Im g rd ai mode md => Sys2Proof.Machine.execLd16Im g rd ai mode md s
  | .ld16s g rd ai mode md => Sys2Proof.Machine.execLd16s g rd ai mode md s
  | .ld32 g rd ai mode md => Sys2Proof.Machine.execLd32 g rd ai mode md s
  | .ld64 g rd ai mode md => Sys2Proof.Machine.execLd64 g rd ai mode md s
  | .st16Re g rs ai mode md => Sys2Proof.Machine.execSt16Re g rs ai mode md s
  | .st16Im g rs ai mode md => Sys2Proof.Machine.execSt16Im g rs ai mode md s
  | .st32 g rs ai mode md => Sys2Proof.Machine.execSt32 g rs ai mode md s
  | .st64 g rs ai mode md => Sys2Proof.Machine.execSt64 g rs ai mode md s
  | .upd g ai mode md => Sys2Proof.Machine.execUpd g ai mode md s
  | .movi g rd imm => Sys2Proof.Machine.execMovi g rd imm s
  | .mov g rd rs => Sys2Proof.Machine.execMov g rd rs s
  | .stset g mask => Sys2Proof.Machine.execStset g mask s
  | .stclr g mask => Sys2Proof.Machine.execStclr g mask s
  | .bCc g cond target => Sys2Proof.Machine.execBCc g cond target s
  | .loop g target => Sys2Proof.Machine.execLoop g target s
  | .bl g rd target => Sys2Proof.Machine.execBl g rd target s
  | .brr g rs => Sys2Proof.Machine.execBrr g rs s
  | .reti g => Sys2Proof.Machine.execReti g s
  | .rpt g csrc cnt => Sys2Proof.Machine.execRpt g csrc cnt s
  | .commit g => Sys2Proof.Machine.execCommit g s
  | .done g => Sys2Proof.Machine.execDone g s
  | .illegalOp g bundle => Sys2Proof.Machine.execIllegalOp g bundle s
  | .pmDbe g => Sys2Proof.Machine.execPmDbe g s
  | .dmWriteback g => Sys2Proof.Machine.execDmWriteback g s
  | .resultRetire g => Sys2Proof.Machine.execResultRetire g s
  | .sharedStoreArrive g src => Sys2Proof.Machine.execSharedStoreArrive g src s
  | .timerFire g => Sys2Proof.Machine.execTimerFire g s
  | .interruptAccept g => Sys2Proof.Machine.execInterruptAccept g s
  | .engineErrClr w g v => Sys2Proof.Machine.execEngineErrClr w g v s
  | .rawGo w g v => Sys2Proof.Machine.execRawGo w g v s
  | .engineRawAccess g => Sys2Proof.Machine.execEngineRawAccess g s
  | .engineRawTimeout g => Sys2Proof.Machine.execEngineRawTimeout g s
  | .setGo w v => Sys2Proof.Machine.execSetGo w v s
  | .timeStep => Sys2Proof.Machine.execTimeStep s
  | .tick => Sys2Proof.Machine.execTick s
  | .tickLoss d e => Sys2Proof.Machine.execTickLoss d e s
  | .frameInEdge => Sys2Proof.Machine.execFrameInEdge s
  | .ppsInEdge => Sys2Proof.Machine.execPpsInEdge s
  | .frameLoss => Sys2Proof.Machine.execFrameLoss s
  | .ppsLoss => Sys2Proof.Machine.execPpsLoss s
  | .ppsOutRise => Sys2Proof.Machine.execPpsOutRise s
  | .ppsOutFall => Sys2Proof.Machine.execPpsOutFall s
  | .eclkNWrite w d e v => Sys2Proof.Machine.execEclkNWrite w d e v s
  | .eclkLock d e => Sys2Proof.Machine.execEclkLock d e s
  | .stagedDrain g => Sys2Proof.Machine.execStagedDrain g s
  | .schedClr w g v => Sys2Proof.Machine.execSchedClr w g v s
  | .packetInject p => Sys2Proof.Machine.execPacketInject p s
  | .rd p => Sys2Proof.Machine.execRd p s
  | .wr p => Sys2Proof.Machine.execWr p s
  | .csrRd p => Sys2Proof.Machine.execCsrRd p s
  | .msg p => Sys2Proof.Machine.execMsg p s
  | .evt p => Sys2Proof.Machine.execEvt p s
  | .responseArrive p => Sys2Proof.Machine.execResponseArrive p s
  | .rspTimeout node id => Sys2Proof.Machine.execRspTimeout node id s
  | .rsvGenerationReturn node id => Sys2Proof.Machine.execRsvGenerationReturn node id s
  | .islandResponse d il resp data => Sys2Proof.Machine.execIslandResponse d il resp data s
  | .drainEnd d il => Sys2Proof.Machine.execDrainEnd d il s
  | .drainTimeout d il => Sys2Proof.Machine.execDrainTimeout d il s
  | .islandOff d il => Sys2Proof.Machine.execIslandOff d il s
  | .wakeFail d il => Sys2Proof.Machine.execWakeFail d il s
  | .nocClr w d v => Sys2Proof.Machine.execNocClr w d v s
  | .hawserBlock d n block => Sys2Proof.Machine.execHawserBlock d n block s
  | .hawserAck d n seq => Sys2Proof.Machine.execHawserAck d n seq s
  | .hawserNak d n seq => Sys2Proof.Machine.execHawserNak d n seq s
  | .wireFail d n wire => Sys2Proof.Machine.execWireFail d n wire s
  | .wireWinExpire d n => Sys2Proof.Machine.execWireWinExpire d n s
  | .repairRequest d n => Sys2Proof.Machine.execRepairRequest d n s
  | .repairMarker d n => Sys2Proof.Machine.execRepairMarker d n s
  | .repairConfirm d n => Sys2Proof.Machine.execRepairConfirm d n s
  | .dieSelfFence d => Sys2Proof.Machine.execDieSelfFence d s
  | .hwClr w d n v => Sys2Proof.Machine.execHwClr w d n v s
  | .testGo w d n v => Sys2Proof.Machine.execTestGo w d n v s
  | .mcRequest n r => Sys2Proof.Machine.execMcRequest n r s
  | .mcCommand n => Sys2Proof.Machine.execMcCommand n s
  | .mcReadData n => Sys2Proof.Machine.execMcReadData n s
  | .refreshDue n rank => Sys2Proof.Machine.execRefreshDue n rank s
  | .rowClose n bank => Sys2Proof.Machine.execRowClose n bank s
  | .mr4Poll n rank mr4 => Sys2Proof.Machine.execMr4Poll n rank mr4 s
  | .zqCal n => Sys2Proof.Machine.execZqCal n s
  | .srEntry n meet => Sys2Proof.Machine.execSrEntry n meet s
  | .patrolStep n => Sys2Proof.Machine.execPatrolStep n s
  | .trnGo w n v => Sys2Proof.Machine.execTrnGo w n v s
  | .trnDone n a b chk => Sys2Proof.Machine.execTrnDone n a b chk s
  | .mrGo w n v => Sys2Proof.Machine.execMrGo w n v s
  | .mrAccessDone n cap => Sys2Proof.Machine.execMrAccessDone n cap s
  | .runGo w n v => Sys2Proof.Machine.execRunGo w n v s
  | .disableGo w n v => Sys2Proof.Machine.execDisableGo w n v s
  | .trainingTimeLimit n step => Sys2Proof.Machine.execTrainingTimeLimit n step s
  | .phyWrite w n off v => Sys2Proof.Machine.execPhyWrite w n off v s
  | .mcErrClr w n v => Sys2Proof.Machine.execMcErrClr w n v s
  | .zeroFillDone g => Sys2Proof.Machine.execZeroFillDone g s
  | .rekeyDone page => Sys2Proof.Machine.execRekeyDone page s
  | .winEn w v => Sys2Proof.Machine.execWinEn w v s
  | .escalationZeroizeDone p => Sys2Proof.Machine.execEscalationZeroizeDone p s
  | .gtRestore g => Sys2Proof.Machine.execGtRestore g s
  | .subtreeResetDone => Sys2Proof.Machine.execSubtreeResetDone s
  | .secClr w v => Sys2Proof.Machine.execSecClr w v s
  | .secCntClr w v => Sys2Proof.Machine.execSecCntClr w v s
  | .txWord l data hdr tsreq => Sys2Proof.Machine.execTxWord l data hdr tsreq s
  | .rxWord l data hdr startSeen => Sys2Proof.Machine.execRxWord l data hdr startSeen s
  | .anComplete l mode => Sys2Proof.Machine.execAnComplete l mode s
  | .trainComplete l => Sys2Proof.Machine.execTrainComplete l s
  | .acquireLock l => Sys2Proof.Machine.execAcquireLock l s
  | .trainWaitTimeout l locked => Sys2Proof.Machine.execTrainWaitTimeout l locked s
  | .acquireTimeout l signal => Sys2Proof.Machine.execAcquireTimeout l signal s
  | .signalLoss l => Sys2Proof.Machine.execSignalLoss l s
  | .validateWindow l locked clean => Sys2Proof.Machine.execValidateWindow l locked clean s
  | .linkDown l => Sys2Proof.Machine.execLinkDown l s
  | .backoffExpire l => Sys2Proof.Machine.execBackoffExpire l s
  | .signalDetectRise l => Sys2Proof.Machine.execSignalDetectRise l s
  | .mcuReload q hashOk => Sys2Proof.Machine.execMcuReload q hashOk s
  | .ctleAdapt l peak converged => Sys2Proof.Machine.execCtleAdapt l peak converged s
  | .recentre l eyeH eyeV => Sys2Proof.Machine.execRecentre l eyeH eyeV s
  | .injGo w l v => Sys2Proof.Machine.execInjGo w l v s
  | .injectRateFire l => Sys2Proof.Machine.execInjectRateFire l s
  | .laneClr w l v => Sys2Proof.Machine.execLaneClr w l v s
  | .timeMarker q => Sys2Proof.Machine.execTimeMarker q s
  | .tsUnsync q => Sys2Proof.Machine.execTsUnsync q s
  | .txTimestamp l => Sys2Proof.Machine.execTxTimestamp l s
  | .bightLaneUp b => Sys2Proof.Machine.execBightLaneUp b s
  | .bightRelease b => Sys2Proof.Machine.execBightRelease b s
  | .bightLaneLost b => Sys2Proof.Machine.execBightLaneLost b s
  | .bightWatchdog => Sys2Proof.Machine.execBightWatchdog s
  | .ringFrameReceive b frame => Sys2Proof.Machine.execRingFrameReceive b frame s
  | .ringFrameInsert elasticEmpty => Sys2Proof.Machine.execRingFrameInsert elasticEmpty s
  | .txGo w v => Sys2Proof.Machine.execTxGo w v s
  | .rxPop w v => Sys2Proof.Machine.execRxPop w v s
  | .badOpcode r opcode => Sys2Proof.Machine.execBadOpcode r opcode s
  | .devInfo r => Sys2Proof.Machine.execDevInfo r s
  | .ifLevel r => Sys2Proof.Machine.execIfLevel r s
  | .attach r => Sys2Proof.Machine.execAttach r s
  | .detach r => Sys2Proof.Machine.execDetach r s
  | .partInfo r => Sys2Proof.Machine.execPartInfo r s
  | .regionLoad r => Sys2Proof.Machine.execRegionLoad r s
  | .regionUnload r => Sys2Proof.Machine.execRegionUnload r s
  | .regionStatus r => Sys2Proof.Machine.execRegionStatus r s
  | .engineLoad r => Sys2Proof.Machine.execEngineLoad r s
  | .periodSet r => Sys2Proof.Machine.execPeriodSet r s
  | .engineStats r => Sys2Proof.Machine.execEngineStats r s
  | .linkSet r => Sys2Proof.Machine.execLinkSet r s
  | .linkStatus r => Sys2Proof.Machine.execLinkStatus r s
  | .linkTest r => Sys2Proof.Machine.execLinkTest r s
  | .powerSet r => Sys2Proof.Machine.execPowerSet r s
  | .deviceState r => Sys2Proof.Machine.execDeviceState r s
  | .healthRead r => Sys2Proof.Machine.execHealthRead r s
  | .policySet r => Sys2Proof.Machine.execPolicySet r s
  | .memAlloc r => Sys2Proof.Machine.execMemAlloc r s
  | .memRelease r => Sys2Proof.Machine.execMemRelease r s
  | .subtreeReset r => Sys2Proof.Machine.execSubtreeReset r s
  | .updateStage r => Sys2Proof.Machine.execUpdateStage r s
  | .updateStatus r => Sys2Proof.Machine.execUpdateStatus r s
  | .ownerLock r => Sys2Proof.Machine.execOwnerLock r s
  | .journalRead r => Sys2Proof.Machine.execJournalRead r s
  | .alarmRead r => Sys2Proof.Machine.execAlarmRead r s
  | .alarmAck r => Sys2Proof.Machine.execAlarmAck r s
  | .journalClear r => Sys2Proof.Machine.execJournalClear r s
  | .abort r => Sys2Proof.Machine.execAbort r s
  | .echo r => Sys2Proof.Machine.execEcho r s
  | .commandComplete mb fin => Sys2Proof.Machine.execCommandComplete mb fin s
  | .commandTimeout mb => Sys2Proof.Machine.execCommandTimeout mb s
  | .objectWaitTimeout mb => Sys2Proof.Machine.execObjectWaitTimeout mb s
  | .leaseExpire session => Sys2Proof.Machine.execLeaseExpire session s
  | .pathLoss p how => Sys2Proof.Machine.execPathLoss p how s
  | .protLock w v => Sys2Proof.Machine.execProtLock w v s
  | .lockWait => Sys2Proof.Machine.execLockWait s
  | .dmcRestart sram => Sys2Proof.Machine.execDmcRestart sram s
  | .perstRelease c => Sys2Proof.Machine.execPerstRelease c s
  | .pcieConfigRequest c k f => Sys2Proof.Machine.execPcieConfigRequest c k f s
  | .pcieBarAccess c k f bar off write data size => Sys2Proof.Machine.execPcieBarAccess c k f bar off write data size s
  | .pcieClr w c k v => Sys2Proof.Machine.execPcieClr w c k v s
  | .i2cTransaction mb off write data count => Sys2Proof.Machine.execI2cTransaction mb off write data count s
  | .hostRegisterAccess hspi write addr v => Sys2Proof.Machine.execHostRegisterAccess hspi write addr v s
  | .imageHeader bytes chk => Sys2Proof.Machine.execImageHeader bytes chk s
  | .frames n addr => Sys2Proof.Machine.execFrames n addr s
  | .frameRecord words => Sys2Proof.Machine.execFrameRecord words s
  | .zero n addr => Sys2Proof.Machine.execZero n addr s
  | .dieRec n words => Sys2Proof.Machine.execDieRec n words s
  | .segmentNop arg => Sys2Proof.Machine.execSegmentNop arg s
  | .endRecord arg => Sys2Proof.Machine.execEndRecord arg s
  | .hparWord v => Sys2Proof.Machine.execHparWord v s
  | .hspiByte b => Sys2Proof.Machine.execHspiByte b s
  | .sourceTimeout => Sys2Proof.Machine.execSourceTimeout s
  | .lockFail d il => Sys2Proof.Machine.execLockFail d il s
  | .stagedRelease => Sys2Proof.Machine.execStagedRelease s
  | .scrubFrame d => Sys2Proof.Machine.execScrubFrame d s
  | .frameRepair d il f source => Sys2Proof.Machine.execFrameRepair d il f source s
  | .scrubStall d => Sys2Proof.Machine.execScrubStall d s
  | .csRestart w d v => Sys2Proof.Machine.execCsRestart w d v s
  | .csClr w d v => Sys2Proof.Machine.execCsClr w d v s
  | .cfgErrClr w v => Sys2Proof.Machine.execCfgErrClr w v s
  | .rawfGo w v => Sys2Proof.Machine.execRawfGo w v s
  | .rawfAccess => Sys2Proof.Machine.execRawfAccess s
  | .standbyEntryDone => Sys2Proof.Machine.execStandbyEntryDone s
  | .supplyTimeout => Sys2Proof.Machine.execSupplyTimeout s
  | .wakeN => Sys2Proof.Machine.execWakeN s
  | .i2cWakeMatch addr => Sys2Proof.Machine.execI2cWakeMatch addr s
  | .aoTimer => Sys2Proof.Machine.execAoTimer s
  | .autoIdle => Sys2Proof.Machine.execAutoIdle s
  | .sensorSample x => Sys2Proof.Machine.execSensorSample x s
  | .policyLoop die x => Sys2Proof.Machine.execPolicyLoop die x s
  | .avsAck r => Sys2Proof.Machine.execAvsAck r s
  | .avsTimeout r => Sys2Proof.Machine.execAvsTimeout r s
  | .railDeviation r => Sys2Proof.Machine.execRailDeviation r s
  | .agingSample die ppm => Sys2Proof.Machine.execAgingSample die ppm s
  | .tjAlarm sensor => Sys2Proof.Machine.execTjAlarm sensor s
  | .thermalTrip sensor => Sys2Proof.Machine.execThermalTrip sensor s
  | .pwrClr w v => Sys2Proof.Machine.execPwrClr w v s
  | .suppliesValid => Sys2Proof.Machine.execSuppliesValid s
  | .phaseB dies tests => Sys2Proof.Machine.execPhaseB dies tests s
  | .phaseC chk0 chk1 pcieOk => Sys2Proof.Machine.execPhaseC chk0 chk1 pcieOk s
  | .phaseD fits train quads dsc trng => Sys2Proof.Machine.execPhaseD fits train quads dsc trng s
  | .phaseE => Sys2Proof.Machine.execPhaseE s
  | .phaseF locked => Sys2Proof.Machine.execPhaseF locked s
  | .startWatchdog => Sys2Proof.Machine.execStartWatchdog s
  | .aoPowerGood => Sys2Proof.Machine.execAoPowerGood s
  | .sysRstN level => Sys2Proof.Machine.execSysRstN level s
  | .railFault r => Sys2Proof.Machine.execRailFault r s
  | .extest tdi => Sys2Proof.Machine.execExtest tdi s
  | .samplePreload tdi => Sys2Proof.Machine.execSamplePreload tdi s
  | .usercode => Sys2Proof.Machine.execUsercode s
  | .idcode => Sys2Proof.Machine.execIdcode s
  | .highz => Sys2Proof.Machine.execHighz s
  | .clamp => Sys2Proof.Machine.execClamp s
  | .extestPulse tdi => Sys2Proof.Machine.execExtestPulse tdi s
  | .extestTrain tdi => Sys2Proof.Machine.execExtestTrain tdi s
  | .cfgIn v => Sys2Proof.Machine.execCfgIn v s
  | .bypass code => Sys2Proof.Machine.execBypass code s
  | .tapReset => Sys2Proof.Machine.execTapReset s
  | .vccAoLoss => Sys2Proof.Machine.execVccAoLoss s
  | .refclkOkChange q ok => Sys2Proof.Machine.execRefclkOkChange q ok s
  | .dataLinkUp c k speed width flit => Sys2Proof.Machine.execDataLinkUp c k speed width flit s
  | .responseTake node id => Sys2Proof.Machine.execResponseTake node id s
  | .memoryUpset x => Sys2Proof.Machine.execMemoryUpset x s

end Sys2Proof.Machine
end

