-- ==== Sys2Proof/Machine/Idle.lean ====
section
/-! DEFINITION. What happens in one nanosecond when no command waits: the timing unit and the quads' copies of the time count, a
microsecond boundary makes a pending time step and sends the tick, the logic islands and engine islands in service run their designs and programs,
lanes send, packets move, and the always-on timer counts (02 R54; 07 R193 to R200, 05 R130 to R165; 08 R229 to R233; 12 R342, R361; 15 R451;
notes/assumptions/4.md). -/

namespace Sys2Proof.Machine

/-- One cycle of the timing unit (07 R193): the time advances; at a boundary a pending step replaces it, and the tick goes out
(R194, R195, R198). The marker of the boundary still carries the old time: a step reaches the copies at the next (12 R361). -/
def timingCycle (s : State) : State :=
  let t := advanceTime s.tim (rateAdj s)
  let s' := ppsCycle s.tim { s with tim := t }
  if usCount t = usCount s.tim then s' else opTick (opTimeStep (markers s'))

/-- Engine k of engine island e, by number. -/
def engAt (e k : Nat) : Eng :=
  ⟨⟨e / 10 % 8, Nat.mod_lt _ (by decide)⟩, ⟨e % 10, Nat.mod_lt _ (by decide)⟩, ⟨k % 16, Nat.mod_lt _ (by decide)⟩⟩

/-- One cycle of an engine's external port and of its staging buffer (05 R135; 07 R212): each requester that waits is served in its turn. -/
def extCycle (n : Nat) (s : State) : State :=
  let e := engGet s n
  if e.wbs.isEmpty && e.released.isEmpty && e.posted.isEmpty && !fbit s (engBase n) Reg.Eng.RAW_BUSY then s
  else
    let s := opEngineRawAccess n s
    let s := match e.posted.find? (fun p => p.left == 0) with
      | some p => opSharedStoreArrive n p.src s
      | none => s
    opStagedDrain n (opDmWriteback n s)
/-- One nanosecond of an engine island: its clock runs at `ECLK_N` times 25 MHz, stretched by `STEPS` sixteenths, also while it relocks
and while the island is held (07 R200, 03 R97). -/
def eisCycle (s : State) (e : Nat) : State :=
  if eisOn s e then
    let acc := (eisGet s e).phase + 16 * fget s (eisBase e) Reg.Eisl.ECLK_N
    let lim := 40 * (16 + fget s (eisBase e) Reg.Isl.STEPS)
    if acc < lim then eisUpd s e (fun x => { x with phase := acc })
    else (List.range 16).foldl (fun s k => engineCycle (engAt e k) (extCycle (16 * e + k) s)) (eisUpd (marginFresh s (eisBase e)) e (fun x => { x with phase := acc - lim }))
  else s

/-- One nanosecond of the quads' copies of the time: an unsynchronised copy runs free (12 R361). -/
def quadCycle (s : State) : State :=
  let live (p : Nat × QuadSt) : Bool := p.2.pst == 0 || decide (32 ≤ p.1)
  let adj (q : Nat) : Int := if fbit s (quadBase q) Reg.Quad.TS_UNSYNC then 0 else rateAdj s
  let t := s.quad.map (fun p => if live p then (p.1, { p.2 with time := advanceTime p.2.time (adj p.1) }) else p)
  { s with quad := t.filter (fun p => decide (p.2 ≠ {})) }

/-- The always-on timer counts at each millisecond; its last count is the row AO_TIMER (15 R451). -/
def aoTimerCycle (s : State) : State :=
  if aoCounts s && s.up % 1000000 == 0 && decide (1 < fget s pwrBase Reg.Pwr.AO_TIMER) then
    fset s pwrBase Reg.Pwr.AO_TIMER (fget s pwrBase Reg.Pwr.AO_TIMER - 1)
  else s

/-- The margin registers of a clock domain: a clear meets an event on them within a period of its generator (03 R104), on every
other register within a nanosecond. -/
def marginKey (k : Nat) : Bool :=
  match winOf (k / 8) with
  | some (.isl _, o) | some (.eis _, o) => decide (0x34 ≤ o) && decide (o < 0x40)
  | _ => false
/-- A cycle ends: what the device set in it meets no clear any more (00 R532). -/
def freshEnd (s : State) : State := { s with fresh := s.fresh.filter (fun p => marginKey p.1) }
/-- One nanosecond of the lanes' lines (12 R342, R353, R357, R358). -/
def lanesCycle (s : State) : State :=
  (s.lane.map (fun p => p.1)).foldl (fun s n => laneWaitCycle (laneBits (laneLine s n) n) n) s

/-- One nanosecond of the device: while hub reset is asserted nothing moves but the always-on timer in DORMANT. -/
def idle (s : State) : State :=
  if s.pwr.hubReset then
    if s.pwr.ao && s.pwr.dormant then aoTimerCycle { s with up := s.up + 1 } else s
  else dormantCycle (nocIdle (lanesCycle (logicIdle (aoTimerCycle (allEis.foldl eisCycle (quadCycle (timingCycle (leaseCycle (freshEnd { s with up := s.up + 1 })))))))))

end Sys2Proof.Machine
end

