-- ==== Sys2Proof/Safety.lean ====
section
/-! DEFINITION. What a safe run is: every step answers a next state. Also the terms that the claims use: what every step keeps,
and the state that one slot of a signal engine's bundle leaves. -/

namespace Sys2Proof

/-- The outcome is a next state. -/
def isNext {σ φ ρ : Type} : Host.Outcome σ φ ρ → Bool
  | .next _ => true
  | .fault _ => false
  | .refused _ => false

/-- A step from `s` ends in a next state. -/
def Safe (s : Machine.State) : Prop := isNext (Machine.step s) = true

/-- The invariant: the DRAM is in canonical form, and the register table lists its keys in rising order. -/
def Inv (s : Machine.State) : Prop := Machine.Memory.wf s.dram = true ∧ rising s.csr

namespace Machine

/-- The engine of `g`. -/
def engOf (s : State) (g : Eng) : EngSt := engGet s (engId g)

/-- The engine issues the bundle due in this cycle, and neither of its slots has yet (05 R130). -/
def opens (s : State) (g : Eng) : Bool := canIssue s (engId g) && (engGet s (engId g)).half == 0

/-- Slot A of the bundle due has issued: its results, each with its latency, are in flight (05 R145). -/
def ranA (s : State) (g : Eng) (ws : List (Nat × ResW)) : State := engUpd s (engId g) (fun e => { putA e ws with half := 1 })

/-- Slot B has issued and the bundle with it: the results are in flight, the program counter moves on, `PC_NOW` and `BANK` show
the bundle. -/
def ranB (s : State) (g : Eng) (ws : List (Nat × ResW)) : State :=
  bundleDone (engSet s (engId g) (advanceFlow (putB (engOf s g) ws))) (engId g) (engOf s g).pc (engOf s g).bank

/-- A control transfer has issued: the program counter of the bundle that follows, and what comes after it. -/
def ranCT (s : State) (g : Eng) (ws : List (Nat × ResW)) (pc : Nat) (flow : Flow) : State :=
  bundleDone (engSet s (engId g) { putB (engOf s g) ws with pc := pc, flow := flow }) (engId g) (engOf s g).pc (engOf s g).bank

/-- The four flags of `st` in bits 0 to 3 (05 R143). -/
def flagWord (z n c v : Bool) : Word := BitVec.ofNat 32 (z.toNat + 2 * n.toNat + 4 * c.toNat + 8 * v.toNat)

/-- Rows 1 to 3 of 01 R39 do not apply to an access of requester `w` to the register at `a`, and the hub is out of reset: it is
served. -/
def served (s : State) (w : Who) (a : Nat) (write : Bool) : Bool :=
  !s.pwr.hubReset && match (csrGate s w.part.toNat a 4 write).1 with
    | .ok _ => true
    | .error _ => false

/-- The next state of a served access: its effect, and the answer `OKAY`. -/
def okay (t : State) : Out := .next (answer t .okay 0)

/-- The key of a register field lies at the addresses from `lo` to `hi - 1`. -/
def keyIn (lo hi k : Nat) : Bool := decide (lo * 8 ≤ k) && decide (k < hi * 8)
/-- The key is that of one of the fields `l` of the window at `b`. -/
def keyOf (b : Nat) (l : List Fld) (k : Nat) : Bool := l.any (fun f => fkey b f == k)
/-- From `s` to `t` no register field changes but those whose keys `p` names, and nothing else does. -/
def onlyRegs (s t : State) (p : Nat → Bool) : Prop :=
  { t with csr := s.csr } = s ∧ ∀ b f, p (fkey b f) = false → fget t b f = fget s b f

/-- The command that request `r` puts before the management controller, under opcode `op`, for the mailbox of partition `part`. -/
def cmdOf (op : Nat) (r : MbReq) (part : Nat) : Cmd := ⟨r.mb.val, op, part, r.path, r.session.toNat, r.len.toNat, r.payload⟩

/-- The request is sampled as it is submitted: the device and the firmware run, the path reaches the mailbox of its own partition,
which is free, no command waits for an object, and the payload has the length of `LEN` (13 R374 to R378). -/
def offered (s : State) (r : MbReq) (part : Nat) : Prop :=
  s.pwr.hubReset = false ∧ s.pwr.dormant = false ∧ s.boot.dmc = true ∧ devState s = 0 ∧ pathPart s r.path = some part ∧
    mbHolder s r.mb.val = part ∧ slotClosed s r.mb.val = false ∧ (∀ n, waiting s n = false) ∧ r.payload.length = r.len.toNat ∧
    r.len.toNat ≤ 240

/-- The checks before the payload pass as well: the command is served (13 R378). -/
def accepted (s : State) (op : Nat) (r : MbReq) (part : Nat) : Prop := offered s r part ∧ cmdGate s (cmdOf op r part) = none

/-- The state as the doorbell of an offered request is sampled: the slot filled, the mailbox BUSY with the command, the lease of the
command's session renewed (13 R375, R395). -/
def sampled (s : State) (op : Nat) (r : MbReq) : State :=
  let v := slotFill (answer s .okay 0) r op
  renew (cmdOf op r ((pathPart s r.path).getD 0)) (mbBegin v (slotReq v r.mb.val r.path) ((mbGet v r.mb.val).hdr0.extractLsb' 0 16).toNat)

/-- The opcode and request of a row that is a mailbox command. -/
def mailboxOf : Instr → Option (Nat × MbReq) := rowReq

/-- Mailbox n shows a completed command: its status and response payload (13 R375, R378). -/
def ended (t : State) (n code : Nat) (rsp : List Byte) : Prop :=
  (mbGet t n).state = 2 ∧ (mbGet t n).code = code ∧ (mbGet t n).rsp = rsp

/-- Mailbox n is BUSY with a command whose operation runs (13 R375). -/
def inService (t : State) (n op : Nat) : Prop :=
  (mbGet t n).state = 1 ∧ (mbGet t n).ropcode = op ∧ (mbGet t n).wait = .run

/-- The engine of a command of one signal engine: its bundles and its own events. -/
def engineOf : Instr → Option Eng
  | .slotANop g | .addW g _ _ _ | .subW g _ _ _ | .cmpW g _ _ | .addH g _ _ _ | .subH g _ _ _ | .addsH g _ _ _
  | .subsH g _ _ _ | .andW g _ _ _ | .orW g _ _ _ | .xorW g _ _ _ | .andnW g _ _ _ | .shlW g _ _ _ | .shrW g _ _ _
  | .sraW g _ _ _ | .sraH g _ _ _ | .movX g _ _ | .mvl g _ _ | .mvh g _ _ | .conj g _ _ | .mulj g _ _ | .packH g _ _ _
  | .rdst g _ | .wrst g _ | .accClr g _ | .accSet g _ _ _ | .accAdd g _ _ _ | .accSub g _ _ _ | .mvfa g _ _ _ _
  | .mvta g _ _ _ _ | .ext g _ _ _ | .extr g _ _ _ _ | .norm g _ _ | .ashift g _ _ | .expx g _ _ _ | .bfscan g _ _
  | .bfpack g _ _ | .bfcls g | .bfxa g | .cmac g _ _ _ | .cmsc g _ _ _ | .cmacc g _ _ _ | .cmscc g _ _ _
  | .cmul g _ _ _ | .cmulc g _ _ _ | .rmac g _ _ _ | .rmsc g _ _ _ | .rmul g _ _ _ | .mulW g _ _ _ | .slotBNop g
  | .ld16Re g _ _ _ _ | .ld16Im g _ _ _ _ | .ld16s g _ _ _ _ | .ld32 g _ _ _ _ | .ld64 g _ _ _ _ | .st16Re g _ _ _ _
  | .st16Im g _ _ _ _ | .st32 g _ _ _ _ | .st64 g _ _ _ _ | .upd g _ _ _ | .movi g _ _ | .mov g _ _ | .stset g _
  | .stclr g _ | .bCc g _ _ | .loop g _ | .bl g _ _ | .brr g _ | .reti g | .rpt g _ _ | .commit g | .done g
  | .illegalOp g _ | .pmDbe g | .dmWriteback g | .resultRetire g | .sharedStoreArrive g _ | .timerFire g
  | .interruptAccept g | .engineRawAccess g | .engineRawTimeout g => some g
  | _ => none

end Machine

end Sys2Proof
end

