-- ==== Sys2Proof/Certificates/Slice0/Obligations.lean ====
section
/-! DEFINITION. The statements for the provers. Each docstring names the rules it goes by; a clause that rests on a choice of this model
names the entry of notes/assumptions/ that declares it. -/

open Sys2Proof Sys2Proof.Machine

/-- The queue (notes/assumptions/4.md): a step is `exec` of the command at the front on the state with the queue's rest. With no command
waiting the step is one idle nanosecond, in which the queue stays empty: the time of 07 R193 advances, and in a state in which nothing
else is in motion and no microsecond ends, nothing else changes; under hub reset only the always-on timer of DORMANT counts. -/
def Obligations.StepRunsTheCommandAtTheFront : Prop :=
  ∀ (s : State),
    (∀ c rest, s.pending = c :: rest → step s = exec c { s with pending := rest }) ∧
    (s.pending = [] → ∃ t, step s = .next t ∧ t.pending = []) ∧
    (s.pending = [] → s.pwr.hubReset = false → s.fresh = [] ∧ s.sessions = [] ∧ s.quad = [] ∧ s.lane = [] ∧ s.net = [] ∧ s.way = [] ∧ s.spine = [] →
      (∀ e, eisOn s e = false) → runningIsl s = [] → (∀ p ∈ s.isl, p.2.hold = true) → (∀ d k, spineEn s d k = false) →
      aoCounts s = false → devState s ≠ 4 → s.tim.pps = false → s.tim.ppsLeft = 0 →
      let time := advanceTime s.tim (rateAdj s)
      usCount time = usCount s.tim → passesNs s.tim time (fget s timBase Reg.Tim.PPS_OFFSET) = false →
      step s = .next { s with up := s.up + 1, tim := time }) ∧
    (s.pending = [] → s.pwr.hubReset = true → s.pwr.ao = false ∨ s.pwr.dormant = false → step s = .next s) ∧
    (s.pending = [] → s.pwr.hubReset = true → s.pwr.ao = true → s.pwr.dormant = true → let left := fget s pwrBase Reg.Pwr.AO_TIMER
      ((s.up + 1) % 1000000 ≠ 0 ∨ left ≤ 1 → step s = .next { s with up := s.up + 1 }) ∧
      ((s.up + 1) % 1000000 = 0 → 1 < left → ∃ t, step s = .next t ∧ fget t pwrBase Reg.Pwr.AO_TIMER = (left - 1) % 2 ^ 32))

/-- The state after reset: hub reset asserted and no rail up, every register field at its Reset column, islands and quads OFF, links OFF,
controllers ABSENT, engines without an image, mailboxes IDLE, granules owned by nobody, no session, no alarm, the queue empty. Model's
choices that a clause rests on: notes/assumptions/1.md, notes/assumptions/5.md, notes/assumptions/6.md. -/
def Obligations.ResetState : Prop :=
  let r := State.reset
  r.pending = [] ∧ r.pwr.hubReset = true ∧ r.pwr.mainEn = false ∧ r.pwr.ao = false ∧ bootPhase r = 0 ∧ cfgState r = 0 ∧
    protLocked r = false ∧ r.sessions = [] ∧ r.alarms = [] ∧ r.load = none ∧ r.net = [] ∧
    (∀ a f, fget r a f = f.rst) ∧
    (∀ n, islState r n = 3 ∧ (islGet r n).hold = true ∧ linkState r n = 0 ∧ mcState r n = 0 ∧ engState r n = 0 ∧ (eisGet r n).pst = 3 ∧
      (quadGet r n).pst = 3 ∧ (mbGet r n).state = 0 ∧ (partGet r n).state = 0 ∧ (granGet r n).owner = 0x1F ∧ (granGet r n).init = false) ∧
    (∀ n b k, accRead (engGet r n) b k = ⟨0, 0⟩) ∧ r.tap.ir = 0x009

/-- The invariant holds of the state after reset. Model's choices that a clause rests on: notes/assumptions/8.md. -/
def Obligations.ResetMeetsTheInvariant : Prop :=
  Inv State.reset

/-- Every step from a state that meets the invariant answers a next state, and that state meets it: the DRAM stays in canonical form, and the
register table in rising order. Model's choices that a clause rests on: notes/assumptions/8.md. -/
def Obligations.EveryStepKeepsTheInvariant : Prop :=
  ∀ (s : State), Inv s → ∃ t, step s = .next t ∧ Inv t

/-- No command stops the block: from a state that meets the invariant, `exec` of any command answers a next state, which leaves the queue as
it was and never takes back a free value. Model's choices that a clause rests on: notes/assumptions/9.md. -/
def Obligations.EveryCommandCompletes : Prop :=
  ∀ (s : State) (c : Instr), Inv s → ∃ t, exec c s = .next t ∧ Inv t ∧ t.pending = s.pending ∧ s.free ≤ t.free

/-- Each step takes one command from the queue, and the rollback counter in the fuses never falls, whatever the command (16 R505). Model's
choices that a clause rests on: notes/assumptions/4.md. -/
def Obligations.RollbackCounterNeverFalls : Prop :=
  ∀ (s : State), Inv s → ∃ t, step s = .next t ∧ t.pending = s.pending.tail ∧ s.fuses.rollback ≤ t.fuses.rollback

/-- 06 R177 and R178, word operations of slot A: where the engine issues and neither slot of the cycle has, each answers a next state in which
exactly the result and the flags that the row names are in flight with latency 1. Model's choices that a clause rests on:
notes/assumptions/10.md. Forms shown to complete, each by a clause that concludes exec = next with the form's own effect, under conditions
on state and operands alone: slotANop, addW, subW, cmpW, andW, orW, xorW, andnW, shlW, shrW, sraW, movX, mvl, mvh, rdst, wrst. -/
def Obligations.SlotAWordOperationsQueueResultAndFlags : Prop :=
  ∀ (s : State) (g : Eng), opens s g = true →
    let x := xr (engOf s g)
    let zn := fun (r : Word) => flagWord (r == 0) r.msb false false
    (exec (.slotANop g) s = .next (ranA s g [])) ∧
    (∀ rd rs rt, exec (.addW g rd rs rt) s = .next (ranA s g [(1, .reg rd.toNat (x rs + x rt)),
      (1, .stBits 0xF (flagWord (x rs + x rt == 0) (x rs + x rt).msb (decide (2 ^ 32 ≤ (x rs).toNat + (x rt).toNat))
        (decide ((x rs + x rt).toInt ≠ (x rs).toInt + (x rt).toInt))))])) ∧
    (∀ rd rs rt, exec (.subW g rd rs rt) s = .next (ranA s g [(1, .reg rd.toNat (x rs - x rt)),
      (1, .stBits 0xF (flagWord (x rs - x rt == 0) (x rs - x rt).msb (decide (x rt ≤ x rs))
        (decide ((x rs - x rt).toInt ≠ (x rs).toInt - (x rt).toInt))))])) ∧
    (∀ rs rt, exec (.cmpW g rs rt) s = .next (ranA s g
      [(1, .stBits 0xF (flagWord (x rs - x rt == 0) (x rs - x rt).msb (decide (x rt ≤ x rs))
        (decide ((x rs - x rt).toInt ≠ (x rs).toInt - (x rt).toInt))))])) ∧
    (∀ rd rs rt, exec (.andW g rd rs rt) s =
      .next (ranA s g [(1, .reg rd.toNat (x rs &&& x rt)), (1, .stBits 0x3 (zn (x rs &&& x rt)))])) ∧
    (∀ rd rs rt, exec (.orW g rd rs rt) s =
      .next (ranA s g [(1, .reg rd.toNat (x rs ||| x rt)), (1, .stBits 0x3 (zn (x rs ||| x rt)))])) ∧
    (∀ rd rs rt, exec (.xorW g rd rs rt) s =
      .next (ranA s g [(1, .reg rd.toNat (x rs ^^^ x rt)), (1, .stBits 0x3 (zn (x rs ^^^ x rt)))])) ∧
    (∀ rd rs rt, exec (.andnW g rd rs rt) s =
      .next (ranA s g [(1, .reg rd.toNat (x rs &&& ~~~(x rt))), (1, .stBits 0x3 (zn (x rs &&& ~~~(x rt))))])) ∧
    (∀ rd rs (sh : BitVec 6), sh.toNat ≤ 31 → exec (.shlW g rd rs sh) s =
      .next (ranA s g [(1, .reg rd.toNat (x rs * BitVec.ofNat 32 (2 ^ sh.toNat))),
        (1, .stBits 0x3 (zn (x rs * BitVec.ofNat 32 (2 ^ sh.toNat))))])) ∧
    (∀ rd rs (sh : BitVec 6), sh.toNat ≤ 31 → exec (.shrW g rd rs sh) s =
      .next (ranA s g [(1, .reg rd.toNat (x rs >>> sh.toNat)), (1, .stBits 0x3 (zn (x rs >>> sh.toNat)))])) ∧
    (∀ rd rs (sh : BitVec 6), sh.toNat ≤ 31 → exec (.sraW g rd rs sh) s =
      .next (ranA s g [(1, .reg rd.toNat ((x rs).sshiftRight sh.toNat)), (1, .stBits 0x3 (zn ((x rs).sshiftRight sh.toNat)))])) ∧
    (∀ rd rs, exec (.movX g rd rs) s = .next (ranA s g [(1, .reg rd.toNat (x rs))])) ∧
    (∀ rd imm, exec (.mvl g rd imm) s = .next (ranA s g [(1, .reg rd.toNat (imm.signExtend 32))])) ∧
    (∀ rd imm, exec (.mvh g rd imm) s = .next (ranA s g [(1, .reg rd.toNat (imm ++ reOf (x rd)))])) ∧
    (∀ rd, exec (.rdst g rd) s = .next (ranA s g [(1, .reg rd.toNat (regRead (engOf s g) (engOf s g).bank 49))])) ∧
    (∀ rs, exec (.wrst g rs) s = .next (ranA s g [(1, .stBits 0xFF3F0FFF (x rs))]))

/-- 06 R177, lane operations of slot A: each lane is an int16; the saturating forms set `SAT` exactly where a lane clips. Model's choices that
a clause rests on: notes/assumptions/10.md. Forms shown to complete, each by a clause that concludes exec = next with the form's own
effect, under conditions on state and operands alone: addH, subH, addsH, subsH, sraH, conj, mulj, packH. -/
def Obligations.SlotALaneOperationsWrapOrSaturate : Prop :=
  ∀ (s : State) (g : Eng), opens s g = true →
    let re := fun n => reOf (xr (engOf s g) n)
    let im := fun n => imOf (xr (engOf s g) n)
    let clip := fun (v : Int) => BitVec.ofInt 16 (max (-32768) (min 32767 v))
    let out := fun (v : Int) => decide (v < -32768 ∨ 32767 < v)
    let sat := fun (rd : BitVec 4) (a b : Int) =>
      (1, ResW.reg rd.toNat (clip b ++ clip a)) :: (if out a || out b then [(1, ResW.sticky 0x10)] else [])
    (∀ rd rs rt, exec (.addH g rd rs rt) s = .next (ranA s g [(1, .reg rd.toNat ((im rs + im rt) ++ (re rs + re rt)))])) ∧
    (∀ rd rs rt, exec (.subH g rd rs rt) s = .next (ranA s g [(1, .reg rd.toNat ((im rs - im rt) ++ (re rs - re rt)))])) ∧
    (∀ rd rs rt, exec (.addsH g rd rs rt) s =
      .next (ranA s g (sat rd ((re rs).toInt + (re rt).toInt) ((im rs).toInt + (im rt).toInt)))) ∧
    (∀ rd rs rt, exec (.subsH g rd rs rt) s =
      .next (ranA s g (sat rd ((re rs).toInt - (re rt).toInt) ((im rs).toInt - (im rt).toInt)))) ∧
    (∀ rd rs (sh : BitVec 6), sh.toNat ≤ 15 → exec (.sraH g rd rs sh) s =
      .next (ranA s g [(1, .reg rd.toNat ((im rs).sshiftRight sh.toNat ++ (re rs).sshiftRight sh.toNat))])) ∧
    (∀ rd rs, exec (.conj g rd rs) s = .next (ranA s g (sat rd (re rs).toInt (-(im rs).toInt)))) ∧
    (∀ rd rs, exec (.mulj g rd rs) s = .next (ranA s g (sat rd (-(im rs).toInt) (re rs).toInt))) ∧
    (∀ rd rs rt, exec (.packH g rd rs rt) s = .next (ranA s g [(1, .reg rd.toNat (re rt ++ re rs))]))

/-- 06 R177 to R180 with 05 R155 and R156, accumulator operations of slot A: results wrap modulo 2^48 with `AOV`, extractions round half up
and saturate with `SAT`. 05 R166 and R168, block floating point: scan, pack and close; `bfxa` where the device is FL2. Model's choices
that a clause rests on: notes/assumptions/10.md. Forms shown to complete, each by a clause that concludes exec = next with the form's own
effect, under conditions on state and operands alone: accClr, accSet, accAdd, accSub, mvfa, mvta, ext, extr, norm, ashift, expx, bfscan,
bfpack, bfcls, bfxa. -/
def Obligations.SlotAAccumulatorAndBlockOperations : Prop :=
  (
    ∀ (s : State) (g : Eng), opens s g = true →
      let x := xr (engOf s g)
      let a := ac (engOf s g)
      let wrap := fun (ad : BitVec 2) (re im : Int) =>
        (1, ResW.acc ad.toNat ⟨BitVec.ofInt 48 re, BitVec.ofInt 48 im⟩) ::
          (if decide (re < -2 ^ 47 ∨ 2 ^ 47 - 1 < re) || decide (im < -2 ^ 47 ∨ 2 ^ 47 - 1 < im) then [(1, ResW.sticky 0x20)] else [])
      let rnd := fun (v : Int) (sh : Nat) => if sh = 0 then v else (v + 2 ^ (sh - 1)) / 2 ^ sh
      let clip := fun (v : Int) => BitVec.ofInt 16 (max (-32768) (min 32767 v))
      let out := fun (v : Int) => decide (v < -32768 ∨ 32767 < v)
      let part := fun (v : Acc) (c : Bool) => if c then v.im else v.re
      let shifted := fun (v n : Int) => if 0 ≤ n then v * 2 ^ n.toNat else v / 2 ^ (-n).toNat
      (∀ ad, exec (.accClr g ad) s = .next (ranA s g [(1, .acc ad.toNat ⟨0, 0⟩)])) ∧
      (∀ ad rs (sh : BitVec 6), sh.toNat ≤ 32 → exec (.accSet g ad rs sh) s = .next (ranA s g [(1, .acc ad.toNat
        ⟨(reOf (x rs)).signExtend 48 <<< sh.toNat, (imOf (x rs)).signExtend 48 <<< sh.toNat⟩)])) ∧
      (∀ ad sa ta, exec (.accAdd g ad sa ta) s =
        .next (ranA s g (wrap ad ((a sa).re.toInt + (a ta).re.toInt) ((a sa).im.toInt + (a ta).im.toInt)))) ∧
      (∀ ad sa ta, exec (.accSub g ad sa ta) s =
        .next (ranA s g (wrap ad ((a sa).re.toInt - (a ta).re.toInt) ((a sa).im.toInt - (a ta).im.toInt)))) ∧
      (∀ rd sa c, exec (.mvfa g rd sa c false) s = .next (ranA s g [(1, .reg rd.toNat ((part (a sa) c).extractLsb' 0 32))])) ∧
      (∀ rd sa c, exec (.mvfa g rd sa c true) s =
        .next (ranA s g [(1, .reg rd.toNat (((part (a sa) c).extractLsb' 32 16).signExtend 32))])) ∧
      (∀ ad rs c h, exec (.mvta g ad rs c h) s = .next (ranA s g [(1, .acc ad.toNat
        (let new := fun (v : BitVec 48) => if h then reOf (x rs) ++ v.extractLsb' 0 32 else v.extractLsb' 32 16 ++ x rs
         if c then ⟨(a ad).re, new (a ad).im⟩ else ⟨new (a ad).re, (a ad).im⟩))])) ∧
      (∀ rd sa (sh : BitVec 6), sh.toNat ≤ 32 → exec (.ext g rd sa sh) s = .next (ranA s g
        (let re := rnd (a sa).re.toInt sh.toNat
         let im := rnd (a sa).im.toInt sh.toNat
         (1, .reg rd.toNat (clip im ++ clip re)) :: (if out re || out im then [(1, .sticky 0x10)] else [])))) ∧
      (∀ rd sa c (sh : BitVec 6), sh.toNat ≤ 32 → exec (.extr g rd sa c sh) s = .next (ranA s g
        (let v := rnd (part (a sa) c).toInt sh.toNat
         (1, .reg rd.toNat (BitVec.ofInt 32 (max (-2 ^ 31) (min (2 ^ 31 - 1) v)))) ::
           (if decide (v < -2 ^ 31 ∨ 2 ^ 31 - 1 < v) then [(1, .sticky 0x10)] else [])))) ∧
      (∀ ad rt, exec (.norm g ad rt) s = .next (ranA s g
        (let q := min (normShift (a ad).re.toInt) (normShift (a ad).im.toInt)
         [(1, .acc ad.toNat ⟨(a ad).re <<< q, (a ad).im <<< q⟩), (1, .reg rt.toNat (BitVec.ofNat 32 q))]))) ∧
      (∀ ad rs, exec (.ashift g ad rs) s = .next (ranA s g
        (wrap ad (shifted (a ad).re.toInt ((x rs).setWidth 8).toInt) (shifted (a ad).im.toInt ((x rs).setWidth 8).toInt))))) ∧
  (
    ∀ (s : State) (g : Eng), opens s g = true →
      let e := engOf s g
      let len := fun (v : Int) => if v = 0 then 0 else v.natAbs.log2 + 1
      let regLen := fun rs => max (len (reOf (xr e rs)).toInt) (len (imOf (xr e rs)).toInt)
      let accLen := fun (k : BitVec 4) => max (len (accRead e e.bank k.toNat).re.toInt) (len (accRead e e.bank k.toNat).im.toInt)
      let bexp := ((stOf e).extractLsb' 16 6).toNat
      let be := ((stOf e).extractLsb' 24 8).toInt
      let sh := bexp - 15
      let mant := fun (v : Int) => BitVec.ofInt 16 (v.tdiv (2 ^ sh))
      let close := fun (v : Int) =>
        (1, ResW.stBits 0xFF3F0000 (BitVec.ofInt 8 (max (-128) (min 127 v)) ++ (0 : BitVec 24))) ::
          (if decide (v < -128 ∨ 127 < v) then [(1, ResW.sticky 0x200)] else [])
      (∀ rd rs, exec (.expx g rd rs true) s = .next (ranA s g [(1, .reg rd.toNat (BitVec.ofNat 32 (regLen rs)))])) ∧
      (∀ rd (rs : BitVec 4), rs.toNat < 4 →
        exec (.expx g rd rs false) s = .next (ranA s g [(1, .reg rd.toNat (BitVec.ofNat 32 (accLen rs)))])) ∧
      (∀ rs, exec (.bfscan g rs true) s =
        .next (ranA s g [(1, .stBits 0x3F0000 (BitVec.ofNat 32 (max bexp (regLen rs)) <<< 16))])) ∧
      (∀ (rs : BitVec 4), rs.toNat < 4 → exec (.bfscan g rs false) s =
        .next (ranA s g [(1, .stBits 0x3F0000 (BitVec.ofNat 32 (max bexp (accLen rs)) <<< 16))])) ∧
      (∀ rd sa, exec (.bfpack g rd sa) s =
        .next (ranA s g [(1, .reg rd.toNat (mant (ac e sa).im.toInt ++ mant (ac e sa).re.toInt))])) ∧
      (exec (.bfcls g) s = .next (ranA s g (close sh))) ∧
      (featureLevel s = 2 → exec (.bfxa g) s = .next (ranA s g (close (be + sh)))))

/-- 05 R153 and 06 R177, multiplies of slot A in both modes: the products that enter the accumulator in the second cycle. Model's choices that
a clause rests on: notes/assumptions/10.md. Forms shown to complete, each by a clause that concludes exec = next with the form's own
effect, under conditions on state and operands alone: cmac, cmsc, cmacc, cmscc, cmul, cmulc, rmac, rmsc, rmul, mulW. -/
def Obligations.SlotAMultipliesQueueTheirProducts : Prop :=
  ∀ (s : State) (g : Eng), opens s g = true →
    let e := engOf s g
    let m := fun (u v : BitVec 16) => mul16 ((stOf e).getLsbD 10) u v
    let re := fun n => reOf (xr e n)
    let im := fun n => imOf (xr e n)
    (∀ ad rs rt, exec (.cmac g ad rs rt) s = .next (ranA s g [(2, .mac ad.toNat true
      (m (re rs) (re rt) - m (im rs) (im rt)) (m (re rs) (im rt) + m (im rs) (re rt)))])) ∧
    (∀ ad rs rt, exec (.cmsc g ad rs rt) s = .next (ranA s g [(2, .mac ad.toNat true
      (-(m (re rs) (re rt) - m (im rs) (im rt))) (-(m (re rs) (im rt) + m (im rs) (re rt))))])) ∧
    (∀ ad rs rt, exec (.cmacc g ad rs rt) s = .next (ranA s g [(2, .mac ad.toNat true
      (m (re rs) (re rt) + m (im rs) (im rt)) (m (im rs) (re rt) - m (re rs) (im rt)))])) ∧
    (∀ ad rs rt, exec (.cmscc g ad rs rt) s = .next (ranA s g [(2, .mac ad.toNat true
      (-(m (re rs) (re rt) + m (im rs) (im rt))) (-(m (im rs) (re rt) - m (re rs) (im rt))))])) ∧
    (∀ ad rs rt, exec (.cmul g ad rs rt) s = .next (ranA s g [(2, .mac ad.toNat false
      (m (re rs) (re rt) - m (im rs) (im rt)) (m (re rs) (im rt) + m (im rs) (re rt)))])) ∧
    (∀ ad rs rt, exec (.cmulc g ad rs rt) s = .next (ranA s g [(2, .mac ad.toNat false
      (m (re rs) (re rt) + m (im rs) (im rt)) (m (im rs) (re rt) - m (re rs) (im rt)))])) ∧
    (∀ ad rs rt, exec (.rmac g ad rs rt) s =
      .next (ranA s g [(2, .mac ad.toNat true (m (re rs) (re rt)) (m (im rs) (im rt)))])) ∧
    (∀ ad rs rt, exec (.rmsc g ad rs rt) s =
      .next (ranA s g [(2, .mac ad.toNat true (-(m (re rs) (re rt))) (-(m (im rs) (im rt))))])) ∧
    (∀ ad rs rt, exec (.rmul g ad rs rt) s =
      .next (ranA s g [(2, .mac ad.toNat false (m (re rs) (re rt)) (m (im rs) (im rt)))])) ∧
    (∀ rd rs rt, exec (.mulW g rd rs rt) s =
      .next (ranA s g [(2, .reg rd.toNat (BitVec.ofInt 32 (m (re rs) (re rt))))]))

/-- 05 R164, the truncated multiply: the omitted sum, the constant, the fixed low bits and the bound of the omitted sum. -/
def Obligations.TruncatedProductOmitsLowColumns : Prop :=
  ∀ (a b : BitVec 16),
    let omega := ((List.range 12).map (fun i => ((List.range (12 - i)).map (fun j =>
      2 ^ (i + j) * ((a.getLsbD i).toNat * (b.getLsbD j).toNat))).sum)).sum
    mul16 true a b = a.toInt * b.toInt - omega + 22528 ∧ omega ≤ 45057 ∧ (mul16 true a b) % 4096 = 0x800 ∧
      mul16 false a b = a.toInt * b.toInt

/-- 05 R151 and R134, 06 R183 and R184, memory operations of slot B: the aligned access address, the bytes and the update of the address
register. A load takes effect after three cycles, a store to memory after two. Model's choices that a clause rests on:
notes/assumptions/10.md, notes/assumptions/12.md. Forms shown to complete, each by a clause that concludes exec = next with the form's own
effect, under conditions on state and operands alone: ld16Re, ld16Im, ld16s, ld32, ld64, st16Re, st16Im, st32, st64, upd. -/
def Obligations.SlotBMemoryOperationsUseTheAddressRule : Prop :=
  ∀ (s : State) (g : Eng) (ai : BitVec 3) (mode : BitVec 2) (md : BitVec 15), canIssue s (engId g) = true →
    (mode.getLsbD 0 = true ∨ md.extractLsb' 0 12 = 0) →
    let e := engOf s g
    let reg := fun (n : Nat) => regRead e e.bank n
    let a := (reg (16 + ai.toNat)).toNat
    let b := (reg (32 + ai.toNat)).toNat
    let l := (reg (40 + ai.toNat)).toNat
    let m := if mode.getLsbD 0 then md.toInt else (reg (24 + (md.extractLsb' 12 3).toNat)).toInt
    let new := if l = 0 then ((a + m) % 2 ^ 20).toNat else ((b + ((a - b + m) % l)) % 2 ^ 20).toNat
    let post := mode.getLsbD 1 = false
    let at' := fun (w : Nat) => (if post then a else new) / w * w
    let upd := if post then [(1, ResW.reg (16 + ai.toNat) (BitVec.ofNat 32 new))] else []
    let stores := fun (w : Nat) (v : BitVec 64) =>
      if at' w < 0x8040 ∨ (at' w = 0x80C8 ∧ w = 4) ∨ 0x80000 ≤ at' w then [(2, ResW.store (at' w) w v)]
      else if at' w = 0x8040 ∧ w = 8 ∧ v.toNat / 2 ^ 16 % 128 ≤ 64 ∧ v.toNat / 2 ^ 25 % 128 = 0 ∧ v.toNat / 2 ^ 44 = 0 then
        [(2, ResW.send v ((List.range (v.toNat / 2 ^ 16 % 128)).map (fun i => tget 0 e.msgOut i)))]
      else [(1, ResW.sticky 0x40)]
    (∀ rd : BitVec 6, rd.toNat < 16 → exec (.ld16Re g rd ai mode md) s =
      .next (ranB s g ((3, .load (.lane rd.toNat false) (at' 2) 2) :: upd))) ∧
    (∀ rd : BitVec 6, rd.toNat < 16 → exec (.ld16Im g rd ai mode md) s =
      .next (ranB s g ((3, .load (.lane rd.toNat true) (at' 2) 2) :: upd))) ∧
    (∀ rd : BitVec 6, rd.toNat < 16 → exec (.ld16s g rd ai mode md) s =
      .next (ranB s g ((3, .load (.sext rd.toNat) (at' 2) 2) :: upd))) ∧
    (∀ rd : BitVec 6, rd.toNat ≤ 48 → exec (.ld32 g rd ai mode md) s =
      .next (ranB s g ((3, .load (.reg rd.toNat) (at' 4) 4) :: upd))) ∧
    (∀ rd : BitVec 6, rd.toNat < 16 → rd.toNat % 2 = 0 → exec (.ld64 g rd ai mode md) s =
      .next (ranB s g ((3, .load (.pair rd.toNat) (at' 8) 8) :: upd))) ∧
    (∀ rs : BitVec 6, rs.toNat < 16 → exec (.st16Re g rs ai mode md) s =
      .next (ranB s g (stores 2 ((reOf (reg rs.toNat)).setWidth 64) ++ upd))) ∧
    (∀ rs : BitVec 6, rs.toNat < 16 → exec (.st16Im g rs ai mode md) s =
      .next (ranB s g (stores 2 ((imOf (reg rs.toNat)).setWidth 64) ++ upd))) ∧
    (∀ rs : BitVec 6, rs.toNat ≤ 48 → exec (.st32 g rs ai mode md) s =
      .next (ranB s g (stores 4 ((reg rs.toNat).setWidth 64) ++ upd))) ∧
    (∀ rs : BitVec 6, rs.toNat < 16 → rs.toNat % 2 = 0 → exec (.st64 g rs ai mode md) s =
      .next (ranB s g (stores 8 (reg (rs.toNat + 1) ++ reg rs.toNat) ++ upd))) ∧
    (post → exec (.upd g ai mode md) s = .next (ranB s g [(1, .reg (16 + ai.toNat) (BitVec.ofNat 32 new))]))

/-- 06 R184 and R190, the other operations of slot B that are no control transfers. Model's choices that a clause rests on:
notes/assumptions/10.md. Forms shown to complete, each by a clause that concludes exec = next with the form's own effect, under conditions
on state and operands alone: slotBNop, movi, mov, stset, stclr, commit. -/
def Obligations.SlotBMovesAndStatusWrites : Prop :=
  ∀ (s : State) (g : Eng), canIssue s (engId g) = true →
    let e := engOf s g
    (exec (.slotBNop g) s = .next (ranB s g [])) ∧
    (∀ (rd : BitVec 6) (imm : BitVec 20), rd.toNat ≤ 55 → rd.toNat ≠ 49 →
      exec (.movi g rd imm) s = .next (ranB s g [(1, .reg rd.toNat (imm.signExtend 32))])) ∧
    (∀ rd rs : BitVec 6, rd.toNat ≤ 55 → rd.toNat ≠ 49 → rs.toNat ≤ 55 →
      exec (.mov g rd rs) s = .next (ranB s g [(1, .reg rd.toNat (regRead e e.bank rs.toNat))])) ∧
    (∀ rs : BitVec 6, rs.toNat ≤ 55 →
      exec (.mov g 49 rs) s = .next (ranB s g [(1, .stBits 0xFF3F0FFF (regRead e e.bank rs.toNat))])) ∧
    (∀ mask : BitVec 12, exec (.stset g mask) s = .next (ranB s g [(1, .stBits (mask.setWidth 32) (mask.setWidth 32))])) ∧
    (∀ mask : BitVec 12, exec (.stclr g mask) s = .next (ranB s g [(1, .stBits (mask.setWidth 32) 0)])) ∧
    (exec (.commit g) s = .next (ranB s g [(1, .commit)]))

/-- 05 R149, R157 and R162, 06 R186 to R191, control transfers: two delay slots, the repeat, the return and `done`, with the condition decided
on the flags as they stand at issue. Model's choices that a clause rests on: notes/assumptions/10.md. Forms shown to complete, each by a
clause that concludes exec = next with the form's own effect, under conditions on state and operands alone: bCc, loop, bl, brr, reti, rpt,
done. -/
def Obligations.ControlTransfersDelayTwoBundles : Prop :=
  ∀ (s : State) (g : Eng), canIssue s (engId g) = true → (engOf s g).flow = .seq →
    let e := engOf s g
    let next := (e.pc + 1) % 1024
    let f := fun (i : Nat) => (stOf e).getLsbD i
    let lc := regRead e e.bank 48
    let cond := fun (c : Nat) => match c with
      | 0 => true | 1 => f 0 | 2 => !f 0 | 3 => f 1 | 4 => !f 1 | 5 => f 2 | 6 => !f 2 | 7 => f 3 | 8 => !f 3
      | 9 => xor (f 1) (f 3) | 10 => !xor (f 1) (f 3) | 11 => !f 0 && !xor (f 1) (f 3) | _ => f 0 || xor (f 1) (f 3)
    (∀ (c : BitVec 4) (t : BitVec 10), c.toNat ≤ 12 → exec (.bCc g c t) s =
      .next (ranCT s g [] next (.slots 2 (if cond c.toNat then .goto t.toNat else .seq)))) ∧
    (∀ t : BitVec 10, lc ≠ 0 → exec (.loop g t) s = .next (ranCT s g [(1, .reg 48 (lc - 1))] next (.slots 2 (.goto t.toNat)))) ∧
    (∀ t : BitVec 10, lc = 0 → exec (.loop g t) s = .next (ranCT s g [] next (.slots 2 .seq))) ∧
    (∀ (rd : BitVec 6) (t : BitVec 10), rd.toNat ≤ 48 → exec (.bl g rd t) s =
      .next (ranCT s g [(1, .reg rd.toNat (BitVec.ofNat 32 ((e.pc + 3) % 1024)))] next (.slots 2 (.goto t.toNat)))) ∧
    (∀ rs : BitVec 6, rs.toNat ≤ 55 → exec (.brr g rs) s =
      .next (ranCT s g [] next (.slots 2 (.goto ((regRead e e.bank rs.toNat).toNat % 1024))))) ∧
    (e.bank = true → exec (.reti g) s = .next (ranCT s g [] next (.slots 2 .ret))) ∧
    (e.bank = false → exec (.reti g) s = .next (ranCT s g [(1, .sticky 0x80)] next .seq)) ∧
    (∀ n : BitVec 12, exec (.rpt g false n) s = .next (ranCT s g [] next (.rep (n.toNat + 1)))) ∧
    (lc = 0 → exec (.rpt g true 0) s = .next (ranCT s g [] ((e.pc + 2) % 1024) .seq)) ∧
    (0 < lc.toNat → lc.toNat ≤ 4096 → exec (.rpt g true 0) s = .next (ranCT s g [] next (.rep lc.toNat))) ∧
    (4096 < lc.toNat → exec (.rpt g true 0) s = .next (ranCT s g [(1, .sticky 0x100)] next (.rep 4096))) ∧
    (exec (.done g) s = .next (ranCT s g [] next (.slots 2 .stop)))

/-- 05 R150: a control transfer in a delay slot or in a repeated bundle acts as no operation and sets `ILLS`. -/
def Obligations.ControlTransferInDelaySlotIsIgnored : Prop :=
  ∀ (s : State) (g : Eng), canIssue s (engId g) = true → (engOf s g).flow ≠ .seq →
    let ignored : Out := .next (ranB s g [(1, .sticky 0x80)])
    (∀ (c : BitVec 4) (t : BitVec 10), c.toNat ≤ 12 → exec (.bCc g c t) s = ignored) ∧
    (∀ t, exec (.loop g t) s = ignored) ∧
    (∀ (rd : BitVec 6) t, rd.toNat ≤ 48 → exec (.bl g rd t) s = ignored) ∧
    (∀ rs : BitVec 6, rs.toNat ≤ 55 → exec (.brr g rs) s = ignored) ∧
    (exec (.reti g) s = ignored) ∧
    (∀ n, exec (.rpt g false n) s = ignored) ∧ (exec (.rpt g true 0) s = ignored) ∧
    (exec (.done g) s = ignored)

/-- 05 R131 and 06 R173: a bundle with a reserved operation, a bit that its form does not use, or an operand outside its range is refused: the
engine enters `FAULT` with cause `ILLEGAL_OP` and the bundle's index, and neither slot has a result in flight. Model's choices that a
clause rests on: notes/assumptions/10.md. Forms shown to complete, each by a clause that concludes exec = next with the form's own effect,
under conditions on state and operands alone: illegalOp. -/
def Obligations.IllegalBundleFaultsTheEngine : Prop :=
  ∀ (s : State) (g : Eng), canIssue s (engId g) = true → (engOf s g).pc < 1024 →
    let refused := fun (o : Out) => ∃ t, o = .next t ∧ engState t (engId g) = 3 ∧
      fget t (engBase (engId g)) Reg.Eng.FAULT_CAUSE = 3 ∧ fget t (engBase (engId g)) Reg.Eng.FAULT_PC = (engOf s g).pc ∧
      (∀ r ∈ (engOf t g).fly, r.seq ≠ (engOf s g).seq) ∧ (engOf t g).main = (engOf s g).main ∧ (engOf t g).dm = (engOf s g).dm
    (opens s g = true →
      (∀ b : BitVec 64, (decodeA g (b.extractLsb' 0 32) = none ∨ decodeB g (b.extractLsb' 32 32) = none) →
        refused (exec (.illegalOp g b) s)) ∧
      (∀ rd rs (sh : BitVec 6), 31 < sh.toNat → refused (exec (.shlW g rd rs sh) s) ∧ refused (exec (.shrW g rd rs sh) s) ∧
        refused (exec (.sraW g rd rs sh) s)) ∧
      (∀ rd rs (sh : BitVec 6), 15 < sh.toNat → refused (exec (.sraH g rd rs sh) s)) ∧
      (∀ ad rd sa c rs (sh : BitVec 6), 32 < sh.toNat → refused (exec (.accSet g ad rs sh) s) ∧ refused (exec (.ext g rd sa sh) s) ∧
        refused (exec (.extr g rd sa c sh) s)) ∧
      (∀ rd rs : BitVec 4, 3 < rs.toNat → refused (exec (.expx g rd rs false) s) ∧ refused (exec (.bfscan g rs false) s)) ∧
      (featureLevel s = 1 → refused (exec (.bfxa g) s))) ∧
    (∀ n : BitVec 12, n ≠ 0 → refused (exec (.rpt g true n) s)) ∧
    (∀ rd rs : BitVec 6, (55 < rd.toNat ∨ 55 < rs.toNat) → refused (exec (.mov g rd rs) s)) ∧
    (∀ (c : BitVec 4) t, 12 < c.toNat → refused (exec (.bCc g c t) s)) ∧
    (∀ ai (mode : BitVec 2) md, 2 ≤ mode.toNat → refused (exec (.upd g ai mode md) s)) ∧
    (∀ (r : BitVec 6) ai (mode : BitVec 2) (md : BitVec 15), (mode.getLsbD 0 = false ∧ md.extractLsb' 0 12 ≠ 0) ∨ 48 < r.toNat →
      refused (exec (.ld32 g r ai mode md) s) ∧ refused (exec (.st32 g r ai mode md) s)) ∧
    (∀ (r : BitVec 6) ai (mode : BitVec 2) (md : BitVec 15), (mode.getLsbD 0 = false ∧ md.extractLsb' 0 12 ≠ 0) ∨ 15 < r.toNat →
      refused (exec (.ld16Re g r ai mode md) s) ∧ refused (exec (.ld16Im g r ai mode md) s) ∧ refused (exec (.ld16s g r ai mode md) s) ∧
        refused (exec (.st16Re g r ai mode md) s) ∧ refused (exec (.st16Im g r ai mode md) s)) ∧
    (∀ (r : BitVec 6) ai (mode : BitVec 2) (md : BitVec 15),
      (mode.getLsbD 0 = false ∧ md.extractLsb' 0 12 ≠ 0) ∨ 15 < r.toNat ∨ r.toNat % 2 = 1 →
      refused (exec (.ld64 g r ai mode md) s) ∧ refused (exec (.st64 g r ai mode md) s)) ∧
    (∀ rd : BitVec 6, 55 < rd.toNat ∨ rd.toNat = 49 → ∀ imm, refused (exec (.movi g rd imm) s)) ∧
    (∀ r : BitVec 6, 48 < r.toNat → ∀ t, refused (exec (.bl g r t) s)) ∧ (∀ r : BitVec 6, 55 < r.toNat → refused (exec (.brr g r) s))

/-- 06 R175 (and 05 R144 for `ipend`): what a register of the bank in use reads as after a 32-bit value is written to it, and that no other
register of either bank changes. -/
def Obligations.RegisterWidthConversions : Prop :=
  ∀ (e : EngSt) (b : Bool) (n : Nat) (v : Word), n ≤ 55 →
    let r := fun (m : Nat) => regRead (regWrite e b n v) b m
    (n < 16 → r n = v) ∧
    (16 ≤ n → n < 24 → r n = (v.extractLsb' 0 20).setWidth 32) ∧
    (24 ≤ n → n < 32 → r n = (v.extractLsb' 0 20).signExtend 32) ∧
    (32 ≤ n → n < 48 → r n = (v.extractLsb' 0 20).setWidth 32) ∧
    (n = 48 → r n = (v.extractLsb' 0 16).setWidth 32) ∧
    (n = 49 → r n = (v &&& 0xFF3F0FFF) ||| (if b then 0x1000 else 0)) ∧
    (n = 50 ∨ n = 51 → r n = (v.extractLsb' 0 10).setWidth 32) ∧
    (n = 52 → r n = regRead e b 52 &&& ~~~v) ∧
    (n = 53 → r n = (v.extractLsb' 0 3).setWidth 32) ∧
    (n = 54 ∨ n = 55 → r n = v) ∧
    (∀ m, m ≤ 55 → m ≠ n → r m = regRead e b m ∧ regRead (regWrite e b n v) (!b) m = regRead e (!b) m) ∧
    (∀ b' k, accRead (regWrite e b n v) b' k = accRead e b' k)

/-- 05 R143, R145 to R148, R155 and R159, 06 R182: the end of a cycle in which one result, or two into one register, retire after the timer's
step; the results of later cycles wait, and an uncorrectable load faults the engine. Nothing else of the device changes. 05 R136, R140 and
R148, 06 R184: in the cycle of its issue a load from data memory outside the persistent region reads the bytes as they stand before the
external writes of that cycle, when none of them has an error; they reach the register two cycles later. Model's choices that a clause
rests on: notes/assumptions/10.md. Forms shown to complete, each by a clause that concludes exec = next with the form's own effect, under
conditions on state and operands alone: resultRetire. -/
def Obligations.ResultsRetireAndLoadsRead : Prop :=
  (
    ∀ (s : State) (g : Eng), let n := engId g
      let b := engBase n
      let e0 := engOf s g
      e0.starting = 0 → (∀ a, e0.flow ≠ .slots 0 a) →
      let tcnt := tget 0 e0.ctl 54
      let e := if engState s n = 2 ∧ e0.fired = false ∧ tcnt ≠ 0 then
          (if tcnt = 1 then { e0 with ctl := tset 0 e0.ctl 54 (tget 0 e0.ctl 55), pset := e0.pset ||| 4 }
           else { e0 with ctl := tset 0 e0.ctl 54 (tcnt - 1) })
        else e0
      let closed := fun (x : EngSt) => { x with
        ctl := tset 0 x.ctl 52 (tget 0 x.ctl 52 ||| x.pset), pset := 0, half := 0, fired := false, old := [], used := []
        posted := x.posted.map (fun p => { p with left := p.left - 1 }) }
      let ends := fun (w : ResW) (sh : Bool) (f : EngSt → EngSt) => ∀ q, e0.fly = [⟨1, sh, q, w⟩] →
        ∃ t, exec (.resultRetire g) s = .next t ∧ engOf t g = closed { f e with fly := [] } ∧ { t with eng := s.eng } = s ∧
          ∀ m, m ≠ n → engGet t m = engGet s m
      let st := fun (sh : Bool) => tget 0 (bankOf e0 sh).r 49
      (∀ sh n v, ends (.reg n v) sh (fun e => regWrite e sh n v)) ∧
      (∀ sh n v, n < 16 → ends (.lane n false v) sh (fun e => regWrite e sh n (imOf (regRead e sh n) ++ v))) ∧
      (∀ sh n v, n < 16 → ends (.lane n true v) sh (fun e => regWrite e sh n (v ++ reOf (regRead e sh n)))) ∧
      (∀ sh m v, ends (.stBits m v) sh (fun e => regWrite e sh 49 ((st sh &&& ~~~m) ||| (v &&& m)))) ∧
      (∀ sh m, ends (.sticky m) sh (fun e => regWrite e sh 49 (st sh ||| m))) ∧
      (∀ sh n v, ends (.acc n v) sh (fun e => accWrite e sh n v)) ∧
      (∀ sh n re im, ends (.mac n false re im) sh (fun e => accWrite e sh n ⟨BitVec.ofInt 48 re, BitVec.ofInt 48 im⟩)) ∧
      (∀ sh n re im, ends (.mac n true re im) sh (fun e =>
        let a := accRead e sh n
        let e' := accWrite e sh n ⟨a.re + BitVec.ofInt 48 re, a.im + BitVec.ofInt 48 im⟩
        let fits := fun (x : Int) => -2 ^ 47 ≤ x ∧ x ≤ 2 ^ 47 - 1
        if fits (a.re.toInt + re) ∧ fits (a.im.toInt + im) then e' else regWrite e' sh 49 (st sh ||| 0x20))) ∧
      (∀ sh a w v, a + w ≤ 0x8000 → inPers s n a = false →
        ends (.store a w v) sh (fun e => dmBytes e a ((List.range w).map (fun i => v.extractLsb' (8 * i) 8)))) ∧
      (∀ sh k q q' v v', e0.fly = [⟨1, sh, q, .reg k v⟩, ⟨1, sh, q', .reg k v'⟩] → k < 50 →
        ∃ t, exec (.resultRetire g) s = .next t ∧ engOf t g = closed { regWrite (regWrite e sh k v) sh k v' with fly := [] }) ∧
      (∀ r, e0.fly = [r] → 1 < r.left → (∀ d a w, r.w ≠ .load d a w) →
        ∃ t, exec (.resultRetire g) s = .next t ∧ engOf t g = closed { e with fly := [{ r with left := r.left - 1 }] } ∧
          { t with eng := s.eng } = s) ∧
      (∀ sh q pc, e0.fly = [⟨1, sh, q, .dbe pc⟩] → fget s b Reg.Eng.PC_NOW < 1024 → ∃ t, exec (.resultRetire g) s = .next t ∧
        engState t n = 3 ∧ fget t b Reg.Eng.FAULT_CAUSE = 2 ∧ fget t b Reg.Eng.FAULT_PC = fget s b Reg.Eng.PC_NOW ∧
        fget t b Reg.Eng.LAST_END = 2 ∧ (engOf t g).staged = [] ∧ (engOf t g).dm = e0.dm)) ∧
  (
    ∀ (s : State) (g : Eng) (n a w : Nat) (sh : Bool) (q : Nat), let e := engOf s g
      let code := fun (i : Nat) => match e.old.find? (fun p => p.1 == a + i) with
        | some p => p.2
        | none => tget 0 e.dm (a + i)
      e.starting = 0 → (∀ f, e.flow ≠ .slots 0 f) → e.fly = [⟨3, sh, q, .load (.reg n) a w⟩] → a + w ≤ 0x8000 → 1 ≤ w → w ≤ 8 →
      (∀ i, i < w → inPers s (engId g) (a + i) = false) →
      (∀ i, i < w → (decByte (code i)).sbe = false ∧ (decByte (code i)).dbe = false) →
      ∃ t, exec (.resultRetire g) s = .next t ∧
        (engOf t g).fly = [⟨2, sh, q, .reg n (BitVec.ofNat 32 (leNat ((List.range w).map (fun i => BitVec.ofNat 8 (decByte (code i)).data))))⟩] ∧
        (engOf t g).dm = e.dm ∧ (engOf t g).main = e.main ∧ (engOf t g).shadow = e.shadow ∧ (engOf t g).wbs = e.wbs ∧ { t with eng := s.eng } = s)

/-- 05 R139: the code of one memory byte gives the byte back, corrects every single inverted bit and detects every pair. -/
def Obligations.ByteCodeCorrectsOneAndDetectsTwo : Prop :=
  ∀ b : Byte,
    decByte (encByte b) = ⟨b.toNat, false, false⟩ ∧
    (∀ i : Fin 13, decByte (encByte b ^^^ (1 <<< i.val)) = ⟨b.toNat, true, false⟩) ∧
    (∀ i j : Fin 13, i < j → (decByte (encByte b ^^^ (1 <<< i.val) ^^^ (1 <<< j.val))).dbe = true)

/-- 05 R135 to R137, R140, R141, R159 to R161: the events of an engine; the external port serves an access where no requester stands before
it. 05 R170: how a pending raw access of an engine's memory ends; a raw write stores the codeword as given, once the external port serves
it (R135). Model's choices that a clause rests on: notes/assumptions/9.md, notes/assumptions/10.md, notes/assumptions/52.md. Forms shown
to complete, each by a clause that concludes exec = next with the form's own effect, under conditions on state and operands alone: pmDbe,
dmWriteback, sharedStoreArrive, timerFire, interruptAccept, engineRawAccess, engineRawTimeout. -/
def Obligations.EngineEventsAndRawAccess : Prop :=
  (
    ∀ (s : State) (g : Eng), let n := engId g
      let e := engOf s g
      let inFault := fun (t : State) => engState t n = 3 ∧ fget t (engBase n) Reg.Eng.FAULT_CAUSE = 1 ∧
        fget t (engBase n) Reg.Eng.FAULT_PC = e.pc ∧ fget t (engBase n) Reg.Eng.LAST_END = 2 ∧
        fget t (engBase n) Reg.Eng.PM_DBE_CNT = min (fget s (engBase n) Reg.Eng.PM_DBE_CNT + 1) 0xFFFF
      let only := fun (t : State) => { t with eng := s.eng } = s ∧ (∀ m, m ≠ n → engGet t m = engGet s m) ∧
        { engOf t g with dm := e.dm, pm := e.pm, wbs := e.wbs, posted := e.posted, used := e.used, turn := e.turn, old := e.old } = e
      (opens s g = true → fetchBad s n e.pc = true → e.pc < 1024 → ∃ t, exec (.pmDbe g) s = .next t ∧ inFault t) ∧
      (∀ a c rest, e.wbs = (false, a, c) :: rest → a < 0x8000 → portServes s n 3 [a / 4 % 4] = true →
        ∃ t, exec (.dmWriteback g) s = .next t ∧ only t ∧ (engOf t g).dm = tset 0 e.dm a c ∧ (engOf t g).pm = e.pm ∧
          (engOf t g).posted = e.posted ∧ (engOf t g).wbs = rest.filter (fun w => w.1 || w.2.1 != a)) ∧
      (∀ a c rest, e.wbs = (true, a, c) :: rest → portServes s n 3 [4] = true →
        ∃ t, exec (.dmWriteback g) s = .next t ∧ only t ∧ (engOf t g).pm = tset 0 e.pm a c ∧ (engOf t g).dm = e.dm ∧
          (engOf t g).posted = e.posted ∧ (engOf t g).wbs = rest) ∧
      (∀ (src : Fin 16) (p : Posted) rest, e.posted = p :: rest → p.src = src.val → p.left = 0 → p.addr + p.width ≤ 0x8000 →
        portServes s n 2 (banksOf p.addr p.width) = true →
        ∃ t, exec (.sharedStoreArrive g src) s = .next t ∧ only t ∧ (engOf t g).posted = rest ∧ (engOf t g).pm = e.pm ∧
          (∀ i, i < p.width → tget 0 (engOf t g).dm (p.addr + i) = encByte (BitVec.ofNat 8 (p.val.toNat / 256 ^ i))) ∧
          (∀ x, x < p.addr ∨ p.addr + p.width ≤ x → tget 0 (engOf t g).dm x = tget 0 e.dm x)) ∧
      (engState s n = 2 → tget 0 e.ctl 54 = 1 → e.fired = false → ∃ t, exec (.timerFire g) s = .next t ∧ { t with eng := s.eng } = s ∧
        regRead (engOf t g) e.bank 54 = regRead e e.bank 55 ∧ regRead (engOf t g) e.bank 52 = regRead e e.bank 52 ||| 4 ∧
        (engOf t g).fired = true) ∧
      (engState s n = 2 → e.half = 0 → e.bank = false → e.flow = .seq → e.afterRet = false → (tget 0 e.main.r 49).getLsbD 11 = true →
        regRead e false 52 &&& regRead e false 53 ≠ 0 → e.pc < 1024 →
        ∃ t, exec (.interruptAccept g) s = .next t ∧ { t with eng := s.eng } = s ∧ (engOf t g).bank = true ∧
          (engOf t g).pc = (regRead e false 50).toNat ∧ regRead (engOf t g) true 51 = BitVec.ofNat 32 e.pc ∧
          (engOf t g).main = e.main ∧ (engOf t g).shadow = e.shadow)) ∧
  (
    ∀ (s : State) (g : Eng), let n := engId g
      let b := engBase n
      let e := engOf s g
      let a := fget s b Reg.Eng.RAW_ADDR
      let code := BitVec.ofNat 13 (fget s b Reg.Eng.RAW_DATA + 256 * fget s b Reg.Eng.RAW_CHK)
      fget s b Reg.Eng.RAW_BUSY = 1 → a < 0x8000 →
      let ended := fun (o : Out) (f : Fld) (dm pm : Tab (BitVec 13)) => ∃ t, o = .next t ∧ fget t b Reg.Eng.RAW_BUSY = 0 ∧
        fget t b f = 1 ∧ (engOf t g).dm = dm ∧ (engOf t g).pm = pm ∧ { t with csr := s.csr, fresh := s.fresh, eng := s.eng } = s
      let stored := fun (i : Nat) => match e.old.find? (fun p => p.1 == i) with
        | some p => p.2
        | none => tget 0 e.dm i
      (ended (exec (.engineRawTimeout g) s) Reg.Eng.RAW_TIMEOUT e.dm e.pm) ∧
      (engState s n = 2 → ended (exec (.engineRawAccess g) s) Reg.Eng.RAW_REFUSED e.dm e.pm) ∧
      (fget s b Reg.Eng.RAW_MEM = 1 → 8191 < a → ended (exec (.engineRawAccess g) s) Reg.Eng.RAW_REFUSED e.dm e.pm) ∧
      (engState s n ≠ 2 → fget s b Reg.Eng.RAW_WRITE = 1 → fget s b Reg.Eng.RAW_MEM = 0 → portServes s n 0 [a / 4 % 4] = true →
        ended (exec (.engineRawAccess g) s) Reg.Eng.RAW_DONE (tset 0 e.dm a code) e.pm) ∧
      (engState s n ≠ 2 → fget s b Reg.Eng.RAW_WRITE = 1 → fget s b Reg.Eng.RAW_MEM = 1 → a ≤ 8191 → portServes s n 0 [4] = true →
        ended (exec (.engineRawAccess g) s) Reg.Eng.RAW_DONE e.dm (tset 0 e.pm a code)) ∧
      (engState s n ≠ 2 → fget s b Reg.Eng.RAW_WRITE = 0 → fget s b Reg.Eng.RAW_MEM = 0 → portServes s n 0 [a / 4 % 4] = true →
        ended (exec (.engineRawAccess g) s) Reg.Eng.RAW_DONE e.dm e.pm ∧
        ∃ t, exec (.engineRawAccess g) s = .next t ∧
          fget t b Reg.Eng.RAW_DATA + 256 * fget t b Reg.Eng.RAW_CHK = (stored a).toNat) ∧
      (engState s n ≠ 2 → fget s b Reg.Eng.RAW_WRITE = 0 → fget s b Reg.Eng.RAW_MEM = 1 → a ≤ 8191 → portServes s n 0 [4] = true →
        ended (exec (.engineRawAccess g) s) Reg.Eng.RAW_DONE e.dm e.pm ∧
        ∃ t, exec (.engineRawAccess g) s = .next t ∧
          fget t b Reg.Eng.RAW_DATA + 256 * fget t b Reg.Eng.RAW_CHK = (tget 0 e.pm a).toNat))

/-- 07 R203, R205, R207 and R214: a start tick of its class starts a bound engine that is `STOPPED`; a running one is first ended as at a
deadline. N is the count that the tick carries; no class register changes in the cycle of the tick. 07 R217 and R218: a run that a
deadline (cause 1), tick loss (3) or a partition stop (4) halts, and one whose `done` has issued: the uncommitted entries are discarded, a
`commit` of the cycle stands, and a fault in flight keeps the end from being recorded or counted. Model's choices that a clause rests on:
notes/assumptions/52.md. -/
def Obligations.RunsStartAndHalt : Prop :=
  (
    ∀ (s : State) (g : Eng) (N : Nat), let n := engId g
      let b := engBase n
      let i := eisBase (eisId g.d g.e)
      let c := fget s b Reg.Eng.CLASS
      let period := fget s i (Reg.Eisl.PERIOD c)
      fget s b Reg.Eng.BOUND = 1 → period ≠ 0 → ((N : Int) - fget s i (Reg.Eisl.PHASE c)) % period = 0 →
      (eisGet s (eisId g.d g.e)).wasAt ≠ s.up + 1 →
      (engOf s g).loadWait = false → engState s n = 1 ∨ engState s n = 2 → (engState s n = 1 → (engOf s g).starting = 0) →
      let t := engTick s n N
      (engOf t g).starting = (if (engOf s g).half = 0 then 35 else 36) ∧ (engOf t g).frame = [] ∧ (engOf t g).staged = [] ∧
        (engOf t g).ovf = false ∧ (engOf t g).ticksLeft = fget s i (Reg.Eisl.BUDGET c) ∧ (engOf t g).startUs = BitVec.ofNat 32 N ∧
        engState t n = 1 ∧ fget t b Reg.Eng.STARTS = min (fget s b Reg.Eng.STARTS + 1) (2 ^ Reg.Eng.STARTS.wd - 1) ∧
        (engOf t g).runIdx = fget t b Reg.Eng.STARTS ∧
        ((engOf s g).fly = [] → (engOf t g).released = (engOf s g).released ∧
          (engState s n = 2 → doneIssued (engOf s g) = false → fget t b Reg.Eng.LAST_END = 1))) ∧
  (
    ∀ (s : State) (g : Eng) (cause : Nat), engState s (engId g) = 2 → cause = 1 ∨ cause = 3 ∨ cause = 4 →
      let n := engId g
      let b := engBase n
      let e := engOf s g
      let t := haltRun s n cause
      let isDone : Bool := doneIssued e
      let due := fun (w : ResW) => ∃ r ∈ e.fly, r.left ≤ 1 ∧ r.w = w
      engState t n = 1 ∧ (engOf t g).staged = [] ∧ (engOf t g).ovf = false ∧ (engOf t g).bank = false ∧
        { t with csr := s.csr, fresh := s.fresh, eng := s.eng } = s ∧
        (¬ due .commit → (engOf t g).released = e.released ∧ (engOf t g).fly = e.fly ∧ (engOf t g).dm = e.dm) ∧
        (∀ sh q, e.fly = [⟨1, sh, q, .commit⟩] → e.ovf = false → e.staged ≠ [] → (engOf t g).released = e.released ++ e.staged ∧
          (engOf t g).fly = [] ∧ fget t b Reg.Eng.COMMITS = min (fget s b Reg.Eng.COMMITS + 1) (2 ^ Reg.Eng.COMMITS.wd - 1)) ∧
        (¬ due .commit → dbeAhead s n = false → fget t b Reg.Eng.LAST_END = (if isDone then 0 else cause) ∧
          fget t b Reg.Eng.OVERRUN = (if isDone ∨ cause = 4 then fget s b Reg.Eng.OVERRUN
            else min (fget s b Reg.Eng.OVERRUN + 1) (2 ^ Reg.Eng.OVERRUN.wd - 1))) ∧
        (¬ due .commit → dbeAhead s n = true → fget t b Reg.Eng.LAST_END = fget s b Reg.Eng.LAST_END ∧
          fget t b Reg.Eng.OVERRUN = fget s b Reg.Eng.OVERRUN))

/-- 07 R193 to R200: the events of the timing unit and of an engine island's clock. 05 R135 and R137, 06 R190 and 07 R209 to R212: staged
writes wait for `commit`, which releases all of them or, in overflow, none; a released write then drains in order. Model's choices that a
clause rests on: notes/assumptions/9.md, notes/assumptions/52.md. Forms shown to complete, each by a clause that concludes exec = next
with the form's own effect, under conditions on state and operands alone: timeStep, tick, tickLoss, frameInEdge, ppsInEdge, frameLoss,
ppsLoss, ppsOutRise, ppsOutFall, eclkLock, stagedDrain. -/
def Obligations.TimingEventsAndStagedWrites : Prop :=
  (
    ∀ (s : State),
      let b := timBase
      let frac := s.tim.sub / 2 ^ 32
      let setsOnly := fun (c : Instr) (base : Nat) (f : Fld) => exec c s = .next (fset s base f 1)
      (∀ sec ns, s.tim.step = some (sec, ns) → ∃ t, exec .timeStep s = .next t ∧ t.tim.sec = sec ∧ t.tim.ns = ns ∧ t.tim.sub = 0 ∧
        t.tim.step = none ∧ fget t b Reg.Tim.SET_PENDING = 0 ∧ { t with csr := s.csr, fresh := s.fresh, tim := s.tim } = s) ∧
      (∃ t, exec .frameInEdge s = .next t ∧ fget t b Reg.Tim.FRAME_NS = s.tim.ns % 2 ^ 32 ∧
        fget t b Reg.Tim.FRAME_FRAC = frac / 0x1000 * 0x1000 % 2 ^ 16 ∧ fget t b Reg.Tim.FRAME_SEC = s.tim.sec % 2 ^ 16 ∧
        fget t b Reg.Tim.FRAME_SEEN = 1 ∧ { t with csr := s.csr, fresh := s.fresh } = s) ∧
      (∃ t, exec .ppsInEdge s = .next t ∧ fget t b Reg.Tim.PPS_NS = s.tim.ns % 2 ^ 32 ∧
        fget t b Reg.Tim.PPS_FRAC = frac / 0x1000 * 0x1000 % 2 ^ 16 ∧ fget t b Reg.Tim.PPS_SEC = s.tim.sec % 2 ^ 16 ∧
        fget t b Reg.Tim.PPS_SEEN = 1 ∧ { t with csr := s.csr, fresh := s.fresh } = s) ∧
      setsOnly .frameLoss b Reg.Tim.FRAME_LOSS ∧ setsOnly .ppsLoss b Reg.Tim.PPS_LOSS ∧
      (fget s b Reg.Tim.PPS_EN = 1 → ((s.tim.ns : Int) - fget s b Reg.Tim.PPS_OFFSET).natAbs ≤ 1 → s.tim.ns < 10 ^ 9 →
        fget s b Reg.Tim.PPS_OFFSET < 10 ^ 9 →
        exec .ppsOutRise s = .next { s with tim := { s.tim with pps := true, ppsLeft := 1000 * fget s b Reg.Tim.PPS_WIDTH } }) ∧
      (s.tim.ppsLeft ≤ 1 → exec .ppsOutFall s = .next { s with tim := { s.tim with pps := false, ppsLeft := 0 } }) ∧
      (∀ d e, (eisGet s (eisId d e)).pst = 0 ∨ (eisGet s (eisId d e)).pst = 5 →
        setsOnly (.eclkLock d e) (eisBase (eisId d e)) Reg.Eisl.ECLK_LOCK) ∧
      (exec .tick s = .next ((List.range 80).foldl (fun u e =>
        let marked := fset u (eisBase e) Reg.Eisl.LAST_TICK (s.tim.sec * 1000000 + s.tim.ns / 1000)
        if (eisGet u e).pst ≠ 0 ∨ fenced u (e / 10) = true then u
        else if (eisGet marked e).hold then marked
        else (List.range 16).foldl (fun u k => engTick u (16 * e + k) (s.tim.sec * 1000000 + s.tim.ns / 1000)) marked) s)) ∧
      (∀ d e, (eisGet s (eisId d e)).pst = 0 → exec (.tickLoss d e) s =
        .next ((List.range 16).foldl (fun u k => haltRun u (16 * eisId d e + k) 3) (fset s (eisBase (eisId d e)) Reg.Eisl.TICK_LOSS 1)))) ∧
  (
    ∀ (s : State) (g : Eng), let n := engId g
      let b := engBase n
      let e := engOf s g
      e.starting = 0 → (∀ f, e.flow ≠ .slots 0 f) →
      let retires := fun (w : ResW) (staged released : List StEnt) (ovf : Bool) (commits drops : Nat) => ∀ sh q, e.fly = [⟨1, sh, q, w⟩] →
        ∃ t, exec (.resultRetire g) s = .next t ∧ (engOf t g).staged = staged ∧ (engOf t g).released = released ∧ (engOf t g).ovf = ovf ∧
          (engOf t g).fly = [] ∧ (engOf t g).dm = e.dm ∧ (engOf t g).main = e.main ∧ (engOf t g).shadow = e.shadow ∧
          fget t b Reg.Eng.COMMITS = commits ∧ fget t b Reg.Eng.COMMIT_DROP = drops ∧
          { t with csr := s.csr, fresh := s.fresh, eng := s.eng } = s
      let commits := fget s b Reg.Eng.COMMITS
      let drops := fget s b Reg.Eng.COMMIT_DROP
      let used := ((e.released ++ e.staged).map stSize).sum
      (engState s n = 2 → e.ovf = false → used < 256 → ∀ a w v, inPers s n a = true → a < 0x8000 →
        retires (.store a w v) (e.staged ++ [.store a w v]) e.released false commits drops) ∧
      (engState s n = 2 → e.ovf = false → 256 ≤ used → ∀ a w v, 0x80000 ≤ a → retires (.store a w v) e.staged e.released true commits drops) ∧
      (engState s n = 2 → e.ovf = false → e.staged ≠ [] →
        retires .commit [] (e.released ++ e.staged) false (min (commits + 1) (2 ^ 32 - 1)) drops) ∧
      (engState s n = 2 → e.ovf = true → retires .commit [] e.released false commits (min (drops + 1) (2 ^ 16 - 1))) ∧
      (∀ a w v rest, e.released = .store a w v :: rest → a + w ≤ 0x8000 → a < 0x8000 → e.wbs = [] →
        portServes s n 3 (banksOf a w) = true → ∃ t, exec (.stagedDrain g) s = .next t ∧ (engOf t g).released = rest ∧
          (∀ i, i < w → tget 0 (engOf t g).dm (a + i) = encByte (BitVec.ofNat 8 (v.toNat / 256 ^ i))) ∧
          (∀ x, x < a ∨ a + w ≤ x → tget 0 (engOf t g).dm x = tget 0 e.dm x) ∧ { t with eng := s.eng } = s) ∧
      (∀ a w v rest, e.released = .store a w v :: rest → 0x80000 ≤ a →
        let m := 16 * (n / 16) + (a - 0x80000) / 32768 % 16
        ∃ t, exec (.stagedDrain g) s = .next t ∧ (engOf t g).released = rest ∧
          (engGet t m).posted = (engGet s m).posted ++ [⟨n % 16, a % 32768, w, v, 4⟩] ∧ { t with eng := s.eng } = s))

/-- 05 R130 and R142: a command of a signal engine changes nothing but that engine, and no register outside its window. -/
def Obligations.EngineCommandsTouchOnlyTheirEngine : Prop :=
  ∀ (s t : State) (c : Instr) (g : Eng), engineOf c = some g → exec c s = .next t →
    { t with csr := s.csr, fresh := s.fresh, eng := s.eng } = s ∧ (∀ m, m ≠ engId g → engGet t m = engGet s m) ∧
      (∀ d k, k < 8 * engBase (engId g) ∨ 8 * (engBase (engId g) + 0x800) ≤ k → tget d t.csr k = tget d s.csr k)

/-- 01 R37 to R39, 08 R238 and R239: the outcome of a CSR packet at a CSR node is the first row that applies. A packet that R225 forbids, or
whose address the node does not map, is answered `DECODE_ERR`; a poisoned one by its first error, else `POISONED`; the partition error is
decided before the state of the block is consulted. A later access of one requester to a block waits for the earlier. Model's choices that
a clause rests on: notes/assumptions/13.md. Forms shown to complete, each by a clause that concludes exec = next with the form's own
effect, under conditions on state and operands alone: csrWr, csrRd. -/
def Obligations.CsrPacketOutcomeFollowsTheDecisionOrder : Prop :=
  ∀ (s u : State) (p : Packet) (write : Bool), s.pwr.hubReset = false → p.op = (if write then 0x04 else 0x03) → takeNet s p = some u →
    let run := exec (if write then .csrWr p else .csrRd p) s
    let a := p.addr.toNat
    let size := p.size.toNat
    let part := p.part.toNat
    (shapeOk p = false ∨ csrNodeMaps p = false ∨ 2 ^ 32 ≤ a → run = .next (respond u p .decodeErr [])) ∧
    (shapeOk p = true → csrNodeMaps p = true → a < 2 ^ 32 →
      (size ≠ 4 ∨ a % 4 ≠ 0 ∨ winOf a = none → run = .next (respond u p .decodeErr [])) ∧
      (size = 4 → a % 4 = 0 → ∀ w o, winOf a = some (w, o) →
        (mayReach u part w o write = false → winDie w = none → run = .next (respond u p .partErr [])) ∧
        (mayReach u part w o write = false → ∀ d, winDie w = some d → present u d = true → fenced u d = false →
          run = .next (respond (finc u (dieBase d) Reg.Die.PART_ERR_CNT) p .partErr [])) ∧
        (mayReach u part w o write = false → ∀ d, winDie w = some d → present u d = false ∨ fenced u d = true →
          run = .next (respond u p .partErr [])) ∧
        (mayReach u part w o write = true → blockOff u w = true → winDie w = none →
          run = .next (respond (fset u 0 Reg.Hub.OFF_ACCESS 1) p .domainOff [])) ∧
        (mayReach u part w o write = true → blockOff u w = true → ∀ d, winDie w = some d → present u d = false ∨ fenced u d = true →
          run = .next (respond (fset u 0 Reg.Hub.OFF_ACCESS 1) p .domainOff [])) ∧
        (mayReach u part w o write = true → blockOff u w = true → ∀ d, winDie w = some d → present u d = true → fenced u d = false →
          run = .next (respond (fset u (dieBase d) Reg.Die.OFF_ACCESS 1) p .domainOff [])) ∧
        (mayReach u part w o write = true → blockOff u w = false → p.poisoned = true → run = .next (respond u p .poisoned [])) ∧
        (mayReach u part w o write = true → blockOff u w = false → p.poisoned = false → write = true →
          run = .next (respond (csrStore ⟨nodePath (srcOf p), srcOf p == dmcNode⟩ w o (BitVec.ofNat 32 (leAt p.data 0 4)) u) p .okay [])) ∧
        (mayReach u part w o write = true → blockOff u w = false → p.poisoned = false → write = false →
          run = .next (respond (csrValue u w o).2 p .okay (natLe (csrValue u w o).1.toNat 4)))))

/-- 01 R37: the accesses of one requester to one block are taken in the order issued, at whatever priorities they were sent: the later of two
changes nothing while the earlier is on its way. 01 R38: the rows that write a register of the DDR, security, power, configuration, PCIe
or timing windows, `PROT_LOCK`, a register of a hawser or one of the rest of a die's common window are refused to a host partition as a
partition error and, but for the count, change nothing. Model's choices that a clause rests on: notes/assumptions/13.md. -/
def Obligations.CsrAccessesKeepTheirOrderAndHostWritesAreRefused : Prop :=
  (
    ∀ (s : State) (p q : Packet) (l r : List Packet) (write : Bool), s.net = l ++ q :: r → p ∉ l → p ≠ q → p.vn = 0 → isCsr q = true →
      p.op = (if write then 0x04 else 0x03) → srcOf q = srcOf p → q.srcUnit = p.srcUnit → csrBlock q = csrBlock p →
      exec (if write then .csrWr p else .csrRd p) s = .next s) ∧
  (
    ∀ (s : State) (w : Who) (v : Word), s.pwr.hubReset = false → w.part ≠ 0 →
      let refused := fun (c : Instr) => exec c s = .next (answer s .partErr 0)
      (∀ n, refused (.trnGo w n v) ∧ refused (.mrGo w n v) ∧ refused (.runGo w n v) ∧ refused (.disableGo w n v) ∧ refused (.mcErrClr w n v)) ∧
      (∀ n (off : BitVec 16), off.toNat % 4 = 0 → refused (.phyWrite w n off v)) ∧
      refused (.winEn w v) ∧ refused (.secClr w v) ∧ refused (.secCntClr w v) ∧ refused (.txGo w v) ∧ refused (.rxPop w v) ∧
      refused (.pwrClr w v) ∧ refused (.cfgErrClr w v) ∧ refused (.rawfGo w v) ∧ refused (.setGo w v) ∧ refused (.protLock w v) ∧
      (∀ c k, refused (.pcieClr w c k v)) ∧
      (∀ d n, present s d.val = true → fenced s d.val = false →
        let counted := fun (c : Instr) => exec c s = .next (answer (finc s (dieBase d.val) Reg.Die.PART_ERR_CNT) .partErr 0)
        counted (.hwClr w d n v) ∧ counted (.testGo w d n v) ∧ counted (.selClr w d v) ∧ counted (.nocClr w d v) ∧
          counted (.csRestart w d v) ∧ counted (.csClr w d v)))

/-- The clear registers of every window (03 R73, R102; 04 R127; 05 R169; 07 R221; 08 R248; 09 R275; 10 R300; 11 R334; 12 R364; 13 R388; 14
R435, R437; 15 R472): a served write of 1 returns the counters that the register's row names to their reset values, or to what the same
cycle counted (00 R532), and changes nothing else; a served write of 0 changes nothing. Model's choices that a clause rests on:
notes/assumptions/10.md. Forms shown to complete, each by a clause that concludes exec = next with the form's own effect, under conditions
on state and operands alone: selClr, marginClr, memClr, engineErrClr, schedClr, nocClr, hwClr, mcErrClr, secClr, secCntClr, laneClr,
pcieClr, csRestart, csClr, cfgErrClr, pwrClr. -/
def Obligations.ClearWritesResetTheirCounters : Prop :=
  ∀ (s : State) (w : Who),
    let clears := fun (c : Word → Instr) (a : Nat) (p : Nat → Bool) (l : List (Nat × Fld)) => served s w a true = true →
      (∀ v : Word, v.getLsbD 0 = false → exec (c v) s = okay s) ∧
      ∀ v : Word, v.getLsbD 0 = true → ∃ t, exec (c v) s = okay t ∧ onlyRegs s t p ∧
        ∀ x ∈ l, fget t x.1 x.2 = ffresh s x.1 x.2
    let range := fun (c : Word → Instr) (a lo hi : Nat) => clears c a (keyIn lo hi) [] ∧ (served s w a true = true →
      ∀ v : Word, v.getLsbD 0 = true → ∃ t, exec (c v) s = okay t ∧ ∀ b f, keyIn lo hi (fkey b f) = true → fget t b f = ffresh s b f)
    (∀ d i, let b := islBase (islId d i); range (.memClr w d i) (b + 0x118) (b + 0x104) (b + 0x118)) ∧
    (∀ g, let b := engBase (engId g); range (.engineErrClr w g) (b + 0x14) (b + 0x08) (b + 0x14)) ∧
    (∀ g, let b := engBase (engId g); range (.schedClr w g) (b + 0x68) (b + 0x50) (b + 0x68)) ∧
    range (.secClr w) (secBase + 0x100) (secBase + 0x40) (secBase + 0x8C) ∧
    (∀ c k, let b := pcieBase c.val k.val; range (.pcieClr w c k) (b + 0x10) (b + 0x4) (b + 0x10)) ∧
    range (.cfgErrClr w) (cfgBase + 0x24) (cfgBase + 0x4) (cfgBase + 0xC) ∧
    (∀ d, range (.selClr w d) (dieBase d.val + 0x108) (dieBase d.val + 0x100) (dieBase d.val + 0x108)) ∧
    (∀ c : ClkDom, let b := marginBase s c
      let l := [Reg.Isl.SLACK_MIN, Reg.Isl.STRETCH_CNT, Reg.Isl.EXHAUST_CNT]
      clears (.marginClr w c) (clkBase c + 0x40) (keyOf b l) (l.map (fun f => (b, f)))) ∧
    (∀ d, let b := dieBase d.val
      let l := (List.range 48).flatMap (fun i => [Reg.Die.I_WAKE_CNT i, Reg.Die.I_WAKE_FAIL_CNT i])
      clears (.nocClr w d) (b + 0x1024) (fun k => keyIn (b + 0x1010) (b + 0x1024) k || keyOf b l k)
        ((l ++ [Reg.Die.PART_ERR_CNT, Reg.Die.LATE_RSP_CNT, Reg.Die.FLIT_SBE_CNT, Reg.Die.FLIT_DBE_CNT, Reg.Die.AGE_GUARD_CNT]).map
          (fun f => (b, f)))) ∧
    (∀ d n, let b := hwBase d.val n.val
      let l := (List.range 76).map Reg.Hw.TOT_ERR
      clears (.hwClr w d n) (b + 0x60) (fun k => keyIn (b + 0x44) (b + 0x58) k || keyOf b l k)
        ((l ++ [Reg.Hw.CRC_ERR_CNT, Reg.Hw.REPLAY_CNT, Reg.Hw.SWAP_CNT]).map (fun f => (b, f)))) ∧
    (∀ n, let b := mcBase n.val
      let l := [Reg.Mc.REF_FORCE_CNT, Reg.Mc.SR_ENTRY_CNT, Reg.Mc.FWD_CNT, Reg.Mc.SR_ABORT_CNT, Reg.Mc.RAW_WAIT_CNT, Reg.Mc.CE_CNT,
        Reg.Mc.UE_CNT, Reg.Mc.ERR_LINE, Reg.Mc.ERR_UE, Reg.Mc.ERR_VALID, Reg.Mc.ERR_NIB, Reg.Mc.BY_PATROL]
      clears (.mcErrClr w n) (b + 0x210) (fun k => keyIn (b + 0x220) (b + 0x270) k || keyIn (b + 0x600) (b + 0x6A0) k || keyOf b l k)
        (l.map (fun f => (b, f)))) ∧
    (∀ l : Lane, let b := laneBase l.q.val l.l.val
      clears (.laneClr w l) (b + 0x20) (fun k => keyIn (b + 0x08) (b + 0x10) k || keyIn (b + 0x14) (b + 0x1C) k ||
        keyIn (b + 0x70) (b + 0x80) k || keyIn (b + 0x90) (b + 0x94) k)
        ([Reg.Lane.UP_CNT, Reg.Lane.DOWN_CNT, Reg.Lane.ABANDON_CNT, Reg.Lane.FAIL_CNT, Reg.Lane.FEC_CORR_CNT, Reg.Lane.FEC_UNCORR_CNT,
          Reg.Lane.CHK_ERR_LO, Reg.Lane.CHK_ERR_HI, Reg.Lane.CHK_BITS_LO, Reg.Lane.CHK_BITS_HI, Reg.Lane.TX_UNDER_CNT,
          Reg.Lane.RX_OVF_CNT].map (fun f => (b, f)))) ∧
    (let l := Reg.Pwr.SLEEP_ABORT_CNT :: (List.range 9).map Reg.Pwr.AVS_RETRY_CNT;
      clears (.pwrClr w) (pwrBase + 0xA0) (keyOf pwrBase l) (l.map (fun f => (pwrBase, f)))) ∧
    (∀ d, served s w (dieBase d.val + 0x318) true = true → ∀ v : Word, ∀ c ∈ [Instr.csClr w d v, Instr.csRestart w d v],
      let lo := dieBase d.val + 0x304
      let hi := dieBase d.val + 0x318
      ∃ t, exec c s = okay t ∧
        { t with csr := s.csr } = (if v.getLsbD 0 then { s with csPos := tset 0 s.csPos d.val 0, csStart := tset 0 s.csStart d.val (upUs s) }
          else s) ∧
        ∀ b f, fget t b f = (if v.getLsbD 1 && keyIn lo hi (fkey b f) then ffresh s b f else fget s b f)) ∧
    (served s w (secBase + 0x104) true = true → ∀ v : Word, ∃ t, exec (.secCntClr w v) s = okay t ∧
      onlyRegs s t (keyOf secBase ((List.range 17).map Reg.Sec.SEC_CNT)) ∧
      ∀ p : Fin 17, fget t secBase (Reg.Sec.SEC_CNT p.val) =
        (if v.getLsbD p.val then ffresh s secBase (Reg.Sec.SEC_CNT p.val) else fget s secBase (Reg.Sec.SEC_CNT p.val)))

/-- 03 R73 to R82 and 07 R200: served writes of the clock registers. A generator setting out of range, a stopped spine line and an illegal
source are refused with their flags; a change relocks the generator; a legal source starts the tree's switch, is held behind one that
runs, or replaces the target of one that is stuck. Model's choices that a clause rests on: notes/assumptions/15.md. Forms shown to
complete, each by a clause that concludes exec = next with the form's own effect, under conditions on state and operands alone:
generatorWrite, treeSwitch, eclkNWrite. -/
def Obligations.ClockRegisterWrites : Prop :=
  ∀ (s : State) (w : Who) (v : Word),
    (∀ d i, let n := islId d i
      let b := islBase n
      let spine := v.toNat % 8
      let mul := v.toNat / 2 ^ 4 % 64
      let div := v.toNat / 2 ^ 10 % 64
      let was := (fget s b Reg.Isl.SPINE_SEL, fget s b Reg.Isl.GEN_MUL, fget s b Reg.Isl.GEN_DIV)
      let on : Bool := fget s (dieBase d.val) (Reg.Die.SPINE_EN spine) ≠ 0
      let u := if on then s else fset s b Reg.Isl.SEL_REJECT 1
      let sel := if on then spine else fget s b Reg.Isl.SPINE_SEL
      let f := fget s (dieBase d.val) (Reg.Die.SPINE_N sel) * (mul + 1)
      let t := fset (fset (fset u b Reg.Isl.SPINE_SEL sel) b Reg.Isl.GEN_MUL mul) b Reg.Isl.GEN_DIV div
      let high := (if s.fuses.speed = 3 then 1440 else 1248) * (div + 1)
      served s w b true = true →
      (spliced s n = true → spliceRoot s n ≠ n → exec (.generatorWrite w d i v) s = okay (fset s b Reg.Isl.SEL_REJECT 1)) ∧
      (spliced s n = false ∨ spliceRoot s n = n →
        (16 * (div + 1) ≤ f → 10 * f ≤ high → exec (.generatorWrite w d i v) s =
          okay (if was = (sel, mul, div) then t else fset t b Reg.Isl.LOCKED 0)) ∧
        (f < 16 * (div + 1) ∨ high < 10 * f → exec (.generatorWrite w d i v) s = okay (fset u b Reg.Isl.GEN_BAD 1)))) ∧
    (∀ d i (x : Fin 4), let n := islId d i
      let b := islBase n
      let src := v.toNat % 2 ^ 16
      let div := v.toNat / 2 ^ 16 % 256
      let go := exec (.treeSwitch w d i x v) s
      served s w (b + 0x10 + 4 * x.val) true = true →
      (spliced s n = true → spliceRoot s n ≠ n → go = okay (fset s b Reg.Isl.SEL_REJECT 1)) ∧
      (spliced s n = false ∨ spliceRoot s n = n →
        (srcIllegal s n src = true → go = okay (fset (fset s b Reg.Isl.SEL_REJECT 1) b (Reg.Isl.DIV x.val) div)) ∧
        (srcIllegal s n src = false → treeBusy s n x.val = false → src = fget s b (Reg.Isl.SRC x.val) →
          go = okay (fset s b (Reg.Isl.DIV x.val) div)) ∧
        (srcIllegal s n src = false → treeBusy s n x.val = false → src ≠ fget s b (Reg.Isl.SRC x.val) →
          ∃ t, go = okay t ∧ { t with csr := s.csr, fresh := s.fresh, isl := s.isl } = s ∧ fget t b (Reg.Isl.SRC x.val) = src ∧
            fget t b (Reg.Isl.DIV x.val) = div ∧ treeBusy t n x.val = true ∧ (fget t b Reg.Isl.SW_FORCED).testBit x.val = false ∧
            tget 0 (islGet t n).swOld x.val = fget s b (Reg.Isl.SRC x.val) ∧ tget false (islGet t n).swStep2 x.val = false ∧
            (treeGet t n x.val).out = (treeGet s n x.val).out) ∧
        (srcIllegal s n src = false → treeBusy s n x.val = true → swStuck s n x.val = false →
          ∃ t, go = okay t ∧ { t with csr := s.csr, fresh := s.fresh, isl := s.isl } = s ∧
            tget none (islGet t n).swHeld x.val = some v ∧ (fget t b Reg.Isl.SW_HELD).testBit x.val = true ∧
            fget t b (Reg.Isl.SRC x.val) = fget s b (Reg.Isl.SRC x.val) ∧ fget t b (Reg.Isl.DIV x.val) = fget s b (Reg.Isl.DIV x.val) ∧
            treeGet t n x.val = treeGet s n x.val) ∧
        (srcIllegal s n src = false → treeBusy s n x.val = true → swStuck s n x.val = true →
          ∃ t, go = okay t ∧ { t with csr := s.csr, fresh := s.fresh, isl := s.isl } = s ∧ tget none (islGet t n).swHeld x.val = none ∧
            (fget t b Reg.Isl.SW_HELD).testBit x.val = false ∧ fget t b (Reg.Isl.SRC x.val) = src ∧ fget t b (Reg.Isl.DIV x.val) = div ∧
            treeBusy t n x.val = true ∧ tget false (islGet t n).swStep2 x.val = true ∧ (treeGet t n x.val).edges = 0))) ∧
    (∀ d e, let b := eisBase (eisId d e)
      let n := v.toNat % 64
      let top := if s.fuses.speed = 3 then 40 else 36
      let go := exec (.eclkNWrite w d e v) s
      served s w b true = true →
      (rwlOpen s = true → 16 ≤ n → n ≤ top →
        go = okay (if fget s b Reg.Eisl.ECLK_N = n then fset s b Reg.Eisl.ECLK_N n
          else fset (fset s b Reg.Eisl.ECLK_N n) b Reg.Eisl.ECLK_LOCK 0)) ∧
      (rwlOpen s = false ∨ n < 16 ∨ top < n → go = okay s))

/-- 05 R170, 07 R195 and R199, 04 R126, 09 R275, 14 R436: served writes of the go bits of the engines, the timing unit, the block memories,
the hawsers and the configuration controller, and the latching read of `US_LO`. A write of 0 to the go bit writes its fields; one of 1
while the access runs is discarded. Model's choices that a clause rests on: notes/assumptions/13.md. Forms shown to complete, each by a
clause that concludes exec = next with the form's own effect, under conditions on state and operands alone: usLo, bramRawGo, rawGo, setGo,
testGo, rawfGo. -/
def Obligations.GoWritesStartTheirAccess : Prop :=
  ∀ (s : State) (w : Who) (v : Word),
    (∀ g, let n := engId g
      let b := engBase n
      let t := fset (fset (fset s b Reg.Eng.RAW_ADDR (v.toNat % 2 ^ 15)) b Reg.Eng.RAW_MEM (v.toNat / 2 ^ 15 % 2)) b Reg.Eng.RAW_WRITE
        (v.toNat / 2 ^ 16 % 2)
      let go := exec (.rawGo w g v) s
      served s w (b + 0x20) true = true →
      (v.getLsbD 31 = false → go = okay t) ∧ (v.getLsbD 31 = true → fget s b Reg.Eng.RAW_BUSY ≠ 0 → go = okay s) ∧
      (v.getLsbD 31 = true → fget s b Reg.Eng.RAW_BUSY = 0 →
        go = okay (if engState s n = 2 ∨ (v.getLsbD 15 = true ∧ 8191 < v.toNat % 2 ^ 15) then fset t b Reg.Eng.RAW_REFUSED 1
          else fset t b Reg.Eng.RAW_BUSY 1))) ∧
    (∀ d i, let b := islBase (islId d i)
      let t := fset (fset (fset s b Reg.Isl.BLOCK (v.toNat % 64)) b Reg.Isl.ROW (v.toNat / 2 ^ 6 % 1024)) b Reg.Isl.WRITE
        (v.toNat / 2 ^ 16 % 2)
      let go := exec (.bramRawGo w d i v) s
      served s w (b + 0x120) true = true →
      (v.getLsbD 31 = false → go = okay t) ∧ (v.getLsbD 31 = true → fget s b Reg.Isl.RAW_BUSY ≠ 0 → go = okay s) ∧
      (v.getLsbD 31 = true → fget s b Reg.Isl.RAW_BUSY = 0 →
        go = okay (if 49 < v.toNat % 64 then fset t b Reg.Isl.RAW_TIMEOUT 1 else fset t b Reg.Isl.RAW_BUSY 1))) ∧
    (let t := fset s timBase Reg.Tim.SET_SEC_HI (v.toNat % 2 ^ 16);
      served s w (timBase + 0x2C) true = true →
      (v.getLsbD 31 = false → exec (.setGo w v) s = okay t) ∧
      (v.getLsbD 31 = true →
        let x := (fget s timBase Reg.Tim.SET_SEC_LO + 2 ^ 32 * (v.toNat % 2 ^ 16), fget s timBase Reg.Tim.SET_NS);
        exec (.setGo w v) s = okay (fset { t with tim := { s.tim with step := some x } } timBase Reg.Tim.SET_PENDING 1))) ∧
    (served s w timBase false = true → ∃ t, let N := s.tim.sec * 1000000 + s.tim.ns / 1000
      exec (.usLo w) s = .next (answer t .okay (BitVec.ofNat 32 N)) ∧ { t with csr := s.csr, fresh := s.fresh } = s ∧
        fget t timBase Reg.Tim.US_LO = N % 2 ^ 32 ∧ fget t timBase Reg.Tim.NS = s.tim.ns % 2 ^ 32 ∧
        fget t timBase Reg.Tim.SEC_LO = s.tim.sec % 2 ^ 32 ∧ fget t timBase Reg.Tim.SEC_HI = s.tim.sec / 2 ^ 32 % 2 ^ 16 ∧
        fget t timBase Reg.Tim.FRAC = s.tim.sub / 2 ^ 32 % 2 ^ 16) ∧
    (∀ d n, let h := 16 * d.val + n.val
      let b := hwBase d.val n.val
      let t := writeFields s b [Reg.Hw.TEST_WIRE, Reg.Hw.TEST_REJECT] v
      let go := exec (.testGo w d n v) s
      served s w (b + 0x64) true = true →
      (v.getLsbD 31 = false → go = okay t) ∧
      (v.getLsbD 31 = true → fget s b Reg.Hw.CHANGING = 0 → hwRuns s h = true → go = okay (wireFails t h (v.toNat % 64))) ∧
      (v.getLsbD 31 = true → fget s b Reg.Hw.CHANGING ≠ 0 ∨ hwRuns s h = false → go = okay (fset t b Reg.Hw.TEST_REJECT 1))) ∧
    (let t := fset (fset s cfgBase Reg.Cfg.RAWF_ADDR (v.toNat % 2 ^ 20)) cfgBase Reg.Cfg.RAWF_WRITE (v.toNat / 2 ^ 20 % 2);
      served s w (cfgBase + 0x30) true = true →
      (v.getLsbD 31 = false → exec (.rawfGo w v) s = okay t) ∧
      (v.getLsbD 31 = true → fget s cfgBase Reg.Cfg.RAWF_BUSY ≠ 0 → exec (.rawfGo w v) s = okay s) ∧
      (v.getLsbD 31 = true → fget s cfgBase Reg.Cfg.RAWF_BUSY = 0 → exec (.rawfGo w v) s = okay (fset t cfgBase Reg.Cfg.RAWF_BUSY 1)))

/-- 10 R295 to R298: served writes of a controller's go registers and PHY registers: `TRN_GO` in TRAIN (1), `MR_GO` in TRAIN and RUN (2),
`RUN_GO` and `DISABLE_GO` in TRAIN, PHY values at once in TRAIN and else with the next refresh. 11 R317, 12 R357, R358 and R371, 13 R391:
served writes of `WIN_EN`, of the injection and bight registers, and of `PROT_LOCK`. Model's choices that a clause rests on:
notes/assumptions/13.md, notes/assumptions/37.md. Forms shown to complete, each by a clause that concludes exec = next with the form's own
effect, under conditions on state and operands alone: trnGo, mrGo, runGo, disableGo, phyWrite, winEn, injGo, txGo, rxPop, protLock. -/
def Obligations.ControllerSecurityLaneAndPlanWrites : Prop :=
  (
    ∀ (s : State) (w : Who) (v : Word) (n : Fin 8), let b := mcBase n.val
      let put := fun (u : State) (l : List (Fld × Nat)) => l.foldl (fun u x => fset u b x.1 x.2) u
      let trn := put s [(Reg.Mc.TRN_PAT, v.toNat / 2 % 2), (Reg.Mc.TRN_SUB, v.toNat / 4 % 4), (Reg.Mc.TRN_RANK, v.toNat / 2 ^ 4 % 2),
        (Reg.Mc.TRN_RDONLY, v.toNat / 2 ^ 5 % 2), (Reg.Mc.TRN_COUNT, v.toNat / 2 ^ 16)]
      let mr := put s [(Reg.Mc.MR_ADDR, v.toNat % 256), (Reg.Mc.MR_DATA, v.toNat / 2 ^ 8 % 256), (Reg.Mc.MR_RANK, v.toNat / 2 ^ 16 % 2),
        (Reg.Mc.MR_SUB, v.toNat / 2 ^ 17 % 4), (Reg.Mc.MR_WRITE, v.toNat / 2 ^ 19 % 2), (Reg.Mc.MR_RCD, v.toNat / 2 ^ 20 % 2)]
      (served s w (b + 0x400) true = true →
        (v.getLsbD 0 = false → exec (.trnGo w n v) s = okay trn) ∧
        (v.getLsbD 0 = true → mcState s n.val = 1 → fget s b Reg.Mc.TRN_BUSY = 0 →
          exec (.trnGo w n v) s = okay (put trn [(Reg.Mc.TRN_BUSY, 1), (Reg.Mc.FF_VALID, 0)])) ∧
        (v.getLsbD 0 = true → mcState s n.val ≠ 1 ∨ fget s b Reg.Mc.TRN_BUSY ≠ 0 → exec (.trnGo w n v) s = okay (fset s b Reg.Mc.TRN_REJECT 1))) ∧
      (served s w (b + 0x440) true = true →
        (v.getLsbD 31 = false → exec (.mrGo w n v) s = okay mr) ∧
        (v.getLsbD 31 = true → mcState s n.val = 1 ∨ mcState s n.val = 2 → (mcGet s n.val).mr = false →
          exec (.mrGo w n v) s = okay (mcUpd mr n.val (fun m => { m with mr := true }))) ∧
        (v.getLsbD 31 = true → (mcState s n.val ≠ 1 ∧ mcState s n.val ≠ 2) ∨ (mcGet s n.val).mr = true →
          exec (.mrGo w n v) s = okay (fset s b Reg.Mc.TRN_REJECT 1))) ∧
      (served s w (b + 0x8) true = true →
        ((v.getLsbD 0 = false ∧ v.getLsbD 1 = false) ∨ mcState s n.val ≠ 1 → exec (.runGo w n v) s = okay s ∧ exec (.disableGo w n v) s = okay s) ∧
        (v.getLsbD 0 = true → mcState s n.val = 1 →
          (∃ t, exec (.runGo w n v) s = okay t ∧ mcState t n.val = 2 ∧ fget t b Reg.Mc.P_RANK0 = 0 ∧ fget t b Reg.Mc.P_RANK1 = 0)) ∧
        (v.getLsbD 0 = false → v.getLsbD 1 = true → mcState s n.val = 1 →
          (∃ t, exec (.disableGo w n v) s = okay t ∧ mcState t n.val = 4 ∧ fget t b Reg.Mc.FAIL_STEP = v.toNat / 2 ^ 4 % 16 ∧
            fget t b Reg.Mc.DISABLE_CAUSE = (if w.node.toNat = 0x800 then 3 else 6)))) ∧
      (∀ off : BitVec 16, 0x1000 ≤ off.toNat → off.toNat % 4 = 0 → served s w (b + off.toNat) true = true →
        (phyFields off.toNat 0 = [] → exec (.phyWrite w n off v) s = okay s) ∧
        (phyFields off.toNat 0 ≠ [] → mcState s n.val = 1 → exec (.phyWrite w n off v) s = okay (writeFields s b (phyFields off.toNat v) v)) ∧
        (phyFields off.toNat 0 ≠ [] → mcState s n.val ≠ 1 → exec (.phyWrite w n off v) s =
          okay (mcUpd s n.val (fun m => { m with phy := m.phy ++ [(off.toNat, v)] }))))) ∧
  (
    ∀ (s : State) (w : Who) (v : Word),
      (served s w (secBase + 0x10) true = true →
        let base := v.toNat % 512
        let size := v.toNat / 512 % 8
        let go := exec (.winEn w v) s
        (rwlOpen s = false → go = okay s) ∧
        (rwlOpen s = true → fget s secBase Reg.Sec.WIN_ACTIVE ≠ 0 →
          go = okay (if v.getLsbD 12 then fset s secBase Reg.Sec.WIN_REJECT 1 else s)) ∧
        (rwlOpen s = true → fget s secBase Reg.Sec.WIN_ACTIVE = 0 →
          (v.getLsbD 12 = false → go = okay (fset (fset s secBase Reg.Sec.WIN_BASE_G base) secBase Reg.Sec.WIN_SIZE size)) ∧
          (v.getLsbD 12 = true → winOk s base size = true → ∃ t, go = okay t ∧ fget t secBase Reg.Sec.WIN_ACTIVE = 1 ∧
            fget t secBase Reg.Sec.WIN_EN = 1 ∧ fget t secBase Reg.Sec.WIN_BASE_G = base ∧ fget t secBase Reg.Sec.WIN_SIZE = size ∧
            (∀ g, fget s secBase Reg.Sec.META_GRAN ≤ g → g < fget s secBase Reg.Sec.META_GRAN + metaBytes size / 131072 →
              (granGet t g).owner = 0x1E ∧ (granGet t g).init = true)) ∧
          (v.getLsbD 12 = true → winOk s base size = false → go = okay (fset s secBase Reg.Sec.WIN_REJECT 1)))) ∧
      (∀ l : Lane, let n := 4 * l.q.val + l.l.val
        let b := laneBase l.q.val l.l.val
        let t := fset (fset (fset s b Reg.Lane.INJ_MODE (v.toNat % 4)) b Reg.Lane.INJ_LEN (v.toNat / 4 % 64)) b Reg.Lane.INJ_RATE
          (v.toNat / 2 ^ 8 % 64)
        let live := linkState s n = 10 ∨ linkState s n = 5
        let go := exec (.injGo w l v) s
        served s w (b + 0x64) true = true →
        (v.toNat % 4 = 0 → go = okay (laneUpd t n (fun x => { x with inj := false }))) ∧
        (v.toNat % 4 ≠ 0 → v.getLsbD 31 = false ∨ ¬ live → go = okay t) ∧
        (v.toNat % 4 = 3 → v.getLsbD 31 = true → live → go =
          okay (laneUpd t n (fun x => { x with inj := true, injLeft := 2 ^ min 40 (max 10 (v.toNat / 2 ^ 8 % 64)) }))) ∧
        (v.toNat % 4 = 1 ∨ v.toNat % 4 = 2 → v.getLsbD 31 = true → live → selfChecked s n = false → 
          let k := if v.toNat % 4 = 1 then 1 else if v.toNat / 4 % 64 = 0 then 64 else v.toNat / 4 % 64;
          go = okay (laneUpd t n (fun x => { x with flips := x.flips + k })))) ∧
      (served s w (pwrBase + 0x80014) true = true →
        let len := v.toNat % 512
        let port := v.getLsbD 9
        let t := fset (fset s pwrBase Reg.Bight.TX_LEN len) pwrBase Reg.Bight.TX_PORT (v.toNat / 512 % 2)
        let f := ((List.range 64).flatMap (fun k => natLe (fget s pwrBase (Reg.Bight.TX_BUF k)) 4)).take len
        (v.getLsbD 31 = false ∨ fget s pwrBase Reg.Bight.TX_BUSY ≠ 0 ∨ len < 3 ∨ 251 < len ∨ bypassOpen s port = false →
          exec (.txGo w v) s = okay t) ∧
        (v.getLsbD 31 = true → fget s pwrBase Reg.Bight.TX_BUSY = 0 → 3 ≤ len → len ≤ 251 → bypassOpen s port = true →
          exec (.txGo w v) s = okay (fset { t with bight := { s.bight with tx := some (port, f ++ natLe (crc32c f).toNat 4) } }
            pwrBase Reg.Bight.TX_BUSY 1))) ∧
      (served s w (pwrBase + 0x80010) true = true → (v.getLsbD 31 = false → exec (.rxPop w v) s = okay s) ∧
        (v.getLsbD 31 = true → ∃ t, exec (.rxPop w v) s = okay t ∧
          { t with csr := s.csr, fresh := s.fresh } = { s with bight := { s.bight with rx := s.bight.rx.drop 1 } } ∧
          fget t pwrBase Reg.Bight.RX_WAIT = (s.bight.rx.length - 1) % 16)) ∧
      (served s w 0xC true = true → (v.getLsbD 0 = false ∨ protLocked s = true → exec (.protLock w v) s = okay s) ∧
        (v.getLsbD 0 = true → protLocked s = false → ∃ t, exec (.protLock w v) s = okay t ∧
          protLocked t = true ∧ t.dram = s.dram ∧ ∀ p : Fin 17, p ≠ 0 → (partGet s p.val).state = 1 →
            (partGet t p.val).state = if onFencedDie s p.val then 3 else 2)))

/-- 08 R227, R228, R234 to R236: injection and reservations at a source node, the response, its timeout and the identifier's return. A bad
header is answered at once; a request without a free identifier or room waits; any other packet enters the network stamped. 08 R226, R238,
R239, R241 to R245 and 07 R216: a packet at its target. A malformed one is answered `DECODE_ERR`; the partition check comes before the
state of the node; requests and messages reach a running island, are held while it is off or wakes, and messages and events reach an
engine. Model's choices that a clause rests on: notes/assumptions/9.md, notes/assumptions/29.md, notes/assumptions/48.md. Forms shown to
complete, each by a clause that concludes exec = next with the form's own effect, under conditions on state and operands alone:
packetInject, rd, wr, msg, evt, responseArrive, rspTimeout, rsvGenerationReturn, wakeFail, responseTake. -/
def Obligations.PacketsAreInjectedAndReachTheirTargets : Prop :=
  (
    ∀ (s : State),
      (∀ p : Packet, let node := srcOf p
        let x := nicGet s node
        let k := nicSize (nodeKind node)
        let q := { p with srcUnit := if hasUnits node then p.srcUnit else 0, part := stampOf s node p.part,
                          prio := if p.prio = 0 ∧ mayPrio0 node = false then 1 else p.prio, resp := 0 }
        let need := 1 + (if p.op = 0x01 ∨ p.op = 0x03 then lenOf p.size.toNat else 0)
        let used := (x.rsv.map (fun r => r.flits)).sum
        let go := exec (.packetInject p) s
        (canSend s node = false → go = .next s) ∧
        (canSend s node = true → headerOk p = false → go = .next (answer s .decodeErr 0)) ∧
        (canSend s node = true → headerOk p = true →
          (answered p.op = false → go = .next { s with net := s.net ++ [{ q with rsv := 0 }] }) ∧
          (answered p.op = true → freeId s node = none ∨ k.1 < used + need → go = .next s) ∧
          (answered p.op = true → ∀ i, freeId s node = some i → used + need ≤ k.1 →
            let id := i + k.2 * tget 0 x.gens i
            let q' := { q with rsv := BitVec.ofNat 7 id }
            go = .next { nicUpd s node (fun x => { x with rsv := x.rsv ++ [⟨id, need, q'⟩] }) with net := s.net ++ [q'] }))) ∧
      (∀ (p : Packet) u, p.vn = 1 → takeNet s p = some u → let node := dstOf p
        let id := p.rsv.toNat
        let waits := awaits (nicGet u node) id
        let late := fun (v : State) => if node / 256 < 8 then finc v (dieBase (node / 256)) Reg.Die.LATE_RSP_CNT else v
        let go := exec (.responseArrive p) s
        (∀ n, nodeKind node = .island n → 2 ≤ islState u n → go = .next (late u)) ∧
        ((∀ n, nodeKind node = .island n → islState u n < 2) → waits = false →
          go = .next (late (nicUpd u node (fun x => { x with dead := x.dead.erase id })))) ∧
        ((∀ n, nodeKind node = .island n → islState u n < 2) → (∀ e, nodeKind node ≠ .engines e) → waits = true →
          go = .next (nicUpd u node (fun x => { x with got := x.got ++ [p] }))) ∧
        (∀ e, nodeKind node = .engines e → waits = true →
          let v := nicUpd u node (fun x => { x with rsv := x.rsv.filter (fun r => r.id != id) })
          go = .next (if p.resp = 0 then v else finc v (engBase (e * 16 + p.dstUnit.toNat)) Reg.Eng.MSG_ERR))) ∧
      (∀ (nd : BitVec 12) (i : BitVec 7), let node := nd.toNat
        let id := i.toNat
        let x := nicGet s node
        let takes := exec (.responseTake nd i) s
        (x.got.find? (fun g => g.rsv.toNat == id) = none → takes = .next s) ∧
        (∀ g, x.got.find? (fun g => g.rsv.toNat == id) = some g →
          let t := nicUpd s node (fun x => { x with got := x.got.erase g, rsv := x.rsv.filter (fun r => r.id != id) })
          let r := if g.poisoned then .poisoned else respOf g.resp.toNat
          ((∀ c, nodeKind node ≠ .pcie c) → takes = .next (answerBytes t r g.data)) ∧
          (∀ c, nodeKind node = .pcie c → let k := pcieBase c (g.tag.toNat % 4)
            (isErr r = false → takes = .next (answerBytes t .okay g.data)) ∧
            (r = .decodeErr ∨ r = .partErr → takes = .next (answerBytes (finc t k Reg.Pcie.UR_CNT) .decodeErr [])) ∧
            (isErr r = true → r ≠ .decodeErr → r ≠ .partErr → takes = .next (answerBytes (finc t k Reg.Pcie.CA_CNT) .domainOff [])))) ∧
        (awaits x id = false → exec (.rspTimeout nd i) s = .next s) ∧
        (awaits x id = true →
          let lapsed := fun (v : State) =>
            let v := nicUpd v node (fun x => { x with rsv := x.rsv.filter (fun r => r.id != id), dead := x.dead ++ [id] })
            answer (if node / 256 < 8 then finc v (dieBase (node / 256)) Reg.Die.RSP_TMO_CNT else v) .domainOff 0
          ((∀ e, nodeKind node ≠ .engines e) → exec (.rspTimeout nd i) s = .next (lapsed s)) ∧
          (∀ e r, nodeKind node = .engines e → x.rsv.find? (fun r => r.id == id) = some r →
            exec (.rspTimeout nd i) s = .next (lapsed (finc s (engBase (e * 16 + r.req.srcUnit.toNat)) Reg.Eng.MSG_ERR)))) ∧
        (let k := (nicSize (nodeKind node)).2;
          (id ∉ x.dead ∨ k = 0 ∨ k = 128 → exec (.rsvGenerationReturn nd i) s = .next s) ∧
          (id ∈ x.dead → 0 < k → k < 128 → exec (.rsvGenerationReturn nd i) s = .next (nicUpd s node (fun x => { x with
            dead := x.dead.erase id, gens := tset 0 x.gens (id % k) ((tget 0 x.gens (id % k) + 1) % (128 / k)) })))))) ∧
  (
    ∀ (s u : State) (p : Packet), takeNet s p = some u →
      let row := fun (op : BitVec 6) (vn : Nat) (c : Packet → Instr) (t : State) => p.op = op → p.vn.toNat = vn → exec (c p) s = .next t
      let arrives := fun (t : State) => row 0x01 0 .rd t ∧ row 0x02 0 .wr t ∧ row 0x10 2 .msg t
      (shapeOk p = false → arrives (respond u p .decodeErr [])) ∧
      (∀ n, shapeOk p = true → nodeKind (dstOf p) = .island n →
        (partRefused p (islHolder u n) = true → arrives (respondPart u p)) ∧
        (partRefused p (islHolder u n) = false → fenced u (n / 48) = true → arrives (respond u p .domainOff [])) ∧
        (partRefused p (islHolder u n) = false → fenced u (n / 48) = false →
          let off := arrives (respond u p .domainOff [])
          let held := fun (v : State) => showHeld (nocUpd v n (fun x => { x with hold := x.hold ++ [p] })) n
          let full := respond (finc u (dieBase (n / 48)) Reg.Die.HOLD_FULL_CNT) p .domainOff []
          let room := (nocGet u n).hold.length < 16
          let wakes := p.nw = false ∧ wakePermitted u n = true
          (islState u n < 2 → (islGet u n).hold = true → off) ∧
          (islState u n < 2 → (islGet u n).hold = false →
            (72 < rqiFlits (nocGet u n) + 1 + p.len.toNat ∨ 64 ≤ rqiReqs (nocGet u n) →
              arrives (respond (finc u (dieBase (n / 48)) Reg.Die.TGT_FULL_CNT) p .domainOff [])) ∧
            (rqiFlits (nocGet u n) + 1 + p.len.toNat ≤ 72 → rqiReqs (nocGet u n) < 64 →
              let t := nocUpd u n (fun x => { x with rqi := x.rqi ++ [p] })
              (p.poisoned = true → p.op ≠ 0x01 → arrives (respond u p .poisoned [])) ∧
              (p.poisoned = false ∨ p.op = 0x01 → row 0x01 0 .rd t ∧ row 0x02 0 .wr t ∧ row 0x10 2 .msg (respond t p .okay [])))) ∧
          (islState u n = 2 → (nocGet u n).kind = 1 → wakes → (room → arrives (held u)) ∧ (¬ room → arrives full)) ∧
          (islState u n = 2 → (nocGet u n).kind ≠ 1 ∨ ¬ wakes → off) ∧
          (islState u n = 3 → wakes → (room → ∃ t, arrives t ∧ t = wakeByPacket (held u) n ∧
            (spliceMembers u n = [n] → islState t n = 5 ∧ (islGet t n).pendRel = true ∧ (nocGet t n).hold = (nocGet u n).hold ++ [p])) ∧
            (¬ room → arrives full)) ∧
          (islState u n = 3 → ¬ wakes → off) ∧ (islState u n = 4 → off) ∧
          (islState u n = 5 → p.nw = true → off) ∧
          (islState u n = 5 → p.nw = false → (islGet u n).wakeFailed = true → arrives (respond u p .wakeFail [])) ∧
          (islState u n = 5 → p.nw = false → (islGet u n).wakeFailed = false → (room → arrives (held u)) ∧ (¬ room → arrives full)) ∧
          (islState u n = 6 → arrives (respond u p .wakeFail [])))) ∧
      (∀ e, nodeKind (dstOf p) = .engines e →
        let n := e * 16 + p.dstUnit.toNat
        let x := engGet u n
        (shapeOk p = true → row 0x01 0 .rd (respond u p .decodeErr []) ∧ row 0x02 0 .wr (respond u p .decodeErr []) ∧
          (partRefused p (eisHolder u e) = true → row 0x10 2 .msg (respondPart u p)) ∧
          (partRefused p (eisHolder u e) = false → eisLive u e = false → row 0x10 2 .msg (respond u p .domainOff [])) ∧
          (partRefused p (eisHolder u e) = false → eisLive u e = true →
            (8 ≤ x.inbox.length → row 0x10 2 .msg (respond (finc u (engBase n) Reg.Eng.IN_DROP) p .domainOff [])) ∧
            (x.inbox.length < 8 → p.poisoned = true → row 0x10 2 .msg (respond u p .poisoned [])) ∧
            (x.inbox.length < 8 → p.poisoned = false → row 0x10 2 .msg (respond (engSet u n { x with
              inbox := x.inbox ++ [⟨p.srcDie, p.srcNode, p.srcUnit, p.tag, p.data.take p.size.toNat⟩]
              ctl := tset 0 x.ctl 52 (tget 0 x.ctl 52 ||| 2), pset := x.pset ||| 2 }) p .okay [])))) ∧
        (p.srcDie ≠ 8 ∨ partRefused p (eisHolder u e) = true → row 0x11 2 .evt (respondPart u p)) ∧
        (p.srcDie = 8 → partRefused p (eisHolder u e) = false → eisLive u e = true → p.poisoned = false →
          row 0x11 2 .evt (engUpd u n (fun x => { x with ctl := tset 0 x.ctl 52 (tget 0 x.ctl 52 ||| 1), pset := x.pset ||| 1 }))) ∧
        (p.srcDie = 8 → partRefused p (eisHolder u e) = false → eisLive u e = false ∨ p.poisoned = true → row 0x11 2 .evt u)) ∧
      (shapeOk p = true → (∀ n, nodeKind (dstOf p) ≠ .island n) → (∀ e, nodeKind (dstOf p) ≠ .engines e) → (∀ c, nodeKind (dstOf p) ≠ .dram c) →
        arrives (respond u p .decodeErr [])))

/-- 08 R241 to R245 and 02 R54: the power-down of an island that is no splice member, from DRAIN over ISOLATE to OFF or OFF_LOCKED, a failed
wake, and the answer of user logic. Model's choices that a clause rests on: notes/assumptions/9.md, notes/assumptions/48.md. Forms shown
to complete, each by a clause that concludes exec = next with the form's own effect, under conditions on state and operands alone:
islandResponse, drainEnd, drainTimeout, islandOff. -/
def Obligations.IslandPowerDownSequence : Prop :=
  ∀ (s : State) (d : Fin 8) (i : Fin 48), let n := islId d i
    spliceMembers s n = [n] →
    let isolated := fun (t : State) => islState t n = 2 ∧ (islGet t n).hold = true ∧ (nocGet t n).rqi = [] ∧
      (nicGet t (islNode n)).rsv = [] ∧ t.frames = s.frames
    (islState s n ≠ 1 ∨ drained s n = false → exec (.drainEnd d i) s = .next s) ∧
    (islState s n = 1 → drained s n = true → ∃ t, exec (.drainEnd d i) s = .next t ∧ isolated t ∧ t.net = s.net) ∧
    (islState s n ≠ 1 → exec (.drainTimeout d i) s = .next s) ∧
    (islState s n = 1 → ∃ t, exec (.drainTimeout d i) s = .next t ∧ isolated t ∧
      t.net = s.net ++ ((nocGet s n).rqi.filter (fun q => q.op != 0x10 && answered q.op)).map (fun q => responseTo q .domainOff [])) ∧
    (islState s n = 2 → (nocGet s n).kind = 1 → (nocGet s n).hold = [] → ∃ t, exec (.islandOff d i) s = .next t ∧
      islState t n = (if (islGet s n).wakeFailed then 6 else 3) ∧ (nocGet t n).kind = 0 ∧ t.frames = s.frames ∧ t.net = s.net) ∧
    (islState s n = 2 → (nocGet s n).kind = 1 → (nocGet s n).hold ≠ [] → (islGet s n).wakeFailed = false →
      ∃ t, exec (.islandOff d i) s = .next t ∧ islState t n = 5 ∧ (islGet t n).pendRel = true ∧ (nocGet t n).hold = (nocGet s n).hold) ∧
    (islState s n = 2 → (nocGet s n).kind = 2 → ∃ t, exec (.islandOff d i) s = .next t ∧ islState t n = 4 ∧ (nocGet t n).kind = 0) ∧
    (islState s n ≠ 5 → exec (.wakeFail d i) s = .next s) ∧
    (islState s n = 5 → ∃ t, exec (.wakeFail d i) s = .next t ∧ islState t n = 6 ∧ (nocGet t n).hold = [] ∧ (islGet t n).pendRel = false ∧
      fget t (dieBase d.val) (Reg.Die.I_WAKE_FAIL_CNT i.val) = min (fget s (dieBase d.val) (Reg.Die.I_WAKE_FAIL_CNT i.val) + 1) 0xFF ∧
      t.net = s.net ++ ((nocGet s n).hold.filter (fun q => answered q.op)).map (fun q => responseTo q .wakeFail [])) ∧
    (∀ (r : BitVec 3) (data : List Byte), 1 < islState s n ∨ (islGet s n).hold = true ∨ (∀ q ∈ (nocGet s n).rqi, q.op = 0x10) →
      exec (.islandResponse d i r data) s = .next s) ∧
    (∀ msgs q more (r : BitVec 3) (data : List Byte), islState s n < 2 → (islGet s n).hold = false → (nocGet s n).rqi = msgs ++ q :: more →
      (∀ m ∈ msgs, m.op = 0x10) → q.op ≠ 0x10 →
      let t := nocUpd s n (fun x => { x with rqi := more, taken := x.taken - 1 })
      let bad := (respOf r.toNat ≠ .okay ∧ respOf r.toNat ≠ .poisoned) ∨ (q.op = 0x01 ∧ respOf r.toNat = .okay ∧ data.length ≠ q.size.toNat)
      exec (.islandResponse d i r data) s =
        .next (respond t q (if bad then .poisoned else respOf r.toNat) (if q.op = 0x01 then data else [])))

/-- 08 R224 and R225: a packet laid out as a header flit and its payload flits reads back as itself: no field of a header is dropped. The
packet is one that R225 allows: the length and size of its data, no reserved bit, byte enables only beside payload flits. -/
def Obligations.PacketsReadBackFromTheirFlits : Prop :=
  ∀ p : Packet, p.rsvd = false → p.size.toNat ≤ 512 → (p.len = 0 → p.firstBe = 0 ∧ p.lastBe = 0) →
    (if p.vn = 0 ∧ (p.op = 0x01 ∨ p.op = 0x03) then p.data = [] ∧ p.len = 0
      else p.data.length = p.size.toNat ∧ p.len.toNat = lenOf p.size.toNat) →
    packetOf p.poisoned (headerFlit p) ((flitsOf p).drop 1) = p ∧ (flitsOf p).length = 1 + p.len.toNat

/-- 03 R75, R79 to R82: the lock of a generator, the end of a tree switch, the write held meanwhile, and forced gating. 03 R97 to R102: what
the slack of one period does to the step count, the slack registers and the counters of a clock domain. In a splice the period's slack is
complete when every member has reported, and its change of the step count acts one period later. Model's choices that a clause rests on:
notes/assumptions/15.md, notes/assumptions/44.md. Forms shown to complete, each by a clause that concludes exec = next with the form's own
effect, under conditions on state and operands alone: generatorLock, switchComplete, switchForce, stretchRequest, stretchRelease. -/
def Obligations.IslandClocksAndStretching : Prop :=
  (
    ∀ (s : State) (d : Fin 8) (i : Fin 48) (x : Fin 4), let n := islId d i
      let b := islBase n
      let held := tget none (islGet s n).swHeld x.val
      let stopped := srcStopped s n (fget s b (Reg.Isl.SRC x.val))
      let frame := fun (t : State) => { t with csr := s.csr, fresh := s.fresh, isl := s.isl } = s
      ((islGet s n).image = true ∨ (islGet s n).pendRel = true → fenced s d.val = false →
        exec (.generatorLock d i) s = .next (fset s b Reg.Isl.LOCKED 1)) ∧
      (((islGet s n).image = false ∧ (islGet s n).pendRel = false) ∨ fenced s d.val = true → exec (.generatorLock d i) s = .next s) ∧
      (treeBusy s n x.val = false ∨ stopped = true → exec (.switchComplete d i x) s = .next s) ∧
      (treeBusy s n x.val = true → stopped = false → held = none →
        ∃ t, exec (.switchComplete d i x) s = .next t ∧ treeBusy t n x.val = false ∧ frame t ∧
          treeGet t n x.val = { div := fget s b (Reg.Isl.DIV x.val) } ∧ tget 0 (islGet t n).swOld x.val = 0 ∧
          ∀ a f, fkey a f ≠ fkey b Reg.Isl.SW_BUSY → fget t a f = fget s a f) ∧
      (∀ v, treeBusy s n x.val = true → stopped = false → held = some v →
        ∃ t, exec (.switchComplete d i x) s = .next t ∧ treeBusy t n x.val = true ∧ frame t ∧
          fget t b (Reg.Isl.SRC x.val) = wfield (Reg.Isl.SRC x.val) v ∧ fget t b (Reg.Isl.DIV x.val) = wfield (Reg.Isl.DIV x.val) v ∧
          tget 0 (islGet t n).swOld x.val = fget s b (Reg.Isl.SRC x.val) ∧ tget false (islGet t n).swStep2 x.val = false ∧
          (fget t b Reg.Isl.SW_HELD).testBit x.val = false ∧ tget none (islGet t n).swHeld x.val = none) ∧
      (treeBusy s n x.val = false ∨ tget false (islGet s n).swStep2 x.val = true → exec (.switchForce d i x) s = .next s) ∧
      (treeBusy s n x.val = true → tget false (islGet s n).swStep2 x.val = false →
        ∃ t, exec (.switchForce d i x) s = .next t ∧ (fget t b Reg.Isl.SW_FORCED).testBit x.val = true ∧
          tget false (islGet t n).swStep2 x.val = true ∧ treeBusy t n x.val = true ∧ (treeGet t n x.val).out = false ∧ frame t)) ∧
  (
    ∀ (s : State) (c : ClkDom) (slack : BitVec 6),
      let b := marginBase s c
      let steps := fget s b Reg.Isl.STEPS
      let add := fun (v : Nat) => (thrOf s b - v + 3) / 4
      let after := fun (t : State) (v n : Nat) => fget t b Reg.Isl.STEPS = n ∧ fget t b Reg.Isl.SLACK_NOW = v ∧
        fget t b Reg.Isl.SLACK_MIN = min v (fget s b Reg.Isl.SLACK_MIN) ∧
        (steps = 0 → fget t b Reg.Isl.STRETCH_CNT = fget s b Reg.Isl.STRETCH_CNT) ∧
        (steps ≠ 0 → fget t b Reg.Isl.STRETCH_CNT = min (fget s b Reg.Isl.STRETCH_CNT + 1) (2 ^ Reg.Isl.STRETCH_CNT.wd - 1))
      let exhausted := fun (u : State) => fbit u b Reg.Isl.EXHAUSTED = true ∧
        fget u b Reg.Isl.EXHAUST_CNT = min (fget s b Reg.Isl.EXHAUST_CNT + 1) (2 ^ Reg.Isl.EXHAUST_CNT.wd - 1)
      (thrOf s b ≤ slack.toNat → exec (.stretchRequest c slack) s = .next s) ∧
      (slack.toNat < thrOf s b → exec (.stretchRelease c slack) s = .next s) ∧
      (domSpliced s c = false → pendStepsOf s c = 0 → pendDropOf s c = false →
        (slack.toNat < thrOf s b → fbit s b Reg.Isl.STRETCH_EN = true → steps < 4 →
          ∃ t, exec (.stretchRequest c slack) s = .next t ∧ after t slack.toNat (min 4 (steps + add slack.toNat)) ∧ relRunOf t c = 0 ∧
            fget t b Reg.Isl.EXHAUST_CNT = fget s b Reg.Isl.EXHAUST_CNT) ∧
        (slack.toNat < thrOf s b → fbit s b Reg.Isl.STRETCH_EN = false → steps ≠ 4 → steps < 8 →
          ∃ t, exec (.stretchRequest c slack) s = .next t ∧ after t slack.toNat steps ∧ relRunOf t c = 0 ∧
            fget t b Reg.Isl.EXHAUST_CNT = fget s b Reg.Isl.EXHAUST_CNT) ∧
        (slack.toNat < thrOf s b → steps = 4 → ∃ u t, exec (.stretchRequest c slack) s = .next t ∧ after u slack.toNat 4 ∧ exhausted u ∧
          (fbit s b Reg.Isl.STRETCH_EN = false → t = exhaustionResponse u (domDie c)) ∧
          (fbit s b Reg.Isl.STRETCH_EN = true → t = fset (exhaustionResponse u (domDie c)) b Reg.Isl.STEPS 4)) ∧
        (thrOf s b ≤ slack.toNat → steps < 8 →
          (slack.toNat < relOf s b → ∃ t, exec (.stretchRelease c slack) s = .next t ∧ after t slack.toNat steps ∧ relRunOf t c = 0) ∧
          (relOf s b ≤ slack.toNat → relRunOf s c + 1 < 16 →
            ∃ t, exec (.stretchRelease c slack) s = .next t ∧ after t slack.toNat steps ∧ relRunOf t c = relRunOf s c + 1) ∧
          (relOf s b ≤ slack.toNat → 15 ≤ relRunOf s c →
            ∃ t, exec (.stretchRelease c slack) s = .next t ∧ after t slack.toNat (steps - 1) ∧ relRunOf t c = 0))) ∧
      (∀ d i, c = .island d i → spliced s (islId d i) = true →
        let now := if slack.toNat < thrOf s b then exec (.stretchRequest c slack) s else exec (.stretchRelease c slack) s
        ((reportSlack s c slack.toNat).1 = none → ∃ t, now = .next t ∧ { t with isl := s.isl } = s) ∧
        (∀ v, (reportSlack s c slack.toNat).1 = some v → steps < 4 →
          let n := min 4 (steps + pendStepsOf s c) - (pendDropOf s c).toNat
          (v < thrOf s b → fbit s b Reg.Isl.STRETCH_EN = true →
            ∃ t, now = .next t ∧ after t v n ∧ pendStepsOf t c = add v ∧ pendDropOf t c = false ∧ relRunOf t c = 0) ∧
          (thrOf s b ≤ v → relOf s b ≤ v → 15 ≤ relRunOf s c →
            ∃ t, now = .next t ∧ after t v n ∧ pendStepsOf t c = 0 ∧ pendDropOf t c = true ∧ relRunOf t c = 0))))

/-- 03 R84, R85, R87, R89, R90, R94: a hitch holds up to four words, and words leave in the order they entered. In a splice it passes the word
through. Model's choices that a clause rests on: notes/assumptions/9.md. Forms shown to complete, each by a clause that concludes exec =
next with the form's own effect, under conditions on state and operands alone: hitchWrite, hitchArrive, hitchTake, hitchSlotFree. -/
def Obligations.HitchesKeepTheOrderOfWords : Prop :=
  ∀ (s : State) (d : Fin 8) (i : Fin 48) (e : Edge) (k : Fin 24), let n := islId d i
    let key := hitchKey n (edgeNat e) k.val
    let h := hitchGet s key
    let words := fun (t : State) => (hitchGet t key).head ++ (hitchGet t key).flight.map (fun w => w.1)
    let frame := fun (t : State) => { t with hitch := s.hitch, rsp := s.rsp } = s ∧ ∀ j, j ≠ key → hitchGet t j = hitchGet s j
    (hitchDst n (edgeNat e) = none → (∀ w, exec (.hitchWrite d i e k w) s = .next s) ∧ exec (.hitchArrive d i e k) s = .next s ∧
      exec (.hitchTake d i e k) s = .next s) ∧
    (∃ t, exec (.hitchSlotFree d i e k) s = .next t ∧ words t = words s ∧ hitchUsed (hitchGet t key) = hitchUsed h - min 1 h.back ∧
      t.rsp = s.rsp ∧ frame t) ∧
    (∀ m, hitchDst n (edgeNat e) = some m →
      let enters := hitchUsed h < 4 ∧ hitchReady s m (opposite (edgeNat e)) = true
      (∀ w, hitchLive s n m = false → exec (.hitchWrite d i e k w) s = .next s) ∧
      (∀ w, hitchLive s n m = true → sameSplice s n m = true → ∃ t, exec (.hitchWrite d i e k w) s = .next t ∧ words t = [w] ∧
        hitchUsed (hitchGet t key) = 1 ∧ t.rsp = s.rsp ∧ frame t) ∧
      (∀ w, hitchLive s n m = true → sameSplice s n m = false → enters → ∃ t, exec (.hitchWrite d i e k w) s = .next t ∧
        words t = words s ++ [w] ∧ (hitchGet t key).head = h.head ∧ hitchUsed (hitchGet t key) = hitchUsed h + 1 ∧ t.rsp = s.rsp ∧ frame t) ∧
      (∀ w, sameSplice s n m = false → ¬ enters → exec (.hitchWrite d i e k w) s = .next s) ∧
      (hitchOpen s n m = true → h.flight ≠ [] → ∃ t, exec (.hitchArrive d i e k) s = .next t ∧ words t = words s ∧
        (hitchGet t key).head.length = h.head.length + 1 ∧ hitchUsed (hitchGet t key) = hitchUsed h ∧ t.rsp = s.rsp ∧ frame t) ∧
      (hitchOpen s n m = false ∨ h.flight = [] → exec (.hitchArrive d i e k) s = .next s) ∧
      (hitchOpen s n m = true → sameSplice s n m = false → h.head ≠ [] → ∃ t w, exec (.hitchTake d i e k) s = .next t ∧ words s = w :: words t ∧
        t.rsp = ⟨.okay, 0, natLe w.toNat 5⟩ ∧ hitchUsed (hitchGet t key) = hitchUsed h ∧ frame t) ∧
      (hitchOpen s n m = false ∨ sameSplice s n m = true ∨ h.head = [] → exec (.hitchTake d i e k) s = .next s))

/-- 04 R107 to R117, R119, R121: accesses of a block memory's ports: what is stored, what the ports present, and the rule where the two ports
meet, in true and in simple dual-port mode. 04 R116, R123, R125 to R127: the scrubber of a block memory, its write-back, a skipped block,
and raw access. Model's choices that a clause rests on: notes/assumptions/14.md, notes/assumptions/47.md. Forms shown to complete, each by
a clause that concludes exec = next with the form's own effect, under conditions on state and operands alone: bramPortAccess,
bramScrubStep, bramScrubWriteback, bramScrubSkip, bramRawAccess, bramRawTimeout. -/
def Obligations.BlockMemoriesAreAccessedAndScrubbed : Prop :=
  (
    ∀ (s : State) (d : Fin 8) (i : Fin 48) (n : Fin 50) (p q : BramIn), let isl := islId d i
      let k := bramKey isl n.val
      let b := islBase isl
      let c := cfgBram s isl n.val
      let row := fun (t : State) (j r : Nat) => bramRowGet (bramGet t j) r
      let out := fun (t : State) => (bramGet t k).outA
      let outB := fun (t : State) => (bramGet t k).outB
      let alone := exec (.bramPortAccess d i n (some p) none) s
      let both := exec (.bramPortAccess d i n (some p) (some q)) s
      let clkA := (selected 4 c.clkA).isSome
      let clkB := (selected 4 c.clkB).isSome
      let merge := fun (w : Nat) (old : BitVec 36) (x : PortAcc) => if x.mask = 0 then old else bramMerge c.par w old x.mask x.data
      (islRuns s isl = false ∨ c.cascade = 2 → alone = .next s ∧ both = .next s) ∧
      (islRuns s isl = true → c.cascade ≠ 2 → c.sdp = false →
        let x := portAcc s isl n.val c c.widthA p
        let y := portAcc s isl n.val c c.widthB q
        let part := bramPart c.widthA p.addr.toNat
        (p.en = false ∨ clkA = false → alone = .next s) ∧
        (p.en = true → clkA = true → ∃ t, alone = .next t ∧ row t x.key x.row = merge c.widthA x.old x ∧
          (∀ j r, j ≠ x.key ∨ r ≠ x.row → row t j r = row s j r) ∧ { t with bram := s.bram, csr := s.csr, fresh := s.fresh } = s ∧
          (c.par = false → t.csr = s.csr) ∧ outB t = outB s ∧
          (p.rst = true → out t = {}) ∧ (p.rst = false → c.doregA = true → out t = (bramGet s k).preA) ∧
          (p.rst = false → c.doregA = false → (out t).collide = false ∧
            (x.mask = 0 ∨ c.rdwA = 0 → (out t).dout = part x.old) ∧
            (x.mask ≠ 0 → c.rdwA = 1 → (out t).dout = part (merge c.widthA x.old x)) ∧
            (x.mask ≠ 0 → c.rdwA = 2 → (out t).dout = (out s).dout))) ∧
        (p.en = true → clkA = true → q.en = true → clkB = true → x.key = y.key → x.row = y.row → ∃ t, both = .next t ∧
          row t x.key x.row = merge c.widthA (merge c.widthB y.old y) x ∧ (∀ j r, j ≠ x.key ∨ r ≠ x.row → row t j r = row s j r) ∧
          (p.rst = false → q.rst = false → c.doregA = false → c.doregB = false → (outB t).collide = decide (x.mask ≠ 0) ∧
            (out t).collide = decide (y.mask ≠ 0 ∧ x.mask = 0) ∧
            (y.mask = 0 → (outB t).dout = bramPart c.widthB q.addr.toNat y.old)))) ∧
      (islRuns s isl = true → c.cascade = 0 → c.sdp = true →
        let r := 2 * (p.addr.toNat % 512)
        let we := p.we.toNat + 16 * q.we.toNat
        let data := p.din.toNat % 2 ^ 32 + 2 ^ 32 * (q.din.toNat % 2 ^ 32)
        (p.en = true → clkA = true → q.en = false →
          (c.ecc = true → we = 255 → ∃ t, both = .next t ∧ row t k r = (eccRows data).1 ∧ row t k (r + 1) = (eccRows data).2 ∧
            (∀ r', r' ≠ r → r' ≠ r + 1 → row t k r' = row s k r') ∧ (out t).bwe = false ∧ { t with bram := s.bram } = s) ∧
          (c.ecc = true → we ≠ 255 → we ≠ 0 → ∃ t, both = .next t ∧ (∀ r', row t k r' = row s k r') ∧ (out t).bwe = true ∧
            fget t b Reg.Isl.BWE_CNT = min (fget s b Reg.Isl.BWE_CNT + 1) (2 ^ Reg.Isl.BWE_CNT.wd - 1)) ∧
          (c.ecc = false → ∃ t, both = .next t ∧ { t with bram := s.bram } = s ∧
            (p.we ≠ 0 → row t k r = bramMerge c.par 6 (row s k r) (bramWMask 5 0 p.we) p.din) ∧ (p.we = 0 → row t k r = row s k r) ∧
            (q.we ≠ 0 → row t k (r + 1) = bramMerge c.par 6 (row s k (r + 1)) (bramWMask 5 0 q.we) q.din) ∧
            (q.we = 0 → row t k (r + 1) = row s k (r + 1)) ∧ ∀ r', r' ≠ r → r' ≠ r + 1 → row t k r' = row s k r')) ∧
        (q.en = true → clkB = true → q.rst = false → c.doregB = false →
          let r := 2 * (q.addr.toNat % 512)
          let x := eccDecode (row s k r) (row s k (r + 1))
          ∃ t, exec (.bramPortAccess d i n none (some q)) s = .next t ∧ (∀ j r', row t j r' = row s j r') ∧
            (c.ecc = false → (out t).dout = row s k r ∧ (outB t).dout = row s k (r + 1)) ∧
            (c.ecc = true → (out t).dout.toNat % 2 ^ 32 = x.data % 2 ^ 32 ∧ (outB t).dout.toNat % 2 ^ 32 = x.data / 2 ^ 32 % 2 ^ 32 ∧
              (outB t).sbe = x.sbe ∧ (outB t).dbe = x.dbe ∧
              fget t b Reg.Isl.SBE_CNT = (if x.sbe then min (fget s b Reg.Isl.SBE_CNT + 1) (2 ^ Reg.Isl.SBE_CNT.wd - 1) else fget s b Reg.Isl.SBE_CNT))))) ∧
  (
    ∀ (s : State) (d : Fin 8) (i : Fin 48) (n : Fin 50), let isl := islId d i
      let b := islBase isl
      let k := bramKey isl n.val
      let c := cfgBram s isl n.val
      let m := bramGet s k
      let x := eccDecode (bramRowGet m (2 * m.scrub)) (bramRowGet m (2 * m.scrub + 1))
      let counted := fun (t : State) (f : Fld) (row kind : Nat) => fget t b f = min (fget s b f + 1) (2 ^ f.wd - 1) ∧
        fget t b Reg.Isl.ERR_BLOCK = n.val ∧ fget t b Reg.Isl.ERR_ROW = row ∧ fget t b Reg.Isl.ERR_KIND = kind ∧
        fbit t b Reg.Isl.BY_SCRUB = true ∧ fbit t b Reg.Isl.ERR_VALID = true
      let steps := islRuns s isl = true ∧ scrubbed c = true ∧ fbit s b Reg.Isl.SCRUB_EN = true ∧ clockB s isl n.val = true ∧ m.skipped = false
      (¬ steps → exec (.bramScrubStep d i n) s = .next s) ∧
      (steps → c.ecc = true → m.scrub + 1 < 512 →
        (x.sbe = false → x.dbe = false → exec (.bramScrubStep d i n) s = .next (bramSet s k { m with scrub := m.scrub + 1 })) ∧
        (x.sbe = true → ∃ t, exec (.bramScrubStep d i n) s = .next t ∧ (bramGet t k).rows = m.rows ∧ (bramGet t k).scrub = m.scrub + 1 ∧
          (bramGet t k).fix = some (2 * m.scrub, (eccRows x.data).1, (eccRows x.data).2) ∧ counted t Reg.Isl.SBE_CNT (2 * m.scrub) 0) ∧
        (x.sbe = false → x.dbe = true → ∃ t, exec (.bramScrubStep d i n) s = .next t ∧ (bramGet t k).rows = m.rows ∧
          (bramGet t k).scrub = m.scrub + 1 ∧ (bramGet t k).fix = m.fix ∧ counted t Reg.Isl.DBE_CNT (2 * m.scrub) 1)) ∧
      (steps → c.ecc = false → m.scrub + 1 < 1024 →
        (parityFails (bramRowGet m m.scrub) [0, 1, 2, 3] = false →
          exec (.bramScrubStep d i n) s = .next (bramSet s k { m with scrub := m.scrub + 1 })) ∧
        (parityFails (bramRowGet m m.scrub) [0, 1, 2, 3] = true → ∃ t, exec (.bramScrubStep d i n) s = .next t ∧
          bramGet t k = { m with scrub := m.scrub + 1 } ∧ counted t Reg.Isl.DBE_CNT m.scrub 2)) ∧
      (m.fix = none → exec (.bramScrubWriteback d i n) s = .next s) ∧
      (∀ r lo hi, m.fix = some (r, lo, hi) → ∃ t, exec (.bramScrubWriteback d i n) s = .next t ∧ bramRowGet (bramGet t k) r = lo ∧
        bramRowGet (bramGet t k) (r + 1) = hi ∧ (bramGet t k).fix = none ∧ { t with bram := s.bram } = s ∧
        ∀ j, j ≠ r → j ≠ r + 1 → bramRowGet (bramGet t k) j = bramRowGet m j) ∧
      (islRuns s isl = false ∨ scrubbed c = false → exec (.bramScrubSkip d i n) s = .next s) ∧
      (∀ j, j < 50 → j ≠ n.val → islRuns s isl = true → scrubbed c = true → scrubbed (cfgBram s isl j) = true →
        (bramGet s (bramKey isl j)).lapDone = false → ∃ t, exec (.bramScrubSkip d i n) s = .next t ∧ (bramGet t k).scrub = 0 ∧
        (bramGet t k).skipped = true ∧ (bramGet t k).lapDone = true ∧ (bramGet t k).rows = m.rows ∧
        fget t b Reg.Isl.SCRUB_SKIP = min (fget s b Reg.Isl.SCRUB_SKIP + 1) (2 ^ Reg.Isl.SCRUB_SKIP.wd - 1)) ∧
      (fbit s b Reg.Isl.RAW_BUSY = false → exec (.bramRawAccess d i) s = .next s ∧ exec (.bramRawTimeout d i) s = .next s) ∧
      (fbit s b Reg.Isl.RAW_BUSY = true → let r := fget s b Reg.Isl.ROW
        (49 < fget s b Reg.Isl.BLOCK →
          exec (.bramRawAccess d i) s = .next (fset (fset s b Reg.Isl.RAW_BUSY 0) b Reg.Isl.RAW_TIMEOUT 1)) ∧
        (fget s b Reg.Isl.BLOCK = n.val → clockB s isl n.val = true → (islGet s isl).rel ≤ 80 →
          (fbit s b Reg.Isl.WRITE = true → ∃ t, exec (.bramRawAccess d i) s = .next t ∧
            bramRowGet (bramGet t k) r = BitVec.ofNat 36 (fget s b Reg.Isl.RAW_D + 2 ^ 32 * fget s b Reg.Isl.RAW_P) ∧
            (∀ j, j ≠ r → bramRowGet (bramGet t k) j = bramRowGet m j) ∧
            fbit t b Reg.Isl.RAW_BUSY = false ∧ fbit t b Reg.Isl.RAW_DONE = true) ∧
          (fbit s b Reg.Isl.WRITE = false → ∃ t, exec (.bramRawAccess d i) s = .next t ∧ t.bram = s.bram ∧
            fget t b Reg.Isl.RAW_D + 2 ^ 32 * fget t b Reg.Isl.RAW_P = (bramRowGet m r).toNat ∧
            fbit t b Reg.Isl.RAW_BUSY = false ∧ fbit t b Reg.Isl.RAW_DONE = true)) ∧
        exec (.bramRawTimeout d i) s = .next (fset (fset s b Reg.Isl.RAW_BUSY 0) b Reg.Isl.RAW_TIMEOUT 1)))

/-- 02 R64, R66, R69, 14 R401, R432 to R434, R436: an upset flips stored bits; the configuration scrubber corrects a single error and records
an uncorrectable frame once; its repair, its stall, and raw access to a frame. Model's choices that a clause rests on:
notes/assumptions/8.md, notes/assumptions/32.md, notes/assumptions/51.md. Forms shown to complete, each by a clause that concludes exec =
next with the form's own effect, under conditions on state and operands alone: configUpset, scrubFrame, frameRepair, scrubStall,
rawfAccess. -/
def Obligations.ConfigurationFramesAreScrubbedAndRepaired : Prop :=
  ∀ (s : State) (d : Fin 8) (i : Fin 48) (f : Fin 2000), let n := islId d i
    let k := frameKey n f.val
    let x := frameGet s k
    let b := dieBase d.val
    let others := fun (t : State) => ∀ j, j ≠ k → frameGet t j = frameGet s j
    let pos := i.val * 2000 + f.val
    let counted := fun (t : State) (g : Fld) => fget t b g = min (fget s b g + 1) (2 ^ g.wd - 1)
    (∀ j : Fin 4110, ∃ t, exec (.configUpset d i f [j]) s = .next t ∧ { t with frames := s.frames, ff := s.ff } = s ∧ others t ∧
      frameGet t k = (if j.val < 4096 then { x with data := x.data ^^^ BitVec.twoPow 4096 j.val }
        else { x with chk := x.chk ^^^ BitVec.twoPow 14 (j.val - 4096) })) ∧
    (fbit s b Reg.Die.CS_EN = false ∨ present s d.val = false ∨ fenced s d.val = true ∨ tget 0 s.frameAt d.val = s.up + 1 →
      exec (.scrubFrame d) s = .next s) ∧
    (tget 0 s.csPos d.val = pos → pos + 1 < 96000 → fbit s b Reg.Die.CS_EN = true → present s d.val = true → fenced s d.val = false →
      tget 0 s.frameAt d.val ≠ s.up + 1 →
      (underLoad s n = true → exec (.scrubFrame d) s = .next (csAdvance s d.val ((i.val + 1) * 2000))) ∧
      (underLoad s n = false → (frameDecode x).dbe = false → (frameDecode x).sbe = false →
        exec (.scrubFrame d) s = .next (csAdvance s d.val (pos + 1))) ∧
      (underLoad s n = false → (frameDecode x).dbe = false → (frameDecode x).sbe = true → ∃ t, exec (.scrubFrame d) s = .next t ∧ others t ∧
        frameGet t k = { x with data := BitVec.ofNat 4096 (frameDecode x).data, chk := frameCheck (BitVec.ofNat 4096 (frameDecode x).data) } ∧
        counted t Reg.Die.CS_CE_CNT ∧ tget 0 t.csPos d.val = pos + 1) ∧
      (underLoad s n = false → (frameDecode x).dbe = true → x.ueSeen = false → ∃ t, exec (.scrubFrame d) s = .next t ∧ others t ∧
        frameGet t k = { x with ueSeen := true } ∧ tget 0 t.csPos d.val = pos + 1 ∧ counted t Reg.Die.CS_UE_CNT) ∧
      (underLoad s n = false → (frameDecode x).dbe = true → x.ueSeen = true → exec (.scrubFrame d) s = .next (csAdvance s d.val (pos + 1)))) ∧
    (∀ src, x.ueSeen = false → exec (.frameRepair d i f src) s = .next s) ∧
    (∀ data, x.ueSeen = true → frameSource s n x.origin = true → frameChecks s n f.val data false = none →
      ∃ t, exec (.frameRepair d i f (some data)) s = .next t ∧
        frameGet t k = { x with data := data, chk := frameCheck data, ueSeen := false } ∧ others t ∧ tget 0 t.frameAt d.val = s.up + 1) ∧
    (∀ src, x.ueSeen = true → spliceMembers s n = [n] →
      src = none ∨ frameSource s n x.origin = false ∨ (∃ data, src = some data ∧ (frameChecks s n f.val data false).isSome = true) →
      ∃ t, exec (.frameRepair d i f src) s = .next t ∧ t.frames = s.frames ∧ (islGet t n).hold = true ∧ (islGet t n).region = 4) ∧
    (fbit s b Reg.Die.CS_EN = false ∨ s.boot.dmc = false ∨ fenced s d.val = true → exec (.scrubStall d) s = .next s) ∧
    (fbit s b Reg.Die.CS_EN = true → s.load = none → s.boot.dmc = true → fenced s d.val = false →
      ∃ t, exec (.scrubStall d) s = .next t ∧ tget 0 t.csPos d.val = 0 ∧ t.frames = s.frames ∧ counted t Reg.Die.CS_STALL_CNT) ∧
    (fbit s cfgBase Reg.Cfg.RAWF_BUSY = false → exec .rawfAccess s = .next s) ∧
    (fbit s cfgBase Reg.Cfg.RAWF_BUSY = true → fget s cfgBase Reg.Cfg.RAWF_ADDR = k → let wr := fbit s cfgBase Reg.Cfg.RAWF_WRITE
      (rawfRefused s k wr = true → exec .rawfAccess s = .next (fset (fset s cfgBase Reg.Cfg.RAWF_BUSY 0) cfgBase Reg.Cfg.RAWF_REFUSED 1)) ∧
      (wr = false → rawfRefused s k wr = false → ∃ t, exec .rawfAccess s = .next t ∧ fbit t cfgBase Reg.Cfg.RAWF_DONE = true ∧
        fbit t cfgBase Reg.Cfg.RAWF_BUSY = false ∧ t.frames = s.frames ∧ fget t cfgBase Reg.Cfg.RAWF_HIDDEN = x.chk.toNat ∧
        ∀ w, w < 128 → fget t cfgBase (Reg.Cfg.RAWF_BUF w) = x.data.toNat / 2 ^ (32 * w) % 2 ^ 32) ∧
      (∀ data, wr = true → rawfRefused s k wr = false →
        data = BitVec.ofNat 4096 ((List.range 128).foldl (fun v w => v + 2 ^ (32 * w) * fget s cfgBase (Reg.Cfg.RAWF_BUF w)) 0) →
        (frameChecks s n f.val data true = none → f.val ≠ 1968 → ∃ t, exec .rawfAccess s = .next t ∧ fbit t cfgBase Reg.Cfg.RAWF_DONE = true ∧
          frameGet t k = { x with data := data, chk := BitVec.ofNat 14 (fget s cfgBase Reg.Cfg.RAWF_HIDDEN), ueSeen := false } ∧ others t) ∧
        (∀ e, frameChecks s n f.val data true = some e → ∃ t, exec .rawfAccess s = .next t ∧ fbit t cfgBase Reg.Cfg.RAWF_REJECT = true ∧
          t.frames = s.frames)))

/-- 09 R252 to R255, R263 to R267, R269, R271, R272: a hawser. A good block in sequence delivers its flits, a failed one is kept for
comparison and stops delivery until it is sent again; acknowledgement drops blocks, a NAK re-sends. A wire whose errors reach its
threshold fails, and its repair passes three stages; a failure meanwhile waits. A fenced die clamps what it has. Model's choices that a
clause rests on: notes/assumptions/9.md, notes/assumptions/38.md, notes/assumptions/45.md. Forms shown to complete, each by a clause that
concludes exec = next with the form's own effect, under conditions on state and operands alone: hawserBlock, hawserAck, hawserNak,
wireFail, wireWinExpire, repairRequest, repairMarker, repairConfirm, dieSelfFence. -/
def Obligations.HawsersDeliverBlocksAndRepairWires : Prop :=
  ∀ (s : State) (d : Fin 8) (n : Fin 16), let h := hn d n
    let x := hwGet s h
    let rb := hb h
    let cnt := fun (t : State) (f : Fld) => fget t rb f
    let kept := fun (t : State) => (hwGet t h).kept
    (∀ b : List Byte, let go := exec (.hawserBlock d n b) s
      let crc := blockCrc b
      let seq := (b.getD 0 0).toNat
      let flits := blockFlits (fbit s rb Reg.Hw.COMP) x.carry b
      let after := fun (t : State) (fl : List (List Byte × Bool)) (rest : List Byte) => t.rsp = ⟨.okay, 0, fl.flatMap (fun f => f.1)⟩ ∧
        (hwGet t h).rxSeq = (x.rxSeq + 1) % 256 ∧ (hwGet t h).naked = false ∧ (hwGet t h).failCopy = none ∧ (hwGet t h).failRun = 0 ∧
        (hwGet t h).carry = rest
      (hwRuns s h = false ∨ b.length ≠ 40 → go = .next s) ∧
      (hwRuns s h = true → b.length = 40 → x.resend = none →
        (128 ≤ x.kept.length ∨ (crc = true ∧ seq ≠ (x.base + x.kept.length) % 256) → go = .next s) ∧
        (x.kept.length < 128 → (crc = true → seq = (x.base + x.kept.length) % 256) →
          let u := hwUpd s h (fun y => { y with kept := y.kept ++ [if crc then some b else none] })
          (x.naked = true → go = .next (if crc then u else finc u rb Reg.Hw.CRC_ERR_CNT)) ∧
          (x.naked = false → crc = true → seq ≠ x.rxSeq → go = .next u) ∧
          (x.naked = false → crc = false ∨ (seq = x.rxSeq ∧ flits = none) → blockKind b ≠ 1 → x.failRun < 15 →
            go = .next (hwUpd (finc u rb Reg.Hw.CRC_ERR_CNT) h (fun y =>
              { y with naked := true, resend := none, failCopy := some b, failRun := y.failRun + 1 }))) ∧
          (x.naked = false → crc = false → 15 ≤ x.failRun → (∃ z, z < 8 ∧ h / 8 * 8 + z ≠ h ∧ hwState s (h / 8 * 8 + z) ≠ 3) →
            ∃ t, go = .next t ∧ hwState t h = 3 ∧ hwGet t h = {}) ∧
          (∀ fl rest, x.naked = false → crc = true → seq = x.rxSeq → flits = some (fl, rest) → x.failCopy = none →
            ∃ t, go = .next t ∧ after t fl rest ∧ kept t = x.kept ++ [some b] ∧
              cnt t Reg.Hw.CRC_ERR_CNT = cnt s Reg.Hw.CRC_ERR_CNT ∧
              (blockKind b = 3 → ∀ c, x.change = some c → c.stage = 1 → (hwGet t h).change = some { c with stage := 2 }) ∧
              (∀ f bad, fl = [(f, bad)] → x.asm = [] → x.asmBad = false → hbits (flitBits f) 47 4 = 0 →
                s.net.all (fun q => { q with poisoned := true } != { flitsPacket bad [f] with poisoned := true }) = true →
                flitsPacket bad [f] ∈ t.net ∧ (flitsPacket bad [f], { link := linkHw h }) ∈ t.way)))) ∧
      (∀ k c fl rest, hwRuns s h = true → b.length = 40 → x.resend = some k → k < x.kept.length → crc = true →
        x.kept.getD k none = none ∨ x.kept.getD k none = some b → seq = (x.base + k) % 256 → seq = x.rxSeq → flits = some (fl, rest) →
        blockKind b ≠ 3 → x.failCopy = some c → blockKind c ≠ 1 →
        let W := diffWires s h 0 40 c b
        (∀ w ∈ W, fget s rb (Reg.Hw.WIN_ERR w) + W.count w < wireThr s h w) →
        ∃ t, go = .next t ∧ after t fl rest ∧ kept t = x.kept.set k (some b) ∧
          (hwGet t h).resend = (if k + 1 < x.kept.length then some (k + 1) else none) ∧
          ∀ w, w < 76 → fget t rb (Reg.Hw.WIN_ERR w) =
            (if w ∈ W then min (fget s rb (Reg.Hw.WIN_ERR w) + W.count w) (2 ^ (Reg.Hw.WIN_ERR w).wd - 1) else fget s rb (Reg.Hw.WIN_ERR w)))) ∧
    (∀ seq : BitVec 8, let m := (seq.toNat + 257 - x.base) % 256
      (hwRuns s h = true → m ≤ x.kept.length → exec (.hawserAck d n seq) s = .next (hwUpd s h (fun y =>
        { y with kept := y.kept.drop m, base := (y.base + m) % 256, resend := y.resend.map (fun k => k - m) }))) ∧
      (hwRuns s h = false ∨ x.kept.length < m → exec (.hawserAck d n seq) s = .next s)) ∧
    (∀ seq : BitVec 8, let m := (seq.toNat + 256 - x.base) % 256
      (hwRuns s h = true → x.naked = true → m < x.kept.length → exec (.hawserNak d n seq) s =
        .next (hwUpd (faddSat s rb Reg.Hw.REPLAY_CNT (x.kept.length - m)) h (fun y => { y with resend := some m }))) ∧
      (hwRuns s h = false ∨ x.naked = false ∨ x.kept.length ≤ m → exec (.hawserNak d n seq) s = .next s)) ∧
    (∀ w : Fin 76, wiresWaiting s h = [] →
      let short := wireThr s h w.val - fget s rb (Reg.Hw.WIN_ERR w.val)
      let u := if (70 ≤ w.val ∧ w.val < 72) ∨ wireBad s h w.val = true then s
        else faddSat (faddSat s rb (Reg.Hw.WIN_ERR w.val) short) rb (Reg.Hw.TOT_ERR w.val) short
      let go := exec (.wireFail d n w) s
      (hwRuns s h = false → go = .next s) ∧
      (∀ c, hwRuns s h = true → x.change = some c →
        (leavesUse s h c w.val = true → go = .next (recordFail u h w.val)) ∧
        (leavesUse s h c w.val = false → go = .next (hwUpd u h (fun y => { y with queue := insertFail (s.up, w.val) y.queue })))) ∧
      (hwRuns s h = true → x.change = none →
        (∀ y rest, w.val < 64 → freeSpares s h = y :: rest → wireInUse s h w.val = true → carried s h w.val = false →
          ∃ t, go = .next t ∧ (hwGet t h).change = some ⟨0, w.val, y, 0⟩ ∧ badData t h w.val = true ∧ fbit t rb Reg.Hw.CHANGING = true ∧
            hwState t h = hwState s h) ∧
        (w.val < 64 → wireInUse s h w.val = false ∨ carried s h w.val = true →
          ∃ t, go = .next t ∧ badData t h w.val = true ∧ t.hw = s.hw ∧ hwState t h = hwState s h) ∧
        (w.val = 70 → cnt s Reg.Hw.BAD_CLK = 0 → fbit s rb Reg.Hw.CLK_SEL = false → ∃ t, go = .next t ∧
          (hwGet t h).change = some ⟨3, 70, 1, 0⟩ ∧ cnt t Reg.Hw.BAD_CLK = 1) ∧
        (w.val = 71 → cnt s Reg.Hw.BAD_CLK = 0 → ∃ t, go = .next t ∧ t.hw = s.hw ∧ cnt t Reg.Hw.BAD_CLK = 2) ∧
        (w.val = 74 → (cnt s Reg.Hw.BAD_SB).testBit 3 = false → ∃ t, go = .next t ∧ t.hw = s.hw ∧ fbit t rb Reg.Hw.SB_CTL = true))) ∧
    (∀ k : Fin 3, let row : Instr := if k = 0 then .repairRequest d n else if k = 1 then .repairMarker d n else .repairConfirm d n
      (x.change = none → exec row s = .next s) ∧ (∀ c, x.change = some c → c.stage ≠ k.val → exec row s = .next s) ∧
      (∀ c, x.change = some c → c.stage = k.val → k.val < 2 →
        exec row s = .next (hwUpd s h (fun y => { y with change := some { c with stage := k.val + 1 } })))) ∧
    (∀ c, x.change = some c → c.stage = 2 → x.queue = [] → ∃ t, exec (.repairConfirm d n) s = .next t ∧ (hwGet t h).change = none ∧
      fbit t rb Reg.Hw.CHANGING = false ∧
      (c.kind = 0 → c.spare < 6 → c.wire < 64 → spareUsed t h c.spare = true ∧ spareRepl t h c.spare = c.wire ∧
        (∀ y, y < 6 → y ≠ c.spare → spareUsed t h y = true → spareRepl t h y ≠ c.wire) ∧
        cnt t Reg.Hw.SWAP_CNT = min (cnt s Reg.Hw.SWAP_CNT + 1) (2 ^ Reg.Hw.SWAP_CNT.wd - 1)) ∧
      (c.kind = 3 → fbit t rb Reg.Hw.CLK_SEL = true) ∧
      (c.kind = 1 ∨ c.kind = 2 → c.spare < 2 → hwState t h = 2 ∧ cnt t Reg.Hw.HALF_SEL = c.spare)) ∧
    (∃ t, exec (.wireWinExpire d n) s = .next t ∧ (∀ w, w < 76 → cnt t (Reg.Hw.WIN_ERR w) = 0 ∧
      cnt t (Reg.Hw.TOT_ERR w) = cnt s (Reg.Hw.TOT_ERR w)) ∧ { t with csr := s.csr, fresh := s.fresh } = s) ∧
    (fenced s d.val = false → exec (.dieSelfFence d) s = .next s) ∧
    (fenced s d.val = true → ∃ t, exec (.dieSelfFence d) s = .next t ∧ (∀ i : Fin 48, (islGet t (islId d i)).hold = true) ∧
      (∀ e : Fin 10, (eisGet t (eisId d e)).hold = true) ∧ t.selfFenced.contains d.val = true ∧ t.frames = s.frames)

/-- 10 R282, R283: the check code. A line stored with its check bits decodes to its data with no correction, and whatever stands in one symbol
pair of one codeword of it (one nibble group) is corrected. -/
def Obligations.LineCodeCorrectsOneNibbleGroup : Prop :=
  (∀ d : BitVec 512, lineDecode (encLine d) = ⟨d, 0, []⟩) ∧
  ∀ (d : BitVec 512) (q : Fin 4) (g : Fin 10) (a b : Byte), a ≠ 0 ∨ b ≠ 0 →
    lineDecode (lineXor (encLine d) (lineXor (symMask q.val (2 * g.val) a) (symMask q.val (2 * g.val + 1) b))) = ⟨d, 1, [g.val]⟩

/-- 10 R284 to R288, R292, R293: what a controller does with a request, with its next DRAM command, and with data that returns. Model's
choices that a clause rests on: notes/assumptions/9.md, notes/assumptions/37.md. Forms shown to complete, each by a clause that concludes
exec = next with the form's own effect, under conditions on state and operands alone: mcRequest, mcCommand, mcReadData. -/
def Obligations.MemoryControllerServesRequests : Prop :=
  ∀ (s : State) (n : Fin 8), let m := mcGet s n.val
    let csrOnly := fun (t : State) => { t with mc := s.mc, csr := s.csr, fresh := s.fresh } = s
    (∀ r : McReq, (mcState s n.val ≠ 2 ∧ mcState s n.val ≠ 3) ∨ mcLines s n.val ≤ r.line.toNat →
      exec (.mcRequest n r) s = .next (answer s .decodeErr 0)) ∧
    (∀ r : McReq, mcState s n.val = 3 → m.standby = true → r.line.toNat < mcLines s n.val →
      exec (.mcRequest n r) s = .next (mcUpd s n.val (fun m => { m with out := m.out ++ [⟨r.id, r.write, 3, 0⟩] }))) ∧
    (∀ r : McReq, mcState s n.val = 2 → r.line.toNat < mcLines s n.val →
      (r.write = false → wqFind s n.val r.line.toNat = none → m.reads.length < 64 → ∃ t, exec (.mcRequest n r) s = .next t ∧
        (mcGet t n.val).reads = m.reads ++ [⟨r.id, r.line.toNat, r.prio.toNat, s.up, false⟩] ∧ (mcGet t n.val).out = m.out ∧ csrOnly t) ∧
      (r.write = false → wqFind s n.val r.line.toNat = none → 64 ≤ m.reads.length → exec (.mcRequest n r) s = .next s) ∧
      (∀ w, r.write = false → wqFind s n.val r.line.toNat = some w → w.mask = fullMask → ∃ t, exec (.mcRequest n r) s = .next t ∧
        (mcGet t n.val).out = m.out ++ [⟨r.id, false, 0, w.data⟩] ∧ (mcGet t n.val).reads = m.reads ∧ csrOnly t) ∧
      (r.write = true → r.mask = fullMask → readWaits m r.line.toNat = false → wqFind s n.val r.line.toNat = none → m.writes.length < 64 →
        ∃ t, exec (.mcRequest n r) s = .next t ∧ (mcGet t n.val).writes = m.writes ++ [⟨r.line.toNat, fullMask, r.data, s.up, []⟩] ∧
          (mcGet t n.val).out = m.out ++ [⟨r.id, true, 0, 0⟩] ∧ csrOnly t)) ∧
    (∀ r rest, mcState s n.val = 2 → m.forced = r :: rest →
      (rankOpen s n.val r = true → exec (.mcCommand n) s = .next (rankClose s n.val r)) ∧
      (rankOpen s n.val r = false → m.phy = [] → ∃ t, exec (.mcCommand n) s = .next t ∧ (mcGet t n.val).forced = rest ∧
        mcF t n.val (pRank r) = (mcF s n.val (pRank r) - 1) % 16 ∧ csrOnly t)) ∧
    (mcState s n.val ≠ 2 → exec (.mcCommand n) s = .next s) ∧
    (∀ r, mcState s n.val = 2 → m.forced = [] → m.reads = [r] → r.waits = false → m.writes = [] → idleRanks s n.val = [] →
      let d := mcAddr s n.val r.line
      let row := tget 0 m.rows (bankKey d)
      (row = d.row + 1 → ∃ t, exec (.mcCommand n) s = .next t ∧ (mcGet t n.val).reads = [] ∧
        (mcGet t n.val).issued = m.issued ++ [⟨r, dramGet s n.val r.line, false⟩] ∧ (mcGet t n.val).rows = m.rows ∧ csrOnly t) ∧
      (row = 0 → ∃ t, exec (.mcCommand n) s = .next t ∧ (mcGet t n.val).reads = [r] ∧ tget 0 (mcGet t n.val).rows (bankKey d) = d.row + 1 ∧
        csrOnly t) ∧
      (row ≠ 0 → row ≠ d.row + 1 → ∃ t, exec (.mcCommand n) s = .next t ∧ (mcGet t n.val).reads = [r] ∧
        tget 0 (mcGet t n.val).rows (bankKey d) = 0 ∧ csrOnly t)) ∧
    (∀ w, mcState s n.val = 2 → m.forced = [] → m.reads = [] → m.writes = [w] → w.mask = fullMask →
      rowHit s n.val w.line = true → idleRanks s n.val = [] →
      ∃ t, exec (.mcCommand n) s = .next t ∧ dramGet t n.val w.line = encLine w.data ∧ (mcGet t n.val).writes = [] ∧
        (mcGet t n.val).out = m.out ++ w.acks.map (fun a => ⟨a, true, 0, 0⟩) ∧ t.csr = s.csr ∧
        ∀ j, j ≠ n.val * 2 ^ 30 + w.line → tget {} t.dram j = tget {} s.dram j) ∧
    (mcState s n.val = 2 → m.forced = [] → m.phy = [] → ∃ t, exec (.mcCommand n) s = .next t ∧
      ∀ r, r ∈ idleRanks s n.val → mcF t n.val (pRank r) = (if rankOpen s n.val r then mcF s n.val (pRank r) else (mcF s n.val (pRank r) - 1) % 16) ∧
        (m.reads = [] → m.writes = [] → rankOpen t n.val r = false)) ∧
    (∀ line d rest, mcState s n.val = 2 → m.forced = [] → m.reads = [] → m.writes = [] → idleRanks s n.val = [] → m.wb = (line, d) :: rest →
      ∃ t, exec (.mcCommand n) s = .next t ∧ dramGet t n.val line = encLine d ∧ (mcGet t n.val).wb = rest ∧ t.csr = s.csr) ∧
    (m.issued = [] → exec (.mcReadData n) s = .next s) ∧
    (∀ x rest, m.issued = x :: rest → ∃ t, exec (.mcReadData n) s = .next t ∧ (mcGet t n.val).issued = rest ∧ t.dram = s.dram ∧
      (mcGet t n.val).out = m.out ++ [⟨x.req.id, false, (lineDecode x.line).status, (lineDecode x.line).data⟩])

/-- 10 R286 to R294: refresh, rows, temperature, calibration, self-refresh, and the patrol of a channel in RUN; in any other state each of
these events passes by. 10 R295, R296, R298, R299: the ends of a training helper run and of a mode register access, and the training time
limit. Model's choices that a clause rests on: notes/assumptions/8.md, notes/assumptions/37.md. Forms shown to complete, each by a clause
that concludes exec = next with the form's own effect, under conditions on state and operands alone: refreshDue, rowClose, mr4Poll, zqCal,
srEntry, patrolStep, trnDone, mrAccessDone, trainingTimeLimit. -/
def Obligations.MemoryControllerKeepsAndTrainsItsDevices : Prop :=
  (
    ∀ (s : State) (n : Fin 8), let m := mcGet s n.val
      (∀ (r : Fin 2) bank v c, mcState s n.val ≠ 2 → exec (.refreshDue n r) s = .next s ∧ exec (.rowClose n bank) s = .next s ∧
        exec (.mr4Poll n r v) s = .next s ∧ exec (.zqCal n) s = .next s ∧ exec (.srEntry n c) s = .next s ∧ exec (.patrolStep n) s = .next s) ∧
      (mcState s n.val = 2 →
      (∀ r : Fin 2, r.val ∈ mcRanks s n.val → let p := min 15 (mcF s n.val (pRank r.val) + 1)
        let u := fset s (mcBase n.val) (pRank r.val) p
        exec (.refreshDue n r) s = .next (if pCap s n.val ≤ p then
          finc (mcUpd u n.val (fun m => { m with forced := m.forced ++ [r.val] })) (mcBase n.val) Reg.Mc.REF_FORCE_CNT else u)) ∧
      (∀ (r : Fin 2) v, r.val ∉ mcRanks s n.val → exec (.refreshDue n r) s = .next s ∧ exec (.mr4Poll n r v) s = .next s) ∧
      (∀ bank, let hit := fun line => bankKey (mcAddr s n.val line) = bank ∧ rowHit s n.val line = true
        ((∀ r ∈ m.reads, ¬ hit r.line) → (∀ w ∈ m.writes, ¬ hit w.line) →
          exec (.rowClose n bank) s = .next (mcUpd s n.val (fun m => { m with rows := tset 0 m.rows bank 0 }))) ∧
        ((∃ r ∈ m.reads, hit r.line) ∨ (∃ w ∈ m.writes, hit w.line) → exec (.rowClose n bank) s = .next s)) ∧
      (∀ (r : Fin 2) v, r.val ∈ mcRanks s n.val →
        exec (.mr4Poll n r v) s = .next (mcUpd s n.val (fun m => { m with mr4 := tset 0 m.mr4 r.val v.toNat }))) ∧
      (∃ t, exec (.zqCal n) s = .next t ∧ (∀ r, r ∈ mcRanks s n.val → (mcGet t n.val).zq.testBit r = true) ∧ { t with mc := s.mc } = s) ∧
      (∀ c, mcF s n.val Reg.Mc.AUTO_SR = 0 ∨ mcQuiet s n.val = false → exec (.srEntry n c) s = .next s) ∧
      (mcF s n.val Reg.Mc.AUTO_SR = 1 → mcQuiet s n.val = true →
        (m.phy = [] → ∃ t, exec (.srEntry n none) s = .next t ∧ mcState t n.val = 3 ∧ (mcGet t n.val).rows = [] ∧ (mcGet t n.val).wb = [] ∧
          (∀ r, r ∈ mcRanks s n.val → mcF t n.val (pRank r) = 0) ∧ (m.wb = [] → t.dram = s.dram) ∧
          (∀ line d, m.wb = [(line, d)] → dramGet t n.val line = encLine d) ∧
          mcF t n.val Reg.Mc.SR_ENTRY_CNT = min (mcF s n.val Reg.Mc.SR_ENTRY_CNT + 1) (2 ^ Reg.Mc.SR_ENTRY_CNT.wd - 1)) ∧
        (∀ r, exec (.srEntry n (some r)) s = exec (.mcRequest n r) (finc s (mcBase n.val) Reg.Mc.SR_ABORT_CNT))) ∧
      (mcF s n.val Reg.Mc.PATROL_EN = 0 ∨ mcQuiet s n.val = false ∨ patrolNext s n.val = none → exec (.patrolStep n) s = .next s) ∧
      (∀ line wrap, mcF s n.val Reg.Mc.PATROL_EN = 1 → mcQuiet s n.val = true → patrolNext s n.val = some (line, wrap) →
        (granGet s ((n.val * 2 ^ 30 + line) / 2048)).flip = 0 → (granGet s ((n.val * 2 ^ 30 + line) / 2048)).bad = false →
        let o := lineDecode (dramGet s n.val line)
        (o.status = 2 → metaNode s (n.val * 2 ^ 30 + line) = none) → ∃ t, exec (.patrolStep n) s = .next t ∧
          mcF t n.val Reg.Mc.PATROL_POS = (line + 1) % 2 ^ Reg.Mc.PATROL_POS.wd ∧
          (o.status ≠ 1 → t.dram = s.dram) ∧ (o.status = 1 → dramGet t n.val line = encLine o.data) ∧
          (o.status ≠ 0 → fbit t (mcBase n.val) Reg.Mc.BY_PATROL = true ∧ mcF t n.val Reg.Mc.ERR_LINE = line % 2 ^ Reg.Mc.ERR_LINE.wd) ∧
          mcF t n.val Reg.Mc.CE_CNT = (if o.status = 1 then min (mcF s n.val Reg.Mc.CE_CNT + 1) (2 ^ Reg.Mc.CE_CNT.wd - 1) else mcF s n.val Reg.Mc.CE_CNT) ∧
          mcF t n.val Reg.Mc.UE_CNT = (if o.status = 2 then min (mcF s n.val Reg.Mc.UE_CNT + 1) (2 ^ Reg.Mc.UE_CNT.wd - 1) else mcF s n.val Reg.Mc.UE_CNT) ∧
          (wrap = false → line + 1 < 2 ^ 30 → mcF t n.val Reg.Mc.PATROL_LAP = mcF s n.val Reg.Mc.PATROL_LAP ∧ t.mc = s.mc)))) ∧
  (
    ∀ (s : State) (n : Fin 8), let b := mcBase n.val
      let subs := selectedSubs s n.val Reg.Mc.TRN_SUB
      let last := mcF s n.val Reg.Mc.TRN_COUNT
      let cntMax := 2 ^ (errCnt 0).wd - 1
      (∀ a d c, fbit s b Reg.Mc.TRN_BUSY = false → exec (.trnDone n a d c) s = .next s) ∧
      (∀ a d c, let flips := trnFlips a d c
        fbit s b Reg.Mc.TRN_BUSY = true → ∃ t, exec (.trnDone n a d c) s = .next t ∧ fbit t b Reg.Mc.TRN_BUSY = false ∧
        fbit t b Reg.Mc.TRN_DONE = true ∧ { t with csr := s.csr, fresh := s.fresh, dram := s.dram } = s ∧
        (fbit s b Reg.Mc.TRN_RDONLY = true → t.dram = s.dram) ∧
        (fbit s b Reg.Mc.TRN_RDONLY = false → mcF s n.val Reg.Mc.TRN_PAT = 1 →
          ∀ x ∈ subs, ∀ k, k ≤ last → dramGet t n.val (trnPlace s n.val x k) = patBurst s n.val) ∧
        (∀ x ∈ subs, ∀ i, i < 16 → mcF t n.val (Reg.Mc.CAP_DQ x i) + 2 ^ 32 * mcF t n.val (Reg.Mc.CAP_CB x i) =
          (burstBeat (trnRead { s with dram := t.dram } n.val x last flips) i).toNat) ∧
        ((∀ x ∈ subs, ∀ k, k ≤ last → trnRead { s with dram := t.dram } n.val x k flips = (trnBursts s n.val).getD k {}) →
          fbit t b Reg.Mc.FF_VALID = fbit s b Reg.Mc.FF_VALID ∧ ∀ l, l < 80 → mcF t n.val (errCnt l) = mcF s n.val (errCnt l)) ∧
        (∀ x, subs = [x] → last = 0 →
          let errs := fun i => beatErrs (trnRead { s with dram := t.dram } n.val x 0 flips) ((trnBursts s n.val).getD 0 {}) i
          (∀ l, l < 40 → mcF s n.val (errCnt (40 * x + l)) ≤ cntMax → mcF t n.val (errCnt (40 * x + l)) =
            min (mcF s n.val (errCnt (40 * x + l)) + ((List.range 16).filter (fun i => (errs i).contains l)).length) cntMax) ∧
          (∀ i l rest, i < 16 → fbit s b Reg.Mc.FF_VALID = false → (∀ j, j < i → errs j = []) → errs i = l :: rest →
            fbit t b Reg.Mc.FF_VALID = true ∧ mcF t n.val Reg.Mc.FF_BURST = 0 ∧ mcF t n.val Reg.Mc.FF_BEAT = i ∧
            mcF t n.val Reg.Mc.FF_LANE = 40 * x + l))) ∧
      (∀ cap, (mcGet s n.val).mr = false → exec (.mrAccessDone n cap) s = .next s) ∧
      (∀ cap, (mcGet s n.val).mr = true → fbit s b Reg.Mc.MR_WRITE = true ∨ fbit s b Reg.Mc.MR_RCD = true →
        exec (.mrAccessDone n cap) s = .next (mcUpd s n.val (fun m => { m with mr := false }))) ∧
      ((mcGet s n.val).mr = true → fbit s b Reg.Mc.MR_WRITE = false → fbit s b Reg.Mc.MR_RCD = false → mcF s n.val Reg.Mc.MR_SUB = 1 →
        ∀ x : BitVec 40, ∃ t, exec (.mrAccessDone n [x]) s = .next t ∧ (mcGet t n.val).mr = false ∧
          mcF t n.val (Reg.Mc.CAP_DQ 0 0) + 2 ^ 32 * mcF t n.val (Reg.Mc.CAP_CB 0 0) = x.toNat) ∧
      (∀ step, mcState s n.val ≠ 1 → exec (.trainingTimeLimit n step) s = .next s) ∧
      (∀ step, mcState s n.val = 1 → let k := mcF s n.val Reg.Mc.RATE_IDX
        ∃ t, exec (.trainingTimeLimit n step) s = .next t ∧
        mcState t n.val = 4 ∧ mcF t n.val Reg.Mc.DISABLE_CAUSE = 4 ∧ mcF t n.val Reg.Mc.FAIL_STEP = step.toNat ∧
        (rateGet t n.val).rate = min 3 (k + 1) ∧ (k = 3 → (rateGet t n.val).exhausted = true)))

/-- 11 R305, R306, R314 to R316, R329: the order in which the memory security engine decides a request that reached its node: unmapped, the
granule's entry with its stored errors, owner, an engine that is off, poison, work in progress, the granule's first use, and outside the
window the data themselves. Model's choices that a clause rests on: notes/assumptions/37.md. -/
def Obligations.MemoryRequestsAreDecidedInOrder : Prop :=
  ∀ (s u : State) (p : Packet) (c : Nat), takeNet s p = some u → nodeKind (dstOf p) = .dram c → shapeOk p = true →
    p.op = 0x01 ∨ p.op = 0x02 → p.vn = 0 →
    let g := granOf p.addr.toNat
    let pg := p.addr.toNat / 4096
    let n := p.addr.toNat / 2 ^ 36
    let ln := p.addr.toNat / 64
    let arrives := fun (t : State) => (p.op = 0x01 → exec (.rd p) s = .next t) ∧ (p.op = 0x02 → exec (.wr p) s = .next t)
    let decided := fun (v : State) (y : Gran) =>
      (y.owner ≠ p.part.toNat ∨ 16 < p.part.toNat → arrives (respond v p .partErr [])) ∧
      (y.owner = p.part.toNat → p.part.toNat ≤ 16 →
        (reqOff v p = true → arrives (respond v p .domainOff [])) ∧
        (reqOff v p = false → p.op = 0x02 → p.poisoned = true → arrives (respond v p .poisoned [])) ∧
        (reqOff v p = false → p.op = 0x01 ∨ p.poisoned = false →
          (resetCovers v p.addr.toNat = true → arrives (secUpd v (fun e => { e with held := e.held ++ [p] }))) ∧
          (resetCovers v p.addr.toNat = false → tget [] v.sec.fills g ≠ [] →
            arrives (secUpd v (fun e => { e with fills := tset [] e.fills g (tget [] e.fills g ++ [p]) }))) ∧
          (resetCovers v p.addr.toNat = false → tget [] v.sec.fills g = [] → tget [] v.sec.rekeys pg ≠ [] →
            arrives (secUpd v (fun e => { e with rekeys := tset [] e.rekeys pg (tget [] e.rekeys pg ++ [p]) }))) ∧
          (resetCovers v p.addr.toNat = false → tget [] v.sec.fills g = [] → tget [] v.sec.rekeys pg = [] →
            (y.init = false → p.op = 0x02 → exec (.wr p) s = .next (secUpd v (fun e => { e with fills := tset [] e.fills g [p] }))) ∧
            (y.init = false → p.op = 0x01 → 0 < p.size.toNat →
              exec (.rd p) s = .next (respond v p .uninitZero (List.replicate p.size.toNat 0))) ∧
            (y.init = true → inWin v (64 * ln) = false → 0 < p.size.toNat → p.addr.toNat % 64 + p.size.toNat ≤ 64 → mcState v n = 2 →
              wqFind v n (ln % 2 ^ 30) = none → let o := lineDecode (dramGet v n (ln % 2 ^ 30))
              (p.op = 0x01 → o.status = 0 → exec (.rd p) s = .next (respond v p .okay
                (((natLe (xtsDec (outKeys v) ln o.data).toNat 64).drop (p.addr.toNat % 64)).take p.size.toNat))) ∧
              (p.op = 0x01 → o.status = 2 → ∃ t, exec (.rd p) s = .next (respond t p .poisoned []) ∧
                secF t Reg.Sec.DRAM_UE_CNT = min (secF v Reg.Sec.DRAM_UE_CNT + 1) (2 ^ Reg.Sec.DRAM_UE_CNT.wd - 1)) ∧
              (∀ w, p.op = 0x02 → writeReqs p = [w] → w.mask = fullMask → readWaits (mcGet v n) (ln % 2 ^ 30) = false →
                (mcGet v n).reads = [] → ∃ t, exec (.wr p) s = .next (respond t p .okay []) ∧
                dramGet t n (ln % 2 ^ 30) = encLine (xtsEnc (outKeys v) ln w.data))))))
    (reqUnmapped u p = true → arrives (respond u p .decodeErr [])) ∧
    (reqUnmapped u p = false → let x := granGet u g
      let r := byteCode x.flip
      (x.bad = true → arrives (respond u p .partErr [])) ∧
      (x.bad = false → x.flip = 0 → decided u x) ∧
      (x.bad = false → x.flip ≠ 0 → r.dbe = true → ∃ v, arrives (respond v p .partErr []) ∧ (granGet v g).bad = true ∧
        secF v Reg.Sec.GT_UE_CNT = min (secF u Reg.Sec.GT_UE_CNT + 1) (2 ^ Reg.Sec.GT_UE_CNT.wd - 1) ∧
        secF v Reg.Sec.CAUSE = 7 % 2 ^ Reg.Sec.CAUSE.wd) ∧
      (x.bad = false → x.flip ≠ 0 → r.dbe = false → let y := granFrom (granByte x ^^^ r.data)
        let v := granSet u g y
        decided (if r.sbe then finc v secBase Reg.Sec.GT_CE_CNT else v) y))

/-- 11 R312, R315, R328, R329, R331, R333: the ends of a zero-fill, of a re-key, of a reset, of an escalation's zeroizing, and the restoring
of a granule entry. Held requests are served in order of arrival, and table writes that waited take effect after them. Model's choices
that a clause rests on: notes/assumptions/22.md, notes/assumptions/37.md. Forms shown to complete, each by a clause that concludes exec =
next with the form's own effect, under conditions on state and operands alone: zeroFillDone, rekeyDone, escalationZeroizeDone, gtRestore,
subtreeResetDone. -/
def Obligations.MemorySecurityOperationsComplete : Prop :=
  ∀ (s : State), let clean := fun (x : Gran) => { x with init := false, flip := 0, bad := false }
    (∀ g : BitVec 22, tget [] s.sec.fills g.toNat = [] → exec (.zeroFillDone g) s = .next s) ∧
    (∀ (g : BitVec 22) p more, tget [] s.sec.fills g.toNat = p :: more →
      ∃ u, exec (.zeroFillDone g) s = .next (granDue (serveHeld (p :: more) u)) ∧
        granGet u g.toNat = { granGet s g.toNat with init := true, flip := 0 } ∧ tget [] u.sec.fills g.toNat = [] ∧
        secF u Reg.Sec.ZFILL_CNT = min (secF s Reg.Sec.ZFILL_CNT + 1) (2 ^ Reg.Sec.ZFILL_CNT.wd - 1) ∧
        (fbit s secBase Reg.Sec.WIN_ACTIVE = false → (mcGet s (g.toNat / 2 ^ 19)).writes = [] →
          ∀ j, j < 2048 → dramGet u (g.toNat / 2 ^ 19) ((2048 * g.toNat + j) % 2 ^ 30) =
            encLine (xtsEnc (outKeys s) (2048 * g.toNat + j) 0))) ∧
    (∀ pn : BitVec 27, tget [] s.sec.rekeys pn.toNat = [] → exec (.rekeyDone pn) s = .next s) ∧
    (∀ (pn : BitVec 27) p held, tget [] s.sec.rekeys pn.toNat = p :: held →
      let q := prepLines p.part.toNat (writeReqs p) (secUpd s (fun e => { e with rekeys := tset [] e.rekeys pn.toNat [] }))
      (isErr q.1 = true → exec (.rekeyDone pn) s = .next (granDue (serveHeld held (respond q.2.2 p q.1 [])))) ∧
      (isErr q.1 = false → ∃ trig others, List.Perm (trig ++ others) q.2.1 ∧
        exec (.rekeyDone pn) s =
          .next (granDue (serveHeld held (respond (writeLines others (rekeyPage pn.toNat trig q.2.2)) p .okay []))) ∧
        ∀ l ∈ trig, ∃ blk, (blockOf q.2.2 (winPage q.2.2 (64 * l.1))).1 = some blk ∧ blkMinor blk (l.1 % 64) = 127)) ∧
    (let asks := fun (n : Nat) => mbBusy s n = true ∧ (mbGet s n).wait = .run ∧ (mbGet s n).ropcode = 0x62;
      (s.sec.reset = none → (∀ n, n < 32 → ¬ asks n) → exec .subtreeResetDone s = .next s) ∧
      (∀ n, n < 32 → asks n → ∃ t, exec .subtreeResetDone s = .next t ∧ ended t n 0 []) ∧
      ∀ k i, s.sec.reset = some (k, i) →
        let u := resetSpan k i (secUpd s (fun e => { e with reset := none, held := [] }));
        ((∀ n, n < 32 → ¬ asks n) → exec .subtreeResetDone s = .next (granDue (serveHeld s.sec.held u))) ∧
        (k = 15 → fbit u secBase Reg.Sec.WIN_POISONED = false ∧ ∀ j, j < 16 → fbit u secBase (Reg.Sec.PS_VALID j) = false)) ∧
    (∀ p : BitVec 5, p.toNat ∉ s.sec.zeroizing → exec (.escalationZeroizeDone p) s = .next s) ∧
    (∀ p : BitVec 5, p.toNat ∈ s.sec.zeroizing → ∃ u, exec (.escalationZeroizeDone p) s = .next (stopPart u p.toNat 2) ∧
      p.toNat ∉ u.sec.zeroizing ∧ { u with sec := s.sec } = s ∧
      ∀ g, (granGet s g).owner = p.toNat → p.toNat ≠ 0x1F →
        (granWork s g (g + 1) = false → granGet u g = (if (granGet s g).bad then granGet s g else clean (granGet s g))) ∧
        (granWork s g (g + 1) = true → granGet u g = granGet s g ∧ ⟨g, none, true, false⟩ ∈ u.sec.writes)) ∧
    (∀ g : BitVec 22, let x := granGet s g.toNat
      (x.bad = false → exec (.gtRestore g) s = .next s) ∧
      (x.bad = true → granWork s g.toNat (g.toNat + 1) = false → exec (.gtRestore g) s = .next (granSet s g.toNat (clean x))) ∧
      (x.bad = true → granWork s g.toNat (g.toNat + 1) = true →
        exec (.gtRestore g) s = .next (secUpd s (fun e => { e with writes := e.writes ++ [⟨g.toNat, none, true, true⟩] }))))

/-- 12 R348 to R353: how each link event moves the link state of a lane and its counters. Model's choices that a clause rests on:
notes/assumptions/8.md, notes/assumptions/31.md. Forms shown to complete, each by a clause that concludes exec = next with the form's own
effect, under conditions on state and operands alone: anComplete, trainComplete, acquireLock, trainWaitTimeout, acquireTimeout,
signalLoss, validateWindow, linkDown, backoffExpire, signalDetectRise. -/
def Obligations.LinkEventsMoveTheLinkState : Prop :=
  ∀ (s : State) (l : Lane), let n := laneNo l
    let b := lb n
    let first := fun (m : Nat) => if m = 0x20 then 2 else if rawMode m then 3 else 1
    let up := fun (f : Fld) => min (fget s b f + 1) (2 ^ f.wd - 1)
    let abandoned := fun (t : State) (cause : Nat) => linkState t n = 7 ∧ fget t b Reg.Lane.PSTATE = 1 ∧ fget t b Reg.Lane.LAST_CAUSE = cause ∧
      fget t b Reg.Lane.ATTEMPT = up Reg.Lane.ATTEMPT ∧ fget t b Reg.Lane.ABANDON_CNT = up Reg.Lane.ABANDON_CNT ∧
      fget t b Reg.Lane.WAIT_LEFT = laneWait t n
    let failed := fun (t : State) (cause : Nat) => linkState t n = (if up Reg.Lane.FAIL_RUN < 8 then 8 else 9) ∧ fget t b Reg.Lane.PSTATE = 2 ∧
      fget t b Reg.Lane.LAST_CAUSE = cause ∧ fget t b Reg.Lane.FAIL_RUN = up Reg.Lane.FAIL_RUN ∧
      fget t b Reg.Lane.FAIL_CNT = up Reg.Lane.FAIL_CNT ∧ fget t b Reg.Lane.ATTEMPT = up Reg.Lane.ATTEMPT
    (∀ m : Byte,
      let fits := 1 ≤ m.toNat ∧ m.toNat ≤ 7 ∧
        (if (laneGet s n).adv = 0 then m.toNat = laneMode s n else (laneGet s n).adv.testBit (m.toNat - 1) = true) ∧
        modeFits (n / 4) (n % 4) m.toNat = true ∧ ∀ k ∈ groupOf n m.toNat, (laneGet s k).enabled = false;
      (linkState s n = 1 → fits → ∃ t, exec (.anComplete l m) s = .next t ∧ laneMode t n = m.toNat ∧
        linkState t n = (if m = 1 then 4 else 2) ∧ fbit t b Reg.Lane.SIG_DET = true ∧
        ∀ k ∈ groupOf n m.toNat, fbit t (lb k) Reg.Lane.GROUP_MEMBER = true ∧ linkState t k = 0 ∧ fget t (lb k) Reg.Lane.PSTATE = 0) ∧
      (linkState s n ≠ 1 ∨ ¬ fits → exec (.anComplete l m) s = .next s)) ∧
    (linkState s n = 2 → (∃ t, exec (.trainComplete l) s = .next t ∧ linkState t n = 4 ∧ fbit t b Reg.Lane.CDR_LOCK = true ∧
        fbit t b Reg.Lane.SIG_DET = true) ∧
      (∃ t, exec (.trainWaitTimeout l true) s = .next t ∧ failed t 3) ∧
      (∃ t, exec (.trainWaitTimeout l false) s = .next t ∧ abandoned t 2)) ∧
    (∀ v, linkState s n ≠ 2 → exec (.trainComplete l) s = .next s ∧ exec (.trainWaitTimeout l v) s = .next s) ∧
    (linkState s n = 3 → (∃ t, exec (.acquireLock l) s = .next t ∧ linkState t n = 4 ∧ fbit t b Reg.Lane.CDR_LOCK = true ∧
        fbit t b Reg.Lane.SIG_DET = true) ∧
      (∃ t, exec (.acquireTimeout l true) s = .next t ∧ failed t 5) ∧
      (∃ t, exec (.acquireTimeout l false) s = .next t ∧ abandoned t 1)) ∧
    (∀ v, linkState s n ≠ 3 → exec (.acquireLock l) s = .next s ∧ exec (.acquireTimeout l v) s = .next s) ∧
    (linkState s n = 2 ∨ linkState s n = 3 ∨ linkState s n = 4 → ∃ t, exec (.signalLoss l) s = .next t ∧ abandoned t 1 ∧
      fbit t b Reg.Lane.CDR_LOCK = false ∧ fbit t b Reg.Lane.SIG_DET = false) ∧
    (linkState s n ≠ 2 → linkState s n ≠ 3 → linkState s n ≠ 4 → exec (.signalLoss l) s = .next (fset s b Reg.Lane.SIG_DET 0)) ∧
    (∀ locked clean, linkState s n = 4 → let raw := rawMode (laneMode s n)
      (clean = true → raw = true ∨ locked = true → ∃ t, exec (.validateWindow l locked clean) s = .next t ∧ linkState t n = 5 ∧
        fget t b Reg.Lane.ATTEMPT = 0 ∧ fget t b Reg.Lane.FAIL_RUN = 0 ∧ fget t b Reg.Lane.UP_CNT = up Reg.Lane.UP_CNT ∧
        fbit t b Reg.Lane.PCS_LOCK = !raw ∧ (raw = true → fbit t b Reg.Lane.ADAPT_CONV = true)) ∧
      (clean = false ∨ (raw = false ∧ locked = false) → ∃ t, exec (.validateWindow l locked clean) s = .next t ∧ failed t 4)) ∧
    (∀ locked clean, linkState s n ≠ 4 → exec (.validateWindow l locked clean) s = .next s) ∧
    (linkState s n = 5 → ∃ t, exec (.linkDown l) s = .next t ∧ linkState t n = first (laneMode s n) ∧ fget t b Reg.Lane.LAST_CAUSE = 6 ∧
      fget t b Reg.Lane.DOWN_CNT = up Reg.Lane.DOWN_CNT ∧ fget t b Reg.Lane.ATTEMPT = 0 ∧ fbit t b Reg.Lane.CDR_LOCK = false) ∧
    (linkState s n ≠ 5 → exec (.linkDown l) s = .next s) ∧
    (linkState s n = 7 ∨ linkState s n = 8 → ∃ t, exec (.backoffExpire l) s = .next t ∧ linkState t n = first (laneMode s n) ∧
      fget t b Reg.Lane.PSTATE = 0 ∧ fget t b Reg.Lane.WAIT_LEFT = 0 ∧ { t with csr := s.csr, fresh := s.fresh, lane := s.lane } = s) ∧
    (linkState s n ≠ 7 → linkState s n ≠ 8 → exec (.backoffExpire l) s = .next s) ∧
    (fget s b Reg.Lane.PSTATE = 2 → exec (.signalDetectRise l) s = .next s) ∧
    (fget s b Reg.Lane.PSTATE ≠ 2 → linkState s n ≠ 7 → exec (.signalDetectRise l) s = .next (fset s b Reg.Lane.SIG_DET 1)) ∧
    (linkState s n = 7 → fget s b Reg.Lane.PSTATE ≠ 2 → ∃ t, exec (.signalDetectRise l) s = .next t ∧
      linkState t n = first (laneMode s n) ∧ fbit t b Reg.Lane.SIG_DET = true ∧
      { t with csr := s.csr, fresh := s.fresh, lane := s.lane } = s)

/-- 12 R341 to R343, R345, R358, R359, R361, R362 and 15 R470: the words and timestamps of a lane, adaptation, the eye, rate injection. 12
R338, R354, R355, R361, 09 R272, 15 R456 and 16 R491: a quad's microcode reload, its reference clock, and its copy of the time. Model's
choices that a clause rests on: notes/assumptions/8.md, notes/assumptions/9.md, notes/assumptions/31.md, notes/assumptions/46.md. Forms
shown to complete, each by a clause that concludes exec = next with the form's own effect, under conditions on state and operands alone:
txWord, rxWord, mcuReload, ctleAdapt, recentre, injectRateFire, timeMarker, tsUnsync, txTimestamp, refclkOkChange. -/
def Obligations.LanesAndQuadsTakeTheirEvents : Prop :=
  (
    ∀ (s : State) (l : Lane) (data : BitVec 512) (hdr : BitVec 16), let n := laneNo l
      let b := lb n
      let x := laneGet s n
      let toFabric := fun (v : State) (ts : Option Nat) =>
        if attached v (n / 4) = true ∧ islRuns v (quadIsl (n / 4)) = true then
          if (laneGet v n).rx.length < 16 then
            laneUpd v n (fun x => { x with rx := x.rx ++ [⟨(wordRx v n (data, hdr)).1, (wordRx v n (data, hdr)).2, ts⟩] })
          else finc v b Reg.Lane.RX_OVF_CNT
        else v
      (∀ ts, txReady s n = false ∨ ltreeRuns s n = false → exec (.txWord l data hdr ts) s = .next s) ∧
      (∀ ts, txReady s n = true → ltreeRuns s n = true →
        (linkState s n = 5 → let u := laneUpd s n (fun x => { x with txq := x.txq ++ [wordTx s n (data, hdr)] })
          exec (.txWord l data hdr ts) s = .next (if ts = true ∧ holdsStart s n (data, hdr) = true then
            laneUpd u n (fun x => { x with tsq := x.tsq ++ [laneStamp s n Reg.Lane.TS_TX_ADJ] }) else u)) ∧
        (loopsBack s n = true → exec (.txWord l data hdr ts) s = .next (toFabric s none)) ∧
        (farEnd s n = true → exec (.txWord l data hdr ts) s = .next s)) ∧
      (fbit s b Reg.Lane.GROUP_MEMBER = true → ∀ st, exec (.rxWord l data hdr st) s = .next s) ∧
      (fbit s b Reg.Lane.GROUP_MEMBER = false → ∀ st,
        (linkState s n = 5 → ∃ v, onlyRegs { s with fresh := v.fresh, free := v.free } v (keyOf b [Reg.Lane.FEC_CORR_CNT, Reg.Lane.FEC_UNCORR_CNT]) ∧
          (laneMode s n = 1 ∨ rawMode (laneMode s n) = true → v = s) ∧
          exec (.rxWord l data hdr st) s = .next (toFabric v
            (if st = true ∧ rawMode (laneMode s n) = false then some (laneStamp s n Reg.Lane.TS_RX_ADJ) else none))) ∧
        (farEnd s n = true → exec (.rxWord l data hdr st) s = .next (laneUpd s n (fun x => { x with tx := (data, hdr) }))) ∧
        (linkState s n ≠ 5 → farEnd s n = false → exec (.rxWord l data hdr st) s = .next s)) ∧
      (x.tsq = [] → exec (.txTimestamp l) s = .next s) ∧
      (∀ a rest, x.tsq = a :: rest → exec (.txTimestamp l) s = .next (laneUpd s n (fun x => { x with tsq := rest, txTs := a, txTsv := true }))) ∧
      (∀ (peak : BitVec 5) (c : Bool), let runs := (linkState s n = 4 ∨ linkState s n = 5) ∧ fbit s b Reg.Lane.ADAPT_FREEZE = false
        let u := fset s b Reg.Lane.ADAPT_CONV (if c then 1 else 0)
        (runs → exec (.ctleAdapt l peak c) s = .next (if fbit s b Reg.Lane.CTLE_OVR then u else fset u b Reg.Lane.CTLE_PEAK peak.toNat)) ∧
        (¬ runs → exec (.ctleAdapt l peak c) s = .next s)) ∧
      (∀ h v : BitVec 16, let runs := linkState s n = 5 ∧ l.q.val < 32 ∧ policy s ≠ 0
        let u := fset (fset s b Reg.Lane.EYE_H h.toNat) b Reg.Lane.EYE_V v.toNat
        (¬ runs → exec (.recentre l h v) s = .next s) ∧
        (runs → 10 ≤ h.toNat → exec (.recentre l h v) s = .next (laneUpd u n (fun x => { x with eyeLow := 0 }))) ∧
        (runs → h.toNat < 10 → x.eyeLow = 0 → exec (.recentre l h v) s = .next (laneUpd u n (fun x => { x with eyeLow := upUs s + 1 }))) ∧
        (runs → h.toNat < 10 → x.eyeLow ≠ 0 → upUs s + 1 < 60000000 + x.eyeLow → exec (.recentre l h v) s = .next u) ∧
        (runs → h.toNat < 10 → x.eyeLow ≠ 0 → 60000000 + x.eyeLow ≤ upUs s + 1 → ∃ t, exec (.recentre l h v) s = .next t ∧
          (laneGet t n).eyeLow = upUs s + 1 ∧ ∃ a ∈ t.alarms, a.cls = clsLink ∧ a.cause = 9)) ∧
      (let runs := x.inj = true ∧ fget s b Reg.Lane.INJ_MODE = 3 ∧ (linkState s n = 5 ∨ linkState s n = 10);
        (runs → selfChecked s n = false → exec (.injectRateFire l) s = .next (laneUpd s n (fun x => { x with flips := x.flips + 1 }))) ∧
        (runs → selfChecked s n = true → ∃ t, exec (.injectRateFire l) s = .next t ∧ laneGet t n = { x with flips := x.flips + 1 } ∧
          fget t b Reg.Lane.CHK_ERR_LO + 2 ^ 32 * fget t b Reg.Lane.CHK_ERR_HI =
            min (fget s b Reg.Lane.CHK_ERR_LO + 2 ^ 32 * fget s b Reg.Lane.CHK_ERR_HI + 1) (2 ^ 48 - 1)) ∧
        (¬ runs → exec (.injectRateFire l) s = .next s))) ∧
  (
    ∀ (s : State) (q : Fin 40), let b := quadBase q.val
      let first := fun (m : Nat) => if m = 0x20 then 2 else if rawMode m then 3 else 1
      let lanes := fun (P : Nat → Prop) => ∀ i, i < 4 → P (4 * q.val + i)
      let down := fun (n : Nat) => if linkState s n = 9 then 9 else 0
      let starts := fun (n : Nat) => quadFenced s q.val = false ∧ (laneGet s n).enabled = true ∧ linkState s n ≠ 9
      (∀ ok : Bool, fbit s b Reg.Quad.MCU_RUN = false → exec (.mcuReload q ok) s = .next s ∧ exec (.timeMarker q) s = .next s ∧
        exec (.refclkOkChange q ok) s = .next (fset s b Reg.Quad.REFCLK_OK (if ok then 1 else 0))) ∧
      (fbit s b Reg.Quad.MCU_RUN = true →
        (∃ t, exec (.mcuReload q false) s = .next t ∧ fbit t b Reg.Quad.MCU_RUN = false ∧
          lanes (fun n => linkState t n = down n ∧ fget t (lb n) Reg.Lane.LAST_CAUSE = 7)) ∧
        (∃ t, exec (.mcuReload q true) s = .next t ∧ fbit t b Reg.Quad.MCU_RUN = true ∧ lanes (fun n => fget t (lb n) Reg.Lane.LAST_CAUSE = 7 ∧
          (starts n → linkState t n = first (laneMode s n)) ∧ (¬ starts n → linkState t n = down n))) ∧
        (∀ ok : Bool, fbit s b Reg.Quad.REFCLK_OK = ok →
          exec (.refclkOkChange q ok) s = .next (fset s b Reg.Quad.REFCLK_OK (if ok then 1 else 0))) ∧
        (fbit s b Reg.Quad.REFCLK_OK = true → ∃ t, exec (.refclkOkChange q false) s = .next t ∧ fbit t b Reg.Quad.REFCLK_OK = false ∧
          fbit t b Reg.Quad.PLL_LOCK = false ∧ fget t b Reg.Quad.PLL_KHZ = 0 ∧ lanes (fun n => linkState t n = down n)) ∧
        (fbit s b Reg.Quad.REFCLK_OK = false → ∃ t, exec (.refclkOkChange q true) s = .next t ∧ fbit t b Reg.Quad.REFCLK_OK = true ∧
          fbit t b Reg.Quad.PLL_LOCK = true ∧ lanes (fun n => (starts n → linkState t n = first (laneMode s n)) ∧
            (¬ starts n → linkState t n = linkState s n))) ∧
        (let way := 32 ≤ q.val ∨ (fenced s (q.val / 4) = false ∧ ∃ k, k < 8 ∧ fget s (hwBase (q.val / 4) (8 + k)) Reg.Hw.STATE ≠ 3);
          (way → exec (.timeMarker q) s = .next (fset (quadUpd s q.val (fun x =>
            { x with time := { s.tim with step := none, pps := false, ppsLeft := 0 }, markAt := s.up })) b Reg.Quad.TS_UNSYNC 0)) ∧
          (¬ way → exec (.timeMarker q) s = .next s))) ∧
      exec (.tsUnsync q) s = .next (fset (fset s b Reg.Quad.TS_UNSYNC 1) b Reg.Quad.TS_UNSYNC_SEEN 1))

/-- 12 R367 to R371: the bypasses of the bight's two ports open and close, and ring frames are copied, forwarded, removed and inserted.
Model's choices that a clause rests on: notes/assumptions/9.md, notes/assumptions/26.md, notes/assumptions/39.md. Forms shown to complete,
each by a clause that concludes exec = next with the form's own effect, under conditions on state and operands alone: bightLaneUp,
bightRelease, bightLaneLost, bightWatchdog, ringFrameReceive, ringFrameInsert. -/
def Obligations.BightBypassesAndRingFrames : Prop :=
  ∀ (s : State) (b : Bool), let up := btUp b
    let cnt := fun (t : State) (f : Fld) => fget t pwrBase f
    let fl := fun (u : State) (f : Fld) (v : Bool) => fset u pwrBase f (if v then 1 else 0)
    (s.pwr.hubReset = true ∨ fbit s pwrBase up = true → exec (.bightLaneUp b) s = .next s) ∧
    (s.pwr.hubReset = false → fbit s pwrBase up = false →
      exec (.bightLaneUp b) s = .next (fl (if btReady s b = 0 then s else setReady s b (s.up + 100000000)) up true)) ∧
    (let may := fbit s pwrBase up = true ∧ s.boot.dmc = true ∧ fget s 0 Reg.Hub.BOOT_PHASE = 6 ∧ mustClose s b = false ∧ btReady s b ≤ s.up
     (may → exec (.bightRelease b) s = .next (fl s (btOpen b) true)) ∧ (¬ may → exec (.bightRelease b) s = .next s)) ∧
    (let lost := fbit s pwrBase up = true ∨ btReady s b ≠ 0
     exec (.bightLaneLost b) s = .next (fl (setReady (fl s up false) b (if lost then 1 else 0)) (btOpen b) false)) ∧
    (exec .bightWatchdog s = .next (if bypassOpen s false || bypassOpen s true then
      fl (fl (finc s pwrBase Reg.Bight.CLOSE_CNT) (btOpen false) false) (btOpen true) false else s)) ∧
    (∀ f : List Byte, f.length < 7 ∨ 255 < f.length → exec (.ringFrameReceive b f) s = .next s) ∧
    (∀ f : List Byte, 7 ≤ f.length → f.length ≤ 255 →
      let me := fget s pwrBase Reg.Bight.RING_ADDR
      let dst := (f.getD 0 0).toNat
      let src := (f.getD 1 0).toNat
      (bypassOpen s b = false → exec (.ringFrameReceive b f) s = .next s) ∧
      (bypassOpen s b = true → ringCrcOk f = true → dst ≠ me → dst ≠ 0xFF →
        exec (.ringFrameReceive b f) s = .next (answerBytes s .okay (if src = me then [] else f))) ∧
      (bypassOpen s b = true → ringCrcOk f = true → dst = me ∨ dst = 0xFF → s.bight.rx.length < 8 →
        ∃ t, exec (.ringFrameReceive b f) s = .next t ∧ t.bight.rx = s.bight.rx ++ [(b, f.take (f.length - 4))] ∧ t.bight.tx = s.bight.tx ∧
          t.rsp = ⟨.okay, 0, if dst = me ∨ src = me then [] else f⟩ ∧ cnt t Reg.Bight.RX_WAIT = (s.bight.rx.length + 1) % 2 ^ Reg.Bight.RX_WAIT.wd) ∧
      (bypassOpen s b = true → ringCrcOk f = true → dst = me ∨ dst = 0xFF → 8 ≤ s.bight.rx.length →
        exec (.ringFrameReceive b f) s =
          .next (answerBytes (finc s pwrBase Reg.Bight.RX_DROP_CNT) .okay (if dst = me ∨ src = me then [] else f))) ∧
      (bypassOpen s b = true → ringCrcOk f = false → exec (.ringFrameReceive b f) s =
        .next (answerBytes (finc s pwrBase Reg.Bight.RX_CRC_CNT) .okay (if dst = me ∨ src = me then [] else f)))) ∧
    (∀ e, s.bight.tx = none → exec (.ringFrameInsert e) s = .next s) ∧
    (∀ e p f, s.bight.tx = some (p, f) → e = false ∨ bypassOpen s p = false → exec (.ringFrameInsert e) s = .next s) ∧
    (∀ f, s.bight.tx = some (b, f) → bypassOpen s b = true → ∃ t, exec (.ringFrameInsert true) s = .next t ∧ t.bight.tx = none ∧
      t.rsp = ⟨.okay, 0, f⟩ ∧ fbit t pwrBase Reg.Bight.TX_BUSY = false ∧ t.bight.rx = s.bight.rx)

/-- 13 R383 to R388, R393 and 14 R419, 15 R450: PCIe links, configuration requests and BARs, the I²C port and the host ports in register mode
reach the registers through the same access, and BAR4 the DRAM through packets. Model's choices that a clause rests on:
notes/assumptions/9.md, notes/assumptions/30.md. Forms shown to complete, each by a clause that concludes exec = next with the form's own
effect, under conditions on state and operands alone: perstRelease, pcieConfigRequest, pcieBarAccess, i2cTransaction, hostRegisterAccess,
dataLinkUp. -/
def Obligations.HostPathsReachTheRegisters : Prop :=
  ∀ (s : State),
    (∀ c, exec (.perstRelease c) s = .next (pcieUpd s c.val (fun x => { x with perst := false }))) ∧
    (∀ (c : Fin 2) (k : Fin 4) (speed : BitVec 3) (width : BitVec 5) (flit : Bool), let b := pcieBase c.val k.val
      let up := (pcieGet s c.val).up = true ∧ (pcieGet s c.val).perst = false ∧ k.val < pcieLinks s c.val ∧ fbit s b Reg.Pcie.DL_UP = false ∧
        linkSettles s c.val speed.toNat width.toNat flit = true
      (up → exec (.dataLinkUp c k speed width flit) s = .next (fset (fset (fset (fset s b Reg.Pcie.SPEED speed.toNat) b Reg.Pcie.WIDTH width.toNat)
        b Reg.Pcie.FLIT (if flit then 1 else 0)) b Reg.Pcie.DL_UP 1)) ∧
      (¬ up → exec (.dataLinkUp c k speed width flit) s = .next s)) ∧
    (∀ (c : Fin 2) (k : Fin 4) (f : Fin 8) (bar : Fin 6) off w d n, linkLive s c.val k.val = false →
      exec (.pcieConfigRequest c k f) s = .next s ∧ exec (.pcieBarAccess c k f bar off w d n) s = .next s) ∧
    (∀ (c : Fin 2) (k : Fin 4) (f : Fin 8), linkLive s c.val k.val = true → let b := pcieBase c.val k.val
      let who := fnHolder s c.val (pcieFn s c.val k.val f.val)
      let ur := answer (finc s b Reg.Pcie.UR_CNT) .decodeErr 0
      (pciePer s c.val ≤ f.val → exec (.pcieConfigRequest c k f) s = .next ur) ∧
      (f.val < pciePer s c.val →
        (s.boot.dmc = false → exec (.pcieConfigRequest c k f) s = .next (answer (finc s b Reg.Pcie.RRS_CNT) .none 0)) ∧
        (s.boot.dmc = true → who = 0x1F → f.val ≠ 0 → exec (.pcieConfigRequest c k f) s = .next ur) ∧
        (s.boot.dmc = true → who ≠ 0x1F → (partGet s who).state = 1 →
          exec (.pcieConfigRequest c k f) s = .next (answer (finc s b Reg.Pcie.RRS_CNT) .none 0)) ∧
        (s.boot.dmc = true → (who = 0x1F ∧ f.val = 0) ∨ (who ≠ 0x1F ∧ (partGet s who).state ≠ 1) →
          ∃ v, exec (.pcieConfigRequest c k f) s = .next (answer s .okay v) ∧ v.toNat / 65536 = 0x9680)) ∧
      (∀ bar off w d n, pathPart s (.pcie c k f) = none → exec (.pcieBarAccess c k f bar off w d n) s = .next ur) ∧
      (∀ (bar : Fin 6) off w d n, bar.val % 2 = 1 → exec (.pcieBarAccess c k f bar off w d n) s = .next ur) ∧
      (∀ part (off : BitVec 39), pathPart s (.pcie c k f) = some part → let o := off.toNat
        let at' := fun (bar : Fin 6) => if bar = 0 then 0x10000 + o else o
        let reaches := fun (bar : Fin 6) => (bar = 0 ∧ o < 0x2000 ∧ ((partGet s part).state = 3 → mbHolder s (o / 256) = part)) ∨
          (bar = 2 ∧ o < 2 ^ 28 ∧ (partGet s part).state ≠ 3)
        let fn := 8 * c.val + pcieFn s c.val k.val f.val
        let i := (o - 0x10000) / 4
        (∀ bar : Fin 6, bar.val % 2 = 0 → (partGet s part).state = 3 → ¬ reaches bar → ∀ w d n,
          exec (.pcieBarAccess c k f bar off w d n) s = .next (answer (finc s b Reg.Pcie.CA_CNT) .domainOff 0)) ∧
        (∀ w d n, (partGet s part).state ≠ 3 → 2 ^ 28 ≤ o → exec (.pcieBarAccess c k f 2 off w d n) s = .next ur) ∧
        (∀ bar, reaches bar → let r := csrRead s part (at' bar) 4
          (r.1 = .okay → exec (.pcieBarAccess c k f bar off false [] 4) s = .next (answerBytes r.2.2 .okay (natLe r.2.1.toNat 4))) ∧
          (r.1 = .decodeErr ∨ r.1 = .partErr → exec (.pcieBarAccess c k f bar off false [] 4) s =
            .next (answerBytes (finc r.2.2 b Reg.Pcie.UR_CNT) .decodeErr (natLe r.2.1.toNat 4)))) ∧
        (∀ bar, reaches bar → o % 8 = 0 → let r := csrRead s part (at' bar) 4
          let q := csrRead r.2.2 part (at' bar + 4) 4
          r.1 = .okay → q.1 = .okay → exec (.pcieBarAccess c k f bar off false [] 8) s =
            .next (answerBytes q.2.2 .okay (natLe r.2.1.toNat 4 ++ natLe q.2.1.toNat 4))) ∧
        (∀ bar, reaches bar → ∀ data : List Byte, data.length = 4 →
          let r := csrWrite ⟨some (.pcie c k f), false⟩ s part (at' bar) 4 (BitVec.ofNat 32 (leAt data 0 4))
          r.1 = .okay → exec (.pcieBarAccess c k f bar off true data 0) s = .next (answerBytes r.2 .okay [])) ∧
        ((partGet s part).state ≠ 3 → 0x10000 ≤ o → o < 0x10400 → o % 4 = 0 →
          exec (.pcieBarAccess c k f 0 off false [] 4) s = .next (answer s .okay (msixWord s fn i)) ∧
          ∀ data : List Byte, data.length = 4 → let v := BitVec.ofNat 32 (leAt data 0 4)
            (i % 4 ≠ 3 → exec (.pcieBarAccess c k f 0 off true data 0) s =
              .next (answer (fnUpd s fn (fun x => { x with table := tset 0 x.table i v })) .okay 0)) ∧
            (i % 4 = 3 → v.getLsbD 0 = true → exec (.pcieBarAccess c k f 0 off true data 0) s =
              .next (answer (fnUpd s fn (fun x => { x with table := tset 1 x.table i 1 })) .okay 0)) ∧
            (i % 4 = 3 → v.getLsbD 0 = false → (fnGet s fn).pba.testBit (i / 4) = true → f.val < pciePer s c.val →
              ∃ t, exec (.pcieBarAccess c k f 0 off true data 0) s = .next t ∧ t.msi = s.msi ++ [(fn, i / 4)] ∧
                (fnGet t fn).pba.testBit (i / 4) = false)) ∧
        ((partGet s part).state ≠ 3 → let a := o + mfGet s (0x240 + 16 * c.val + 10) 2 * 2 ^ 30
          let last := 2 ^ (30 + mfGet s (0x240 + 16 * c.val + 8) 1)
          (∀ n : BitVec 10, last < o + n.toNat ∨ 2 ^ 39 < a + n.toNat → exec (.pcieBarAccess c k f 4 off false [] n) s = .next ur) ∧
          (∀ n : BitVec 10, a % 64 = 0 → n.toNat % 64 = 0 → 64 ≤ n.toNat → n.toNat ≤ 512 → o + n.toNat ≤ last → a + n.toNat ≤ 2 ^ 39 →
            let x := inject s (memPacket ⟨c, k, f, false, []⟩ part a [] n.toNat)
            exec (.pcieBarAccess c k f 4 off false [] n) s = .next (if x.1 then x.2 else s)) ∧
          (∀ data : List Byte, a % 64 = 0 → data.length = 64 → o + 64 ≤ last → a + 64 ≤ 2 ^ 39 →
            let x := inject s (memPacket ⟨c, k, f, true, data⟩ part a data 64)
            exec (.pcieBarAccess c k f 4 off true data 0) s = .next (if x.1 then x.2 else s))))) ∧
    (∀ (mb off : Byte) w d n, s.pwr.dormant = true ∨ (s.pwr.hubReset = false ∧ pathPart s .i2c = none) →
      exec (.i2cTransaction mb off w d n) s = .next (answer s .partErr 0)) ∧
    (∀ (mb off : Byte) w d n, s.pwr.dormant = false → s.pwr.hubReset = true → exec (.i2cTransaction mb off w d n) s = .next s) ∧
    (∀ (mb off : Byte) part, s.pwr.dormant = false → s.pwr.hubReset = false → pathPart s .i2c = some part →
      (31 < mb.toNat ∨ mbReach s .i2c part mb.toNat = false → ∀ w d n, exec (.i2cTransaction mb off w d n) s = .next (answer s .partErr 0)) ∧
      (mb.toNat ≤ 31 → mbReach s .i2c part mb.toNat = true → off.toNat % 4 = 0 → let a := mbBase mb.toNat + off.toNat
        (let r := csrRead s part a 4
         exec (.i2cTransaction mb off false [] 4) s = .next (answerBytes r.2.2 .okay (natLe r.2.1.toNat 4))) ∧
        ∀ data : List Byte, data.length = 4 → exec (.i2cTransaction mb off true data 0) s =
          .next (answer (csrWrite ⟨some .i2c, false⟩ s part a 4 (BitVec.ofNat 32 (leAt data 0 4))).2 .okay 0))) ∧
    (∀ (hspi : Bool) (addr v : Word) part, pathPart s (if hspi then .hspi else .hpar) = some part →
      (let r := csrRead s part addr.toNat 4
       exec (.hostRegisterAccess hspi false addr v) s = .next (answer r.2.2 r.1 r.2.1)) ∧
      (let r := csrWrite ⟨some (if hspi then .hspi else .hpar), false⟩ s part addr.toNat 4 v
       exec (.hostRegisterAccess hspi true addr v) s = .next (answer r.2 r.1 0))) ∧
    (∀ (hspi : Bool) (addr v : Word) w, pathPart s (if hspi then .hspi else .hpar) = none → exec (.hostRegisterAccess hspi w addr v) s = .next s)

/-- 13 R374 to R378, R381, R382, R397: what becomes of a mailbox command of any opcode: a path that reaches no mailbox, a mailbox of another
partition, a slot that is BUSY, firmware that does not run, the first failed check, and the in-slot `ABORT`. Model's choices that a clause
rests on: notes/assumptions/18.md, notes/assumptions/19.md. Forms shown to complete, each by a clause that concludes exec = next with the
form's own effect, under conditions on state and operands alone: badOpcode. -/
def Obligations.MailboxDoorbellsFollowTheirRules : Prop :=
  ∀ (s : State) (i : Instr) (op : Nat) (r : MbReq), mailboxOf i = some (op, r) → let n := r.mb.val
    let inSlot := op = 0xF0 ∧ r.len = 0
    (s.pwr.hubReset = true → exec i s = .next s) ∧
    (s.pwr.hubReset = false → pathPart s r.path = none → exec i s = .next (answer s .none 0)) ∧
    (∀ part, s.pwr.hubReset = false → pathPart s r.path = some part →
      (mbReach s r.path part n = false → exec i s = .next (answer s (if r.path = .i2c then .none else .partErr) 0)) ∧
      (mbReach s r.path part n = true → slotClosed s n = true → ¬ inSlot → exec i s = .next (answer s .okay 0)) ∧
      (mbReach s r.path part n = true → slotClosed s n = false → s.boot.dmc = false → ¬ inSlot → ∃ t, exec i s = .next t ∧
        (mbGet t n).bell = some r.path ∧ (mbGet t n).state = (mbGet s n).state ∧ { t with mb := s.mb, rsp := s.rsp } = s) ∧
      (mbReach s r.path part n = true → mbBusy s n = false → slotClosed s n = true → inSlot → doneNow s n = false →
        exec i s = .next (mbUpd (answer s .okay 0) n (fun m => { m with abortBell := some r.path }))) ∧
      (mbReach s r.path part n = true → mbBusy s n = true → inSlot → devState s = 0 → s.pwr.dormant = false →
        let same := ∃ q, (mbGet s n).path = some q ∧ samePath r.path q = true
        let stops := stoppable (mbGet s n).ropcode = true ∧ completesNow s n = false
        let seen := fun (t : State) (code : Nat) => (mbGet t n).abortSeen = true ∧ (mbGet t n).abortCode = code
        (¬ same → ∃ t, exec i s = .next t ∧ seen t 4 ∧ (mbGet t n).state = 1) ∧
        (same → ¬ stops → ∃ t, exec i s = .next t ∧ seen t 6 ∧ (mbGet t n).state = 1) ∧
        (same → stops → (∀ k, k ≠ n → waiting s k = false) → ∃ t, exec i s = .next t ∧ seen t 0 ∧ (mbGet t n).state = 2 ∧
          (mbGet t n).code = 7))) ∧
    (∀ part e, offered s r part → ¬ (inSlot ∧ doneNow s n = true) → op < 65536 → cmdGate s (cmdOf op r part) = some e →
      ∃ t, exec i s = .next t ∧ ended t n e.1 [] ∧
      (mbGet t n).detail = (if e.1 = 0 then 0 else e.2) ∧ (mbGet t n).doneCnt = ((mbGet s n).doneCnt + 1) % 65536 ∧
      (∀ k, k ≠ n → mbGet t k = mbGet s k) ∧ t.sessions = (sampled s op r).sessions ∧ t.csr = s.csr) ∧
    (∀ part, offered s r part → (cmdRow op).isNone = true → op < 65536 → ∃ t, exec i s = .next t ∧ ended t n 2 []) ∧
    (∀ part (x : BitVec 16), offered s r part → (cmdRow x.toNat).isNone = true → ∃ t, exec (.badOpcode r x) s = .next t ∧ ended t n 2 [])

/-- 00 R10 and 13 R381, R393 to R398: the commands of identity, sessions and partitions, served as they are submitted. Model's choices that a
clause rests on: notes/assumptions/18.md, notes/assumptions/19.md, notes/assumptions/49.md. Forms shown to complete, each by a clause that
concludes exec = next with the form's own effect, under conditions on state and operands alone: devInfo, ifLevel, attach, detach,
partInfo, abort, echo. -/
def Obligations.SessionAndIdentityCommands : Prop :=
  ∀ (s : State) (r : MbReq) (part : Nat), let n := r.mb.val
    let pl := r.payload
    let was := fun (op : Nat) => (sampled s op r).sessions
    let other := fun (p : Nat) => part ≠ 0 ∧ p ≠ part
    (accepted s 0x01 r part → ∃ t rsp, exec (.devInfo r) s = .next t ∧ ended t n 0 rsp ∧ rsp.length = 36 ∧
      leAt rsp 0 4 = fget s 0 Reg.Hub.IDCODE % 2 ^ 32 ∧ leAt rsp 32 4 = fget s 0 Reg.Hub.GENERATION % 2 ^ 32 ∧ t.csr = s.csr) ∧
    (accepted s 0x02 r part → (pb pl 0 = 0 ∨ pb pl 0 = 3 → ∃ t, exec (.ifLevel r) s = .next t ∧ ended t n 0 [3]) ∧
      (pb pl 0 ≠ 0 → pb pl 0 ≠ 3 → ∃ t, exec (.ifLevel r) s = .next t ∧ ended t n 3 [])) ∧
    (accepted s 0x10 r part →
      let bad := 1 < pb pl 0 ∨ pb pl 1 ≠ 0 ∨ 3600 < leAt pl 2 2
      let full := (planGet s part).maxSess ≤ liveSessions s part ∨ 64 ≤ s.sessions.length
      (bad → ∃ t, exec (.attach r) s = .next t ∧ ended t n 3 [] ∧ t.sessions = was 0x10) ∧
      (¬ bad → full → ∃ t, exec (.attach r) s = .next t ∧ ended t n 5 [] ∧ t.sessions = was 0x10) ∧
      (¬ bad → ¬ full → pb pl 0 = 0 → ∃ t id, exec (.attach r) s = .next t ∧ 1 ≤ id ∧ id ≤ 65535 ∧ (∀ x ∈ s.sessions, x.id ≠ id) ∧
        t.sessions = was 0x10 ++ [⟨id, part, r.path, leAt pl 2 2, (pl.drop 4).take 16, s.up + 1⟩] ∧
        ended t n 0 (natLe id 2 ++ [byte part, byte (liveSessions s part + 1), byte (partGet s part).state]) ∧ t.parts = s.parts) ∧
      (¬ bad → ¬ full → pb pl 0 = 1 → ∃ t rsp, exec (.attach r) s = .next t ∧ ended t n 0 rsp ∧
        ((partGet s part).state = 3 → (partGet s part).stopAt ≠ s.up + 1 →
          (partGet t part).state = 2 ∧ (partGet t part).escalated = false))) ∧
    (accepted s 0x11 r part → let p := pb pl 1
      let gone := fun (x : Session) => x.part == p && (pb pl 0 / 2 % 2 == 1 || x.id == r.session.toNat)
      (other p → ∃ t, exec (.detach r) s = .next t ∧ ended t n 4 [] ∧ t.parts = s.parts) ∧
      (¬ other p → 3 < pb pl 0 ∨ 16 < p → ∃ t, exec (.detach r) s = .next t ∧ ended t n 3 [] ∧ t.parts = s.parts) ∧
      (¬ other p → pb pl 0 ≤ 3 → p ≤ 16 → ∃ t rsp, exec (.detach r) s = .next t ∧ ended t n 0 rsp ∧
        t.sessions = (was 0x11).filter (fun x => !gone x) ∧ (pb pl 0 % 2 = 0 → t.parts = s.parts) ∧
        (pb pl 0 % 2 = 1 → p ≠ 0 → (partGet s p).state = 2 ∨ (partGet s p).state = 3 →
          (partGet t p).state = 3 ∧ (partGet t p).cause = 3))) ∧
    (accepted s 0x12 r part → let p := pb pl 0
      let bad := 16 < p ∨ zeros pl 1 4 = false ∨ 128 < leAt pl 8 4 ∨ 2 ^ 22 < leAt pl 4 4 + leAt pl 8 4
      (other p → ∃ t, exec (.partInfo r) s = .next t ∧ ended t n 4 []) ∧
      (¬ other p → bad → ∃ t, exec (.partInfo r) s = .next t ∧ ended t n 3 []) ∧
      (¬ other p → ¬ bad → ∃ t rsp, exec (.partInfo r) s = .next t ∧ ended t n 0 rsp ∧ rsp.length = 104 + leAt pl 8 4 ∧ pb rsp 0 = p ∧
        pb rsp 1 = (partGet s p).state % 256 ∧ ∀ k, k < leAt pl 8 4 → let g := granGet s (leAt pl 4 4 + k)
          pb rsp (104 + k) = (if part = 0 ∨ g.owner = part then granByte g % 256 else 255))) ∧
    (accepted s 0xF1 r part → ∃ t, exec (.echo r) s = .next t ∧ ended t n 0 pl) ∧
    (accepted s 0xF0 r part → let k := pb pl 0
      let asks := pb pl 1 = 0 ∧ k ≠ n ∧ (mbBusy s k = true ∨ doneNow s k = true) ∧ (mbGet s k).rseq = leAt pl 2 2
      let may := (mbGet s k).rsession = 0 ∨ (mbGet s k).rsession = r.session.toNat
      let stops := stoppable (mbGet s k).ropcode = true ∧ doneNow s k = false ∧ completesNow s k = false
      (k ≤ 31 → mbHolder s k ≠ part → ∃ t, exec (.abort r) s = .next t ∧ ended t n 4 []) ∧
      (31 < k ∨ (mbHolder s k = part ∧ ¬ asks) → ∃ t, exec (.abort r) s = .next t ∧ ended t n 3 []) ∧
      (k ≤ 31 → mbHolder s k = part → asks →
        (¬ may → ∃ t, exec (.abort r) s = .next t ∧ ended t n 4 [] ∧ mbGet t k = mbGet s k) ∧
        (may → ¬ stops → ∃ t, exec (.abort r) s = .next t ∧ ended t n 6 [] ∧ mbGet t k = mbGet s k) ∧
        (may → stops → ∃ t, exec (.abort r) s = .next t ∧ ended t n 0 [] ∧ (mbGet t k).state = 2 ∧ (mbGet t k).code = 7)))

/-- 13 R380, R398; 14 R428, R431; 07 R202, R219: the commands on logic islands and on engines, served as they are submitted and with their
objects free, and what each answers where its checks fail. Model's choices that a clause rests on: notes/assumptions/18.md,
notes/assumptions/20.md, notes/assumptions/49.md. Forms shown to complete, each by a clause that concludes exec = next with the form's own
effect, under conditions on state and operands alone: regionLoad, regionUnload, regionStatus, engineLoad, periodSet, engineStats. -/
def Obligations.RegionAndEngineCommands : Prop :=
  ∀ (s : State) (r : MbReq) (part : Nat), let n := r.mb.val
    let pl := r.payload
    let ns := regionIslands pl
    let e := eisOf pl
    let may := fun (op : Nat) => holdsRegion s (cmdOf op r part) = true ∧ regionOk (cmdOf op r part) = true
    let free := fun (op : Nat) => splicesWhole s ns = true ∧ dieOut s (pb pl 0) = false ∧ objsFree s (cmdOf op r part) = true
    let engines := fun (op : Nat) => holdsEngines s (cmdOf op r part) = true ∧ enginesOk (cmdOf op r part) = true ∧ dieOut s (pb pl 0) = false
    let ends := fun (i : Instr) (code : Nat) => ∃ t, exec i s = .next t ∧ ended t n code [] ∧ t.csr = s.csr
    let rgn := fun (i : Instr) (op : Nat) => accepted s op r part →
      (holdsRegion s (cmdOf op r part) = false → ends i 4) ∧
      (holdsRegion s (cmdOf op r part) = true → regionOk (cmdOf op r part) = false → ends i 3) ∧
      (op ≠ 0x22 → may op → splicesWhole s ns = false ∨ (op = 0x20 ∧ descAt pl 16 = none) → ends i 3) ∧
      (op ≠ 0x22 → may op → splicesWhole s ns = true → (op = 0x20 → descAt pl 16 ≠ none) →
        (dieOut s (pb pl 0) = true → ends i 8) ∧
        (dieOut s (pb pl 0) = false → objsFree s (cmdOf op r part) = true → regionMoves s ns = false → regionOff s ns ≠ none → ends i 8) ∧
        (dieOut s (pb pl 0) = false → objsFree s (cmdOf op r part) = false ∨ regionMoves s ns = true →
          ∃ t, exec i s = .next t ∧ waiting t n = true ∧ t.csr = s.csr))
    let eng := fun (i : Instr) (op : Nat) (ok : Prop) => accepted s op r part →
      (holdsEngines s (cmdOf op r part) = false → ends i 4) ∧
      (holdsEngines s (cmdOf op r part) = true → enginesOk (cmdOf op r part) = false ∨ ¬ ok → ends i 3) ∧
      (holdsEngines s (cmdOf op r part) = true → enginesOk (cmdOf op r part) = true → ok → dieOut s (pb pl 0) = true → ends i 8)
    let loadOk := pb pl 4 < 16 ∧ zeros pl 5 16 = true ∧ descAt pl 16 ≠ none
    let setOk := pb pl 2 ≤ 7 ∧ pb pl 3 < 4 ∧ ((pb pl 3).testBit 0 = true → classOk (leAt pl 4 2) (leAt pl 6 2) (leAt pl 8 2) = true)
    rgn (.regionLoad r) 0x20 ∧ rgn (.regionUnload r) 0x21 ∧ rgn (.regionStatus r) 0x22 ∧
    eng (.engineLoad r) 0x30 loadOk ∧ eng (.periodSet r) 0x31 setOk ∧
    eng (.engineStats r) 0x32 ((cmdEngines (cmdOf 0x32 r part)).length ≤ 8 ∧ pb pl 4 < 2) ∧
    (∀ a len, accepted s 0x20 r part → may 0x20 → free 0x20 → (∀ k ∈ ns, islState s k = 0 ∨ islState s k = 2) → s.load = none →
      descAt pl 16 = some (a, len) → descPermit s part a len = .okay → ∃ t l, exec (.regionLoad r) s = .next t ∧ inService t n 0x20 ∧
        t.load = some l ∧ l.partialLoad = true ∧ l.mb = n ∧ l.die = pb pl 0 ∧ l.islands = (ns.map (fun k => 2 ^ (k % 48))).sum ∧
        l.stage = 0 ∧ l.fail = none ∧ t.isl = s.isl ∧ t.csr = s.csr ∧ t.frames = s.frames) ∧
    (∀ a len, accepted s 0x20 r part → may 0x20 → free 0x20 → (∀ k ∈ ns, islState s k = 0 ∨ islState s k = 2) → s.load = none →
      descAt pl 16 = some (a, len) → let d := descPermit s part a len
      d ≠ .okay → ends (.regionLoad r) (if d = .partErr then 4 else 8)) ∧
    (accepted s 0x21 r part → may 0x21 → free 0x21 → (∀ k ∈ ns, islState s k = 0 ∨ islState s k = 2) →
      ∃ t, exec (.regionUnload r) s = .next t ∧ inService t n 0x21 ∧ t.frames = s.frames ∧ ∀ k ∈ ns, (nocGet t k).kind = 3 ∧
        (islGet t k).pendRel = false ∧ (islGet t k).image = (islGet s k).image ∧
        islState t k = (if islState s k = 0 then 1 else 2)) ∧
    (accepted s 0x22 r part → may 0x22 → ∃ t, exec (.regionStatus r) s = .next t ∧ t.csr = s.csr ∧ t.isl = s.isl ∧
      ended t n 0 (ns.flatMap (fun k => [byte (regionState s k), byte (islState s k), 0, 0] ++ natLe (islGet s k).imageHash.toNat 4))) ∧
    (∀ x bytes v, accepted s 0x30 r part → engines 0x30 → pb pl 4 < 16 → zeros pl 5 16 = true → descAt pl 16 = some x →
      objsFree s (cmdOf 0x30 r part) = true → (eisGet s e).pst = 0 → dmcRead (sampled s 0x30 r) part x.1 x.2 = (.okay, bytes, v) →
      v.mb = (sampled s 0x30 r).mb → v.pwr = s.pwr → devState v = 0 →
      (parseImg bytes = none → ∃ t, exec (.engineLoad r) s = .next t ∧ ended t n 8 []) ∧
      (∀ g, parseImg bytes = some g → featureLevel v < g.level → ∃ t, exec (.engineLoad r) s = .next t ∧ ended t n 10 []) ∧
      (∀ g, parseImg bytes = some g → g.level ≤ featureLevel v → ∃ t, exec (.engineLoad r) s = .next t ∧ inService t n 0x30 ∧
        (mbGet t n).data = bytes ∧ ∀ k ∈ cmdEngines (cmdOf 0x30 r part), (engGet t k).loadWait = true)) ∧
    (∀ x, accepted s 0x30 r part → engines 0x30 → loadOk → descAt pl 16 = some x → objsFree s (cmdOf 0x30 r part) = true →
      ((eisGet s e).pst ≠ 0 → ends (.engineLoad r) 8) ∧
      ((eisGet s e).pst = 0 → ∀ v, dmcRead (sampled s 0x30 r) part x.1 x.2 = v → v.1 ≠ .okay → v.2.2.mb = (sampled s 0x30 r).mb →
        v.2.2.pwr = s.pwr → devState v.2.2 = 0 →
        ∃ t, exec (.engineLoad r) s = .next t ∧ ended t n (if v.1 = .partErr then 4 else 8) [])) ∧
    (accepted s 0x31 r part → engines 0x31 → objsFree s (cmdOf 0x31 r part) = true → setOk → leAt pl 14 2 = 0 →
      ∃ t, exec (.periodSet r) s = .next t ∧ ended t n 0 [] ∧
        ((pb pl 3).testBit 0 = true → tget (0, 0, 0) (eisGet t e).periods (pb pl 2) =
          (if leAt pl 4 2 = 0 then (0, 0, 0) else (leAt pl 4 2, leAt pl 6 2, leAt pl 8 2))) ∧
        ((pb pl 3).testBit 1 = true → ∀ k < 16, tget 0 (eisGet t e).binds k =
          if (leAt pl 10 2).testBit k then pb pl 2 + 8 else if (leAt pl 12 2).testBit k then tget 0 (eisGet s e).binds k % 8
          else tget 0 (eisGet s e).binds k)) ∧
    (accepted s 0x32 r part → engines 0x32 → (cmdEngines (cmdOf 0x32 r part)).length ≤ 8 → pb pl 4 < 2 →
      ∃ t, exec (.engineStats r) s = .next t ∧ ended t n 0 ((cmdEngines (cmdOf 0x32 r part)).flatMap (engStats s)) ∧
        (pb pl 4 = 0 → t.csr = s.csr) ∧
        (pb pl 4 = 1 → ∀ k ∈ cmdEngines (cmdOf 0x32 r part), 
          fget t (engBase k) Reg.Eng.STARTS = ffresh s (engBase k) Reg.Eng.STARTS ∧ fget t (engBase k) Reg.Eng.OVERRUN = ffresh s (engBase k) Reg.Eng.OVERRUN))

/-- 13 R398; 12 R338, R349, R354, R357, R360: the commands on lanes, served as they are submitted and with the lane free. Model's choices that
a clause rests on: notes/assumptions/18.md, notes/assumptions/21.md, notes/assumptions/46.md. Forms shown to complete, each by a clause
that concludes exec = next with the form's own effect, under conditions on state and operands alone: linkSet, linkStatus, linkTest. -/
def Obligations.LinkCommands : Prop :=
  ∀ (s : State) (r : MbReq) (part : Nat), let n := r.mb.val
    let pl := r.payload
    let k := laneOf pl
    let ends := fun (i : Instr) (code : Nat) => ∃ t, exec i s = .next t ∧ ended t n code [] ∧ t.csr = s.csr ∧ t.lane = s.lane
    let hub := pb pl 0 = 8
    let mine := holdsLink s (cmdOf 0x40 r part) = true
    let named := pb pl 0 ≤ 7 ∧ pb pl 1 ≤ 3 ∧ pb pl 2 ≤ 3 ∧ dieOut s (pb pl 0) = false ∧ fbit s (lb k) Reg.Lane.GROUP_MEMBER = false
    (accepted s 0x40 r part →
      (¬ mine → ends (.linkSet r) 4) ∧
      (mine → ¬ (pb pl 0 ≤ 7 ∧ pb pl 1 ≤ 3 ∧ pb pl 2 ≤ 3 ∧ pb pl 3 ≤ 2) ∨ (pb pl 3 = 1 ∧ linkSettings (cmdOf 0x40 r part) = false) ∨
        fbit s (lb k) Reg.Lane.GROUP_MEMBER = true → ends (.linkSet r) 3)) ∧
    (accepted s 0x41 r part → (holdsLink s (cmdOf 0x41 r part) = false → ends (.linkStatus r) 4) ∧
      (holdsLink s (cmdOf 0x41 r part) = true → 7 < pb pl 0 ∨ 3 < pb pl 1 ∨ 16 ≤ pb pl 2 → ends (.linkStatus r) 3)) ∧
    (accepted s 0x40 r part → holdsLink s (cmdOf 0x40 r part) = true → named → objsFree s (cmdOf 0x40 r part) = true →
      (pb pl 3 = 0 → ∃ t, exec (.linkSet r) s = .next t ∧ ended t n 0 [] ∧ (laneGet t k).enabled = false ∧
        ((quadGet s (quadOf pl)).pst = 0 → linkState t k = 0)) ∧
      (pb pl 3 = 1 → linkSettings (cmdOf 0x40 r part) = true → (quadGet s (quadOf pl)).pst = 4 → ends (.linkSet r) 8) ∧
      (pb pl 3 = 1 → linkSettings (cmdOf 0x40 r part) = true → (quadGet s (quadOf pl)).pst = 0 →
        (fbit s (quadBase (quadOf pl)) Reg.Quad.REFCLK_OK = false ∨ fbit s (quadBase (quadOf pl)) Reg.Quad.MCU_RUN = false →
          ends (.linkSet r) 8) ∧
        (fbit s (quadBase (quadOf pl)) Reg.Quad.REFCLK_OK = true → fbit s (quadBase (quadOf pl)) Reg.Quad.MCU_RUN = true →
          (baudFits s k (pb pl 4) (leAt pl 6 2) (leAt pl 8 4) = false → ∃ t, exec (.linkSet r) s = .next t ∧ ended t n 3 [] ∧ t.lane = s.lane) ∧
          (baudFits s k (pb pl 4) (leAt pl 6 2) (leAt pl 8 4) = true → ∃ t, exec (.linkSet r) s = .next t ∧ ended t n 0 [] ∧
            (laneGet t k).enabled = true ∧ (laneGet t k).fec = pb pl 5 ∧ (laneGet t k).adv = leAt pl 6 2 ∧ (laneGet t k).rate = leAt pl 8 4 ∧
            laneMode t k = pb pl 4 ∧
            linkState t k = (if linkState s k = 6 ∧ laneMode s k = pb pl 4 then 4 else if pb pl 4 = 0x20 then 2
              else if rawMode (pb pl 4) then 3 else 1)))) ∧
      (pb pl 3 = 2 → (linkState s k = 5 → ∃ t, exec (.linkSet r) s = .next t ∧ ended t n 0 [] ∧ linkState t k = 6) ∧
        (linkState s k ≠ 5 → ends (.linkSet r) 8))) ∧
    (accepted s 0x41 r part → holdsLink s (cmdOf 0x41 r part) = true → pb pl 0 ≤ 7 → pb pl 1 ≤ 3 → pb pl 2 < 16 → dieOut s (pb pl 0) = false →
      ∃ t, exec (.linkStatus r) s = .next t ∧ t.csr = s.csr ∧ ended t n 0 (((List.range 4).filter (fun l => (pb pl 2).testBit l)).flatMap
        (fun l => laneStatus s (4 * (4 * (pb pl 0 % 8) + pb pl 1 % 4) + l)))) ∧
    (accepted s 0x42 r part →
      let may := if hub then part = 0 else holdsLink s (cmdOf 0x42 r part) = true
      let place := (if hub then pb pl 1 ≤ 7 else pb pl 0 ≤ 7 ∧ pb pl 1 ≤ 3) ∧ pb pl 2 ≤ 3 ∧ pb pl 3 ≤ 1 ∧ zeros pl 7 8 = true ∧
        fbit s (lb k) Reg.Lane.GROUP_MEMBER = false
      let pattern := pb pl 4 ≤ 7 ∧ pb pl 5 ≤ 7 ∧ pb pl 6 ≤ 3 ∧ leAt pl 8 4 ≤ 3600000
      (¬ may → ends (.linkTest r) 4) ∧
      (may → ¬ place ∨ (pb pl 3 = 0 ∧ ¬ pattern) → ends (.linkTest r) 3) ∧
      (may → place → (pb pl 3 = 0 → pattern) →
        (¬ hub → dieOut s (pb pl 0) = true → ends (.linkTest r) 8) ∧
        ((¬ hub → dieOut s (pb pl 0) = false) → objsFree s (cmdOf 0x42 r part) = true →
          (pb pl 3 = 0 → testable s (cmdOf 0x42 r part) = false → ends (.linkTest r) 8) ∧
          (pb pl 3 = 0 → testable s (cmdOf 0x42 r part) = true → ∃ t, exec (.linkTest r) s = .next t ∧ linkState t k = 10 ∧
            fget t (lb k) Reg.Lane.PRBS_GEN = (if patternRefused s k (pb pl 4) then 0 else pb pl 4) ∧
            fget t (lb k) Reg.Lane.PRBS_CHK = (if patternRefused s k (pb pl 5) then 0 else pb pl 5) ∧
            fget t (lb k) Reg.Lane.LOOPBACK = pb pl 6 ∧ fget t (lb k) Reg.Lane.CHK_ERR_LO = 0 ∧
            (leAt pl 8 4 = 0 → ended t n 0 []) ∧ (leAt pl 8 4 ≠ 0 → inService t n 0x42)) ∧
          (pb pl 3 = 1 → linkState s k ≠ 10 → ends (.linkTest r) 8) ∧
          (pb pl 3 = 1 → linkState s k = 10 → ∃ t rsp, exec (.linkTest r) s = .next t ∧ ended t n 0 rsp ∧ rsp.length = 20 ∧
            (fget s (lb k) Reg.Lane.PRBS_CHK = 0 → rsp = testCounts s k) ∧
            linkState t k = (if (laneGet s k).enabled then (if laneMode s k = 0x20 then 2 else if rawMode (laneMode s k) then 3 else 1) else 0) ∧
            fget t (lb k) Reg.Lane.LOOPBACK = 0))))

/-- 13 R398; 15 R440, R444, R452, R454 to R457, R460, R464; 08 R246; 00 R11: the commands on power, health and policy, served as they are
submitted: a domain with its splice, an engine island, a quad or the device, a power-down that meets a wake, and what each answers where
its checks fail. Model's choices that a clause rests on: notes/assumptions/18.md, notes/assumptions/23.md, notes/assumptions/49.md. Forms
shown to complete, each by a clause that concludes exec = next with the form's own effect, under conditions on state and operands alone:
powerSet, deviceState, healthRead, policySet. -/
def Obligations.PowerAndHealthCommands : Prop :=
  ∀ (s : State) (r : MbReq) (part : Nat), let n := r.mb.val
    let pl := r.payload
    let op := fun (code : Nat) => cmdOf code r part
    let v := sampled s 0x50 r
    let kind := pb pl 0
    let st := pb pl 3
    let range := pb pl 1 ≤ 7 ∧ pb pl 2 ≤ (if kind = 0 then 47 else if kind = 1 then 9 else 3) ∧ st ≤ 2 ∧ pb pl 4 ≤ 1
    let out := dieOut s (pb pl 1) = true
    let free := objsFree s (op 0x50) = true
    let target := range ∧ ¬ out ∧ holdsDomain s (op 0x50) = true ∧ free
    let ends := fun (i : Instr) (code : Nat) (rsp : List Byte) => ∃ t, exec i s = .next t ∧ ended t n code rsp ∧ t.csr = s.csr
    let done := fun (t : State) => exec (.powerSet r) s = .next t ∧ ended t n 0 [0]
    let waits := ∃ t, exec (.powerSet r) s = .next t ∧ waiting t n = true ∧ t.csr = s.csr
    (accepted s 0x50 r part → (3 < kind → ends (.powerSet r) 3 []) ∧
      (kind ≤ 2 → (holdsDomain s (op 0x50) = false → ends (.powerSet r) 4 []) ∧
        (holdsDomain s (op 0x50) = true → ¬ range → ends (.powerSet r) 3 []) ∧
        (holdsDomain s (op 0x50) = true → range → (out → ends (.powerSet r) 8 []) ∧ (¬ out → ¬ free → waits)))) ∧
    (accepted s 0x50 r part → kind = 0 → target → let k := 48 * pb pl 1 + pb pl 2
      let ms := spliceMembers s k
      let now := islState s k
      (∀ m ∈ ms, m < 384) → k ∈ ms →
      (goingDown s k = true → waits) ∧
      (now = 2 → (nocGet s k).kind = 0 → st = 0 → ends (.powerSet r) 0 [0]) ∧
      (now = 2 → st ≠ 0 → (∀ m ∈ ms, islState s m = 2 ∧ (nocGet s m).kind = 0) → ∃ t, exec (.powerSet r) s = .next t ∧
        inService t n 0x50 ∧ ∀ m ∈ ms, (nocGet t m).kind = st ∧ (nocGet t m).device = false) ∧
      (now = 0 → st = 0 → ends (.powerSet r) 0 [0]) ∧
      (now = 0 ∨ now = 5 → st ≠ 0 → islMet v ms = true → ends (.powerSet r) 0 [1]) ∧
      (now = 0 → st ≠ 0 → islMet v ms = false → (∀ m ∈ ms, islState s m = 0) → ∃ t, exec (.powerSet r) s = .next t ∧
        inService t n 0x50 ∧ ∀ m ∈ ms, islState t m = 1 ∧ (nocGet t m).kind = st ∧ (islGet t m).keepBram = decide (pb pl 4 = 1)) ∧
      (now = 5 → st ≠ 0 → islMet v ms = false → waits) ∧
      (now = 5 → st = 0 → ∃ t, exec (.powerSet r) s = .next t ∧ inService t n 0x50 ∧ t.csr = s.csr) ∧
      (now = 3 ∨ now = 4 → st + 2 = now → ends (.powerSet r) 0 [0]) ∧
      (now = 3 ∨ now = 4 ∨ now = 6 → st ≠ 0 → st + 2 ≠ now → (∃ m ∈ ms, packetMeets v m = true) → ends (.powerSet r) 0 [1]) ∧
      (now = 3 ∨ now = 4 ∨ now = 6 → st ≠ 0 → st + 2 ≠ now → (∀ m ∈ ms, packetMeets v m = false) →
        ∃ t, done t ∧ ∀ m ∈ ms, islState t m = if st = 1 ∧ (islGet s m).wakeFailed = true then 6 else st + 2) ∧
      (st = 0 → (∀ m ∈ ms, islState s m = 3 ∨ islState s m = 4 ∨ islState s m = 6) →
        ((∀ m ∈ ms, (islGet s m).image = true ∧ islMayRun s m = true) →
          ∃ t, exec (.powerSet r) s = .next t ∧ inService t n 0x50 ∧ ∀ m ∈ ms, islState t m = 5 ∧ (islGet t m).pendRel = true) ∧
        ((∃ m ∈ ms, ¬ ((islGet s m).image = true ∧ islMayRun s m = true)) →
          ∃ t, done t ∧ ∀ m ∈ ms, islState t m = 0 ∧ (islGet t m).wakeFailed = false))) ∧
    (accepted s 0x50 r part → kind = 1 → target → let e := 10 * pb pl 1 + pb pl 2
      let now := (eisGet s e).pst
      let met := runMeets v 1 [e] = true ∨ (eisGet s e).wakeAt = s.up + 1
      (now = wantState st → ∃ t, done t ∧ t.csr = s.csr ∧ (eisGet t e).pst = now ∧ (st ≠ 0 → t.eis = s.eis)) ∧
      (now = 0 → st ≠ 0 → met → ∃ t, exec (.powerSet r) s = .next t ∧ ended t n 0 [1] ∧ t.csr = s.csr ∧ t.eis = s.eis) ∧
      (now = 0 → st ≠ 0 → ¬ met → ∃ t, done t ∧ (eisGet t e).pst = st + 2 ∧ (eisGet t e).hold = true ∧
        (eisGet t e).binds = (eisGet s e).binds ∧ (eisGet t e).srcs = (eisGet s e).srcs) ∧
      (now ≠ 0 → st ≠ 0 → ∃ t, done t ∧ (eisGet t e).pst = st + 2 ∧ t.csr = s.csr) ∧
      (now ≠ 0 → st = 0 → let w := eisWake (eisUpd v e (fun x => { x with wakeAt := s.up + 1 })) e
        w.2.mb = v.mb → w.2.pwr = s.pwr → devState w.2 = 0 → ∃ t, exec (.powerSet r) s = .next t ∧ t.eis = w.2.eis ∧
          if w.1 = none then ended t n 0 [0] else ended t n 8 [])) ∧
    (accepted s 0x50 r part → kind = 2 → target → let q := 4 * pb pl 1 + pb pl 2
      let now := (quadGet s q).pst
      let met := runMeets v 2 [q] = true ∨ linkMeets v q = true ∨ (quadGet s q).wakeAt = s.up + 1
      (now = wantState st → ∃ t, done t ∧ t.csr = s.csr ∧ (quadGet t q).pst = now) ∧
      (now = 0 → st ≠ 0 → met → ∃ t, exec (.powerSet r) s = .next t ∧ ended t n 0 [1] ∧ t.csr = s.csr ∧ t.quad = s.quad) ∧
      (now = 0 → st ≠ 0 → ¬ met → ∃ t, done t ∧ (quadGet t q).pst = st + 2 ∧
        ∀ l < 4, linkState t (4 * q + l) = 0 ∧ (laneGet t (4 * q + l)).enabled = (laneGet s (4 * q + l)).enabled) ∧
      (now ≠ 0 → st ≠ 0 → ∃ t, done t ∧ (quadGet t q).pst = st + 2 ∧ t.csr = s.csr) ∧
      (now ≠ 0 → st = 0 → ∃ t, done t ∧ (quadGet t q).pst = 0)) ∧
    (accepted s 0x50 r part → kind = 3 → let steward := (planGet s part).steward = true
      let asked := protLocked s = true ∧ steward ∧ pb pl 4 ≤ 1
      let deep := decide (st = 4)
      (protLocked s = false ∨ ¬ steward → ends (.powerSet r) 4 []) ∧
      (protLocked s = true → steward → 1 < pb pl 4 ∨ (st ≠ 0 ∧ st ≠ 3 ∧ st ≠ 4) → ends (.powerSet r) 3 []) ∧
      (asked → st = 0 → ∃ t, done t ∧ t.csr = s.csr ∧ t.isl = s.isl) ∧
      (asked → st = 3 ∨ st = 4 → (wakeSources deep).any (wakeEnabled s) = false → ends (.powerSet r) 3 []) ∧
      (asked → st = 3 ∨ st = 4 → (wakeSources deep).any (wakeEnabled s) = true → let met := wakeMeets v deep (bellMeets v (some n))
        (met = true → ∃ t, exec (.powerSet r) s = .next t ∧ ended t n 0 [1] ∧ devState t = 0 ∧ t.isl = s.isl ∧
          fget t pwrBase Reg.Pwr.SLEEP_ABORT_CNT = min (fget s pwrBase Reg.Pwr.SLEEP_ABORT_CNT + 1) (2 ^ 16 - 1) % 2 ^ 16) ∧
        (met = false → ∃ t, done t ∧ devState t = (if deep then 4 else 1) ∧ t.pwr.wake = none ∧ ∀ m < 384, islState s m = 0 →
          islState t m = 1 ∧ (nocGet t m).kind = 1 ∧ (nocGet t m).device = true))) ∧
    (accepted s 0x51 r part → (7 < pb pl 0 → ends (.deviceState r) 3 []) ∧
      (pb pl 0 ≤ 7 → ∃ t rsp, exec (.deviceState r) s = .next t ∧ ended t n 0 rsp ∧ rsp.length = 70 ∧
      pb rsp 0 = 0 ∧ pb rsp 1 = featureLevel s % 256 ∧ pb rsp 2 = fget s 0 Reg.Hub.DIES_PRESENT % 256 ∧
      pb rsp 3 = fget s 0 Reg.Hub.DIES_FENCED % 256 ∧ pb rsp 4 = fget s 0 Reg.Hub.PROT_LOCK % 256 ∧
      (∀ shown : Nat → Nat → Nat, (∀ held x, shown held x = if part = 0 ∨ held = part then x % 256 else 0xFF) →
        (∀ i < 48, pb rsp (8 + i) = shown (islHolder s (48 * pb pl 0 + i)) (islState s (48 * pb pl 0 + i))) ∧
        (∀ i < 10, pb rsp (56 + i) = shown (eisHolder s (10 * pb pl 0 + i)) (eisGet s (10 * pb pl 0 + i)).pst) ∧
        (∀ i < 4, pb rsp (66 + i) = shown (quadHolder s (4 * pb pl 0 + i)) (quadGet s (4 * pb pl 0 + i)).pst)) ∧ t.csr = s.csr)) ∧
    (accepted s 0x52 r part → (4 < pb pl 0 ∨ (if pb pl 0 = 1 then 7 < pb pl 1 else pb pl 1 ≠ 0) → ends (.healthRead r) 3 []) ∧
      (pb pl 1 = 0 → pb pl 0 = 0 → ∃ rsp, ends (.healthRead r) 0 rsp ∧ rsp.length = 10 ∧
        pb rsp 0 = 0 ∧ pb rsp 1 = policy s % 256 ∧ pb rsp 5 = fget s 0 Reg.Hub.DIES_FENCED % 256) ∧
      (pb pl 1 ≤ 7 → pb pl 0 = 1 → ends (.healthRead r) 0 (healthHawsers s (pb pl 1))) ∧
      (pb pl 1 = 0 → pb pl 0 = 2 → ends (.healthRead r) 0 (healthChannels s)) ∧
      (pb pl 1 = 0 → pb pl 0 = 3 → ends (.healthRead r) 0 (healthSensors s)) ∧
      (pb pl 1 = 0 → pb pl 0 = 4 → ends (.healthRead r) 0 (healthSec s part))) ∧
    (accepted s 0x53 r part → let pol := pb pl 0
      let lo := leAt pl 2 2
      let hi := leAt pl 4 2
      let range := pb pl 1 = 0 ∧ 700 ≤ lo ∧ lo ≤ 880 ∧ 700 ≤ hi ∧ hi ≤ 880
      let u := pwrUpd s (fun p => { p with bounds := tset (0, 0) p.bounds part (lo, hi) })
      (part ≠ 0 → pol ≠ 0xFF → ends (.policySet r) 4 []) ∧
      ((part ≠ 0 → pol = 0xFF) → ¬ range ∨ (part = 0 ∧ (2 < pol ∨ hi < lo)) → ends (.policySet r) 3 []) ∧
      (part = 0 → pol ≤ 2 → range → lo ≤ hi → ∃ t, exec (.policySet r) s = .next t ∧ ended t n 0 [] ∧ t.pwr.bounds = u.pwr.bounds ∧
        t.pwr.nextPolicy = (if pol = policy s then none else some pol) ∧ t.parts = s.parts ∧ t.csr = s.csr) ∧
      (part ≠ 0 → pol = 0xFF → range → if boundsMeet (applyBounds u) part then
          ∃ t, exec (.policySet r) s = .next t ∧ ended t n 0 [] ∧ t.pwr.bounds = u.pwr.bounds ∧ t.parts = s.parts ∧ t.csr = s.csr
        else ∃ t, exec (.policySet r) s = .next t ∧ ended t n 4 [] ∧ t.pwr.bounds = s.pwr.bounds ∧ t.parts = s.parts ∧ t.csr = s.csr))

/-- 13 R398, R399; 11 R312, R313, R331; 16 R500 to R503, R506: the commands on memory, field update, journal and alarms, served as they are
submitted, and what each answers where its checks fail or an object that it needs is held. Model's choices that a clause rests on:
notes/assumptions/18.md, notes/assumptions/26.md, notes/assumptions/53.md. Forms shown to complete, each by a clause that concludes exec =
next with the form's own effect, under conditions on state and operands alone: memAlloc, memRelease, subtreeReset, updateStage,
updateStatus, ownerLock, journalRead, alarmRead, alarmAck, journalClear. -/
def Obligations.MemoryUpdateAndRecordCommands : Prop :=
  ∀ (s : State) (r : MbReq) (part : Nat), let n := r.mb.val
    let pl := r.payload
    let lo := leAt pl 0 4
    let cnt := leAt pl 4 4
    let free := fun (op : Nat) => objsFree s (cmdOf op r part) = true
    let ends := fun (i : Instr) (code : Nat) (rsp : List Byte) => ∃ t, exec i s = .next t ∧ ended t n code rsp ∧ t.csr = s.csr ∧
      t.sec = s.sec ∧ t.flash = s.flash ∧ t.alarms = s.alarms
    let waits := fun (i : Instr) => ∃ t, exec i s = .next t ∧ waiting t n = true ∧ t.csr = s.csr ∧ t.sec = s.sec ∧ t.flash = s.flash
    let logged := fun (t : State) (code arg : Nat) => journalHeld s = false → ∃ j ∈ t.flash.journal, j.index = s.flash.nextJ ∧ j.code = code ∧
      j.arg = arg
    (accepted s 0x60 r part → let first := lo ≠ 0xFFFFFFFF
      let ok := 1 ≤ cnt ∧ cnt ≤ 524288 ∧ (first → lo < 2 ^ 22)
      let given := fun (a : Nat) => ∃ t, exec (.memAlloc r) s = .next t ∧ ended t n 0 (natLe a 4 ++ natLe cnt 4) ∧ t.csr = s.csr ∧
        ∀ g, a ≤ g → g < a + cnt →
          (granWork s g (g + 1) = false → (granGet t g).owner = part ∧ (granGet t g).init = (granGet s g).init) ∧
          (granWork s g (g + 1) = true → granGet t g = granGet s g ∧ ⟨g, some (part, false), false, false⟩ ∈ t.sec.writes)
      let may := first → rangesCover (planGet s part).granges 5 lo (lo + cnt) = true
      (¬ ok → ends (.memAlloc r) 3 []) ∧
      (ok → ¬ may → ends (.memAlloc r) 4 []) ∧
      (ok → may → ¬ free 0x60 → waits (.memAlloc r)) ∧
      (ok → may → free 0x60 → (first → if takenIn s lo (lo + cnt) = [] then given lo else ends (.memAlloc r) 5 []) ∧
        (¬ first → match lowestRun s part cnt with
          | some a => given a
          | none => ends (.memAlloc r) 5 []))) ∧
    (accepted s 0x61 r part → let ok := lo < 2 ^ 22 ∧ 1 ≤ cnt ∧ cnt ≤ 2 ^ 22
      (¬ ok → ends (.memRelease r) 3 []) ∧
      (ok → mayRelease s part lo cnt = false → ends (.memRelease r) 4 []) ∧
      (ok → mayRelease s part lo cnt = true → (¬ free 0x61 → waits (.memRelease r)) ∧
        (free 0x61 → granWork s lo (lo + cnt) = true → ∃ t, exec (.memRelease r) s = .next t ∧ inService t n 0x61 ∧ t.sec = s.sec) ∧
        (free 0x61 → granWork s lo (lo + cnt) = false → rising s.sec.gran → ∃ t, exec (.memRelease r) s = .next t ∧
          ended t n 0 [] ∧ ∀ g, if lo ≤ g ∧ g < lo + cnt then (granGet t g).owner = 0x1F ∧ (granGet t g).init = false
            else granGet t g = granGet s g))) ∧
    (accepted s 0x62 r part → let ok := zeros pl 1 4 = true ∧ resetOk s (pb pl 0) cnt = true
      (¬ ok → ends (.subtreeReset r) 3 []) ∧
      (ok → resetMay s part (pb pl 0) cnt = false → ends (.subtreeReset r) 4 []) ∧
      (ok → resetMay s part (pb pl 0) cnt = true → (¬ free 0x62 → waits (.subtreeReset r)) ∧
        (free 0x62 → ∃ t, exec (.subtreeReset r) s = .next t ∧ inService t n 0x62 ∧ t.sec = { s.sec with reset := some (pb pl 0, cnt) }))) ∧
    (accepted s 0x70 r part → let ok := stageOk (cmdOf 0x70 r part) = true
      (¬ ok → ends (.updateStage r) 3 []) ∧
      (∀ k, ok → stageBlock s true = some k → ∃ t, exec (.updateStage r) s = .next t ∧ ended t n 4 [] ∧ (mbGet t n).detail = detail 8 k 0 ∧
        t.flash = s.flash) ∧
      (ok → stageBlock s true = none → ¬ free 0x70 → waits (.updateStage r)) ∧
      (∀ x, descAt pl 16 = some x → ok → stageBlock s true = none → free 0x70 → let v := dmcRead (sampled s 0x70 r) part x.1 x.2
        v.2.2.mb = (sampled s 0x70 r).mb → v.2.2.pwr = s.pwr → devState v.2.2 = 0 → v.2.2.flash = s.flash → idleSlot v.2.2 = idleSlot s →
        (v.1 = .okay → ∃ t, exec (.updateStage r) s = .next t ∧ inService t n 0x70 ∧ (mbGet t n).data = v.2.1 ∧
          t.flash.staging = true ∧ marker t (idleSlot s) = false) ∧
        (v.1 ≠ .okay → ∃ t, exec (.updateStage r) s = .next t ∧ ended t n (if v.1 = .partErr then 4 else 8) [] ∧ t.flash = s.flash))) ∧
    (accepted s 0x71 r part → ∃ rsp, ends (.updateStatus r) 0 rsp ∧ rsp.length = 20 ∧
      leAt rsp 0 4 = s.flash.generation % 2 ^ 32 ∧ pb rsp 4 = (if marker s (idleSlot s) then 2 else if s.flash.staging then 1 else 0) ∧
      (∀ i < 8, pb rsp (5 + i) = s.flash.verify.getD i 0 % 256) ∧
      pb rsp 13 = (if s.flash.ownerLock then 1 else 0) ∧ pb rsp 14 = (if s.pwr.plantBatt ∨ s.pwr.marginLow then 1 else 0)) ∧
    (accepted s 0x72 r part → (1 < pb pl 0 → ends (.ownerLock r) 3 []) ∧
      (pb pl 0 ≤ 1 → (¬ free 0x72 → waits (.ownerLock r)) ∧ (free 0x72 → ∃ t, exec (.ownerLock r) s = .next t ∧ ended t n 0 [] ∧
        t.flash.ownerLock = decide (pb pl 0 = 1) ∧ logged t 0x92 (pb pl 0) ∧ t.flash.bytes = s.flash.bytes ∧ t.csr = s.csr))) ∧
    (accepted s 0x80 r part → (¬ (1 ≤ pb pl 4 ∧ pb pl 4 ≤ 14) → ends (.journalRead r) 3 []) ∧
      (1 ≤ pb pl 4 → pb pl 4 ≤ 14 → let rs := (s.flash.journal.filter (fun j => decide (lo ≤ j.index))).take (pb pl 4)
        ∃ rsp, ends (.journalRead r) 0 rsp ∧ pb rsp 0 = rs.length ∧ leAt rsp 4 4 = (s.flash.nextJ - 1) % 2 ^ 32 ∧
          rsp.drop 16 = rs.flatMap jBytes)) ∧
    (accepted s 0x83 r part → (¬ free 0x83 → waits (.journalClear r)) ∧ (free 0x83 → ∃ t, exec (.journalClear r) s = .next t ∧
      ended t n 0 [] ∧ t.flash.steps = [] ∧ t.flash.rates = [] ∧ logged t 0x93 0 ∧ t.flash.bytes = s.flash.bytes ∧ t.csr = s.csr)) ∧
    (accepted s 0x81 r part → (¬ (1 ≤ pb pl 4 ∧ pb pl 4 ≤ 9) → ends (.alarmRead r) 3 []) ∧
      (1 ≤ pb pl 4 → pb pl 4 ≤ 9 → let rs := ((s.alarms.filter (alarmSeen s part)).filter (fun a => decide (lo ≤ a.seq))).take (pb pl 4)
        ∃ rsp, ends (.alarmRead r) 0 rsp ∧ pb rsp 0 = rs.length ∧
          pb rsp 1 = (if alarmAsserted s then 1 else 0) + (if s.alarmLost then 2 else 0) ∧ rsp.drop 16 = rs.flatMap alarmBytes)) ∧
    (accepted s 0x82 r part → ∃ t rsp, exec (.alarmAck r) s = .next t ∧ ended t n 0 rsp ∧ t.alarms =
      s.alarms.map (fun a => if a.seq ≤ lo ∧ (part = 0 ∨ a.part = part) then { a with acked := true } else a) ∧
      leAt rsp 0 4 = (t.alarms.filter (fun a => !a.acked && alarmSeen s part a)).length % 2 ^ 32 ∧
      (part ≠ 0 → t.alarmLost = s.alarmLost) ∧ (part = 0 → t.alarmLost = (s.alarmLost && !decide (s.lostSeq ≤ lo))))

/-- 13 R375, R377, R380, R382, R395, R396, R398, R400; 07 R219; 12 R369: how commands in service end, how sessions end, and the restart of the
management controller. Model's choices that a clause rests on: notes/assumptions/18.md, notes/assumptions/27.md, notes/assumptions/49.md.
Forms shown to complete, each by a clause that concludes exec = next with the form's own effect, under conditions on state and operands
alone: commandComplete, commandTimeout, objectWaitTimeout, leaseExpire, pathLoss, dmcRestart. -/
def Obligations.CommandsAndSessionsEnd : Prop :=
  ∀ (s : State) (mb : Fin 32), let n := mb.val
    let m := mbGet s n
    let quiet := ∀ k, waiting s k = false
    let ran := mbBusy s n = true ∧ m.wait = .run ∧ quiet
    let lo := leAt m.cmd 0 4
    let cnt := leAt m.cmd 4 4
    let others := fun (t : State) => ∀ k, k ≠ n → mbGet t k = mbGet s k
    let ok := fun (t : State) (rsp : List Byte) => exec (.commandComplete mb .ok) s = .next t ∧ ended t n 0 rsp
    let still := exec (.commandComplete mb .ok) s = .next s
    (ran → m.ropcode = 0x70 →
      (∀ k, stageBlock s false = some k → ∃ t, exec (.commandComplete mb .ok) s = .next t ∧ ended t n 4 [] ∧ (mbGet t n).detail = detail 8 k 0 ∧
        t.flash = (stageStop s n).flash) ∧
      (stageBlock s false = none → let w := flashWrite s (idleSlot s) (4096 * lo) m.data
        ((pb m.cmd 4).testBit 1 = false → ∃ t, ok t (natLe m.data.length 4) ∧ t.flash = w.flash) ∧
        ((pb m.cmd 4).testBit 1 = true → ∃ t, ok t (natLe m.data.length 4) ∧ t.flash.staging = false ∧ marker t (idleSlot s) = true ∧
          t.flash.bytes = w.flash.bytes))) ∧
    (ran → m.ropcode = 0x61 →
      (granWork s lo (lo + cnt) = false → ∃ t, ok t [] ∧ t.sec = (releaseGrans s lo cnt).sec) ∧ (granWork s lo (lo + cnt) = true → still)) ∧
    (ran → m.ropcode = 0x21 → let ns := regionIslands m.cmd
      ((∀ k ∈ ns, islState s k = 2) → ∃ t, ok t [] ∧ ∀ k ∈ ns, (islGet t k).image = false ∧ (nocGet t k).kind = 0) ∧
      ((∃ k ∈ ns, islState s k ≠ 2) → still)) ∧
    (ran → m.ropcode = 0x42 → let l := laneOf m.cmd
      ∃ t rsp, ok t rsp ∧ rsp.length = 20 ∧ (fget s (lb l) Reg.Lane.PRBS_CHK = 0 → rsp = testCounts s l) ∧
        (linkState s l = 10 → (laneGet s l).enabled = false → linkState t l = 0)) ∧
    (ran → m.ropcode = 0x50 → pb m.cmd 0 = 0 → let ms := spliceMembers s (48 * (pb m.cmd 1 % 8) + pb m.cmd 2 % 48)
      (pb m.cmd 3 = 0 → ((∃ k ∈ ms, islState s k = 6) → ∃ t, exec (.commandComplete mb .ok) s = .next t ∧ ended t n 8 [] ∧
          (mbGet t n).detail = detail 1 (respCode .wakeFail) (pb m.cmd 2 % 48)) ∧
        ((∀ k ∈ ms, islState s k = 0 ∧ (islGet s k).pendRel = false) → ∃ t, ok t [0] ∧ t.isl = s.isl)) ∧
      (pb m.cmd 3 ≠ 0 → ((∃ k ∈ ms, goingDown s k = true) → still) ∧ ((∀ k ∈ ms, goingDown s k = false) → ∃ t, ok t [0] ∧ t.isl = s.isl))) ∧
    (ran → m.ropcode = 0x30 → descAt m.cmd 16 ≠ none → parseImg m.data ≠ none → let es := cmdEngines (svcCmd s n)
      ((∀ k ∈ es, loadHeld s k = true) → es ≠ [] → still) ∧
      ((∀ k ∈ es, (engGet s k).loadWait = true ∧ engRunning s k = false) → ∃ t, ok t [] ∧ ∀ k ∈ es, (engGet t k).loadWait = false ∧ engState t k = 1)) ∧
    (∀ src code idx, ran → stoppable m.ropcode = false → m.ropcode ≠ 0x21 →
      ∃ t, exec (.commandComplete mb (.failed src code idx)) s = .next t ∧
        ended t n (if src.toNat = 3 ∧ code.toNat = respCode .partErr then 4 else 8) [] ∧ (mbGet t n).detail = detail src.toNat code.toNat idx.toNat ∧
        others t ∧ t.csr = s.csr) ∧
    (∀ fin, mbBusy s n = false ∨ m.wait = .none → exec (.commandComplete mb fin) s = .next s) ∧
    (mbBusy s n = false ∨ m.wait ≠ .run → exec (.commandTimeout mb) s = .next s) ∧
    (ran → m.ropcode = 0x30 → (cmdEngines (svcCmd s n)).any (loadHeld s) = true → exec (.commandTimeout mb) s = .next s) ∧
    (ran → stoppable m.ropcode = false → m.ropcode ≠ 0x21 → ∃ t, exec (.commandTimeout mb) s = .next t ∧ ended t n 9 [] ∧ others t ∧
      t.csr = s.csr) ∧
    (ran → m.ropcode = 0x70 → ∃ t, exec (.commandTimeout mb) s = .next t ∧ ended t n 9 [] ∧ others t ∧ t.flash = (stageStop s n).flash) ∧
    (ran → m.ropcode = 0x21 → ∃ t, exec (.commandTimeout mb) s = .next t ∧ ended t n 9 [] ∧
      ∀ k ∈ regionIslands m.cmd, (nocGet s k).kind = 3 → (nocGet t k).kind = 0) ∧
    (waiting s n = false → exec (.objectWaitTimeout mb) s = .next s) ∧
    (waiting s n = true → let u := cmdBody (svcCmd s n) s
      (waiting u n = true → ∃ t, exec (.objectWaitTimeout mb) s = .next t ∧ ended t n 1 [] ∧ ∀ k, k ≠ n → mbGet t k = mbGet u k) ∧
      (waiting u n = false → exec (.objectWaitTimeout mb) s = .next u)) ∧
    (∀ id : BitVec 16, ∃ t, exec (.leaseExpire id) s = .next t ∧ { t with sessions := s.sessions } = s ∧ t.sessions =
      s.sessions.filter (fun x => !(x.id == id.toNat && x.lease != 0) || x.seen == s.up + 1 || leaseMeets s id.toNat)) ∧
    (∀ p how, (∀ c k f, p ≠ .pcie c k f) → exec (.pathLoss p how) s = .next s) ∧
    (∀ c k f, ∃ t, exec (.pathLoss (.pcie c k f) .flr) s = .next t ∧ { t with sessions := s.sessions, fns := s.fns } = s ∧
      t.sessions = s.sessions.filter (fun x => !decide (x.path = .pcie c k f)) ∧ fnGet t (8 * c.val + pcieFn s c.val k.val f.val) = {}) ∧
    (∀ c k f, let b := pcieBase c.val k.val
      ∃ t, exec (.pathLoss (.pcie c k f) .linkDown) s = .next t ∧ fbit t b Reg.Pcie.DL_UP = false ∧ fget t b Reg.Pcie.SPEED = 0 ∧
        (fbit s b Reg.Pcie.DL_UP = true → fget t b Reg.Pcie.DOWN_CNT = min (fget s b Reg.Pcie.DOWN_CNT + 1) (2 ^ 16 - 1)) ∧
        (∀ x ∈ t.sessions, x ∈ s.sessions ∧ ∀ j : Fin 8, j.val < pciePer s c.val → x.path ≠ .pcie c k j) ∧
        nicGet t (pcieNode c.val) = { nicGet s (pcieNode c.val) with rsv := [], dead := [], got := [], errs := [] } ∧ t.mb = s.mb) ∧
    (∀ c k f, s.pwr.hubReset = true → exec (.pathLoss (.pcie c k f) .perst) s = .next (pcieUpd s c.val (fun x => { x with perst := true }))) ∧
    (∀ c k f, s.pwr.hubReset = false → ∃ t, exec (.pathLoss (.pcie c k f) .perst) s = .next t ∧ t.mb = s.mb ∧
      (pcieGet t c.val).perst = true ∧ ∀ j < pcieLinks s c.val, fbit t (pcieBase c.val j) Reg.Pcie.DL_UP = false) ∧
    (∀ sram, s.boot.dmc = false → exec (.dmcRestart sram) s = .next s) ∧
    (∀ sram, s.boot.dmc = true → (∀ k, (mbGet s k).bell = none) → ∃ t, exec (.dmcRestart sram) s = .next t ∧ t.sessions = [] ∧
      (∀ k < 32, (mbBusy s k = true → ended t k 8 [] ∧ (mbGet t k).detail = detail 4 0 0) ∧ (mbBusy s k = false → mbGet t k = mbGet s k)) ∧
      (∀ k < 1280, (engGet t k).loadWait = false) ∧ bypassOpen t false = false ∧ bypassOpen t true = false ∧
      (journalHeld s = false → (t.flash.journal.getLast?.map (fun j => (j.code, j.detail))) = some (0x85, if sram then 2 else 1)) ∧
      (t.alarms.getLast?.map (fun a => (a.cls, a.cause))) = some (clsHw, 4))

/-- 14 R407 to R414, R417 to R419, R421 to R423, R425, R428: the header and the records of an image, as the load reads them, what a failed
check leaves, and the words that the ports take. 14 R424, R425, R428: the staged release of the islands that wait and are locked, with its
160 ns to the clocks, the end of a full load, and an island whose generator does not lock. Model's choices that a clause rests on:
notes/assumptions/32.md, notes/assumptions/33.md, notes/assumptions/53.md. Forms shown to complete, each by a clause that concludes exec =
next with the form's own effect, under conditions on state and operands alone: imageHeader, frames, frameRecord, zero, dieRec, segmentNop,
endRecord, hparWord, hspiByte, sourceTimeout, lockFail, stagedRelease, cfgIn. -/
def Obligations.ConfigurationLoadsReadAndReleaseTheirImage : Prop :=
  (
    ∀ (s : State),
      let failed := fun (i : Instr) (code : Nat) => ∃ t, exec i s = .next t ∧ t.frames = [] ∧ fget t cfgBase Reg.Cfg.ERR_CODE = code % 256 ∧
        fbit t cfgBase Reg.Cfg.ERR_VALID = true ∧ fbit t cfgBase Reg.Cfg.ERR_PARTIAL = false
      (∀ l b chk, s.load = some l → l.stage = 0 →
        (headerFail s l b chk = none → ∃ t, exec (.imageHeader b chk) s = .next t ∧ t.frames = s.frames ∧ t.csr = s.csr ∧ ∃ x, t.load = some x ∧
          x.stage = 1 ∧ x.flags = leAt b 6 2 ∧ x.designId = leAt b 0x18 16 ∧ x.segs = segsOf b ∧ x.partialLoad = l.partialLoad ∧ x.mb = l.mb) ∧
        (∀ f, headerFail s l b chk = some f → l.partialLoad = false → failed (.imageHeader b chk) f.code ∧
          ∃ t, exec (.imageHeader b chk) s = .next t ∧ (l.retry = true ∨ l.golden = true → cfgState t = 4 ∧ t.load = none) ∧
            (l.retry = false → l.golden = false → fget t cfgBase Reg.Cfg.OP_ERR_CODE = f.code % 256 ∧
              (partLen s 6 = 0 → cfgState t = 4 ∧ t.load = none) ∧
              (partLen s 6 ≠ 0 → cfgState t = 1 ∧ ∃ x, t.load = some x ∧ x.golden = true ∧ x.stage = 0))) ∧
        (∀ f, headerFail s l b chk = some f → l.partialLoad = true → ∃ t, exec (.imageHeader b chk) s = .next t ∧ t.load = none ∧
          t.frames = s.frames ∧ t.isl = s.isl ∧ ended t l.mb (if f.code = 5 then 10 else 8) [] ∧ fbit t cfgBase Reg.Cfg.ERR_PARTIAL = true)) ∧
      (∀ b chk, s.load = none → (cfgState s ≠ 4 → exec (.imageHeader b chk) s = .next { s with port := s.port.drop b.length }) ∧
        (cfgState s = 4 → headerFail (startFull { s with port := s.port.drop b.length } false true) (newLoad s false false true 0 0 0) b chk = none →
          ∃ t x, exec (.imageHeader b chk) s = .next t ∧ t.frames = [] ∧ cfgState t = 1 ∧ t.load = some x ∧ x.retry = true ∧ x.stage = 1)) ∧
      (s.load = none → ∀ (n : BitVec 24) (a : Word) (ws : List Word), exec (.frames n a) s = .next s ∧ exec (.frameRecord ws) s = .next s ∧
        exec (.zero n a) s = .next s ∧ exec (.dieRec n ws) s = .next s ∧ exec (.segmentNop n) s = .next s ∧ exec (.endRecord n) s = .next s ∧
        exec .sourceTimeout s = .next s) ∧
      (∀ l, s.load = some l → l.left ≠ 0 → ∀ (n : BitVec 24) (a : Word) (ws : List Word), exec (.frames n a) s = .next s ∧
        exec (.zero n a) s = .next s ∧ exec (.dieRec n ws) s = .next s ∧ exec (.segmentNop n) s = .next s ∧ exec (.endRecord n) s = .next s) ∧
      (∀ l ws, s.load = some l → l.left = 0 → exec (.frameRecord ws) s = .next s) ∧
      (∀ l, s.load = some l → l.partialLoad = false → l.stage = 1 →
        (∀ (n : BitVec 24) (a : Word), l.left = 0 → (addrOk l n.toNat a.toNat = true → exec (.frames n a) s =
            .next { s with port := s.port.drop 8, load := some { l with addr := a.toNat, left := n.toNat, bytes := l.bytes + 8 } }) ∧
          (addrOk l n.toNat a.toNat = false → failed (.frames n a) 1 ∧ failed (.zero n a) 1)) ∧
        (∀ ws : List Word, l.left ≠ 0 → (parseFrame (l.flags.testBit 2) ws = none → failed (.frameRecord ws) 1) ∧
          (∀ p, parseFrame (l.flags.testBit 2) ws = some p → l.fail = none → discards s l = false →
            let d := frameBits p.1
            let next := fun (t : State) (fail : Option LoadFail) => t.load =
              some { l with written := l.written + 1, addr := l.addr + 1, left := l.left - 1, fail := fail, bytes := l.bytes + 4 * ws.length }
            (p.2 ≠ crc32c (wordBytes p.1) → ∃ t f, exec (.frameRecord ws) s = .next t ∧ t.frames = s.frames ∧ next t (some f) ∧ f.code = 9 ∧
              f.frame = l.addr) ∧
            (p.2 = crc32c (wordBytes p.1) → ∀ c, frameChecks s (addrIsl l.addr) (addrFrame l.addr) d false = some c →
              ∃ t f, exec (.frameRecord ws) s = .next t ∧ t.frames = s.frames ∧ next t (some f) ∧ f.code = c.2 ∧ f.frame = l.addr) ∧
            (p.2 = crc32c (wordBytes p.1) → frameChecks s (addrIsl l.addr) (addrFrame l.addr) d false = none →
              ∃ t, exec (.frameRecord ws) s = .next t ∧ next t none ∧ (frameGet t l.addr).data = d ∧ (frameGet t l.addr).chk = frameCheck d ∧
                ∀ a, a ≠ l.addr → frameGet t a = frameGet s a))) ∧
        (∀ (ws : List Word) c, ws.length = 128 → parseFrame false (ws ++ [c]) = some (ws, c) ∧ parseFrame true (0 :: (ws ++ [c])) = some (ws, c)) ∧
        (∀ (n : BitVec 24) (a : Word), l.left = 0 → addrOk l n.toNat a.toNat = true →
          (discards s l = true → exec (.zero n a) s =
            .next { s with port := s.port.drop 8, load := some { l with written := l.written + n.toNat, bytes := l.bytes + 8 } }) ∧
          (discards s l = false → n = 1 → l.fail = none → frameChecks s (addrIsl a.toNat) (addrFrame a.toNat) 0 false = none →
            ∃ t, exec (.zero n a) s = .next t ∧ (frameGet t a.toNat).data = 0 ∧ ∀ b, b ≠ a.toNat → frameGet t b = frameGet s b)) ∧
        (∀ (n : BitVec 24) (ws : List Word), l.left = 0 → if n = 18 ∧ ws.length = 18 ∧ l.dieRec = none then exec (.dieRec n ws) s =
            .next { s with port := s.port.drop 76, load := some { l with dieRec := some ws, bytes := l.bytes + 76 } }
          else failed (.dieRec n ws) 1) ∧
        (∀ arg : BitVec 24, l.left = 0 → if arg = 0 then exec (.segmentNop 0) s =
            .next { s with port := s.port.drop 4, load := some { l with bytes := l.bytes + 4 } }
          else failed (.segmentNop arg) 1) ∧
        (∀ (arg : BitVec 24) f, l.left = 0 → segFail s l arg.toNat = some f → failed (.endRecord arg) f.code) ∧
        (∀ (arg : BitVec 24) ws, l.left = 0 → l.dieRec = some ws → segFail s l arg.toNat = none → (curSeg l).die < 8 →
          ∃ t, exec (.endRecord arg) s = .next t ∧ t.frames = s.frames ∧
            (discards s l = false → ∀ k : Fin 8, fget t (dieBase (curSeg l).die) (Reg.Die.SPINE_N k.val) = (ws.getD k.val 0).toNat % 256) ∧
            (l.cur + 1 < l.segs.length → t.load = some { l with cur := l.cur + 1, written := 0, dieRec := none, bytes := 0 }) ∧
            (l.segs.length ≤ l.cur + 1 → cfgState t = 2 ∧ ∃ x, t.load = some x ∧ x.stage = 3))) ∧
      (∀ l, s.load = some l → l.partialLoad = true → l.stage = 1 → l.left = 0 → segFail s l 0 = none → ∃ t, exec (.endRecord 0) s = .next t ∧
        t.load = some { l with stage := 2, written := 0, bytes := 0 } ∧ ∀ k ∈ loadIslands l, islState s k = 0 → k < 384 →
          islState t k = 1 ∧ (nocGet t k).kind = 3) ∧
      (∀ l, s.load = some l →
        (l.partialLoad = true ∨ l.stage = 3 ∨ (l.golden = false ∧ s.fuses.srcStrap = 3) → exec .sourceTimeout s = .next s) ∧
        (l.partialLoad = false → l.stage ≠ 3 → l.golden = true ∨ s.fuses.srcStrap ≠ 3 →
          failed .sourceTimeout ((l.fail.map (fun f => f.code)).getD 0x13) ∧
          ∃ t, exec .sourceTimeout s = .next t ∧ (l.retry = true → cfgState t = 4 ∧ t.load = none))) ∧
      (∀ v, (portTakes s 1 = true → (s.port.length + 4 ≤ 1024 → exec (.hparWord v) s = .next { s with port := s.port ++ natLe v.toNat 4 }) ∧
          (1024 < s.port.length + 4 → exec (.hparWord v) s = .next s)) ∧
        (portTakes s 1 = false → exec (.hparWord v) s = .next s)) ∧
      (∀ b, exec (.hspiByte b) s = .next (if portTakes s 2 then { s with port := s.port ++ [b] } else s)) ∧
      (∀ v, portTakes s 3 = true → s.tap.on = true → exec (.cfgIn v) s =
        .next { s with port := s.port ++ natLe v.toNat 4, tap := { s.tap with ir := 0x0C5, dr := v } })) ∧
  (
    ∀ (s : State) (d : Fin 8) (i : Fin 48), let k := islId d i
      let locked := fbit s (islBase k) Reg.Isl.LOCKED = true
      let last := fun (t : State) => t.alarms.getLast?.map (fun a => (a.cls, a.cause))
      (s.load = none → spliceMembers s k = [k] → (islGet s k).pendRel = true → islMayRun s k = true →
        (locked → ∃ t, exec .stagedRelease s = .next t ∧ (islGet t k).hold = false ∧ (islGet t k).pendRel = false ∧
          (islGet t k).image = true ∧ (islGet t k).region = 2 ∧ (islGet t k).rel = 160 ∧ islState t k = 0 ∧ (nocGet t k).hold = [])) ∧
      (spliceMembers s k = [k] → (islGet s k).pendRel = false ∨ locked ∨ islState s k = 5 → exec (.lockFail d i) s = .next s) ∧
      (spliceMembers s k = [k] → (islGet s k).pendRel = true → ¬ locked → islState s k ≠ 5 →
        (s.load = none → ∃ t, exec (.lockFail d i) s = .next t ∧ (islGet t k).pendRel = false ∧
          (islGet t k).hold = (islGet s k).hold ∧ last t = some (clsCfg, 3) ∧ ∀ j, j ≠ k → islGet t j = islGet s j) ∧
        (∀ l, s.load = some l → l.partialLoad = true → k ∈ loadIslands l → 2 ≤ l.stage → ∃ t, exec (.lockFail d i) s = .next t ∧ t.load = none ∧
          ended t l.mb 8 [] ∧ (mbGet t l.mb).detail = detail 2 0x14 0 ∧ last t = some (clsCfg, 3) ∧ ∀ j ∈ loadIslands l,
            (islGet t j).image = false ∧ (islGet t j).pendRel = false ∧ (islGet t j).region = 4)) ∧
      (∀ l, s.load = some l → l.partialLoad = false → l.stage = 3 → (∀ n, (islGet s n).pendRel = false) → ∃ t, exec .stagedRelease s = .next t ∧
        t.load = none ∧ cfgState t = 3 ∧ fbit t cfgBase Reg.Cfg.GOLDEN = l.golden ∧
        (∀ j : Fin 4, fget t cfgBase (Reg.Cfg.DESIGN_ID j.val) = l.designId / 2 ^ (32 * j.val) % 2 ^ 32)))

/-- 15 R440 to R451, R471; 17 R513, R514, R518, R519: sleeping, waking, and what resets and supplies do, with the rows that find nothing to
do. What outlives hub reset is the always-on domain, the flash and the fuses. Model's choices that a clause rests on:
notes/assumptions/1.md, notes/assumptions/34.md, notes/assumptions/49.md, notes/assumptions/53.md. Forms shown to complete, each by a
clause that concludes exec = next with the form's own effect, under conditions on state and operands alone: standbyEntryDone,
supplyTimeout, wakeN, i2cWakeMatch, aoTimer, autoIdle, thermalTrip, aoPowerGood, sysRstN, railFault, vccAoLoss. -/
def Obligations.SleepWakeAndResetEvents : Prop :=
  ∀ (s : State),
    let hears := fun (n : Nat) => s.pwr.ao = true ∧ s.pwr.sysRst = false ∧ aoHot s = false ∧ wakeEnabled s n = true
    let deep := s.pwr.dormant = true ∧ s.pwr.mainEn = false
    let on := s.pwr.dormant = false ∧ s.pwr.hubReset = false
    let lost := fun (t : State) => t.isl = [] ∧ t.eng = [] ∧ t.bram = [] ∧ t.frames = [] ∧ t.dram = [] ∧ t.sessions = [] ∧ t.alarms = [] ∧
      t.mb = [] ∧ t.sec = {} ∧ t.flash = s.flash ∧ t.fuses = s.fuses ∧ t.pending = s.pending ∧ t.pwr.hubReset = true
    let kept := fun (t : State) (f : Fld) => fget t pwrBase f = fget s pwrBase f % 2 ^ f.wd
    let last := fun (t : State) => fget t pwrBase Reg.Pwr.LAST_WAKE
    let exits := fun (t : State) => t.pwr.wake = none ∧ devState t = if (List.range 9).all (fun q => (railGet t q).out.isNone) then 0 else 3
    let timer := fget s pwrBase Reg.Pwr.AO_TIMER
    let match' := fun (a : BitVec 7) => fget s pwrBase Reg.Pwr.I2C_WAKE_ADDR = a.toNat
    (devState s ≠ 1 → exec .standbyEntryDone s = .next s) ∧
    (devState s = 1 → s.pwr.wake = none → ∃ t, exec .standbyEntryDone s = .next t ∧ devState t = 2 ∧
      (∀ (d : Fin 8) (i : Fin 48), let n := islId d i
        islState s n = 0 → (nocGet s n).kind ≠ 3 → islState t n = if (nocGet s n).kind = 2 then 4 else 3) ∧
      (∀ e < 80, (eisGet s e).pst = 0 → (eisGet t e).pst = 3) ∧ (∀ q < 32, (quadGet s q).pst = 0 → (quadGet t q).pst = 3)) ∧
    (∀ n < 4, devState s = 1 → s.pwr.wake = some n → ∃ t, exec .standbyEntryDone s = .next t ∧ exits t ∧ last t = 2 ^ n) ∧
    (¬ (s.pwr.ao = true ∧ s.pwr.mainEn = true ∧ s.pwr.hubReset = true) → exec .supplyTimeout s = .next s) ∧
    (s.pwr.ao = true → s.pwr.mainEn = true → s.pwr.hubReset = true → ∃ t, exec .supplyTimeout s = .next t ∧ t.pwr.mainEn = false ∧
      t.pwr.dormant = true ∧ t.pwr.railEvent = true ∧ fbit t pwrBase Reg.Pwr.PG_FAIL = true ∧
      { t with csr := s.csr, fresh := s.fresh, pwr := s.pwr } = s) ∧
    (¬ hears 0 → exec .wakeN s = .next s) ∧
    (∀ a, ¬ match' a ∨ ¬ hears 1 → exec (.i2cWakeMatch a) s = .next s) ∧
    (aoCounts s = false ∨ timer = 0 → exec .aoTimer s = .next s) ∧
    (deep → (hears 0 → ∃ t, exec .wakeN s = .next t ∧ t.pwr.mainEn = true ∧ last t = 1) ∧
      (∀ a, match' a → hears 1 → ∃ t, exec (.i2cWakeMatch a) s = .next t ∧ t.pwr.mainEn = true ∧ last t = 2) ∧
      (s.pwr.ao = true → timer ≠ 0 → ∃ t, exec .aoTimer s = .next t ∧ fget t pwrBase Reg.Pwr.AO_TIMER = 0 ∧ (hears 2 → t.pwr.mainEn = true ∧ last t = 4) ∧
        (¬ hears 2 → t.pwr = s.pwr))) ∧
    (s.pwr.dormant = true ∧ s.pwr.mainEn = true ∨ s.pwr.dormant = false ∧ s.pwr.hubReset = true → exec .wakeN s = .next s) ∧
    (on → hears 0 → devState s ≠ 1 → devState s ≠ 2 → devState s ≠ 4 → exec .wakeN s = .next (pwrUpd s (fun p => { p with fired := tset 0 p.fired 0 (upUs s + 1) }))) ∧
    (on → devState s = 1 ∨ devState s = 4 → (hears 0 → ∃ t, exec .wakeN s = .next t ∧ t.pwr.wake = some (s.pwr.wake.getD 0) ∧
        t.csr = s.csr ∧ t.isl = s.isl) ∧
      (∀ a, match' a → hears 1 → ∃ t, exec (.i2cWakeMatch a) s = .next t ∧ t.pwr.wake = some (s.pwr.wake.getD 1) ∧ t.csr = s.csr)) ∧
    (on → devState s = 2 → (hears 0 → ∃ t, exec .wakeN s = .next t ∧ exits t ∧ last t = 1) ∧
      (∀ a, match' a → hears 1 → ∃ t, exec (.i2cWakeMatch a) s = .next t ∧ exits t ∧ last t = 2) ∧
      (timer ≠ 0 → hears 2 → ∃ t, exec .aoTimer s = .next t ∧ exits t ∧ last t = 4 ∧ fget t pwrBase Reg.Pwr.AO_TIMER = 0)) ∧
    (let dormant := fbit s pwrBase Reg.Pwr.AUTO_TARGET
      let idle := fget s pwrBase Reg.Pwr.AUTO_IDLE_S ≠ 0 ∧ s.boot.dmc = true ∧ deviceIdle s = true ∧ (devState s = 0 ∨ (devState s = 2 ∧ dormant = true))
      let asked := jEvent s 0x8E (if dormant then 4 else 3) 0
      let met := wakeMeets s dormant (bellMeets s none)
      let source := (wakeSources dormant).any (wakeEnabled s) = true
      (¬ idle → exec .autoIdle s = .next s) ∧
      (idle → protLocked s = false ∨ ¬ source → exec .autoIdle s = .next asked) ∧
      (idle → protLocked s = true → source → met = true → ∃ t, exec .autoIdle s = .next t ∧ devState t = devState s ∧ t.isl = s.isl ∧
        fget t pwrBase Reg.Pwr.SLEEP_ABORT_CNT = min (fget s pwrBase Reg.Pwr.SLEEP_ABORT_CNT + 1) (2 ^ 16 - 1)) ∧
      (idle → protLocked s = true → source → met = false → ∃ t, exec .autoIdle s = .next t ∧ devState t = (if dormant then 4 else 1) ∧
        t.pwr.wake = none ∧ (devState s = 0 → (dormant = false → t.pwr.runIsl = allIsl.filter (fun n => islState s n == 0)) ∧
          ∀ (d : Fin 8) (i : Fin 48), islState s (islId d i) = 0 → islState t (islId d i) = 1 ∧ (nocGet t (islId d i)).device = true))) ∧
    (∀ k : Fin 52, s.pwr.ao = true → s.pwr.mainEn = true → ∃ t, exec (.thermalTrip k) s = .next t ∧ lost t ∧ t.pwr.dormant = true ∧
      t.pwr.mainEn = false ∧ t.pwr.tripEvent = some k.val ∧ fbit t pwrBase Reg.Pwr.THERM_TRIP = true ∧ kept t Reg.Pwr.WAKE_EN ∧
      kept t Reg.Pwr.DORMANT_CNT) ∧
    (∀ k : Fin 52, s.pwr.ao = false ∨ s.pwr.mainEn = false → exec (.thermalTrip k) s = .next s) ∧
    (∃ t, exec (.sysRstN false) s = .next t ∧ lost t ∧ t.pwr.sysRst = true ∧ t.pwr.mainEn = s.pwr.mainEn ∧ kept t Reg.Pwr.WAKE_EN ∧
      kept t Reg.Pwr.AO_TIMER) ∧
    (s.pwr.sysRst = true → aoHot s = false → ∃ t, exec (.sysRstN true) s = .next t ∧ { t with pwr := s.pwr } = s ∧ t.pwr.sysRst = false ∧
      t.pwr.mainEn = s.pwr.ao ∧ t.pwr.dormant = false) ∧
    (s.pwr.sysRst = false ∨ aoHot s = true → exec (.sysRstN true) s = .next s) ∧
    (∀ r, s.pwr.hubReset = false → ∃ t, exec (.railFault r) s = .next t ∧ lost t ∧ t.pwr.railEvent = true ∧ t.pwr.mainEn = s.pwr.mainEn ∧
      kept t Reg.Pwr.WAKE_EN) ∧
    (∀ r, s.pwr.hubReset = true → exec (.railFault r) s = .next s) ∧
    (s.pwr.ao = false → ∃ t, exec .aoPowerGood s = .next t ∧ { t with pwr := s.pwr } = s ∧ t.pwr.ao = true ∧ t.pwr.mainEn = !s.pwr.sysRst) ∧
    (s.pwr.ao = true → exec .aoPowerGood s = .next s) ∧
    (∃ t, exec .vccAoLoss s = .next t ∧ lost t ∧ t.pwr.ao = false ∧ t.csr = [] ∧ t.tap.on = false)

/-- 15 R445, R459, R460, R462 to R469, R471: sensors, rails and the voltage loop. A rail request that ends lets the exit from STANDBY go on;
so the results are stated for a state that is in no such exit, and the exit on its own. Model's choices that a clause rests on:
notes/assumptions/8.md, notes/assumptions/16.md, notes/assumptions/53.md. Forms shown to complete, each by a clause that concludes exec =
next with the form's own effect, under conditions on state and operands alone: sensorSample, policyLoop, avsAck, avsTimeout,
railDeviation, agingSample, tjAlarm. -/
def Obligations.RailsFollowTheirTargets : Prop :=
  ∀ (s : State) (r : Fin 9), let x := railGet s r.val
    let last := fun (t : State) => t.alarms.getLast?.map (fun a => (a.cls, a.cause, a.loc))
    let loc := fun (n : Nat) => [byte n, 0, 0, 0, 0, 0, 0, 0]
    let v := vSet s r.val
    let meas := fget s pwrBase (Reg.Pwr.V_MEAS r.val)
    let off := v ≠ 0 ∧ (meas + 30 < v ∨ v + 30 < meas)
    let second := upUs s / 1000000
    let done : RailSt := { x with out := none, tries := 0, waiting := none }
    (∀ mv : BitVec 10, ∃ t, exec (.sensorSample (.rail r mv)) s = .next t ∧ { t with csr := s.csr, fresh := s.fresh } = s ∧
      fget t pwrBase (Reg.Pwr.V_MEAS r.val) = mv.toNat ∧ fget t pwrBase (Reg.Pwr.V_SET r.val) = fget s pwrBase (Reg.Pwr.V_SET r.val)) ∧
    (∀ (die : Fin 9) (idx : Fin 6) (c : BitVec 16), ∃ t, exec (.sensorSample (.junction die idx c)) s = .next t ∧
      tget 0 t.pwr.junction (if die.val < 8 then 6 * die.val + idx.val else 48 + idx.val % 4) = c.toNat ∧ { t with pwr := s.pwr } = s ∧
      (let q := (die.val + 1) % 9
        let y := railGet s q
        (railGet t q).nowAt = second ∧ (railGet t q).now.hot = some (hotter ((if y.nowAt = second then y.now.hot else none).getD c.toNat) c.toNat))) ∧
    (∀ mv a w, ∃ t, exec (.sensorSample (.regulator r mv a w)) s = .next t ∧
      railGet t r.val = { x with regMv := mv.toNat, amp := a.toNat, watt := w.toNat } ∧ { t with pwr := s.pwr } = s) ∧
    (∀ (die : Fin 8) lo st ex, let y := railGet s (die.val + 1)
      ∃ t, exec (.sensorSample (.margin die lo st ex)) s = .next t ∧ { t with pwr := s.pwr } = s ∧
        (railGet t (die.val + 1)).now.st = (if y.nowAt = second then y.now.st else 0) + st.toNat ∧
        (railGet t (die.val + 1)).now.ex = (if y.nowAt = second then y.now.ex else 0) + ex.toNat ∧
        (railGet t (die.val + 1)).out = y.out) ∧
    (devState s ≠ 3 →
      (x.out = none → exec (.avsAck r) s = .next s ∧ exec (.avsTimeout r) s = .next s) ∧
      (∀ w, x.out = some w → ∃ t, exec (.avsAck r) s = .next t ∧ fget t pwrBase (Reg.Pwr.V_SET r.val) = w % 1024 ∧
        railGet t r.val = { x with out := x.waiting, tries := 0, waiting := none } ∧ (∀ q, q ≠ r.val → railGet t q = railGet s q)) ∧
      (∀ w, x.out = some w → x.tries < 3 → ∃ t, exec (.avsTimeout r) s = .next t ∧ railGet t r.val = { x with tries := x.tries + 1 } ∧
        fget t pwrBase (Reg.Pwr.AVS_RETRY_CNT r.val) = min (fget s pwrBase (Reg.Pwr.AVS_RETRY_CNT r.val) + 1) 255) ∧
      (∀ w, x.out = some w → 3 ≤ x.tries → frozen s r.val = true → exec (.avsTimeout r) s = .next s) ∧
      (∀ w, x.out = some w → 3 ≤ x.tries → frozen s r.val = false → ∃ t, exec (.avsTimeout r) s = .next t ∧ frozen t r.val = true ∧
        vSet t r.val = v ∧ railGet t r.val = done ∧ last t = some (clsPower, 1, loc r.val)) ∧
      (¬ off → exec (.railDeviation r) s = .next s) ∧
      (off → ∃ t, exec (.railDeviation r) s = .next t ∧ frozen t r.val = true ∧ vSet t r.val = v ∧ last t = some (clsPower, 6, loc r.val) ∧
        railGet t r.val = if frozen s r.val then x else done)) ∧
    (devState s = 3 → (∀ q < 9, q ≠ r.val → (railGet s q).out = none) → x.waiting = none → ∀ w, x.out = some w →
      ∃ t, exec (.avsAck r) s = .next t ∧ devState t = 0 ∧ vSet t r.val = w % 1024) ∧
    (∀ ppm, let a := max (fget s pwrBase (Reg.Pwr.AGE_OFS r.val)) (min 40 (ppm / 250))
      ∃ t, exec (.agingSample r ppm) s = .next t ∧ fget t pwrBase (Reg.Pwr.AGE_OFS r.val) = a % 64 ∧ tget 0 t.flash.aging r.val = a ∧
        { t with csr := s.csr, fresh := s.fresh, flash := s.flash } = s) ∧
    (∀ k : Fin 52, let seen := tget 0 s.pwr.lastAlarm (1024 + k.val)
      let hot := (8 * min 120 (fget s pwrBase Reg.Pwr.TJ_ALARM) : Nat) < (BitVec.ofNat 16 (tget 0 s.pwr.junction k.val)).toInt
      let soon := seen ≠ 0 ∧ upUs s < seen - 1 + 60000000
      (¬ hot ∨ soon → exec (.tjAlarm k) s = .next s) ∧
      (hot → ¬ soon → ∃ t, exec (.tjAlarm k) s = .next t ∧ last t = some (clsPower, 4, loc k.val) ∧ t.csr = s.csr)) ∧
    (∀ rep : LoopReport, (s.boot.dmc = false ∨ devState s ≠ 0 → exec (.policyLoop r rep) s = .next s) ∧
      (s.boot.dmc = true → devState s = 0 → ∃ t, exec (.policyLoop r rep) s = .next t ∧ t.pwr.bounds = [] ∧ t.pwr.nextPolicy = none ∧
        (∀ lo hi, s.pwr.bounds = [(0, lo, hi)] → t.pwr.vlo = lo ∧ t.pwr.vhi = hi) ∧ (∀ p < 3, s.pwr.nextPolicy = some p → policy t = p)) ∧
      (s.boot.dmc = true → devState s = 0 → s.pwr.nextPolicy = none → s.pwr.bounds = [] → lowBound s r.val ≤ v → v ≤ highBound s r.val →
        let hist := ((rep.stretched, rep.exhausted, rep.periods) :: x.hist).take 100
        let free := x.out = none ∧ frozen s r.val = false ∧ v ≠ 0
        let sets := fun (o : Option Nat) => ∃ t, exec (.policyLoop r rep) s = .next t ∧ (railGet t r.val).out = o ∧ (railGet t r.val).hist = hist ∧ vSet t r.val = v
        let floor := (tget 700 s.fuses.floor r.val + fget s pwrBase (Reg.Pwr.AGE_OFS r.val) + 4) / 5 * 5
        (policy s = 0 → sets x.out ∧ ∃ t, exec (.policyLoop r rep) s = .next t ∧ fbit t pwrBase Reg.Pwr.BELOW_MARGIN = false) ∧
        (policy s = 1 → rep.running = true → 0 < rep.exhausted → rep.rise ≤ 5 → free → v + 10 ≤ highBound s r.val →
          sets (if raiseAllowed s r.val then some (v + 10) else none)) ∧
        (policy s = 1 → rep.running = false → rep.rise ≤ 5 → sets x.out) ∧
        (policy s = 1 → rep.running = true → rep.exhausted = 0 → rep.rise ≤ 5 → free →
          fget s pwrBase Reg.Pwr.SLACK_LO ≤ rep.lowest.toNat → fget s pwrBase Reg.Pwr.SLACK_HI ≤ rep.lowest.toNat → hist.length = 100 →
          (∀ p ∈ hist, p.1 = 0) → floor ≤ v - 5 → lowBound s r.val ≤ v - 5 → sets (some (v - 5)))))

/-- 16 R474 to R482, R493, R496, R505; 17 R515, R516: the phases of a start, the watchdog of a start, and the lock of the plan. A row that
comes in another phase finds nothing to do. Model's choices that a clause rests on: notes/assumptions/8.md, notes/assumptions/35.md,
notes/assumptions/49.md. Forms shown to complete, each by a clause that concludes exec = next with the form's own effect, under conditions
on state and operands alone: lockWait, suppliesValid, phaseB, phaseC, phaseD, phaseE, phaseF, startWatchdog. -/
def Obligations.StartPhasesFollowEachOther : Prop :=
  ∀ (s : State), let ready := s.fuses.majority = true ∧ s.fuses.sysclk = true
    let began := fun (t : State) => t.pwr.hubReset = false ∧ bootPhase t = 1 ∧ t.tap.on = true ∧ t.up = 0 ∧
      fget t 0 Reg.Hub.IDCODE = (s.fuses.stepping * 2 ^ 28 + 0x96804D7) % 2 ^ 32 ∧ fget t 0 Reg.Hub.RB_FUSE = s.fuses.rollback % 2 ^ Reg.Hub.RB_FUSE.wd ∧
      t.fuses = s.fuses ∧ t.flash.bytes = s.flash.bytes
    let supplied := s.pwr.ao = true ∧ s.pwr.mainEn = true ∧ s.pwr.hubReset = true ∧ s.pwr.sysRst = false
    let watched := s.pwr.hubReset = false ∧ s.boot.halted = false ∧ bootPhase s ≤ 5 ∧ (bootPhase s = 4 → s.fuses.srcStrap < 2)
    let halts := fun (i : Instr) => ∃ t, exec i s = .next t ∧ t.boot.halted = true ∧ bootPhase t = 7
    let free := inPhase s 4 = true ∧ s.load = none ∧ cfgState s = 0
    let begins := fun (golden : Bool) => ∃ t l, exec .phaseE s = .next t ∧ cfgState t = 1 ∧ t.load = some l ∧ l.golden = golden ∧
      l.partialLoad = false ∧ l.stage = 0 ∧ t.frames = []
    let due := inPhase s 6 = true ∧ s.boot.dmc = true ∧ protLocked s = false ∧ (mfGet s 6 2).testBit 0 = false ∧ mfGet s 0x224 2 ≠ 0
    (¬ supplied → exec .suppliesValid s = .next s) ∧
    (supplied → (ready → ∃ t, exec .suppliesValid s = .next t ∧ began t ∧
        fget t 0 Reg.Hub.START_CNT = min (fget s 0 Reg.Hub.START_CNT + 1) (2 ^ 16 - 1)) ∧ (¬ ready → halts .suppliesValid)) ∧
    (¬ watched → exec .startWatchdog s = .next s) ∧
    (watched → (ready → ∃ t, exec .startWatchdog s = .next t ∧ began t ∧
        fget t 0 Reg.Hub.WD_RESTART_CNT = min (fget s 0 Reg.Hub.WD_RESTART_CNT % 2 ^ 16 + 1) (2 ^ 16 - 1) ∧ t.isl = [] ∧ t.sec = {}) ∧
      (¬ ready → halts .startWatchdog)) ∧
    (∀ ds ts, (inPhase s 1 = false → exec (.phaseB ds ts) s = .next s) ∧
      (inPhase s 1 = true → let here := (List.range 8).filter (fun d => (ds.getD d ⟨false, 0, 0⟩).present)
        (here ≠ [] → ∃ t, exec (.phaseB ds ts) s = .next t ∧ bootPhase t = 2 ∧ fget t 0 Reg.Hub.DIES_PRESENT = (here.map (2 ^ ·)).sum ∧
          featureLevel t = (here.map (fun d => (ds.getD d ⟨false, 0, 0⟩).fl.toNat)).foldl min 2 ∧
          ∀ d < 8, (ds.getD d ⟨false, 0, 0⟩).present = false → fenced t d = true) ∧
        (here = [] → halts (.phaseB ds ts)))) ∧
    (∀ c0 c1 ok, inPhase s 2 = true → s.flash.bad = false → s.flash.active ≤ 1 → marker s (1 - s.flash.active) = false →
      stepAlt s 0x21 s.flash.active = false → (∀ n, (mbGet s n).bell = none) → let m := slotManifest s s.flash.active
      mfCheck s m (if s.flash.active = 0 then c0 else c1) false = 0 → ∃ t, exec (.phaseC c0 c1 ok) s = .next t ∧ t.boot.manifest = m ∧
        runSlot t = s.flash.active ∧ fget t 0 Reg.Hub.GENERATION = leAt m 0xC 4 ∧ (∀ c : Fin 2, (pcieGet t c.val).up = ok.getLsbD c.val) ∧
        s.fuses.rollback ≤ t.fuses.rollback ∧ leAt m 0x18 4 ≤ t.fuses.rollback ∧ (bootPhase t = 3 ∧ t.boot.dmc = true ∨ t.boot.halted = true) ∧
        (partHashOk s s.flash.active m 1 = true → partHashOk s s.flash.active m 0 = true → stepAlt s 0x22 0 = false → stepAlt s 0x23 0 = false →
          bootPhase t = 3)) ∧
    (∀ c0 c1 ok, inPhase s 2 = false → (∀ n, (mbGet s n).bell = none) → exec (.phaseC c0 c1 ok) s = .next s) ∧
    (∀ fits train quads dsc trng, (inPhase s 3 = false ∨ s.boot.training = true → exec (.phaseD fits train quads dsc trng) s = .next s) ∧
      (inPhase s 3 = true → s.boot.training = false → ∃ t, exec (.phaseD fits train quads dsc trng) s = .next t ∧
        ((∀ n < 8, mcState t n ≠ 1) → bootPhase t = 4 ∧ t.boot.training = false) ∧
        ((∃ n < 8, mcState t n = 1) → bootPhase t = 3 ∧ t.boot.training = true) ∧
        ((∀ n < 8, mcState s n ≠ 1 ∧ train.getD n .pass ≠ .goesOn) → ∀ n < 8, mcState t n ≠ 1) ∧
        (trng = true → fbit t secBase Reg.Sec.KEY_READY = true ∧ t.sec.key.isSome = true) ∧
        (trng = false → fbit t secBase Reg.Sec.TRNG_FAIL = true ∧ t.sec.key = s.sec.key) ∧
        ∀ n < 8, channelFit s n (fits.getD n none) = none → mcState t n = 4)) ∧
    ((¬ free → exec .phaseE s = .next s) ∧
      (free → stepAlt s 0x40 0 = false → s.fuses.srcStrap ≠ 0 ∨ partLen s 5 ≠ 0 → begins false) ∧
      (free → stepAlt s 0x40 0 = true ∨ (s.fuses.srcStrap = 0 ∧ partLen s 5 = 0) → (partLen s 6 ≠ 0 → begins true) ∧
        (partLen s 6 = 0 → ∃ t, exec .phaseE s = .next t ∧ cfgState t = 4 ∧ t.load = none ∧ t.frames = [])) ) ∧
    (∀ locked, (inPhase s 5 = false → exec (.phaseF locked) s = .next s) ∧
      (inPhase s 5 = true → ∃ t, exec (.phaseF locked) s = .next t ∧ bootPhase t = 6 ∧ t.boot.doneUs = some (upUs s) ∧
        fget t 0 Reg.Hub.JS_CODE = 0x5F ∧ fbit t 0 Reg.Hub.JS_DONE = true ∧ ((mfGet s 6 2).testBit 0 = true → protLocked t = true) ∧
        ((mfGet s 6 2).testBit 0 = false → protLocked t = protLocked s))) ∧
    ((¬ due → exec .lockWait s = .next s) ∧
      (due → ∃ t, exec .lockWait s = .next t ∧ protLocked t = true ∧
        (lockMeets s = false → (t.flash.journal.getLast?.map (fun j => j.code)) = some 0x95)))

/-- 17 R525 to R528; 12 R352: the instructions of the TAP, the lanes and the PCIe links whose pins it takes, and a TAP that is not reachable.
Model's choices that a clause rests on: notes/assumptions/36.md. Forms shown to complete, each by a clause that concludes exec = next with
the form's own effect, under conditions on state and operands alone: extest, samplePreload, usercode, idcode, highz, clamp, extestPulse,
extestTrain, bypass, tapReset. -/
def Obligations.TapInstructionsTakeEffect : Prop :=
  (∀ (s : State), s.tap.on = false → ∀ (v : Word) (code : BitVec 10) (tdi : BitVec 4878), exec .idcode s = .next s ∧ exec .usercode s = .next s ∧
    exec .tapReset s = .next s ∧ exec .highz s = .next s ∧ exec .clamp s = .next s ∧ exec (.cfgIn v) s = .next s ∧ exec (.bypass code) s = .next s ∧
    exec (.extest tdi) s = .next s ∧ exec (.extestPulse tdi) s = .next s ∧ exec (.extestTrain tdi) s = .next s ∧
    exec (.samplePreload tdi) s = .next s) ∧
  ∀ (s : State), s.tap.on = true →
    let quiet := fun (c : Instr) (code : Nat) => ∃ t, exec c s = .next t ∧ { t with tap := s.tap } = s ∧ t.tap = { s.tap with ir := code }
    let reads := fun (c : Instr) (code : Nat) (v : Word) => ∃ t, exec c s = .next t ∧ { t with tap := s.tap, rsp := s.rsp } = s ∧
      t.tap = { s.tap with ir := code, dr := v } ∧ t.rsp = ⟨.okay, v, []⟩
    let pins := fun (c : Instr) (code : Nat) => ∃ t, exec c s = .next t ∧ t.tap.ir = code ∧ t.flash = s.flash ∧
      (irHolds s.tap.ir = true → t.csr = s.csr) ∧
      (irHolds s.tap.ir = false → (∀ n ∈ scanLanes, linkState s n = 5 → linkState t n ≠ 5) ∧
        ∀ (c : Fin 2) (k : Fin 4), linkLive s c.val k.val = true → fbit t (pcieBase c.val k.val) Reg.Pcie.DL_UP = false)
    let shifts := fun (c : Instr) (code : Nat) (tdi : BitVec 4878) => pins c code ∧ ∃ t, exec c s = .next t ∧ t.tap.bsr = tdi
    reads .idcode 0x009 (BitVec.ofNat 32 (fget s 0 Reg.Hub.IDCODE)) ∧
    (cfgState s = 3 → reads .usercode 0x008 (BitVec.ofNat 32 (fget s cfgBase (Reg.Cfg.DESIGN_ID 0)))) ∧
    (cfgState s ≠ 3 → reads .usercode 0x008 0) ∧
    quiet .tapReset 0x009 ∧ (∀ code : BitVec 10, (irCodes.contains code.toNat = false → quiet (.bypass code) code.toNat) ∧
      (irCodes.contains code.toNat = true → exec (.bypass code) s = .next s)) ∧
    pins .highz 0x00A ∧ pins .clamp 0x00B ∧
    (∀ tdi, shifts (.extest tdi) 0x000 tdi ∧ shifts (.extestPulse tdi) 0x02C tdi ∧ shifts (.extestTrain tdi) 0x02D tdi ∧
      ∃ t, exec (.samplePreload tdi) s = .next t ∧ t.tap = { s.tap with ir := 0x001, bsr := tdi, cap := Config.freePins s.free } ∧
        { t with tap := s.tap, free := s.free } = s)

/-- 04 R116; 05 R139; 08 R223; 10 R289; 11 R311, R324; 13 R400: an upset changes the stored bits alone; one of a flit on a link is corrected,
poisons its packet or discards it. Model's choices that a clause rests on: notes/assumptions/8.md. Forms shown to complete, each by a
clause that concludes exec = next with the form's own effect, under conditions on state and operands alone: memoryUpset. -/
def Obligations.UpsetsChangeStoredBits : Prop :=
  ∀ (s : State),
    (∀ (d : Fin 8) (i : Fin 48) (n : Fin 50) (row : Fin 1024) mask, ∃ t, exec (.memoryUpset (.bram d i n row mask)) s = .next t ∧
      { t with bram := s.bram } = s ∧ let k := bramKey (islId d i) n.val
      tget 0 (bramGet t k).rows row.val = tget 0 (bramGet s k).rows row.val ^^^ mask ∧
        (∀ j, j ≠ row.val → tget 0 (bramGet t k).rows j = tget 0 (bramGet s k).rows j) ∧ ∀ j, j ≠ k → bramGet t j = bramGet s j) ∧
    (∀ (g : Eng) a mask, ∃ t, exec (.memoryUpset (.engineDm g a mask)) s = .next t ∧ { t with eng := s.eng } = s ∧
      tget 0 (engOf t g).dm a.toNat = tget 0 (engOf s g).dm a.toNat ^^^ mask ∧ ∀ j, j ≠ a.toNat → tget 0 (engOf t g).dm j = tget 0 (engOf s g).dm j) ∧
    (∀ (g : Eng) a mask, ∃ t, exec (.memoryUpset (.enginePm g a mask)) s = .next t ∧ { t with eng := s.eng } = s ∧
      tget 0 (engOf t g).pm a.toNat = tget 0 (engOf s g).pm a.toNat ^^^ mask ∧ ∀ j, j ≠ a.toNat → tget 0 (engOf t g).pm j = tget 0 (engOf s g).pm j) ∧
    (∀ (line : BitVec 33) data chk, ∃ t, exec (.memoryUpset (.dram line data chk)) s = .next t ∧ { t with dram := s.dram } = s ∧
      let c := line.toNat / 2 ^ 30
      let l := line.toNat % 2 ^ 30
      dramGet t c l = ⟨(dramGet s c l).data ^^^ data, (dramGet s c l).chk ^^^ chk⟩) ∧
    (∀ (g : BitVec 22) mask, let x := granGet s g.toNat
      (x.bad = false → ∃ t, exec (.memoryUpset (.granule g mask)) s = .next t ∧ granGet t g.toNat = { x with flip := x.flip ^^^ mask } ∧
        (∀ j, j ≠ g.toNat → granGet t j = granGet s j) ∧ { t with sec := s.sec } = s) ∧
      (x.bad = true → exec (.memoryUpset (.granule g mask)) s = .next s)) ∧
    (∀ (k : BitVec 4) (i : BitVec 24) (b : Fin 64) mask, (∀ c, cacheGet s k.toNat i.toNat = some c →
        ∃ t, exec (.memoryUpset (.cache k i b mask)) s = .next t ∧ { t with sec := s.sec } = s ∧
          cacheGet t k.toNat i.toNat = some { c with flips := tset 0 c.flips b.val (tget 0 c.flips b.val ^^^ mask) }) ∧
      (cacheGet s k.toNat i.toNat = none → exec (.memoryUpset (.cache k i b mask)) s = .next s)) ∧
    (∀ (p : Packet) (k : Fin 9) (w : Fin 8) mask, let up := fun (t : State) => exec (.memoryUpset (.link p k w mask)) s = .next t
      let r := secDecode pos64 7 (mask.toNat % 2 ^ 64) (mask.toNat / 2 ^ 64)
      let counted := fun (t : State) (f : Fld) => ∀ d, linkDie s p = some d → fget t (dieBase d) f = min (fget s (dieBase d) f + 1) (2 ^ 32 - 1)
      (p ∉ s.net ∨ p.len.toNat < k.val → up s) ∧
      (p ∈ s.net → k.val ≤ p.len.toNat →
        (r.dbe = true → ∃ t, up t ∧ counted t Reg.Die.FLIT_DBE_CNT ∧
          (k = 0 → t.net = s.net.erase p) ∧ (k ≠ 0 → { p with poisoned := true } ∈ t.net ∧ t.net.length = s.net.length)) ∧
        (r.dbe = false → r.sbe = true → ∃ t, up t ∧ counted t Reg.Die.FLIT_SBE_CNT ∧ (r.data = 0 → t.net = s.net)) ∧
        (r.dbe = false → r.data ≠ 0 → ∃ t, up t ∧ flitXor p k.val w.val r.data ∈ t.net) ∧
        (r.dbe = false → r.sbe = false → r.data = 0 → up s))) ∧
    exec (.memoryUpset .dmcSram) s = exec (.dmcRestart true) s

/-- 02 R49: over any number of stages whose propagate is the exclusive or of two bits and whose generate is one of them, the carry chain adds:
the `SUM` outputs are the sum's bits and the last `CO` its carry. 02 R52 to R54: in each quarter of an idle nanosecond, whatever the free
bits and the islands that run, each flip-flop of a configured tile of an island whose clocks are ungated takes what the table of R54
gives, under its settled inputs, for the edges that the clocks have in that quarter: forced, captured from D, or unchanged; those of every
other island keep what they settled at, and configuration memory stands. Model's choices that a clause rests on: notes/assumptions/4.md,
notes/assumptions/43.md, notes/assumptions/51.md. -/
def Obligations.UserLogicRunsInIdleNanoseconds : Prop :=
  (∀ (w : Nat) (a b : BitVec w) (ci : Bool),
    let stage := fun (i : Nat) (c : Bool) => carryStage (xor (a.getLsbD i) (b.getLsbD i)) (a.getLsbD i) c
    let co : Nat → Bool := fun i => (List.range i).foldl (fun c j => (stage j c).2) ci
    (∀ i, i < w → (stage i (co i)).1 = (a + b + BitVec.ofNat w ci.toNat).getLsbD i) ∧
    co w = decide (2 ^ w ≤ a.toNat + b.toNat + ci.toNat)) ∧
  (∀ (s : State) (fb : Nat → Bool) (time : Nat),
    let z := (runningIsl s).foldl (fun s n => settle fb n 51200 s) s
    let run := (runningIsl s).filter (ungated z)
    let e := clocksCycle fb z (run.filter (fun n => spliceRoot z n == n))
    let t := logicCycle fb time s
    t.frames = s.frames ∧ z.frames = s.frames ∧
    (∀ n ∈ run, ∀ τ ∈ activeTiles s n, ∀ K f, K < 4 → f < 16 →
      let c := ctlSet z e (netOf z fb n) n τ K (ffSet s n τ K f).toNat
      let q := ffQ t n τ K f
      let reset := c.sr && (!c.srSync || (c.edge && (!c.srCe || c.ce)))
      (reset = true → q = ffSrval s n τ K f) ∧
      (reset = false → c.edge = true → c.ce = true → q = ffD z (netOf z fb n) n τ K f) ∧
      (reset = false → c.edge = false ∨ c.ce = false → q = ffQ z n τ K f)) ∧
    (∀ n, n ∉ run → ∀ τ K f, τ < 800 → K < 4 → f < 16 → ffQ t n τ K f = ffQ z n τ K f))
end

