-- ==== Sys2Proof/Laws/Tab.lean ====
section
/-! SUPPORT. Tables: what a read after a write gives, and that writing keeps the keys rising and the canonical form. -/

namespace Sys2Proof

theorem twf_iff {α : Type} [DecidableEq α] (d : α) (t : Tab α) : twf d t = true ↔ (∀ p ∈ t, p.2 ≠ d) ∧ rising t := by
  simp [twf, rising]

theorem rising_filter {α : Type} {t : Tab α} (f : Nat × α → Bool) (h : rising t) : rising (t.filter f) := List.Pairwise.filter f h
theorem twf_filter {α : Type} [DecidableEq α] {d : α} {t : Tab α} (f : Nat × α → Bool) (h : twf d t = true) : twf d (t.filter f) = true := by
  rw [twf_iff] at *
  exact ⟨fun p hp => h.1 p (List.mem_of_mem_filter hp), rising_filter f h.2⟩
theorem rising_tdel {α : Type} {t : Tab α} (i : Nat) (h : rising t) : rising (tdel t i) := rising_filter _ h
theorem rising_tclear {α : Type} {t : Tab α} (lo hi : Nat) (h : rising t) : rising (tclear t lo hi) := rising_filter _ h

theorem mem_tins {α : Type} (p q : Nat × α) (t : Tab α) : q ∈ tins p t ↔ q = p ∨ q ∈ t := by
  induction t with
  | nil => simp [tins]
  | cons a t ih =>
    unfold tins
    split <;> simp [ih]
    tauto

theorem rising_tins {α : Type} (p : Nat × α) (t : Tab α) (h : rising t) (hp : ∀ q ∈ t, q.1 ≠ p.1) : rising (tins p t) := by
  induction t with
  | nil => simp [tins, rising]
  | cons a t ih =>
    simp only [rising, List.pairwise_cons] at h
    unfold tins
    split
    · rename_i hlt
      simp only [rising, List.pairwise_cons]
      refine ⟨fun q hq => ?_, h⟩
      rcases List.mem_cons.mp hq with rfl | hq
      · exact hlt
      · exact lt_trans hlt (h.1 q hq)
    · rename_i hge
      simp only [rising, List.pairwise_cons]
      refine ⟨fun q hq => ?_, ih h.2 (fun q hq => hp q (List.mem_cons_of_mem _ hq))⟩
      rcases (mem_tins p q t).mp hq with rfl | hq
      · have := hp a (List.mem_cons_self)
        omega
      · exact h.1 q hq

theorem rising_tset {α : Type} [DecidableEq α] (d : α) {t : Tab α} (i : Nat) (v : α) (h : rising t) : rising (tset d t i v) := by
  unfold tset
  split
  · exact rising_tdel i h
  · exact rising_tins _ _ (rising_tdel i h) (fun q hq => by simpa [tdel] using (List.mem_filter.mp hq).2)

/-- Writing an entry keeps the canonical form. -/
theorem twf_tset {α : Type} [DecidableEq α] (d : α) {t : Tab α} (i : Nat) (v : α) (h : twf d t = true) : twf d (tset d t i v) = true := by
  have hr := (twf_iff d t).mp h
  rw [twf_iff]
  refine ⟨fun p hp => ?_, rising_tset d i v hr.2⟩
  unfold tset at hp
  split at hp
  · exact hr.1 p (List.mem_of_mem_filter hp)
  · rcases (mem_tins _ p _).mp hp with rfl | hp
    · assumption
    · exact hr.1 p (List.mem_of_mem_filter hp)

theorem tget_tdel {α : Type} (d : α) (t : Tab α) (i j : Nat) : tget d (tdel t i) j = if j = i then d else tget d t j := by
  induction t with
  | nil => simp [tdel, tget]
  | cons a t ih =>
    unfold tdel at *
    by_cases ha : a.1 = i
    · rw [List.filter_cons_of_neg (by simpa using ha), ih]
      by_cases hj : j = i
      · simp [hj]
      · simp only [hj, if_false, tget]
        rw [if_neg (by omega)]
    · rw [List.filter_cons_of_pos (by simpa using ha)]
      simp only [tget, ih]
      split
      · rw [if_neg (by omega)]
      · rfl

theorem tget_tins {α : Type} (d : α) (t : Tab α) (p : Nat × α) (j : Nat) (hp : ∀ q ∈ t, q.1 ≠ p.1) :
    tget d (tins p t) j = if j = p.1 then p.2 else tget d t j := by
  induction t with
  | nil => simp [tins, tget, eq_comm]
  | cons a t ih =>
    unfold tins
    split
    · simp only [tget, eq_comm]
    · simp only [tget]
      rw [ih (fun q hq => hp q (List.mem_cons_of_mem _ hq))]
      have h1 := hp a List.mem_cons_self
      split
      · rename_i h2
        rw [if_neg (by omega)]
      · rfl

/-- A read after a write: the value written at its key, and what stood there at every other. -/
theorem tget_tset {α : Type} [DecidableEq α] (d : α) (t : Tab α) (i : Nat) (v : α) (j : Nat) :
    tget d (tset d t i v) j = if j = i then v else tget d t j := by
  unfold tset
  split
  · rename_i hv
    rw [tget_tdel, hv]
  · rw [tget_tins _ _ _ _ (fun q hq => by simpa [tdel] using (List.mem_filter.mp hq).2), tget_tdel]
    by_cases h : j = i <;> simp [h]

@[simp] theorem tget_tset_self {α : Type} [DecidableEq α] (d : α) (t : Tab α) (i : Nat) (v : α) : tget d (tset d t i v) i = v := by
  simp [tget_tset]
theorem tget_tset_ne {α : Type} [DecidableEq α] (d : α) (t : Tab α) {i j : Nat} (v : α) (h : j ≠ i) :
    tget d (tset d t i v) j = tget d t j := by
  simp [tget_tset, h]

/-- A read of another key, whatever it reads as where nothing is listed. -/
theorem tget_tset_other {α : Type} [DecidableEq α] (d d' : α) (t : Tab α) {i j : Nat} (v : α) (h : j ≠ i) :
    tget d' (tset d t i v) j = tget d' t j := by
  unfold tset
  split
  · rw [tget_tdel, if_neg h]
  · rw [tget_tins _ _ _ _ (fun q hq => by simpa [tdel] using (List.mem_filter.mp hq).2), tget_tdel, if_neg h, if_neg h]

end Sys2Proof
end

