-- ==== Sys2Proof/Laws/State.lean ====
section
/-! SUPPORT. The updates of Machine/Ops.lean and the fields of the state: each update leaves every field but its own, and a read
of what it wrote gives what was written. -/

namespace Sys2Proof.Machine

section
variable (s : State) (b : Nat) (f : Fld) (v : Nat)
@[simp] theorem fset_pending : (fset s b f v).pending = s.pending := rfl
@[simp] theorem fset_rsp : (fset s b f v).rsp = s.rsp := rfl
@[simp] theorem fset_free : (fset s b f v).free = s.free := rfl
@[simp] theorem fset_isl : (fset s b f v).isl = s.isl := rfl
@[simp] theorem fset_hitch : (fset s b f v).hitch = s.hitch := rfl
@[simp] theorem fset_spine : (fset s b f v).spine = s.spine := rfl
@[simp] theorem fset_bram : (fset s b f v).bram = s.bram := rfl
@[simp] theorem fset_recent : (fset s b f v).recent = s.recent := rfl
@[simp] theorem fset_eng : (fset s b f v).eng = s.eng := rfl
@[simp] theorem fset_eis : (fset s b f v).eis = s.eis := rfl
@[simp] theorem fset_tim : (fset s b f v).tim = s.tim := rfl
@[simp] theorem fset_frames : (fset s b f v).frames = s.frames := rfl
@[simp] theorem fset_ff : (fset s b f v).ff = s.ff := rfl
@[simp] theorem fset_load : (fset s b f v).load = s.load := rfl
@[simp] theorem fset_pwr : (fset s b f v).pwr = s.pwr := rfl
@[simp] theorem fset_fuses : (fset s b f v).fuses = s.fuses := rfl
@[simp] theorem fset_flash : (fset s b f v).flash = s.flash := rfl
@[simp] theorem fset_boot : (fset s b f v).boot = s.boot := rfl
@[simp] theorem fset_csPos : (fset s b f v).csPos = s.csPos := rfl
@[simp] theorem fset_csStart : (fset s b f v).csStart = s.csStart := rfl
@[simp] theorem fset_mb : (fset s b f v).mb = s.mb := rfl
@[simp] theorem fset_plan : (fset s b f v).plan = s.plan := rfl
@[simp] theorem fset_parts : (fset s b f v).parts = s.parts := rfl
@[simp] theorem fset_sessions : (fset s b f v).sessions = s.sessions := rfl
@[simp] theorem fset_nextSession : (fset s b f v).nextSession = s.nextSession := rfl
@[simp] theorem fset_alarms : (fset s b f v).alarms = s.alarms := rfl
@[simp] theorem fset_nextAlarm : (fset s b f v).nextAlarm = s.nextAlarm := rfl
@[simp] theorem fset_alarmLost : (fset s b f v).alarmLost = s.alarmLost := rfl
@[simp] theorem fset_lostSeq : (fset s b f v).lostSeq = s.lostSeq := rfl
@[simp] theorem fset_up : (fset s b f v).up = s.up := rfl
@[simp] theorem fset_net : (fset s b f v).net = s.net := rfl
@[simp] theorem fset_way : (fset s b f v).way = s.way := rfl
@[simp] theorem fset_outs : (fset s b f v).outs = s.outs := rfl
@[simp] theorem fset_nic : (fset s b f v).nic = s.nic := rfl
@[simp] theorem fset_noc : (fset s b f v).noc = s.noc := rfl
@[simp] theorem fset_hw : (fset s b f v).hw = s.hw := rfl
@[simp] theorem fset_selfFenced : (fset s b f v).selfFenced = s.selfFenced := rfl
@[simp] theorem fset_frameAt : (fset s b f v).frameAt = s.frameAt := rfl
@[simp] theorem fset_dram : (fset s b f v).dram = s.dram := rfl
@[simp] theorem fset_mc : (fset s b f v).mc = s.mc := rfl
@[simp] theorem fset_sec : (fset s b f v).sec = s.sec := rfl
@[simp] theorem fset_lane : (fset s b f v).lane = s.lane := rfl
@[simp] theorem fset_quad : (fset s b f v).quad = s.quad := rfl
@[simp] theorem fset_bight : (fset s b f v).bight = s.bight := rfl
@[simp] theorem fset_tap : (fset s b f v).tap = s.tap := rfl
@[simp] theorem fset_fns : (fset s b f v).fns = s.fns := rfl
@[simp] theorem fset_pcie : (fset s b f v).pcie = s.pcie := rfl
@[simp] theorem fset_msi : (fset s b f v).msi = s.msi := rfl
@[simp] theorem fset_port : (fset s b f v).port = s.port := rfl
end

section
variable (s : State) (b : Nat) (f : Fld) (v w : Nat)
@[simp] theorem fset2_pending : (fset2 s b f v w).pending = s.pending := rfl
@[simp] theorem fset2_rsp : (fset2 s b f v w).rsp = s.rsp := rfl
@[simp] theorem fset2_free : (fset2 s b f v w).free = s.free := rfl
@[simp] theorem fset2_isl : (fset2 s b f v w).isl = s.isl := rfl
@[simp] theorem fset2_hitch : (fset2 s b f v w).hitch = s.hitch := rfl
@[simp] theorem fset2_spine : (fset2 s b f v w).spine = s.spine := rfl
@[simp] theorem fset2_bram : (fset2 s b f v w).bram = s.bram := rfl
@[simp] theorem fset2_recent : (fset2 s b f v w).recent = s.recent := rfl
@[simp] theorem fset2_eng : (fset2 s b f v w).eng = s.eng := rfl
@[simp] theorem fset2_eis : (fset2 s b f v w).eis = s.eis := rfl
@[simp] theorem fset2_tim : (fset2 s b f v w).tim = s.tim := rfl
@[simp] theorem fset2_frames : (fset2 s b f v w).frames = s.frames := rfl
@[simp] theorem fset2_ff : (fset2 s b f v w).ff = s.ff := rfl
@[simp] theorem fset2_load : (fset2 s b f v w).load = s.load := rfl
@[simp] theorem fset2_pwr : (fset2 s b f v w).pwr = s.pwr := rfl
@[simp] theorem fset2_fuses : (fset2 s b f v w).fuses = s.fuses := rfl
@[simp] theorem fset2_flash : (fset2 s b f v w).flash = s.flash := rfl
@[simp] theorem fset2_boot : (fset2 s b f v w).boot = s.boot := rfl
@[simp] theorem fset2_csPos : (fset2 s b f v w).csPos = s.csPos := rfl
@[simp] theorem fset2_csStart : (fset2 s b f v w).csStart = s.csStart := rfl
@[simp] theorem fset2_mb : (fset2 s b f v w).mb = s.mb := rfl
@[simp] theorem fset2_plan : (fset2 s b f v w).plan = s.plan := rfl
@[simp] theorem fset2_parts : (fset2 s b f v w).parts = s.parts := rfl
@[simp] theorem fset2_sessions : (fset2 s b f v w).sessions = s.sessions := rfl
@[simp] theorem fset2_nextSession : (fset2 s b f v w).nextSession = s.nextSession := rfl
@[simp] theorem fset2_alarms : (fset2 s b f v w).alarms = s.alarms := rfl
@[simp] theorem fset2_nextAlarm : (fset2 s b f v w).nextAlarm = s.nextAlarm := rfl
@[simp] theorem fset2_alarmLost : (fset2 s b f v w).alarmLost = s.alarmLost := rfl
@[simp] theorem fset2_lostSeq : (fset2 s b f v w).lostSeq = s.lostSeq := rfl
@[simp] theorem fset2_up : (fset2 s b f v w).up = s.up := rfl
@[simp] theorem fset2_net : (fset2 s b f v w).net = s.net := rfl
@[simp] theorem fset2_way : (fset2 s b f v w).way = s.way := rfl
@[simp] theorem fset2_outs : (fset2 s b f v w).outs = s.outs := rfl
@[simp] theorem fset2_nic : (fset2 s b f v w).nic = s.nic := rfl
@[simp] theorem fset2_noc : (fset2 s b f v w).noc = s.noc := rfl
@[simp] theorem fset2_hw : (fset2 s b f v w).hw = s.hw := rfl
@[simp] theorem fset2_selfFenced : (fset2 s b f v w).selfFenced = s.selfFenced := rfl
@[simp] theorem fset2_frameAt : (fset2 s b f v w).frameAt = s.frameAt := rfl
@[simp] theorem fset2_dram : (fset2 s b f v w).dram = s.dram := rfl
@[simp] theorem fset2_mc : (fset2 s b f v w).mc = s.mc := rfl
@[simp] theorem fset2_sec : (fset2 s b f v w).sec = s.sec := rfl
@[simp] theorem fset2_lane : (fset2 s b f v w).lane = s.lane := rfl
@[simp] theorem fset2_quad : (fset2 s b f v w).quad = s.quad := rfl
@[simp] theorem fset2_bight : (fset2 s b f v w).bight = s.bight := rfl
@[simp] theorem fset2_tap : (fset2 s b f v w).tap = s.tap := rfl
@[simp] theorem fset2_fns : (fset2 s b f v w).fns = s.fns := rfl
@[simp] theorem fset2_pcie : (fset2 s b f v w).pcie = s.pcie := rfl
@[simp] theorem fset2_msi : (fset2 s b f v w).msi = s.msi := rfl
@[simp] theorem fset2_port : (fset2 s b f v w).port = s.port := rfl
end

section
variable (s : State) (b : Nat) (f : Fld)
@[simp] theorem fclr_fresh : (fclr s b f).fresh = s.fresh := rfl
@[simp] theorem fclr_pending : (fclr s b f).pending = s.pending := rfl
@[simp] theorem fclr_rsp : (fclr s b f).rsp = s.rsp := rfl
@[simp] theorem fclr_free : (fclr s b f).free = s.free := rfl
@[simp] theorem fclr_isl : (fclr s b f).isl = s.isl := rfl
@[simp] theorem fclr_hitch : (fclr s b f).hitch = s.hitch := rfl
@[simp] theorem fclr_spine : (fclr s b f).spine = s.spine := rfl
@[simp] theorem fclr_bram : (fclr s b f).bram = s.bram := rfl
@[simp] theorem fclr_recent : (fclr s b f).recent = s.recent := rfl
@[simp] theorem fclr_eng : (fclr s b f).eng = s.eng := rfl
@[simp] theorem fclr_eis : (fclr s b f).eis = s.eis := rfl
@[simp] theorem fclr_tim : (fclr s b f).tim = s.tim := rfl
@[simp] theorem fclr_frames : (fclr s b f).frames = s.frames := rfl
@[simp] theorem fclr_ff : (fclr s b f).ff = s.ff := rfl
@[simp] theorem fclr_load : (fclr s b f).load = s.load := rfl
@[simp] theorem fclr_pwr : (fclr s b f).pwr = s.pwr := rfl
@[simp] theorem fclr_fuses : (fclr s b f).fuses = s.fuses := rfl
@[simp] theorem fclr_flash : (fclr s b f).flash = s.flash := rfl
@[simp] theorem fclr_boot : (fclr s b f).boot = s.boot := rfl
@[simp] theorem fclr_csPos : (fclr s b f).csPos = s.csPos := rfl
@[simp] theorem fclr_csStart : (fclr s b f).csStart = s.csStart := rfl
@[simp] theorem fclr_mb : (fclr s b f).mb = s.mb := rfl
@[simp] theorem fclr_plan : (fclr s b f).plan = s.plan := rfl
@[simp] theorem fclr_parts : (fclr s b f).parts = s.parts := rfl
@[simp] theorem fclr_sessions : (fclr s b f).sessions = s.sessions := rfl
@[simp] theorem fclr_nextSession : (fclr s b f).nextSession = s.nextSession := rfl
@[simp] theorem fclr_alarms : (fclr s b f).alarms = s.alarms := rfl
@[simp] theorem fclr_nextAlarm : (fclr s b f).nextAlarm = s.nextAlarm := rfl
@[simp] theorem fclr_alarmLost : (fclr s b f).alarmLost = s.alarmLost := rfl
@[simp] theorem fclr_lostSeq : (fclr s b f).lostSeq = s.lostSeq := rfl
@[simp] theorem fclr_up : (fclr s b f).up = s.up := rfl
@[simp] theorem fclr_net : (fclr s b f).net = s.net := rfl
@[simp] theorem fclr_way : (fclr s b f).way = s.way := rfl
@[simp] theorem fclr_outs : (fclr s b f).outs = s.outs := rfl
@[simp] theorem fclr_nic : (fclr s b f).nic = s.nic := rfl
@[simp] theorem fclr_noc : (fclr s b f).noc = s.noc := rfl
@[simp] theorem fclr_hw : (fclr s b f).hw = s.hw := rfl
@[simp] theorem fclr_selfFenced : (fclr s b f).selfFenced = s.selfFenced := rfl
@[simp] theorem fclr_frameAt : (fclr s b f).frameAt = s.frameAt := rfl
@[simp] theorem fclr_dram : (fclr s b f).dram = s.dram := rfl
@[simp] theorem fclr_mc : (fclr s b f).mc = s.mc := rfl
@[simp] theorem fclr_sec : (fclr s b f).sec = s.sec := rfl
@[simp] theorem fclr_lane : (fclr s b f).lane = s.lane := rfl
@[simp] theorem fclr_quad : (fclr s b f).quad = s.quad := rfl
@[simp] theorem fclr_bight : (fclr s b f).bight = s.bight := rfl
@[simp] theorem fclr_tap : (fclr s b f).tap = s.tap := rfl
@[simp] theorem fclr_fns : (fclr s b f).fns = s.fns := rfl
@[simp] theorem fclr_pcie : (fclr s b f).pcie = s.pcie := rfl
@[simp] theorem fclr_msi : (fclr s b f).msi = s.msi := rfl
@[simp] theorem fclr_port : (fclr s b f).port = s.port := rfl
end

section
variable (s : State) (lo hi : Nat)
@[simp] theorem csrClear_pending : (csrClear s lo hi).pending = s.pending := rfl
@[simp] theorem csrClear_rsp : (csrClear s lo hi).rsp = s.rsp := rfl
@[simp] theorem csrClear_free : (csrClear s lo hi).free = s.free := rfl
@[simp] theorem csrClear_isl : (csrClear s lo hi).isl = s.isl := rfl
@[simp] theorem csrClear_hitch : (csrClear s lo hi).hitch = s.hitch := rfl
@[simp] theorem csrClear_spine : (csrClear s lo hi).spine = s.spine := rfl
@[simp] theorem csrClear_bram : (csrClear s lo hi).bram = s.bram := rfl
@[simp] theorem csrClear_recent : (csrClear s lo hi).recent = s.recent := rfl
@[simp] theorem csrClear_eng : (csrClear s lo hi).eng = s.eng := rfl
@[simp] theorem csrClear_eis : (csrClear s lo hi).eis = s.eis := rfl
@[simp] theorem csrClear_tim : (csrClear s lo hi).tim = s.tim := rfl
@[simp] theorem csrClear_frames : (csrClear s lo hi).frames = s.frames := rfl
@[simp] theorem csrClear_ff : (csrClear s lo hi).ff = s.ff := rfl
@[simp] theorem csrClear_load : (csrClear s lo hi).load = s.load := rfl
@[simp] theorem csrClear_pwr : (csrClear s lo hi).pwr = s.pwr := rfl
@[simp] theorem csrClear_fuses : (csrClear s lo hi).fuses = s.fuses := rfl
@[simp] theorem csrClear_flash : (csrClear s lo hi).flash = s.flash := rfl
@[simp] theorem csrClear_boot : (csrClear s lo hi).boot = s.boot := rfl
@[simp] theorem csrClear_csPos : (csrClear s lo hi).csPos = s.csPos := rfl
@[simp] theorem csrClear_csStart : (csrClear s lo hi).csStart = s.csStart := rfl
@[simp] theorem csrClear_mb : (csrClear s lo hi).mb = s.mb := rfl
@[simp] theorem csrClear_plan : (csrClear s lo hi).plan = s.plan := rfl
@[simp] theorem csrClear_parts : (csrClear s lo hi).parts = s.parts := rfl
@[simp] theorem csrClear_sessions : (csrClear s lo hi).sessions = s.sessions := rfl
@[simp] theorem csrClear_nextSession : (csrClear s lo hi).nextSession = s.nextSession := rfl
@[simp] theorem csrClear_alarms : (csrClear s lo hi).alarms = s.alarms := rfl
@[simp] theorem csrClear_nextAlarm : (csrClear s lo hi).nextAlarm = s.nextAlarm := rfl
@[simp] theorem csrClear_alarmLost : (csrClear s lo hi).alarmLost = s.alarmLost := rfl
@[simp] theorem csrClear_lostSeq : (csrClear s lo hi).lostSeq = s.lostSeq := rfl
@[simp] theorem csrClear_up : (csrClear s lo hi).up = s.up := rfl
@[simp] theorem csrClear_net : (csrClear s lo hi).net = s.net := rfl
@[simp] theorem csrClear_way : (csrClear s lo hi).way = s.way := rfl
@[simp] theorem csrClear_outs : (csrClear s lo hi).outs = s.outs := rfl
@[simp] theorem csrClear_nic : (csrClear s lo hi).nic = s.nic := rfl
@[simp] theorem csrClear_noc : (csrClear s lo hi).noc = s.noc := rfl
@[simp] theorem csrClear_hw : (csrClear s lo hi).hw = s.hw := rfl
@[simp] theorem csrClear_selfFenced : (csrClear s lo hi).selfFenced = s.selfFenced := rfl
@[simp] theorem csrClear_frameAt : (csrClear s lo hi).frameAt = s.frameAt := rfl
@[simp] theorem csrClear_dram : (csrClear s lo hi).dram = s.dram := rfl
@[simp] theorem csrClear_mc : (csrClear s lo hi).mc = s.mc := rfl
@[simp] theorem csrClear_sec : (csrClear s lo hi).sec = s.sec := rfl
@[simp] theorem csrClear_lane : (csrClear s lo hi).lane = s.lane := rfl
@[simp] theorem csrClear_quad : (csrClear s lo hi).quad = s.quad := rfl
@[simp] theorem csrClear_bight : (csrClear s lo hi).bight = s.bight := rfl
@[simp] theorem csrClear_tap : (csrClear s lo hi).tap = s.tap := rfl
@[simp] theorem csrClear_fns : (csrClear s lo hi).fns = s.fns := rfl
@[simp] theorem csrClear_pcie : (csrClear s lo hi).pcie = s.pcie := rfl
@[simp] theorem csrClear_msi : (csrClear s lo hi).msi = s.msi := rfl
@[simp] theorem csrClear_port : (csrClear s lo hi).port = s.port := rfl
end

section
variable (s : State) (lo hi : Nat)
@[simp] theorem csrWipe_fresh : (csrWipe s lo hi).fresh = s.fresh := rfl
@[simp] theorem csrWipe_pending : (csrWipe s lo hi).pending = s.pending := rfl
@[simp] theorem csrWipe_rsp : (csrWipe s lo hi).rsp = s.rsp := rfl
@[simp] theorem csrWipe_free : (csrWipe s lo hi).free = s.free := rfl
@[simp] theorem csrWipe_isl : (csrWipe s lo hi).isl = s.isl := rfl
@[simp] theorem csrWipe_hitch : (csrWipe s lo hi).hitch = s.hitch := rfl
@[simp] theorem csrWipe_spine : (csrWipe s lo hi).spine = s.spine := rfl
@[simp] theorem csrWipe_bram : (csrWipe s lo hi).bram = s.bram := rfl
@[simp] theorem csrWipe_recent : (csrWipe s lo hi).recent = s.recent := rfl
@[simp] theorem csrWipe_eng : (csrWipe s lo hi).eng = s.eng := rfl
@[simp] theorem csrWipe_eis : (csrWipe s lo hi).eis = s.eis := rfl
@[simp] theorem csrWipe_tim : (csrWipe s lo hi).tim = s.tim := rfl
@[simp] theorem csrWipe_frames : (csrWipe s lo hi).frames = s.frames := rfl
@[simp] theorem csrWipe_ff : (csrWipe s lo hi).ff = s.ff := rfl
@[simp] theorem csrWipe_load : (csrWipe s lo hi).load = s.load := rfl
@[simp] theorem csrWipe_pwr : (csrWipe s lo hi).pwr = s.pwr := rfl
@[simp] theorem csrWipe_fuses : (csrWipe s lo hi).fuses = s.fuses := rfl
@[simp] theorem csrWipe_flash : (csrWipe s lo hi).flash = s.flash := rfl
@[simp] theorem csrWipe_boot : (csrWipe s lo hi).boot = s.boot := rfl
@[simp] theorem csrWipe_csPos : (csrWipe s lo hi).csPos = s.csPos := rfl
@[simp] theorem csrWipe_csStart : (csrWipe s lo hi).csStart = s.csStart := rfl
@[simp] theorem csrWipe_mb : (csrWipe s lo hi).mb = s.mb := rfl
@[simp] theorem csrWipe_plan : (csrWipe s lo hi).plan = s.plan := rfl
@[simp] theorem csrWipe_parts : (csrWipe s lo hi).parts = s.parts := rfl
@[simp] theorem csrWipe_sessions : (csrWipe s lo hi).sessions = s.sessions := rfl
@[simp] theorem csrWipe_nextSession : (csrWipe s lo hi).nextSession = s.nextSession := rfl
@[simp] theorem csrWipe_alarms : (csrWipe s lo hi).alarms = s.alarms := rfl
@[simp] theorem csrWipe_nextAlarm : (csrWipe s lo hi).nextAlarm = s.nextAlarm := rfl
@[simp] theorem csrWipe_alarmLost : (csrWipe s lo hi).alarmLost = s.alarmLost := rfl
@[simp] theorem csrWipe_lostSeq : (csrWipe s lo hi).lostSeq = s.lostSeq := rfl
@[simp] theorem csrWipe_up : (csrWipe s lo hi).up = s.up := rfl
@[simp] theorem csrWipe_net : (csrWipe s lo hi).net = s.net := rfl
@[simp] theorem csrWipe_way : (csrWipe s lo hi).way = s.way := rfl
@[simp] theorem csrWipe_outs : (csrWipe s lo hi).outs = s.outs := rfl
@[simp] theorem csrWipe_nic : (csrWipe s lo hi).nic = s.nic := rfl
@[simp] theorem csrWipe_noc : (csrWipe s lo hi).noc = s.noc := rfl
@[simp] theorem csrWipe_hw : (csrWipe s lo hi).hw = s.hw := rfl
@[simp] theorem csrWipe_selfFenced : (csrWipe s lo hi).selfFenced = s.selfFenced := rfl
@[simp] theorem csrWipe_frameAt : (csrWipe s lo hi).frameAt = s.frameAt := rfl
@[simp] theorem csrWipe_dram : (csrWipe s lo hi).dram = s.dram := rfl
@[simp] theorem csrWipe_mc : (csrWipe s lo hi).mc = s.mc := rfl
@[simp] theorem csrWipe_sec : (csrWipe s lo hi).sec = s.sec := rfl
@[simp] theorem csrWipe_lane : (csrWipe s lo hi).lane = s.lane := rfl
@[simp] theorem csrWipe_quad : (csrWipe s lo hi).quad = s.quad := rfl
@[simp] theorem csrWipe_bight : (csrWipe s lo hi).bight = s.bight := rfl
@[simp] theorem csrWipe_tap : (csrWipe s lo hi).tap = s.tap := rfl
@[simp] theorem csrWipe_fns : (csrWipe s lo hi).fns = s.fns := rfl
@[simp] theorem csrWipe_pcie : (csrWipe s lo hi).pcie = s.pcie := rfl
@[simp] theorem csrWipe_msi : (csrWipe s lo hi).msi = s.msi := rfl
@[simp] theorem csrWipe_port : (csrWipe s lo hi).port = s.port := rfl
end

section
variable (s : State) (r : Resp) (v : Word)
@[simp] theorem answer_csr : (answer s r v).csr = s.csr := rfl
@[simp] theorem answer_fresh : (answer s r v).fresh = s.fresh := rfl
@[simp] theorem answer_pending : (answer s r v).pending = s.pending := rfl
@[simp] theorem answer_free : (answer s r v).free = s.free := rfl
@[simp] theorem answer_isl : (answer s r v).isl = s.isl := rfl
@[simp] theorem answer_hitch : (answer s r v).hitch = s.hitch := rfl
@[simp] theorem answer_spine : (answer s r v).spine = s.spine := rfl
@[simp] theorem answer_bram : (answer s r v).bram = s.bram := rfl
@[simp] theorem answer_recent : (answer s r v).recent = s.recent := rfl
@[simp] theorem answer_eng : (answer s r v).eng = s.eng := rfl
@[simp] theorem answer_eis : (answer s r v).eis = s.eis := rfl
@[simp] theorem answer_tim : (answer s r v).tim = s.tim := rfl
@[simp] theorem answer_frames : (answer s r v).frames = s.frames := rfl
@[simp] theorem answer_ff : (answer s r v).ff = s.ff := rfl
@[simp] theorem answer_load : (answer s r v).load = s.load := rfl
@[simp] theorem answer_pwr : (answer s r v).pwr = s.pwr := rfl
@[simp] theorem answer_fuses : (answer s r v).fuses = s.fuses := rfl
@[simp] theorem answer_flash : (answer s r v).flash = s.flash := rfl
@[simp] theorem answer_boot : (answer s r v).boot = s.boot := rfl
@[simp] theorem answer_csPos : (answer s r v).csPos = s.csPos := rfl
@[simp] theorem answer_csStart : (answer s r v).csStart = s.csStart := rfl
@[simp] theorem answer_mb : (answer s r v).mb = s.mb := rfl
@[simp] theorem answer_plan : (answer s r v).plan = s.plan := rfl
@[simp] theorem answer_parts : (answer s r v).parts = s.parts := rfl
@[simp] theorem answer_sessions : (answer s r v).sessions = s.sessions := rfl
@[simp] theorem answer_nextSession : (answer s r v).nextSession = s.nextSession := rfl
@[simp] theorem answer_alarms : (answer s r v).alarms = s.alarms := rfl
@[simp] theorem answer_nextAlarm : (answer s r v).nextAlarm = s.nextAlarm := rfl
@[simp] theorem answer_alarmLost : (answer s r v).alarmLost = s.alarmLost := rfl
@[simp] theorem answer_lostSeq : (answer s r v).lostSeq = s.lostSeq := rfl
@[simp] theorem answer_up : (answer s r v).up = s.up := rfl
@[simp] theorem answer_net : (answer s r v).net = s.net := rfl
@[simp] theorem answer_way : (answer s r v).way = s.way := rfl
@[simp] theorem answer_outs : (answer s r v).outs = s.outs := rfl
@[simp] theorem answer_nic : (answer s r v).nic = s.nic := rfl
@[simp] theorem answer_noc : (answer s r v).noc = s.noc := rfl
@[simp] theorem answer_hw : (answer s r v).hw = s.hw := rfl
@[simp] theorem answer_selfFenced : (answer s r v).selfFenced = s.selfFenced := rfl
@[simp] theorem answer_frameAt : (answer s r v).frameAt = s.frameAt := rfl
@[simp] theorem answer_dram : (answer s r v).dram = s.dram := rfl
@[simp] theorem answer_mc : (answer s r v).mc = s.mc := rfl
@[simp] theorem answer_sec : (answer s r v).sec = s.sec := rfl
@[simp] theorem answer_lane : (answer s r v).lane = s.lane := rfl
@[simp] theorem answer_quad : (answer s r v).quad = s.quad := rfl
@[simp] theorem answer_bight : (answer s r v).bight = s.bight := rfl
@[simp] theorem answer_tap : (answer s r v).tap = s.tap := rfl
@[simp] theorem answer_fns : (answer s r v).fns = s.fns := rfl
@[simp] theorem answer_pcie : (answer s r v).pcie = s.pcie := rfl
@[simp] theorem answer_msi : (answer s r v).msi = s.msi := rfl
@[simp] theorem answer_port : (answer s r v).port = s.port := rfl
end

section
variable (s : State) (r : Resp) (b : List Byte)
@[simp] theorem answerBytes_csr : (answerBytes s r b).csr = s.csr := rfl
@[simp] theorem answerBytes_fresh : (answerBytes s r b).fresh = s.fresh := rfl
@[simp] theorem answerBytes_pending : (answerBytes s r b).pending = s.pending := rfl
@[simp] theorem answerBytes_free : (answerBytes s r b).free = s.free := rfl
@[simp] theorem answerBytes_isl : (answerBytes s r b).isl = s.isl := rfl
@[simp] theorem answerBytes_hitch : (answerBytes s r b).hitch = s.hitch := rfl
@[simp] theorem answerBytes_spine : (answerBytes s r b).spine = s.spine := rfl
@[simp] theorem answerBytes_bram : (answerBytes s r b).bram = s.bram := rfl
@[simp] theorem answerBytes_recent : (answerBytes s r b).recent = s.recent := rfl
@[simp] theorem answerBytes_eng : (answerBytes s r b).eng = s.eng := rfl
@[simp] theorem answerBytes_eis : (answerBytes s r b).eis = s.eis := rfl
@[simp] theorem answerBytes_tim : (answerBytes s r b).tim = s.tim := rfl
@[simp] theorem answerBytes_frames : (answerBytes s r b).frames = s.frames := rfl
@[simp] theorem answerBytes_ff : (answerBytes s r b).ff = s.ff := rfl
@[simp] theorem answerBytes_load : (answerBytes s r b).load = s.load := rfl
@[simp] theorem answerBytes_pwr : (answerBytes s r b).pwr = s.pwr := rfl
@[simp] theorem answerBytes_fuses : (answerBytes s r b).fuses = s.fuses := rfl
@[simp] theorem answerBytes_flash : (answerBytes s r b).flash = s.flash := rfl
@[simp] theorem answerBytes_boot : (answerBytes s r b).boot = s.boot := rfl
@[simp] theorem answerBytes_csPos : (answerBytes s r b).csPos = s.csPos := rfl
@[simp] theorem answerBytes_csStart : (answerBytes s r b).csStart = s.csStart := rfl
@[simp] theorem answerBytes_mb : (answerBytes s r b).mb = s.mb := rfl
@[simp] theorem answerBytes_plan : (answerBytes s r b).plan = s.plan := rfl
@[simp] theorem answerBytes_parts : (answerBytes s r b).parts = s.parts := rfl
@[simp] theorem answerBytes_sessions : (answerBytes s r b).sessions = s.sessions := rfl
@[simp] theorem answerBytes_nextSession : (answerBytes s r b).nextSession = s.nextSession := rfl
@[simp] theorem answerBytes_alarms : (answerBytes s r b).alarms = s.alarms := rfl
@[simp] theorem answerBytes_nextAlarm : (answerBytes s r b).nextAlarm = s.nextAlarm := rfl
@[simp] theorem answerBytes_alarmLost : (answerBytes s r b).alarmLost = s.alarmLost := rfl
@[simp] theorem answerBytes_lostSeq : (answerBytes s r b).lostSeq = s.lostSeq := rfl
@[simp] theorem answerBytes_up : (answerBytes s r b).up = s.up := rfl
@[simp] theorem answerBytes_net : (answerBytes s r b).net = s.net := rfl
@[simp] theorem answerBytes_way : (answerBytes s r b).way = s.way := rfl
@[simp] theorem answerBytes_outs : (answerBytes s r b).outs = s.outs := rfl
@[simp] theorem answerBytes_nic : (answerBytes s r b).nic = s.nic := rfl
@[simp] theorem answerBytes_noc : (answerBytes s r b).noc = s.noc := rfl
@[simp] theorem answerBytes_hw : (answerBytes s r b).hw = s.hw := rfl
@[simp] theorem answerBytes_selfFenced : (answerBytes s r b).selfFenced = s.selfFenced := rfl
@[simp] theorem answerBytes_frameAt : (answerBytes s r b).frameAt = s.frameAt := rfl
@[simp] theorem answerBytes_dram : (answerBytes s r b).dram = s.dram := rfl
@[simp] theorem answerBytes_mc : (answerBytes s r b).mc = s.mc := rfl
@[simp] theorem answerBytes_sec : (answerBytes s r b).sec = s.sec := rfl
@[simp] theorem answerBytes_lane : (answerBytes s r b).lane = s.lane := rfl
@[simp] theorem answerBytes_quad : (answerBytes s r b).quad = s.quad := rfl
@[simp] theorem answerBytes_bight : (answerBytes s r b).bight = s.bight := rfl
@[simp] theorem answerBytes_tap : (answerBytes s r b).tap = s.tap := rfl
@[simp] theorem answerBytes_fns : (answerBytes s r b).fns = s.fns := rfl
@[simp] theorem answerBytes_pcie : (answerBytes s r b).pcie = s.pcie := rfl
@[simp] theorem answerBytes_msi : (answerBytes s r b).msi = s.msi := rfl
@[simp] theorem answerBytes_port : (answerBytes s r b).port = s.port := rfl
end

section
variable (s : State) (n : Nat) (f : IslSt → IslSt)
@[simp] theorem islUpd_csr : (islUpd s n f).csr = s.csr := rfl
@[simp] theorem islUpd_fresh : (islUpd s n f).fresh = s.fresh := rfl
@[simp] theorem islUpd_pending : (islUpd s n f).pending = s.pending := rfl
@[simp] theorem islUpd_rsp : (islUpd s n f).rsp = s.rsp := rfl
@[simp] theorem islUpd_free : (islUpd s n f).free = s.free := rfl
@[simp] theorem islUpd_hitch : (islUpd s n f).hitch = s.hitch := rfl
@[simp] theorem islUpd_spine : (islUpd s n f).spine = s.spine := rfl
@[simp] theorem islUpd_bram : (islUpd s n f).bram = s.bram := rfl
@[simp] theorem islUpd_recent : (islUpd s n f).recent = s.recent := rfl
@[simp] theorem islUpd_eng : (islUpd s n f).eng = s.eng := rfl
@[simp] theorem islUpd_eis : (islUpd s n f).eis = s.eis := rfl
@[simp] theorem islUpd_tim : (islUpd s n f).tim = s.tim := rfl
@[simp] theorem islUpd_frames : (islUpd s n f).frames = s.frames := rfl
@[simp] theorem islUpd_ff : (islUpd s n f).ff = s.ff := rfl
@[simp] theorem islUpd_load : (islUpd s n f).load = s.load := rfl
@[simp] theorem islUpd_pwr : (islUpd s n f).pwr = s.pwr := rfl
@[simp] theorem islUpd_fuses : (islUpd s n f).fuses = s.fuses := rfl
@[simp] theorem islUpd_flash : (islUpd s n f).flash = s.flash := rfl
@[simp] theorem islUpd_boot : (islUpd s n f).boot = s.boot := rfl
@[simp] theorem islUpd_csPos : (islUpd s n f).csPos = s.csPos := rfl
@[simp] theorem islUpd_csStart : (islUpd s n f).csStart = s.csStart := rfl
@[simp] theorem islUpd_mb : (islUpd s n f).mb = s.mb := rfl
@[simp] theorem islUpd_plan : (islUpd s n f).plan = s.plan := rfl
@[simp] theorem islUpd_parts : (islUpd s n f).parts = s.parts := rfl
@[simp] theorem islUpd_sessions : (islUpd s n f).sessions = s.sessions := rfl
@[simp] theorem islUpd_nextSession : (islUpd s n f).nextSession = s.nextSession := rfl
@[simp] theorem islUpd_alarms : (islUpd s n f).alarms = s.alarms := rfl
@[simp] theorem islUpd_nextAlarm : (islUpd s n f).nextAlarm = s.nextAlarm := rfl
@[simp] theorem islUpd_alarmLost : (islUpd s n f).alarmLost = s.alarmLost := rfl
@[simp] theorem islUpd_lostSeq : (islUpd s n f).lostSeq = s.lostSeq := rfl
@[simp] theorem islUpd_up : (islUpd s n f).up = s.up := rfl
@[simp] theorem islUpd_net : (islUpd s n f).net = s.net := rfl
@[simp] theorem islUpd_way : (islUpd s n f).way = s.way := rfl
@[simp] theorem islUpd_outs : (islUpd s n f).outs = s.outs := rfl
@[simp] theorem islUpd_nic : (islUpd s n f).nic = s.nic := rfl
@[simp] theorem islUpd_noc : (islUpd s n f).noc = s.noc := rfl
@[simp] theorem islUpd_hw : (islUpd s n f).hw = s.hw := rfl
@[simp] theorem islUpd_selfFenced : (islUpd s n f).selfFenced = s.selfFenced := rfl
@[simp] theorem islUpd_frameAt : (islUpd s n f).frameAt = s.frameAt := rfl
@[simp] theorem islUpd_dram : (islUpd s n f).dram = s.dram := rfl
@[simp] theorem islUpd_mc : (islUpd s n f).mc = s.mc := rfl
@[simp] theorem islUpd_sec : (islUpd s n f).sec = s.sec := rfl
@[simp] theorem islUpd_lane : (islUpd s n f).lane = s.lane := rfl
@[simp] theorem islUpd_quad : (islUpd s n f).quad = s.quad := rfl
@[simp] theorem islUpd_bight : (islUpd s n f).bight = s.bight := rfl
@[simp] theorem islUpd_tap : (islUpd s n f).tap = s.tap := rfl
@[simp] theorem islUpd_fns : (islUpd s n f).fns = s.fns := rfl
@[simp] theorem islUpd_pcie : (islUpd s n f).pcie = s.pcie := rfl
@[simp] theorem islUpd_msi : (islUpd s n f).msi = s.msi := rfl
@[simp] theorem islUpd_port : (islUpd s n f).port = s.port := rfl
end

section
variable (s : State) (n : Nat) (f : EngSt → EngSt)
@[simp] theorem engUpd_csr : (engUpd s n f).csr = s.csr := rfl
@[simp] theorem engUpd_fresh : (engUpd s n f).fresh = s.fresh := rfl
@[simp] theorem engUpd_pending : (engUpd s n f).pending = s.pending := rfl
@[simp] theorem engUpd_rsp : (engUpd s n f).rsp = s.rsp := rfl
@[simp] theorem engUpd_free : (engUpd s n f).free = s.free := rfl
@[simp] theorem engUpd_isl : (engUpd s n f).isl = s.isl := rfl
@[simp] theorem engUpd_hitch : (engUpd s n f).hitch = s.hitch := rfl
@[simp] theorem engUpd_spine : (engUpd s n f).spine = s.spine := rfl
@[simp] theorem engUpd_bram : (engUpd s n f).bram = s.bram := rfl
@[simp] theorem engUpd_recent : (engUpd s n f).recent = s.recent := rfl
@[simp] theorem engUpd_eis : (engUpd s n f).eis = s.eis := rfl
@[simp] theorem engUpd_tim : (engUpd s n f).tim = s.tim := rfl
@[simp] theorem engUpd_frames : (engUpd s n f).frames = s.frames := rfl
@[simp] theorem engUpd_ff : (engUpd s n f).ff = s.ff := rfl
@[simp] theorem engUpd_load : (engUpd s n f).load = s.load := rfl
@[simp] theorem engUpd_pwr : (engUpd s n f).pwr = s.pwr := rfl
@[simp] theorem engUpd_fuses : (engUpd s n f).fuses = s.fuses := rfl
@[simp] theorem engUpd_flash : (engUpd s n f).flash = s.flash := rfl
@[simp] theorem engUpd_boot : (engUpd s n f).boot = s.boot := rfl
@[simp] theorem engUpd_csPos : (engUpd s n f).csPos = s.csPos := rfl
@[simp] theorem engUpd_csStart : (engUpd s n f).csStart = s.csStart := rfl
@[simp] theorem engUpd_mb : (engUpd s n f).mb = s.mb := rfl
@[simp] theorem engUpd_plan : (engUpd s n f).plan = s.plan := rfl
@[simp] theorem engUpd_parts : (engUpd s n f).parts = s.parts := rfl
@[simp] theorem engUpd_sessions : (engUpd s n f).sessions = s.sessions := rfl
@[simp] theorem engUpd_nextSession : (engUpd s n f).nextSession = s.nextSession := rfl
@[simp] theorem engUpd_alarms : (engUpd s n f).alarms = s.alarms := rfl
@[simp] theorem engUpd_nextAlarm : (engUpd s n f).nextAlarm = s.nextAlarm := rfl
@[simp] theorem engUpd_alarmLost : (engUpd s n f).alarmLost = s.alarmLost := rfl
@[simp] theorem engUpd_lostSeq : (engUpd s n f).lostSeq = s.lostSeq := rfl
@[simp] theorem engUpd_up : (engUpd s n f).up = s.up := rfl
@[simp] theorem engUpd_net : (engUpd s n f).net = s.net := rfl
@[simp] theorem engUpd_way : (engUpd s n f).way = s.way := rfl
@[simp] theorem engUpd_outs : (engUpd s n f).outs = s.outs := rfl
@[simp] theorem engUpd_nic : (engUpd s n f).nic = s.nic := rfl
@[simp] theorem engUpd_noc : (engUpd s n f).noc = s.noc := rfl
@[simp] theorem engUpd_hw : (engUpd s n f).hw = s.hw := rfl
@[simp] theorem engUpd_selfFenced : (engUpd s n f).selfFenced = s.selfFenced := rfl
@[simp] theorem engUpd_frameAt : (engUpd s n f).frameAt = s.frameAt := rfl
@[simp] theorem engUpd_dram : (engUpd s n f).dram = s.dram := rfl
@[simp] theorem engUpd_mc : (engUpd s n f).mc = s.mc := rfl
@[simp] theorem engUpd_sec : (engUpd s n f).sec = s.sec := rfl
@[simp] theorem engUpd_lane : (engUpd s n f).lane = s.lane := rfl
@[simp] theorem engUpd_quad : (engUpd s n f).quad = s.quad := rfl
@[simp] theorem engUpd_bight : (engUpd s n f).bight = s.bight := rfl
@[simp] theorem engUpd_tap : (engUpd s n f).tap = s.tap := rfl
@[simp] theorem engUpd_fns : (engUpd s n f).fns = s.fns := rfl
@[simp] theorem engUpd_pcie : (engUpd s n f).pcie = s.pcie := rfl
@[simp] theorem engUpd_msi : (engUpd s n f).msi = s.msi := rfl
@[simp] theorem engUpd_port : (engUpd s n f).port = s.port := rfl
end

section
variable (s : State) (n : Nat) (e : EngSt)
@[simp] theorem engSet_csr : (engSet s n e).csr = s.csr := rfl
@[simp] theorem engSet_fresh : (engSet s n e).fresh = s.fresh := rfl
@[simp] theorem engSet_pending : (engSet s n e).pending = s.pending := rfl
@[simp] theorem engSet_rsp : (engSet s n e).rsp = s.rsp := rfl
@[simp] theorem engSet_free : (engSet s n e).free = s.free := rfl
@[simp] theorem engSet_isl : (engSet s n e).isl = s.isl := rfl
@[simp] theorem engSet_hitch : (engSet s n e).hitch = s.hitch := rfl
@[simp] theorem engSet_spine : (engSet s n e).spine = s.spine := rfl
@[simp] theorem engSet_bram : (engSet s n e).bram = s.bram := rfl
@[simp] theorem engSet_recent : (engSet s n e).recent = s.recent := rfl
@[simp] theorem engSet_eis : (engSet s n e).eis = s.eis := rfl
@[simp] theorem engSet_tim : (engSet s n e).tim = s.tim := rfl
@[simp] theorem engSet_frames : (engSet s n e).frames = s.frames := rfl
@[simp] theorem engSet_ff : (engSet s n e).ff = s.ff := rfl
@[simp] theorem engSet_load : (engSet s n e).load = s.load := rfl
@[simp] theorem engSet_pwr : (engSet s n e).pwr = s.pwr := rfl
@[simp] theorem engSet_fuses : (engSet s n e).fuses = s.fuses := rfl
@[simp] theorem engSet_flash : (engSet s n e).flash = s.flash := rfl
@[simp] theorem engSet_boot : (engSet s n e).boot = s.boot := rfl
@[simp] theorem engSet_csPos : (engSet s n e).csPos = s.csPos := rfl
@[simp] theorem engSet_csStart : (engSet s n e).csStart = s.csStart := rfl
@[simp] theorem engSet_mb : (engSet s n e).mb = s.mb := rfl
@[simp] theorem engSet_plan : (engSet s n e).plan = s.plan := rfl
@[simp] theorem engSet_parts : (engSet s n e).parts = s.parts := rfl
@[simp] theorem engSet_sessions : (engSet s n e).sessions = s.sessions := rfl
@[simp] theorem engSet_nextSession : (engSet s n e).nextSession = s.nextSession := rfl
@[simp] theorem engSet_alarms : (engSet s n e).alarms = s.alarms := rfl
@[simp] theorem engSet_nextAlarm : (engSet s n e).nextAlarm = s.nextAlarm := rfl
@[simp] theorem engSet_alarmLost : (engSet s n e).alarmLost = s.alarmLost := rfl
@[simp] theorem engSet_lostSeq : (engSet s n e).lostSeq = s.lostSeq := rfl
@[simp] theorem engSet_up : (engSet s n e).up = s.up := rfl
@[simp] theorem engSet_net : (engSet s n e).net = s.net := rfl
@[simp] theorem engSet_way : (engSet s n e).way = s.way := rfl
@[simp] theorem engSet_outs : (engSet s n e).outs = s.outs := rfl
@[simp] theorem engSet_nic : (engSet s n e).nic = s.nic := rfl
@[simp] theorem engSet_noc : (engSet s n e).noc = s.noc := rfl
@[simp] theorem engSet_hw : (engSet s n e).hw = s.hw := rfl
@[simp] theorem engSet_selfFenced : (engSet s n e).selfFenced = s.selfFenced := rfl
@[simp] theorem engSet_frameAt : (engSet s n e).frameAt = s.frameAt := rfl
@[simp] theorem engSet_dram : (engSet s n e).dram = s.dram := rfl
@[simp] theorem engSet_mc : (engSet s n e).mc = s.mc := rfl
@[simp] theorem engSet_sec : (engSet s n e).sec = s.sec := rfl
@[simp] theorem engSet_lane : (engSet s n e).lane = s.lane := rfl
@[simp] theorem engSet_quad : (engSet s n e).quad = s.quad := rfl
@[simp] theorem engSet_bight : (engSet s n e).bight = s.bight := rfl
@[simp] theorem engSet_tap : (engSet s n e).tap = s.tap := rfl
@[simp] theorem engSet_fns : (engSet s n e).fns = s.fns := rfl
@[simp] theorem engSet_pcie : (engSet s n e).pcie = s.pcie := rfl
@[simp] theorem engSet_msi : (engSet s n e).msi = s.msi := rfl
@[simp] theorem engSet_port : (engSet s n e).port = s.port := rfl
end

section
variable (s : State) (n : Nat) (f : EisSt → EisSt)
@[simp] theorem eisUpd_csr : (eisUpd s n f).csr = s.csr := rfl
@[simp] theorem eisUpd_fresh : (eisUpd s n f).fresh = s.fresh := rfl
@[simp] theorem eisUpd_pending : (eisUpd s n f).pending = s.pending := rfl
@[simp] theorem eisUpd_rsp : (eisUpd s n f).rsp = s.rsp := rfl
@[simp] theorem eisUpd_free : (eisUpd s n f).free = s.free := rfl
@[simp] theorem eisUpd_isl : (eisUpd s n f).isl = s.isl := rfl
@[simp] theorem eisUpd_hitch : (eisUpd s n f).hitch = s.hitch := rfl
@[simp] theorem eisUpd_spine : (eisUpd s n f).spine = s.spine := rfl
@[simp] theorem eisUpd_bram : (eisUpd s n f).bram = s.bram := rfl
@[simp] theorem eisUpd_recent : (eisUpd s n f).recent = s.recent := rfl
@[simp] theorem eisUpd_eng : (eisUpd s n f).eng = s.eng := rfl
@[simp] theorem eisUpd_tim : (eisUpd s n f).tim = s.tim := rfl
@[simp] theorem eisUpd_frames : (eisUpd s n f).frames = s.frames := rfl
@[simp] theorem eisUpd_ff : (eisUpd s n f).ff = s.ff := rfl
@[simp] theorem eisUpd_load : (eisUpd s n f).load = s.load := rfl
@[simp] theorem eisUpd_pwr : (eisUpd s n f).pwr = s.pwr := rfl
@[simp] theorem eisUpd_fuses : (eisUpd s n f).fuses = s.fuses := rfl
@[simp] theorem eisUpd_flash : (eisUpd s n f).flash = s.flash := rfl
@[simp] theorem eisUpd_boot : (eisUpd s n f).boot = s.boot := rfl
@[simp] theorem eisUpd_csPos : (eisUpd s n f).csPos = s.csPos := rfl
@[simp] theorem eisUpd_csStart : (eisUpd s n f).csStart = s.csStart := rfl
@[simp] theorem eisUpd_mb : (eisUpd s n f).mb = s.mb := rfl
@[simp] theorem eisUpd_plan : (eisUpd s n f).plan = s.plan := rfl
@[simp] theorem eisUpd_parts : (eisUpd s n f).parts = s.parts := rfl
@[simp] theorem eisUpd_sessions : (eisUpd s n f).sessions = s.sessions := rfl
@[simp] theorem eisUpd_nextSession : (eisUpd s n f).nextSession = s.nextSession := rfl
@[simp] theorem eisUpd_alarms : (eisUpd s n f).alarms = s.alarms := rfl
@[simp] theorem eisUpd_nextAlarm : (eisUpd s n f).nextAlarm = s.nextAlarm := rfl
@[simp] theorem eisUpd_alarmLost : (eisUpd s n f).alarmLost = s.alarmLost := rfl
@[simp] theorem eisUpd_lostSeq : (eisUpd s n f).lostSeq = s.lostSeq := rfl
@[simp] theorem eisUpd_up : (eisUpd s n f).up = s.up := rfl
@[simp] theorem eisUpd_net : (eisUpd s n f).net = s.net := rfl
@[simp] theorem eisUpd_way : (eisUpd s n f).way = s.way := rfl
@[simp] theorem eisUpd_outs : (eisUpd s n f).outs = s.outs := rfl
@[simp] theorem eisUpd_nic : (eisUpd s n f).nic = s.nic := rfl
@[simp] theorem eisUpd_noc : (eisUpd s n f).noc = s.noc := rfl
@[simp] theorem eisUpd_hw : (eisUpd s n f).hw = s.hw := rfl
@[simp] theorem eisUpd_selfFenced : (eisUpd s n f).selfFenced = s.selfFenced := rfl
@[simp] theorem eisUpd_frameAt : (eisUpd s n f).frameAt = s.frameAt := rfl
@[simp] theorem eisUpd_dram : (eisUpd s n f).dram = s.dram := rfl
@[simp] theorem eisUpd_mc : (eisUpd s n f).mc = s.mc := rfl
@[simp] theorem eisUpd_sec : (eisUpd s n f).sec = s.sec := rfl
@[simp] theorem eisUpd_lane : (eisUpd s n f).lane = s.lane := rfl
@[simp] theorem eisUpd_quad : (eisUpd s n f).quad = s.quad := rfl
@[simp] theorem eisUpd_bight : (eisUpd s n f).bight = s.bight := rfl
@[simp] theorem eisUpd_tap : (eisUpd s n f).tap = s.tap := rfl
@[simp] theorem eisUpd_fns : (eisUpd s n f).fns = s.fns := rfl
@[simp] theorem eisUpd_pcie : (eisUpd s n f).pcie = s.pcie := rfl
@[simp] theorem eisUpd_msi : (eisUpd s n f).msi = s.msi := rfl
@[simp] theorem eisUpd_port : (eisUpd s n f).port = s.port := rfl
end

section
variable (s : State) (n : Nat) (x : HitchSt)
@[simp] theorem hitchSet_csr : (hitchSet s n x).csr = s.csr := rfl
@[simp] theorem hitchSet_fresh : (hitchSet s n x).fresh = s.fresh := rfl
@[simp] theorem hitchSet_pending : (hitchSet s n x).pending = s.pending := rfl
@[simp] theorem hitchSet_rsp : (hitchSet s n x).rsp = s.rsp := rfl
@[simp] theorem hitchSet_free : (hitchSet s n x).free = s.free := rfl
@[simp] theorem hitchSet_isl : (hitchSet s n x).isl = s.isl := rfl
@[simp] theorem hitchSet_spine : (hitchSet s n x).spine = s.spine := rfl
@[simp] theorem hitchSet_bram : (hitchSet s n x).bram = s.bram := rfl
@[simp] theorem hitchSet_recent : (hitchSet s n x).recent = s.recent := rfl
@[simp] theorem hitchSet_eng : (hitchSet s n x).eng = s.eng := rfl
@[simp] theorem hitchSet_eis : (hitchSet s n x).eis = s.eis := rfl
@[simp] theorem hitchSet_tim : (hitchSet s n x).tim = s.tim := rfl
@[simp] theorem hitchSet_frames : (hitchSet s n x).frames = s.frames := rfl
@[simp] theorem hitchSet_ff : (hitchSet s n x).ff = s.ff := rfl
@[simp] theorem hitchSet_load : (hitchSet s n x).load = s.load := rfl
@[simp] theorem hitchSet_pwr : (hitchSet s n x).pwr = s.pwr := rfl
@[simp] theorem hitchSet_fuses : (hitchSet s n x).fuses = s.fuses := rfl
@[simp] theorem hitchSet_flash : (hitchSet s n x).flash = s.flash := rfl
@[simp] theorem hitchSet_boot : (hitchSet s n x).boot = s.boot := rfl
@[simp] theorem hitchSet_csPos : (hitchSet s n x).csPos = s.csPos := rfl
@[simp] theorem hitchSet_csStart : (hitchSet s n x).csStart = s.csStart := rfl
@[simp] theorem hitchSet_mb : (hitchSet s n x).mb = s.mb := rfl
@[simp] theorem hitchSet_plan : (hitchSet s n x).plan = s.plan := rfl
@[simp] theorem hitchSet_parts : (hitchSet s n x).parts = s.parts := rfl
@[simp] theorem hitchSet_sessions : (hitchSet s n x).sessions = s.sessions := rfl
@[simp] theorem hitchSet_nextSession : (hitchSet s n x).nextSession = s.nextSession := rfl
@[simp] theorem hitchSet_alarms : (hitchSet s n x).alarms = s.alarms := rfl
@[simp] theorem hitchSet_nextAlarm : (hitchSet s n x).nextAlarm = s.nextAlarm := rfl
@[simp] theorem hitchSet_alarmLost : (hitchSet s n x).alarmLost = s.alarmLost := rfl
@[simp] theorem hitchSet_lostSeq : (hitchSet s n x).lostSeq = s.lostSeq := rfl
@[simp] theorem hitchSet_up : (hitchSet s n x).up = s.up := rfl
@[simp] theorem hitchSet_net : (hitchSet s n x).net = s.net := rfl
@[simp] theorem hitchSet_way : (hitchSet s n x).way = s.way := rfl
@[simp] theorem hitchSet_outs : (hitchSet s n x).outs = s.outs := rfl
@[simp] theorem hitchSet_nic : (hitchSet s n x).nic = s.nic := rfl
@[simp] theorem hitchSet_noc : (hitchSet s n x).noc = s.noc := rfl
@[simp] theorem hitchSet_hw : (hitchSet s n x).hw = s.hw := rfl
@[simp] theorem hitchSet_selfFenced : (hitchSet s n x).selfFenced = s.selfFenced := rfl
@[simp] theorem hitchSet_frameAt : (hitchSet s n x).frameAt = s.frameAt := rfl
@[simp] theorem hitchSet_dram : (hitchSet s n x).dram = s.dram := rfl
@[simp] theorem hitchSet_mc : (hitchSet s n x).mc = s.mc := rfl
@[simp] theorem hitchSet_sec : (hitchSet s n x).sec = s.sec := rfl
@[simp] theorem hitchSet_lane : (hitchSet s n x).lane = s.lane := rfl
@[simp] theorem hitchSet_quad : (hitchSet s n x).quad = s.quad := rfl
@[simp] theorem hitchSet_bight : (hitchSet s n x).bight = s.bight := rfl
@[simp] theorem hitchSet_tap : (hitchSet s n x).tap = s.tap := rfl
@[simp] theorem hitchSet_fns : (hitchSet s n x).fns = s.fns := rfl
@[simp] theorem hitchSet_pcie : (hitchSet s n x).pcie = s.pcie := rfl
@[simp] theorem hitchSet_msi : (hitchSet s n x).msi = s.msi := rfl
@[simp] theorem hitchSet_port : (hitchSet s n x).port = s.port := rfl
end

section
variable (s : State) (n : Nat) (x : BramSt)
@[simp] theorem bramSet_csr : (bramSet s n x).csr = s.csr := rfl
@[simp] theorem bramSet_fresh : (bramSet s n x).fresh = s.fresh := rfl
@[simp] theorem bramSet_pending : (bramSet s n x).pending = s.pending := rfl
@[simp] theorem bramSet_rsp : (bramSet s n x).rsp = s.rsp := rfl
@[simp] theorem bramSet_free : (bramSet s n x).free = s.free := rfl
@[simp] theorem bramSet_isl : (bramSet s n x).isl = s.isl := rfl
@[simp] theorem bramSet_hitch : (bramSet s n x).hitch = s.hitch := rfl
@[simp] theorem bramSet_spine : (bramSet s n x).spine = s.spine := rfl
@[simp] theorem bramSet_recent : (bramSet s n x).recent = s.recent := rfl
@[simp] theorem bramSet_eng : (bramSet s n x).eng = s.eng := rfl
@[simp] theorem bramSet_eis : (bramSet s n x).eis = s.eis := rfl
@[simp] theorem bramSet_tim : (bramSet s n x).tim = s.tim := rfl
@[simp] theorem bramSet_frames : (bramSet s n x).frames = s.frames := rfl
@[simp] theorem bramSet_ff : (bramSet s n x).ff = s.ff := rfl
@[simp] theorem bramSet_load : (bramSet s n x).load = s.load := rfl
@[simp] theorem bramSet_pwr : (bramSet s n x).pwr = s.pwr := rfl
@[simp] theorem bramSet_fuses : (bramSet s n x).fuses = s.fuses := rfl
@[simp] theorem bramSet_flash : (bramSet s n x).flash = s.flash := rfl
@[simp] theorem bramSet_boot : (bramSet s n x).boot = s.boot := rfl
@[simp] theorem bramSet_csPos : (bramSet s n x).csPos = s.csPos := rfl
@[simp] theorem bramSet_csStart : (bramSet s n x).csStart = s.csStart := rfl
@[simp] theorem bramSet_mb : (bramSet s n x).mb = s.mb := rfl
@[simp] theorem bramSet_plan : (bramSet s n x).plan = s.plan := rfl
@[simp] theorem bramSet_parts : (bramSet s n x).parts = s.parts := rfl
@[simp] theorem bramSet_sessions : (bramSet s n x).sessions = s.sessions := rfl
@[simp] theorem bramSet_nextSession : (bramSet s n x).nextSession = s.nextSession := rfl
@[simp] theorem bramSet_alarms : (bramSet s n x).alarms = s.alarms := rfl
@[simp] theorem bramSet_nextAlarm : (bramSet s n x).nextAlarm = s.nextAlarm := rfl
@[simp] theorem bramSet_alarmLost : (bramSet s n x).alarmLost = s.alarmLost := rfl
@[simp] theorem bramSet_lostSeq : (bramSet s n x).lostSeq = s.lostSeq := rfl
@[simp] theorem bramSet_up : (bramSet s n x).up = s.up := rfl
@[simp] theorem bramSet_net : (bramSet s n x).net = s.net := rfl
@[simp] theorem bramSet_way : (bramSet s n x).way = s.way := rfl
@[simp] theorem bramSet_outs : (bramSet s n x).outs = s.outs := rfl
@[simp] theorem bramSet_nic : (bramSet s n x).nic = s.nic := rfl
@[simp] theorem bramSet_noc : (bramSet s n x).noc = s.noc := rfl
@[simp] theorem bramSet_hw : (bramSet s n x).hw = s.hw := rfl
@[simp] theorem bramSet_selfFenced : (bramSet s n x).selfFenced = s.selfFenced := rfl
@[simp] theorem bramSet_frameAt : (bramSet s n x).frameAt = s.frameAt := rfl
@[simp] theorem bramSet_dram : (bramSet s n x).dram = s.dram := rfl
@[simp] theorem bramSet_mc : (bramSet s n x).mc = s.mc := rfl
@[simp] theorem bramSet_sec : (bramSet s n x).sec = s.sec := rfl
@[simp] theorem bramSet_lane : (bramSet s n x).lane = s.lane := rfl
@[simp] theorem bramSet_quad : (bramSet s n x).quad = s.quad := rfl
@[simp] theorem bramSet_bight : (bramSet s n x).bight = s.bight := rfl
@[simp] theorem bramSet_tap : (bramSet s n x).tap = s.tap := rfl
@[simp] theorem bramSet_fns : (bramSet s n x).fns = s.fns := rfl
@[simp] theorem bramSet_pcie : (bramSet s n x).pcie = s.pcie := rfl
@[simp] theorem bramSet_msi : (bramSet s n x).msi = s.msi := rfl
@[simp] theorem bramSet_port : (bramSet s n x).port = s.port := rfl
end

section
variable (s : State) (n : Nat) (f : MbSt → MbSt)
@[simp] theorem mbUpd_csr : (mbUpd s n f).csr = s.csr := rfl
@[simp] theorem mbUpd_fresh : (mbUpd s n f).fresh = s.fresh := rfl
@[simp] theorem mbUpd_pending : (mbUpd s n f).pending = s.pending := rfl
@[simp] theorem mbUpd_rsp : (mbUpd s n f).rsp = s.rsp := rfl
@[simp] theorem mbUpd_free : (mbUpd s n f).free = s.free := rfl
@[simp] theorem mbUpd_isl : (mbUpd s n f).isl = s.isl := rfl
@[simp] theorem mbUpd_hitch : (mbUpd s n f).hitch = s.hitch := rfl
@[simp] theorem mbUpd_spine : (mbUpd s n f).spine = s.spine := rfl
@[simp] theorem mbUpd_bram : (mbUpd s n f).bram = s.bram := rfl
@[simp] theorem mbUpd_recent : (mbUpd s n f).recent = s.recent := rfl
@[simp] theorem mbUpd_eng : (mbUpd s n f).eng = s.eng := rfl
@[simp] theorem mbUpd_eis : (mbUpd s n f).eis = s.eis := rfl
@[simp] theorem mbUpd_tim : (mbUpd s n f).tim = s.tim := rfl
@[simp] theorem mbUpd_frames : (mbUpd s n f).frames = s.frames := rfl
@[simp] theorem mbUpd_ff : (mbUpd s n f).ff = s.ff := rfl
@[simp] theorem mbUpd_load : (mbUpd s n f).load = s.load := rfl
@[simp] theorem mbUpd_pwr : (mbUpd s n f).pwr = s.pwr := rfl
@[simp] theorem mbUpd_fuses : (mbUpd s n f).fuses = s.fuses := rfl
@[simp] theorem mbUpd_flash : (mbUpd s n f).flash = s.flash := rfl
@[simp] theorem mbUpd_boot : (mbUpd s n f).boot = s.boot := rfl
@[simp] theorem mbUpd_csPos : (mbUpd s n f).csPos = s.csPos := rfl
@[simp] theorem mbUpd_csStart : (mbUpd s n f).csStart = s.csStart := rfl
@[simp] theorem mbUpd_plan : (mbUpd s n f).plan = s.plan := rfl
@[simp] theorem mbUpd_parts : (mbUpd s n f).parts = s.parts := rfl
@[simp] theorem mbUpd_sessions : (mbUpd s n f).sessions = s.sessions := rfl
@[simp] theorem mbUpd_nextSession : (mbUpd s n f).nextSession = s.nextSession := rfl
@[simp] theorem mbUpd_alarms : (mbUpd s n f).alarms = s.alarms := rfl
@[simp] theorem mbUpd_nextAlarm : (mbUpd s n f).nextAlarm = s.nextAlarm := rfl
@[simp] theorem mbUpd_alarmLost : (mbUpd s n f).alarmLost = s.alarmLost := rfl
@[simp] theorem mbUpd_lostSeq : (mbUpd s n f).lostSeq = s.lostSeq := rfl
@[simp] theorem mbUpd_up : (mbUpd s n f).up = s.up := rfl
@[simp] theorem mbUpd_net : (mbUpd s n f).net = s.net := rfl
@[simp] theorem mbUpd_way : (mbUpd s n f).way = s.way := rfl
@[simp] theorem mbUpd_outs : (mbUpd s n f).outs = s.outs := rfl
@[simp] theorem mbUpd_nic : (mbUpd s n f).nic = s.nic := rfl
@[simp] theorem mbUpd_noc : (mbUpd s n f).noc = s.noc := rfl
@[simp] theorem mbUpd_hw : (mbUpd s n f).hw = s.hw := rfl
@[simp] theorem mbUpd_selfFenced : (mbUpd s n f).selfFenced = s.selfFenced := rfl
@[simp] theorem mbUpd_frameAt : (mbUpd s n f).frameAt = s.frameAt := rfl
@[simp] theorem mbUpd_dram : (mbUpd s n f).dram = s.dram := rfl
@[simp] theorem mbUpd_mc : (mbUpd s n f).mc = s.mc := rfl
@[simp] theorem mbUpd_sec : (mbUpd s n f).sec = s.sec := rfl
@[simp] theorem mbUpd_lane : (mbUpd s n f).lane = s.lane := rfl
@[simp] theorem mbUpd_quad : (mbUpd s n f).quad = s.quad := rfl
@[simp] theorem mbUpd_bight : (mbUpd s n f).bight = s.bight := rfl
@[simp] theorem mbUpd_tap : (mbUpd s n f).tap = s.tap := rfl
@[simp] theorem mbUpd_fns : (mbUpd s n f).fns = s.fns := rfl
@[simp] theorem mbUpd_pcie : (mbUpd s n f).pcie = s.pcie := rfl
@[simp] theorem mbUpd_msi : (mbUpd s n f).msi = s.msi := rfl
@[simp] theorem mbUpd_port : (mbUpd s n f).port = s.port := rfl
end

section
variable (s : State) (n : Nat) (f : PartSt → PartSt)
@[simp] theorem partUpd_csr : (partUpd s n f).csr = s.csr := rfl
@[simp] theorem partUpd_fresh : (partUpd s n f).fresh = s.fresh := rfl
@[simp] theorem partUpd_pending : (partUpd s n f).pending = s.pending := rfl
@[simp] theorem partUpd_rsp : (partUpd s n f).rsp = s.rsp := rfl
@[simp] theorem partUpd_free : (partUpd s n f).free = s.free := rfl
@[simp] theorem partUpd_isl : (partUpd s n f).isl = s.isl := rfl
@[simp] theorem partUpd_hitch : (partUpd s n f).hitch = s.hitch := rfl
@[simp] theorem partUpd_spine : (partUpd s n f).spine = s.spine := rfl
@[simp] theorem partUpd_bram : (partUpd s n f).bram = s.bram := rfl
@[simp] theorem partUpd_recent : (partUpd s n f).recent = s.recent := rfl
@[simp] theorem partUpd_eng : (partUpd s n f).eng = s.eng := rfl
@[simp] theorem partUpd_eis : (partUpd s n f).eis = s.eis := rfl
@[simp] theorem partUpd_tim : (partUpd s n f).tim = s.tim := rfl
@[simp] theorem partUpd_frames : (partUpd s n f).frames = s.frames := rfl
@[simp] theorem partUpd_ff : (partUpd s n f).ff = s.ff := rfl
@[simp] theorem partUpd_load : (partUpd s n f).load = s.load := rfl
@[simp] theorem partUpd_pwr : (partUpd s n f).pwr = s.pwr := rfl
@[simp] theorem partUpd_fuses : (partUpd s n f).fuses = s.fuses := rfl
@[simp] theorem partUpd_flash : (partUpd s n f).flash = s.flash := rfl
@[simp] theorem partUpd_boot : (partUpd s n f).boot = s.boot := rfl
@[simp] theorem partUpd_csPos : (partUpd s n f).csPos = s.csPos := rfl
@[simp] theorem partUpd_csStart : (partUpd s n f).csStart = s.csStart := rfl
@[simp] theorem partUpd_mb : (partUpd s n f).mb = s.mb := rfl
@[simp] theorem partUpd_plan : (partUpd s n f).plan = s.plan := rfl
@[simp] theorem partUpd_sessions : (partUpd s n f).sessions = s.sessions := rfl
@[simp] theorem partUpd_nextSession : (partUpd s n f).nextSession = s.nextSession := rfl
@[simp] theorem partUpd_alarms : (partUpd s n f).alarms = s.alarms := rfl
@[simp] theorem partUpd_nextAlarm : (partUpd s n f).nextAlarm = s.nextAlarm := rfl
@[simp] theorem partUpd_alarmLost : (partUpd s n f).alarmLost = s.alarmLost := rfl
@[simp] theorem partUpd_lostSeq : (partUpd s n f).lostSeq = s.lostSeq := rfl
@[simp] theorem partUpd_up : (partUpd s n f).up = s.up := rfl
@[simp] theorem partUpd_net : (partUpd s n f).net = s.net := rfl
@[simp] theorem partUpd_way : (partUpd s n f).way = s.way := rfl
@[simp] theorem partUpd_outs : (partUpd s n f).outs = s.outs := rfl
@[simp] theorem partUpd_nic : (partUpd s n f).nic = s.nic := rfl
@[simp] theorem partUpd_noc : (partUpd s n f).noc = s.noc := rfl
@[simp] theorem partUpd_hw : (partUpd s n f).hw = s.hw := rfl
@[simp] theorem partUpd_selfFenced : (partUpd s n f).selfFenced = s.selfFenced := rfl
@[simp] theorem partUpd_frameAt : (partUpd s n f).frameAt = s.frameAt := rfl
@[simp] theorem partUpd_dram : (partUpd s n f).dram = s.dram := rfl
@[simp] theorem partUpd_mc : (partUpd s n f).mc = s.mc := rfl
@[simp] theorem partUpd_sec : (partUpd s n f).sec = s.sec := rfl
@[simp] theorem partUpd_lane : (partUpd s n f).lane = s.lane := rfl
@[simp] theorem partUpd_quad : (partUpd s n f).quad = s.quad := rfl
@[simp] theorem partUpd_bight : (partUpd s n f).bight = s.bight := rfl
@[simp] theorem partUpd_tap : (partUpd s n f).tap = s.tap := rfl
@[simp] theorem partUpd_fns : (partUpd s n f).fns = s.fns := rfl
@[simp] theorem partUpd_pcie : (partUpd s n f).pcie = s.pcie := rfl
@[simp] theorem partUpd_msi : (partUpd s n f).msi = s.msi := rfl
@[simp] theorem partUpd_port : (partUpd s n f).port = s.port := rfl
end

section
variable (s : State) (n : Nat) (f : NicSt → NicSt)
@[simp] theorem nicUpd_csr : (nicUpd s n f).csr = s.csr := rfl
@[simp] theorem nicUpd_fresh : (nicUpd s n f).fresh = s.fresh := rfl
@[simp] theorem nicUpd_pending : (nicUpd s n f).pending = s.pending := rfl
@[simp] theorem nicUpd_rsp : (nicUpd s n f).rsp = s.rsp := rfl
@[simp] theorem nicUpd_free : (nicUpd s n f).free = s.free := rfl
@[simp] theorem nicUpd_isl : (nicUpd s n f).isl = s.isl := rfl
@[simp] theorem nicUpd_hitch : (nicUpd s n f).hitch = s.hitch := rfl
@[simp] theorem nicUpd_spine : (nicUpd s n f).spine = s.spine := rfl
@[simp] theorem nicUpd_bram : (nicUpd s n f).bram = s.bram := rfl
@[simp] theorem nicUpd_recent : (nicUpd s n f).recent = s.recent := rfl
@[simp] theorem nicUpd_eng : (nicUpd s n f).eng = s.eng := rfl
@[simp] theorem nicUpd_eis : (nicUpd s n f).eis = s.eis := rfl
@[simp] theorem nicUpd_tim : (nicUpd s n f).tim = s.tim := rfl
@[simp] theorem nicUpd_frames : (nicUpd s n f).frames = s.frames := rfl
@[simp] theorem nicUpd_ff : (nicUpd s n f).ff = s.ff := rfl
@[simp] theorem nicUpd_load : (nicUpd s n f).load = s.load := rfl
@[simp] theorem nicUpd_pwr : (nicUpd s n f).pwr = s.pwr := rfl
@[simp] theorem nicUpd_fuses : (nicUpd s n f).fuses = s.fuses := rfl
@[simp] theorem nicUpd_flash : (nicUpd s n f).flash = s.flash := rfl
@[simp] theorem nicUpd_boot : (nicUpd s n f).boot = s.boot := rfl
@[simp] theorem nicUpd_csPos : (nicUpd s n f).csPos = s.csPos := rfl
@[simp] theorem nicUpd_csStart : (nicUpd s n f).csStart = s.csStart := rfl
@[simp] theorem nicUpd_mb : (nicUpd s n f).mb = s.mb := rfl
@[simp] theorem nicUpd_plan : (nicUpd s n f).plan = s.plan := rfl
@[simp] theorem nicUpd_parts : (nicUpd s n f).parts = s.parts := rfl
@[simp] theorem nicUpd_sessions : (nicUpd s n f).sessions = s.sessions := rfl
@[simp] theorem nicUpd_nextSession : (nicUpd s n f).nextSession = s.nextSession := rfl
@[simp] theorem nicUpd_alarms : (nicUpd s n f).alarms = s.alarms := rfl
@[simp] theorem nicUpd_nextAlarm : (nicUpd s n f).nextAlarm = s.nextAlarm := rfl
@[simp] theorem nicUpd_alarmLost : (nicUpd s n f).alarmLost = s.alarmLost := rfl
@[simp] theorem nicUpd_lostSeq : (nicUpd s n f).lostSeq = s.lostSeq := rfl
@[simp] theorem nicUpd_up : (nicUpd s n f).up = s.up := rfl
@[simp] theorem nicUpd_net : (nicUpd s n f).net = s.net := rfl
@[simp] theorem nicUpd_way : (nicUpd s n f).way = s.way := rfl
@[simp] theorem nicUpd_outs : (nicUpd s n f).outs = s.outs := rfl
@[simp] theorem nicUpd_noc : (nicUpd s n f).noc = s.noc := rfl
@[simp] theorem nicUpd_hw : (nicUpd s n f).hw = s.hw := rfl
@[simp] theorem nicUpd_selfFenced : (nicUpd s n f).selfFenced = s.selfFenced := rfl
@[simp] theorem nicUpd_frameAt : (nicUpd s n f).frameAt = s.frameAt := rfl
@[simp] theorem nicUpd_dram : (nicUpd s n f).dram = s.dram := rfl
@[simp] theorem nicUpd_mc : (nicUpd s n f).mc = s.mc := rfl
@[simp] theorem nicUpd_sec : (nicUpd s n f).sec = s.sec := rfl
@[simp] theorem nicUpd_lane : (nicUpd s n f).lane = s.lane := rfl
@[simp] theorem nicUpd_quad : (nicUpd s n f).quad = s.quad := rfl
@[simp] theorem nicUpd_bight : (nicUpd s n f).bight = s.bight := rfl
@[simp] theorem nicUpd_tap : (nicUpd s n f).tap = s.tap := rfl
@[simp] theorem nicUpd_fns : (nicUpd s n f).fns = s.fns := rfl
@[simp] theorem nicUpd_pcie : (nicUpd s n f).pcie = s.pcie := rfl
@[simp] theorem nicUpd_msi : (nicUpd s n f).msi = s.msi := rfl
@[simp] theorem nicUpd_port : (nicUpd s n f).port = s.port := rfl
end

section
variable (s : State) (n : Nat) (f : NocSt → NocSt)
@[simp] theorem nocUpd_csr : (nocUpd s n f).csr = s.csr := rfl
@[simp] theorem nocUpd_fresh : (nocUpd s n f).fresh = s.fresh := rfl
@[simp] theorem nocUpd_pending : (nocUpd s n f).pending = s.pending := rfl
@[simp] theorem nocUpd_rsp : (nocUpd s n f).rsp = s.rsp := rfl
@[simp] theorem nocUpd_free : (nocUpd s n f).free = s.free := rfl
@[simp] theorem nocUpd_isl : (nocUpd s n f).isl = s.isl := rfl
@[simp] theorem nocUpd_hitch : (nocUpd s n f).hitch = s.hitch := rfl
@[simp] theorem nocUpd_spine : (nocUpd s n f).spine = s.spine := rfl
@[simp] theorem nocUpd_bram : (nocUpd s n f).bram = s.bram := rfl
@[simp] theorem nocUpd_recent : (nocUpd s n f).recent = s.recent := rfl
@[simp] theorem nocUpd_eng : (nocUpd s n f).eng = s.eng := rfl
@[simp] theorem nocUpd_eis : (nocUpd s n f).eis = s.eis := rfl
@[simp] theorem nocUpd_tim : (nocUpd s n f).tim = s.tim := rfl
@[simp] theorem nocUpd_frames : (nocUpd s n f).frames = s.frames := rfl
@[simp] theorem nocUpd_ff : (nocUpd s n f).ff = s.ff := rfl
@[simp] theorem nocUpd_load : (nocUpd s n f).load = s.load := rfl
@[simp] theorem nocUpd_pwr : (nocUpd s n f).pwr = s.pwr := rfl
@[simp] theorem nocUpd_fuses : (nocUpd s n f).fuses = s.fuses := rfl
@[simp] theorem nocUpd_flash : (nocUpd s n f).flash = s.flash := rfl
@[simp] theorem nocUpd_boot : (nocUpd s n f).boot = s.boot := rfl
@[simp] theorem nocUpd_csPos : (nocUpd s n f).csPos = s.csPos := rfl
@[simp] theorem nocUpd_csStart : (nocUpd s n f).csStart = s.csStart := rfl
@[simp] theorem nocUpd_mb : (nocUpd s n f).mb = s.mb := rfl
@[simp] theorem nocUpd_plan : (nocUpd s n f).plan = s.plan := rfl
@[simp] theorem nocUpd_parts : (nocUpd s n f).parts = s.parts := rfl
@[simp] theorem nocUpd_sessions : (nocUpd s n f).sessions = s.sessions := rfl
@[simp] theorem nocUpd_nextSession : (nocUpd s n f).nextSession = s.nextSession := rfl
@[simp] theorem nocUpd_alarms : (nocUpd s n f).alarms = s.alarms := rfl
@[simp] theorem nocUpd_nextAlarm : (nocUpd s n f).nextAlarm = s.nextAlarm := rfl
@[simp] theorem nocUpd_alarmLost : (nocUpd s n f).alarmLost = s.alarmLost := rfl
@[simp] theorem nocUpd_lostSeq : (nocUpd s n f).lostSeq = s.lostSeq := rfl
@[simp] theorem nocUpd_up : (nocUpd s n f).up = s.up := rfl
@[simp] theorem nocUpd_net : (nocUpd s n f).net = s.net := rfl
@[simp] theorem nocUpd_way : (nocUpd s n f).way = s.way := rfl
@[simp] theorem nocUpd_outs : (nocUpd s n f).outs = s.outs := rfl
@[simp] theorem nocUpd_nic : (nocUpd s n f).nic = s.nic := rfl
@[simp] theorem nocUpd_hw : (nocUpd s n f).hw = s.hw := rfl
@[simp] theorem nocUpd_selfFenced : (nocUpd s n f).selfFenced = s.selfFenced := rfl
@[simp] theorem nocUpd_frameAt : (nocUpd s n f).frameAt = s.frameAt := rfl
@[simp] theorem nocUpd_dram : (nocUpd s n f).dram = s.dram := rfl
@[simp] theorem nocUpd_mc : (nocUpd s n f).mc = s.mc := rfl
@[simp] theorem nocUpd_sec : (nocUpd s n f).sec = s.sec := rfl
@[simp] theorem nocUpd_lane : (nocUpd s n f).lane = s.lane := rfl
@[simp] theorem nocUpd_quad : (nocUpd s n f).quad = s.quad := rfl
@[simp] theorem nocUpd_bight : (nocUpd s n f).bight = s.bight := rfl
@[simp] theorem nocUpd_tap : (nocUpd s n f).tap = s.tap := rfl
@[simp] theorem nocUpd_fns : (nocUpd s n f).fns = s.fns := rfl
@[simp] theorem nocUpd_pcie : (nocUpd s n f).pcie = s.pcie := rfl
@[simp] theorem nocUpd_msi : (nocUpd s n f).msi = s.msi := rfl
@[simp] theorem nocUpd_port : (nocUpd s n f).port = s.port := rfl
end

section
variable (s : State) (n : Nat) (f : HwSt → HwSt)
@[simp] theorem hwUpd_csr : (hwUpd s n f).csr = s.csr := rfl
@[simp] theorem hwUpd_fresh : (hwUpd s n f).fresh = s.fresh := rfl
@[simp] theorem hwUpd_pending : (hwUpd s n f).pending = s.pending := rfl
@[simp] theorem hwUpd_rsp : (hwUpd s n f).rsp = s.rsp := rfl
@[simp] theorem hwUpd_free : (hwUpd s n f).free = s.free := rfl
@[simp] theorem hwUpd_isl : (hwUpd s n f).isl = s.isl := rfl
@[simp] theorem hwUpd_hitch : (hwUpd s n f).hitch = s.hitch := rfl
@[simp] theorem hwUpd_spine : (hwUpd s n f).spine = s.spine := rfl
@[simp] theorem hwUpd_bram : (hwUpd s n f).bram = s.bram := rfl
@[simp] theorem hwUpd_recent : (hwUpd s n f).recent = s.recent := rfl
@[simp] theorem hwUpd_eng : (hwUpd s n f).eng = s.eng := rfl
@[simp] theorem hwUpd_eis : (hwUpd s n f).eis = s.eis := rfl
@[simp] theorem hwUpd_tim : (hwUpd s n f).tim = s.tim := rfl
@[simp] theorem hwUpd_frames : (hwUpd s n f).frames = s.frames := rfl
@[simp] theorem hwUpd_ff : (hwUpd s n f).ff = s.ff := rfl
@[simp] theorem hwUpd_load : (hwUpd s n f).load = s.load := rfl
@[simp] theorem hwUpd_pwr : (hwUpd s n f).pwr = s.pwr := rfl
@[simp] theorem hwUpd_fuses : (hwUpd s n f).fuses = s.fuses := rfl
@[simp] theorem hwUpd_flash : (hwUpd s n f).flash = s.flash := rfl
@[simp] theorem hwUpd_boot : (hwUpd s n f).boot = s.boot := rfl
@[simp] theorem hwUpd_csPos : (hwUpd s n f).csPos = s.csPos := rfl
@[simp] theorem hwUpd_csStart : (hwUpd s n f).csStart = s.csStart := rfl
@[simp] theorem hwUpd_mb : (hwUpd s n f).mb = s.mb := rfl
@[simp] theorem hwUpd_plan : (hwUpd s n f).plan = s.plan := rfl
@[simp] theorem hwUpd_parts : (hwUpd s n f).parts = s.parts := rfl
@[simp] theorem hwUpd_sessions : (hwUpd s n f).sessions = s.sessions := rfl
@[simp] theorem hwUpd_nextSession : (hwUpd s n f).nextSession = s.nextSession := rfl
@[simp] theorem hwUpd_alarms : (hwUpd s n f).alarms = s.alarms := rfl
@[simp] theorem hwUpd_nextAlarm : (hwUpd s n f).nextAlarm = s.nextAlarm := rfl
@[simp] theorem hwUpd_alarmLost : (hwUpd s n f).alarmLost = s.alarmLost := rfl
@[simp] theorem hwUpd_lostSeq : (hwUpd s n f).lostSeq = s.lostSeq := rfl
@[simp] theorem hwUpd_up : (hwUpd s n f).up = s.up := rfl
@[simp] theorem hwUpd_net : (hwUpd s n f).net = s.net := rfl
@[simp] theorem hwUpd_way : (hwUpd s n f).way = s.way := rfl
@[simp] theorem hwUpd_outs : (hwUpd s n f).outs = s.outs := rfl
@[simp] theorem hwUpd_nic : (hwUpd s n f).nic = s.nic := rfl
@[simp] theorem hwUpd_noc : (hwUpd s n f).noc = s.noc := rfl
@[simp] theorem hwUpd_selfFenced : (hwUpd s n f).selfFenced = s.selfFenced := rfl
@[simp] theorem hwUpd_frameAt : (hwUpd s n f).frameAt = s.frameAt := rfl
@[simp] theorem hwUpd_dram : (hwUpd s n f).dram = s.dram := rfl
@[simp] theorem hwUpd_mc : (hwUpd s n f).mc = s.mc := rfl
@[simp] theorem hwUpd_sec : (hwUpd s n f).sec = s.sec := rfl
@[simp] theorem hwUpd_lane : (hwUpd s n f).lane = s.lane := rfl
@[simp] theorem hwUpd_quad : (hwUpd s n f).quad = s.quad := rfl
@[simp] theorem hwUpd_bight : (hwUpd s n f).bight = s.bight := rfl
@[simp] theorem hwUpd_tap : (hwUpd s n f).tap = s.tap := rfl
@[simp] theorem hwUpd_fns : (hwUpd s n f).fns = s.fns := rfl
@[simp] theorem hwUpd_pcie : (hwUpd s n f).pcie = s.pcie := rfl
@[simp] theorem hwUpd_msi : (hwUpd s n f).msi = s.msi := rfl
@[simp] theorem hwUpd_port : (hwUpd s n f).port = s.port := rfl
end

section
variable (s : State) (n : Nat) (f : McSt → McSt)
@[simp] theorem mcUpd_csr : (mcUpd s n f).csr = s.csr := rfl
@[simp] theorem mcUpd_fresh : (mcUpd s n f).fresh = s.fresh := rfl
@[simp] theorem mcUpd_pending : (mcUpd s n f).pending = s.pending := rfl
@[simp] theorem mcUpd_rsp : (mcUpd s n f).rsp = s.rsp := rfl
@[simp] theorem mcUpd_free : (mcUpd s n f).free = s.free := rfl
@[simp] theorem mcUpd_isl : (mcUpd s n f).isl = s.isl := rfl
@[simp] theorem mcUpd_hitch : (mcUpd s n f).hitch = s.hitch := rfl
@[simp] theorem mcUpd_spine : (mcUpd s n f).spine = s.spine := rfl
@[simp] theorem mcUpd_bram : (mcUpd s n f).bram = s.bram := rfl
@[simp] theorem mcUpd_recent : (mcUpd s n f).recent = s.recent := rfl
@[simp] theorem mcUpd_eng : (mcUpd s n f).eng = s.eng := rfl
@[simp] theorem mcUpd_eis : (mcUpd s n f).eis = s.eis := rfl
@[simp] theorem mcUpd_tim : (mcUpd s n f).tim = s.tim := rfl
@[simp] theorem mcUpd_frames : (mcUpd s n f).frames = s.frames := rfl
@[simp] theorem mcUpd_ff : (mcUpd s n f).ff = s.ff := rfl
@[simp] theorem mcUpd_load : (mcUpd s n f).load = s.load := rfl
@[simp] theorem mcUpd_pwr : (mcUpd s n f).pwr = s.pwr := rfl
@[simp] theorem mcUpd_fuses : (mcUpd s n f).fuses = s.fuses := rfl
@[simp] theorem mcUpd_flash : (mcUpd s n f).flash = s.flash := rfl
@[simp] theorem mcUpd_boot : (mcUpd s n f).boot = s.boot := rfl
@[simp] theorem mcUpd_csPos : (mcUpd s n f).csPos = s.csPos := rfl
@[simp] theorem mcUpd_csStart : (mcUpd s n f).csStart = s.csStart := rfl
@[simp] theorem mcUpd_mb : (mcUpd s n f).mb = s.mb := rfl
@[simp] theorem mcUpd_plan : (mcUpd s n f).plan = s.plan := rfl
@[simp] theorem mcUpd_parts : (mcUpd s n f).parts = s.parts := rfl
@[simp] theorem mcUpd_sessions : (mcUpd s n f).sessions = s.sessions := rfl
@[simp] theorem mcUpd_nextSession : (mcUpd s n f).nextSession = s.nextSession := rfl
@[simp] theorem mcUpd_alarms : (mcUpd s n f).alarms = s.alarms := rfl
@[simp] theorem mcUpd_nextAlarm : (mcUpd s n f).nextAlarm = s.nextAlarm := rfl
@[simp] theorem mcUpd_alarmLost : (mcUpd s n f).alarmLost = s.alarmLost := rfl
@[simp] theorem mcUpd_lostSeq : (mcUpd s n f).lostSeq = s.lostSeq := rfl
@[simp] theorem mcUpd_up : (mcUpd s n f).up = s.up := rfl
@[simp] theorem mcUpd_net : (mcUpd s n f).net = s.net := rfl
@[simp] theorem mcUpd_way : (mcUpd s n f).way = s.way := rfl
@[simp] theorem mcUpd_outs : (mcUpd s n f).outs = s.outs := rfl
@[simp] theorem mcUpd_nic : (mcUpd s n f).nic = s.nic := rfl
@[simp] theorem mcUpd_noc : (mcUpd s n f).noc = s.noc := rfl
@[simp] theorem mcUpd_hw : (mcUpd s n f).hw = s.hw := rfl
@[simp] theorem mcUpd_selfFenced : (mcUpd s n f).selfFenced = s.selfFenced := rfl
@[simp] theorem mcUpd_frameAt : (mcUpd s n f).frameAt = s.frameAt := rfl
@[simp] theorem mcUpd_dram : (mcUpd s n f).dram = s.dram := rfl
@[simp] theorem mcUpd_sec : (mcUpd s n f).sec = s.sec := rfl
@[simp] theorem mcUpd_lane : (mcUpd s n f).lane = s.lane := rfl
@[simp] theorem mcUpd_quad : (mcUpd s n f).quad = s.quad := rfl
@[simp] theorem mcUpd_bight : (mcUpd s n f).bight = s.bight := rfl
@[simp] theorem mcUpd_tap : (mcUpd s n f).tap = s.tap := rfl
@[simp] theorem mcUpd_fns : (mcUpd s n f).fns = s.fns := rfl
@[simp] theorem mcUpd_pcie : (mcUpd s n f).pcie = s.pcie := rfl
@[simp] theorem mcUpd_msi : (mcUpd s n f).msi = s.msi := rfl
@[simp] theorem mcUpd_port : (mcUpd s n f).port = s.port := rfl
end

section
variable (s : State) (n : Nat) (f : LaneSt → LaneSt)
@[simp] theorem laneUpd_csr : (laneUpd s n f).csr = s.csr := rfl
@[simp] theorem laneUpd_fresh : (laneUpd s n f).fresh = s.fresh := rfl
@[simp] theorem laneUpd_pending : (laneUpd s n f).pending = s.pending := rfl
@[simp] theorem laneUpd_rsp : (laneUpd s n f).rsp = s.rsp := rfl
@[simp] theorem laneUpd_free : (laneUpd s n f).free = s.free := rfl
@[simp] theorem laneUpd_isl : (laneUpd s n f).isl = s.isl := rfl
@[simp] theorem laneUpd_hitch : (laneUpd s n f).hitch = s.hitch := rfl
@[simp] theorem laneUpd_spine : (laneUpd s n f).spine = s.spine := rfl
@[simp] theorem laneUpd_bram : (laneUpd s n f).bram = s.bram := rfl
@[simp] theorem laneUpd_recent : (laneUpd s n f).recent = s.recent := rfl
@[simp] theorem laneUpd_eng : (laneUpd s n f).eng = s.eng := rfl
@[simp] theorem laneUpd_eis : (laneUpd s n f).eis = s.eis := rfl
@[simp] theorem laneUpd_tim : (laneUpd s n f).tim = s.tim := rfl
@[simp] theorem laneUpd_frames : (laneUpd s n f).frames = s.frames := rfl
@[simp] theorem laneUpd_ff : (laneUpd s n f).ff = s.ff := rfl
@[simp] theorem laneUpd_load : (laneUpd s n f).load = s.load := rfl
@[simp] theorem laneUpd_pwr : (laneUpd s n f).pwr = s.pwr := rfl
@[simp] theorem laneUpd_fuses : (laneUpd s n f).fuses = s.fuses := rfl
@[simp] theorem laneUpd_flash : (laneUpd s n f).flash = s.flash := rfl
@[simp] theorem laneUpd_boot : (laneUpd s n f).boot = s.boot := rfl
@[simp] theorem laneUpd_csPos : (laneUpd s n f).csPos = s.csPos := rfl
@[simp] theorem laneUpd_csStart : (laneUpd s n f).csStart = s.csStart := rfl
@[simp] theorem laneUpd_mb : (laneUpd s n f).mb = s.mb := rfl
@[simp] theorem laneUpd_plan : (laneUpd s n f).plan = s.plan := rfl
@[simp] theorem laneUpd_parts : (laneUpd s n f).parts = s.parts := rfl
@[simp] theorem laneUpd_sessions : (laneUpd s n f).sessions = s.sessions := rfl
@[simp] theorem laneUpd_nextSession : (laneUpd s n f).nextSession = s.nextSession := rfl
@[simp] theorem laneUpd_alarms : (laneUpd s n f).alarms = s.alarms := rfl
@[simp] theorem laneUpd_nextAlarm : (laneUpd s n f).nextAlarm = s.nextAlarm := rfl
@[simp] theorem laneUpd_alarmLost : (laneUpd s n f).alarmLost = s.alarmLost := rfl
@[simp] theorem laneUpd_lostSeq : (laneUpd s n f).lostSeq = s.lostSeq := rfl
@[simp] theorem laneUpd_up : (laneUpd s n f).up = s.up := rfl
@[simp] theorem laneUpd_net : (laneUpd s n f).net = s.net := rfl
@[simp] theorem laneUpd_way : (laneUpd s n f).way = s.way := rfl
@[simp] theorem laneUpd_outs : (laneUpd s n f).outs = s.outs := rfl
@[simp] theorem laneUpd_nic : (laneUpd s n f).nic = s.nic := rfl
@[simp] theorem laneUpd_noc : (laneUpd s n f).noc = s.noc := rfl
@[simp] theorem laneUpd_hw : (laneUpd s n f).hw = s.hw := rfl
@[simp] theorem laneUpd_selfFenced : (laneUpd s n f).selfFenced = s.selfFenced := rfl
@[simp] theorem laneUpd_frameAt : (laneUpd s n f).frameAt = s.frameAt := rfl
@[simp] theorem laneUpd_dram : (laneUpd s n f).dram = s.dram := rfl
@[simp] theorem laneUpd_mc : (laneUpd s n f).mc = s.mc := rfl
@[simp] theorem laneUpd_sec : (laneUpd s n f).sec = s.sec := rfl
@[simp] theorem laneUpd_quad : (laneUpd s n f).quad = s.quad := rfl
@[simp] theorem laneUpd_bight : (laneUpd s n f).bight = s.bight := rfl
@[simp] theorem laneUpd_tap : (laneUpd s n f).tap = s.tap := rfl
@[simp] theorem laneUpd_fns : (laneUpd s n f).fns = s.fns := rfl
@[simp] theorem laneUpd_pcie : (laneUpd s n f).pcie = s.pcie := rfl
@[simp] theorem laneUpd_msi : (laneUpd s n f).msi = s.msi := rfl
@[simp] theorem laneUpd_port : (laneUpd s n f).port = s.port := rfl
end

section
variable (s : State) (n : Nat) (f : QuadSt → QuadSt)
@[simp] theorem quadUpd_csr : (quadUpd s n f).csr = s.csr := rfl
@[simp] theorem quadUpd_fresh : (quadUpd s n f).fresh = s.fresh := rfl
@[simp] theorem quadUpd_pending : (quadUpd s n f).pending = s.pending := rfl
@[simp] theorem quadUpd_rsp : (quadUpd s n f).rsp = s.rsp := rfl
@[simp] theorem quadUpd_free : (quadUpd s n f).free = s.free := rfl
@[simp] theorem quadUpd_isl : (quadUpd s n f).isl = s.isl := rfl
@[simp] theorem quadUpd_hitch : (quadUpd s n f).hitch = s.hitch := rfl
@[simp] theorem quadUpd_spine : (quadUpd s n f).spine = s.spine := rfl
@[simp] theorem quadUpd_bram : (quadUpd s n f).bram = s.bram := rfl
@[simp] theorem quadUpd_recent : (quadUpd s n f).recent = s.recent := rfl
@[simp] theorem quadUpd_eng : (quadUpd s n f).eng = s.eng := rfl
@[simp] theorem quadUpd_eis : (quadUpd s n f).eis = s.eis := rfl
@[simp] theorem quadUpd_tim : (quadUpd s n f).tim = s.tim := rfl
@[simp] theorem quadUpd_frames : (quadUpd s n f).frames = s.frames := rfl
@[simp] theorem quadUpd_ff : (quadUpd s n f).ff = s.ff := rfl
@[simp] theorem quadUpd_load : (quadUpd s n f).load = s.load := rfl
@[simp] theorem quadUpd_pwr : (quadUpd s n f).pwr = s.pwr := rfl
@[simp] theorem quadUpd_fuses : (quadUpd s n f).fuses = s.fuses := rfl
@[simp] theorem quadUpd_flash : (quadUpd s n f).flash = s.flash := rfl
@[simp] theorem quadUpd_boot : (quadUpd s n f).boot = s.boot := rfl
@[simp] theorem quadUpd_csPos : (quadUpd s n f).csPos = s.csPos := rfl
@[simp] theorem quadUpd_csStart : (quadUpd s n f).csStart = s.csStart := rfl
@[simp] theorem quadUpd_mb : (quadUpd s n f).mb = s.mb := rfl
@[simp] theorem quadUpd_plan : (quadUpd s n f).plan = s.plan := rfl
@[simp] theorem quadUpd_parts : (quadUpd s n f).parts = s.parts := rfl
@[simp] theorem quadUpd_sessions : (quadUpd s n f).sessions = s.sessions := rfl
@[simp] theorem quadUpd_nextSession : (quadUpd s n f).nextSession = s.nextSession := rfl
@[simp] theorem quadUpd_alarms : (quadUpd s n f).alarms = s.alarms := rfl
@[simp] theorem quadUpd_nextAlarm : (quadUpd s n f).nextAlarm = s.nextAlarm := rfl
@[simp] theorem quadUpd_alarmLost : (quadUpd s n f).alarmLost = s.alarmLost := rfl
@[simp] theorem quadUpd_lostSeq : (quadUpd s n f).lostSeq = s.lostSeq := rfl
@[simp] theorem quadUpd_up : (quadUpd s n f).up = s.up := rfl
@[simp] theorem quadUpd_net : (quadUpd s n f).net = s.net := rfl
@[simp] theorem quadUpd_way : (quadUpd s n f).way = s.way := rfl
@[simp] theorem quadUpd_outs : (quadUpd s n f).outs = s.outs := rfl
@[simp] theorem quadUpd_nic : (quadUpd s n f).nic = s.nic := rfl
@[simp] theorem quadUpd_noc : (quadUpd s n f).noc = s.noc := rfl
@[simp] theorem quadUpd_hw : (quadUpd s n f).hw = s.hw := rfl
@[simp] theorem quadUpd_selfFenced : (quadUpd s n f).selfFenced = s.selfFenced := rfl
@[simp] theorem quadUpd_frameAt : (quadUpd s n f).frameAt = s.frameAt := rfl
@[simp] theorem quadUpd_dram : (quadUpd s n f).dram = s.dram := rfl
@[simp] theorem quadUpd_mc : (quadUpd s n f).mc = s.mc := rfl
@[simp] theorem quadUpd_sec : (quadUpd s n f).sec = s.sec := rfl
@[simp] theorem quadUpd_lane : (quadUpd s n f).lane = s.lane := rfl
@[simp] theorem quadUpd_bight : (quadUpd s n f).bight = s.bight := rfl
@[simp] theorem quadUpd_tap : (quadUpd s n f).tap = s.tap := rfl
@[simp] theorem quadUpd_fns : (quadUpd s n f).fns = s.fns := rfl
@[simp] theorem quadUpd_pcie : (quadUpd s n f).pcie = s.pcie := rfl
@[simp] theorem quadUpd_msi : (quadUpd s n f).msi = s.msi := rfl
@[simp] theorem quadUpd_port : (quadUpd s n f).port = s.port := rfl
end

section
variable (s : State) (n : Nat) (f : FnSt → FnSt)
@[simp] theorem fnUpd_csr : (fnUpd s n f).csr = s.csr := rfl
@[simp] theorem fnUpd_fresh : (fnUpd s n f).fresh = s.fresh := rfl
@[simp] theorem fnUpd_pending : (fnUpd s n f).pending = s.pending := rfl
@[simp] theorem fnUpd_rsp : (fnUpd s n f).rsp = s.rsp := rfl
@[simp] theorem fnUpd_free : (fnUpd s n f).free = s.free := rfl
@[simp] theorem fnUpd_isl : (fnUpd s n f).isl = s.isl := rfl
@[simp] theorem fnUpd_hitch : (fnUpd s n f).hitch = s.hitch := rfl
@[simp] theorem fnUpd_spine : (fnUpd s n f).spine = s.spine := rfl
@[simp] theorem fnUpd_bram : (fnUpd s n f).bram = s.bram := rfl
@[simp] theorem fnUpd_recent : (fnUpd s n f).recent = s.recent := rfl
@[simp] theorem fnUpd_eng : (fnUpd s n f).eng = s.eng := rfl
@[simp] theorem fnUpd_eis : (fnUpd s n f).eis = s.eis := rfl
@[simp] theorem fnUpd_tim : (fnUpd s n f).tim = s.tim := rfl
@[simp] theorem fnUpd_frames : (fnUpd s n f).frames = s.frames := rfl
@[simp] theorem fnUpd_ff : (fnUpd s n f).ff = s.ff := rfl
@[simp] theorem fnUpd_load : (fnUpd s n f).load = s.load := rfl
@[simp] theorem fnUpd_pwr : (fnUpd s n f).pwr = s.pwr := rfl
@[simp] theorem fnUpd_fuses : (fnUpd s n f).fuses = s.fuses := rfl
@[simp] theorem fnUpd_flash : (fnUpd s n f).flash = s.flash := rfl
@[simp] theorem fnUpd_boot : (fnUpd s n f).boot = s.boot := rfl
@[simp] theorem fnUpd_csPos : (fnUpd s n f).csPos = s.csPos := rfl
@[simp] theorem fnUpd_csStart : (fnUpd s n f).csStart = s.csStart := rfl
@[simp] theorem fnUpd_mb : (fnUpd s n f).mb = s.mb := rfl
@[simp] theorem fnUpd_plan : (fnUpd s n f).plan = s.plan := rfl
@[simp] theorem fnUpd_parts : (fnUpd s n f).parts = s.parts := rfl
@[simp] theorem fnUpd_sessions : (fnUpd s n f).sessions = s.sessions := rfl
@[simp] theorem fnUpd_nextSession : (fnUpd s n f).nextSession = s.nextSession := rfl
@[simp] theorem fnUpd_alarms : (fnUpd s n f).alarms = s.alarms := rfl
@[simp] theorem fnUpd_nextAlarm : (fnUpd s n f).nextAlarm = s.nextAlarm := rfl
@[simp] theorem fnUpd_alarmLost : (fnUpd s n f).alarmLost = s.alarmLost := rfl
@[simp] theorem fnUpd_lostSeq : (fnUpd s n f).lostSeq = s.lostSeq := rfl
@[simp] theorem fnUpd_up : (fnUpd s n f).up = s.up := rfl
@[simp] theorem fnUpd_net : (fnUpd s n f).net = s.net := rfl
@[simp] theorem fnUpd_way : (fnUpd s n f).way = s.way := rfl
@[simp] theorem fnUpd_outs : (fnUpd s n f).outs = s.outs := rfl
@[simp] theorem fnUpd_nic : (fnUpd s n f).nic = s.nic := rfl
@[simp] theorem fnUpd_noc : (fnUpd s n f).noc = s.noc := rfl
@[simp] theorem fnUpd_hw : (fnUpd s n f).hw = s.hw := rfl
@[simp] theorem fnUpd_selfFenced : (fnUpd s n f).selfFenced = s.selfFenced := rfl
@[simp] theorem fnUpd_frameAt : (fnUpd s n f).frameAt = s.frameAt := rfl
@[simp] theorem fnUpd_dram : (fnUpd s n f).dram = s.dram := rfl
@[simp] theorem fnUpd_mc : (fnUpd s n f).mc = s.mc := rfl
@[simp] theorem fnUpd_sec : (fnUpd s n f).sec = s.sec := rfl
@[simp] theorem fnUpd_lane : (fnUpd s n f).lane = s.lane := rfl
@[simp] theorem fnUpd_quad : (fnUpd s n f).quad = s.quad := rfl
@[simp] theorem fnUpd_bight : (fnUpd s n f).bight = s.bight := rfl
@[simp] theorem fnUpd_tap : (fnUpd s n f).tap = s.tap := rfl
@[simp] theorem fnUpd_pcie : (fnUpd s n f).pcie = s.pcie := rfl
@[simp] theorem fnUpd_msi : (fnUpd s n f).msi = s.msi := rfl
@[simp] theorem fnUpd_port : (fnUpd s n f).port = s.port := rfl
end

section
variable (s : State) (n : Nat) (f : PcieSt → PcieSt)
@[simp] theorem pcieUpd_csr : (pcieUpd s n f).csr = s.csr := rfl
@[simp] theorem pcieUpd_fresh : (pcieUpd s n f).fresh = s.fresh := rfl
@[simp] theorem pcieUpd_pending : (pcieUpd s n f).pending = s.pending := rfl
@[simp] theorem pcieUpd_rsp : (pcieUpd s n f).rsp = s.rsp := rfl
@[simp] theorem pcieUpd_free : (pcieUpd s n f).free = s.free := rfl
@[simp] theorem pcieUpd_isl : (pcieUpd s n f).isl = s.isl := rfl
@[simp] theorem pcieUpd_hitch : (pcieUpd s n f).hitch = s.hitch := rfl
@[simp] theorem pcieUpd_spine : (pcieUpd s n f).spine = s.spine := rfl
@[simp] theorem pcieUpd_bram : (pcieUpd s n f).bram = s.bram := rfl
@[simp] theorem pcieUpd_recent : (pcieUpd s n f).recent = s.recent := rfl
@[simp] theorem pcieUpd_eng : (pcieUpd s n f).eng = s.eng := rfl
@[simp] theorem pcieUpd_eis : (pcieUpd s n f).eis = s.eis := rfl
@[simp] theorem pcieUpd_tim : (pcieUpd s n f).tim = s.tim := rfl
@[simp] theorem pcieUpd_frames : (pcieUpd s n f).frames = s.frames := rfl
@[simp] theorem pcieUpd_ff : (pcieUpd s n f).ff = s.ff := rfl
@[simp] theorem pcieUpd_load : (pcieUpd s n f).load = s.load := rfl
@[simp] theorem pcieUpd_pwr : (pcieUpd s n f).pwr = s.pwr := rfl
@[simp] theorem pcieUpd_fuses : (pcieUpd s n f).fuses = s.fuses := rfl
@[simp] theorem pcieUpd_flash : (pcieUpd s n f).flash = s.flash := rfl
@[simp] theorem pcieUpd_boot : (pcieUpd s n f).boot = s.boot := rfl
@[simp] theorem pcieUpd_csPos : (pcieUpd s n f).csPos = s.csPos := rfl
@[simp] theorem pcieUpd_csStart : (pcieUpd s n f).csStart = s.csStart := rfl
@[simp] theorem pcieUpd_mb : (pcieUpd s n f).mb = s.mb := rfl
@[simp] theorem pcieUpd_plan : (pcieUpd s n f).plan = s.plan := rfl
@[simp] theorem pcieUpd_parts : (pcieUpd s n f).parts = s.parts := rfl
@[simp] theorem pcieUpd_sessions : (pcieUpd s n f).sessions = s.sessions := rfl
@[simp] theorem pcieUpd_nextSession : (pcieUpd s n f).nextSession = s.nextSession := rfl
@[simp] theorem pcieUpd_alarms : (pcieUpd s n f).alarms = s.alarms := rfl
@[simp] theorem pcieUpd_nextAlarm : (pcieUpd s n f).nextAlarm = s.nextAlarm := rfl
@[simp] theorem pcieUpd_alarmLost : (pcieUpd s n f).alarmLost = s.alarmLost := rfl
@[simp] theorem pcieUpd_lostSeq : (pcieUpd s n f).lostSeq = s.lostSeq := rfl
@[simp] theorem pcieUpd_up : (pcieUpd s n f).up = s.up := rfl
@[simp] theorem pcieUpd_net : (pcieUpd s n f).net = s.net := rfl
@[simp] theorem pcieUpd_way : (pcieUpd s n f).way = s.way := rfl
@[simp] theorem pcieUpd_outs : (pcieUpd s n f).outs = s.outs := rfl
@[simp] theorem pcieUpd_nic : (pcieUpd s n f).nic = s.nic := rfl
@[simp] theorem pcieUpd_noc : (pcieUpd s n f).noc = s.noc := rfl
@[simp] theorem pcieUpd_hw : (pcieUpd s n f).hw = s.hw := rfl
@[simp] theorem pcieUpd_selfFenced : (pcieUpd s n f).selfFenced = s.selfFenced := rfl
@[simp] theorem pcieUpd_frameAt : (pcieUpd s n f).frameAt = s.frameAt := rfl
@[simp] theorem pcieUpd_dram : (pcieUpd s n f).dram = s.dram := rfl
@[simp] theorem pcieUpd_mc : (pcieUpd s n f).mc = s.mc := rfl
@[simp] theorem pcieUpd_sec : (pcieUpd s n f).sec = s.sec := rfl
@[simp] theorem pcieUpd_lane : (pcieUpd s n f).lane = s.lane := rfl
@[simp] theorem pcieUpd_quad : (pcieUpd s n f).quad = s.quad := rfl
@[simp] theorem pcieUpd_bight : (pcieUpd s n f).bight = s.bight := rfl
@[simp] theorem pcieUpd_tap : (pcieUpd s n f).tap = s.tap := rfl
@[simp] theorem pcieUpd_fns : (pcieUpd s n f).fns = s.fns := rfl
@[simp] theorem pcieUpd_msi : (pcieUpd s n f).msi = s.msi := rfl
@[simp] theorem pcieUpd_port : (pcieUpd s n f).port = s.port := rfl
end

section
variable (s : State) (f : SecSt → SecSt)
@[simp] theorem secUpd_csr : (secUpd s f).csr = s.csr := rfl
@[simp] theorem secUpd_fresh : (secUpd s f).fresh = s.fresh := rfl
@[simp] theorem secUpd_pending : (secUpd s f).pending = s.pending := rfl
@[simp] theorem secUpd_rsp : (secUpd s f).rsp = s.rsp := rfl
@[simp] theorem secUpd_free : (secUpd s f).free = s.free := rfl
@[simp] theorem secUpd_isl : (secUpd s f).isl = s.isl := rfl
@[simp] theorem secUpd_hitch : (secUpd s f).hitch = s.hitch := rfl
@[simp] theorem secUpd_spine : (secUpd s f).spine = s.spine := rfl
@[simp] theorem secUpd_bram : (secUpd s f).bram = s.bram := rfl
@[simp] theorem secUpd_recent : (secUpd s f).recent = s.recent := rfl
@[simp] theorem secUpd_eng : (secUpd s f).eng = s.eng := rfl
@[simp] theorem secUpd_eis : (secUpd s f).eis = s.eis := rfl
@[simp] theorem secUpd_tim : (secUpd s f).tim = s.tim := rfl
@[simp] theorem secUpd_frames : (secUpd s f).frames = s.frames := rfl
@[simp] theorem secUpd_ff : (secUpd s f).ff = s.ff := rfl
@[simp] theorem secUpd_load : (secUpd s f).load = s.load := rfl
@[simp] theorem secUpd_pwr : (secUpd s f).pwr = s.pwr := rfl
@[simp] theorem secUpd_fuses : (secUpd s f).fuses = s.fuses := rfl
@[simp] theorem secUpd_flash : (secUpd s f).flash = s.flash := rfl
@[simp] theorem secUpd_boot : (secUpd s f).boot = s.boot := rfl
@[simp] theorem secUpd_csPos : (secUpd s f).csPos = s.csPos := rfl
@[simp] theorem secUpd_csStart : (secUpd s f).csStart = s.csStart := rfl
@[simp] theorem secUpd_mb : (secUpd s f).mb = s.mb := rfl
@[simp] theorem secUpd_plan : (secUpd s f).plan = s.plan := rfl
@[simp] theorem secUpd_parts : (secUpd s f).parts = s.parts := rfl
@[simp] theorem secUpd_sessions : (secUpd s f).sessions = s.sessions := rfl
@[simp] theorem secUpd_nextSession : (secUpd s f).nextSession = s.nextSession := rfl
@[simp] theorem secUpd_alarms : (secUpd s f).alarms = s.alarms := rfl
@[simp] theorem secUpd_nextAlarm : (secUpd s f).nextAlarm = s.nextAlarm := rfl
@[simp] theorem secUpd_alarmLost : (secUpd s f).alarmLost = s.alarmLost := rfl
@[simp] theorem secUpd_lostSeq : (secUpd s f).lostSeq = s.lostSeq := rfl
@[simp] theorem secUpd_up : (secUpd s f).up = s.up := rfl
@[simp] theorem secUpd_net : (secUpd s f).net = s.net := rfl
@[simp] theorem secUpd_way : (secUpd s f).way = s.way := rfl
@[simp] theorem secUpd_outs : (secUpd s f).outs = s.outs := rfl
@[simp] theorem secUpd_nic : (secUpd s f).nic = s.nic := rfl
@[simp] theorem secUpd_noc : (secUpd s f).noc = s.noc := rfl
@[simp] theorem secUpd_hw : (secUpd s f).hw = s.hw := rfl
@[simp] theorem secUpd_selfFenced : (secUpd s f).selfFenced = s.selfFenced := rfl
@[simp] theorem secUpd_frameAt : (secUpd s f).frameAt = s.frameAt := rfl
@[simp] theorem secUpd_dram : (secUpd s f).dram = s.dram := rfl
@[simp] theorem secUpd_mc : (secUpd s f).mc = s.mc := rfl
@[simp] theorem secUpd_lane : (secUpd s f).lane = s.lane := rfl
@[simp] theorem secUpd_quad : (secUpd s f).quad = s.quad := rfl
@[simp] theorem secUpd_bight : (secUpd s f).bight = s.bight := rfl
@[simp] theorem secUpd_tap : (secUpd s f).tap = s.tap := rfl
@[simp] theorem secUpd_fns : (secUpd s f).fns = s.fns := rfl
@[simp] theorem secUpd_pcie : (secUpd s f).pcie = s.pcie := rfl
@[simp] theorem secUpd_msi : (secUpd s f).msi = s.msi := rfl
@[simp] theorem secUpd_port : (secUpd s f).port = s.port := rfl
end

section
variable (s : State) (n : Nat) (x : Gran)
@[simp] theorem granSet_csr : (granSet s n x).csr = s.csr := rfl
@[simp] theorem granSet_fresh : (granSet s n x).fresh = s.fresh := rfl
@[simp] theorem granSet_pending : (granSet s n x).pending = s.pending := rfl
@[simp] theorem granSet_rsp : (granSet s n x).rsp = s.rsp := rfl
@[simp] theorem granSet_free : (granSet s n x).free = s.free := rfl
@[simp] theorem granSet_isl : (granSet s n x).isl = s.isl := rfl
@[simp] theorem granSet_hitch : (granSet s n x).hitch = s.hitch := rfl
@[simp] theorem granSet_spine : (granSet s n x).spine = s.spine := rfl
@[simp] theorem granSet_bram : (granSet s n x).bram = s.bram := rfl
@[simp] theorem granSet_recent : (granSet s n x).recent = s.recent := rfl
@[simp] theorem granSet_eng : (granSet s n x).eng = s.eng := rfl
@[simp] theorem granSet_eis : (granSet s n x).eis = s.eis := rfl
@[simp] theorem granSet_tim : (granSet s n x).tim = s.tim := rfl
@[simp] theorem granSet_frames : (granSet s n x).frames = s.frames := rfl
@[simp] theorem granSet_ff : (granSet s n x).ff = s.ff := rfl
@[simp] theorem granSet_load : (granSet s n x).load = s.load := rfl
@[simp] theorem granSet_pwr : (granSet s n x).pwr = s.pwr := rfl
@[simp] theorem granSet_fuses : (granSet s n x).fuses = s.fuses := rfl
@[simp] theorem granSet_flash : (granSet s n x).flash = s.flash := rfl
@[simp] theorem granSet_boot : (granSet s n x).boot = s.boot := rfl
@[simp] theorem granSet_csPos : (granSet s n x).csPos = s.csPos := rfl
@[simp] theorem granSet_csStart : (granSet s n x).csStart = s.csStart := rfl
@[simp] theorem granSet_mb : (granSet s n x).mb = s.mb := rfl
@[simp] theorem granSet_plan : (granSet s n x).plan = s.plan := rfl
@[simp] theorem granSet_parts : (granSet s n x).parts = s.parts := rfl
@[simp] theorem granSet_sessions : (granSet s n x).sessions = s.sessions := rfl
@[simp] theorem granSet_nextSession : (granSet s n x).nextSession = s.nextSession := rfl
@[simp] theorem granSet_alarms : (granSet s n x).alarms = s.alarms := rfl
@[simp] theorem granSet_nextAlarm : (granSet s n x).nextAlarm = s.nextAlarm := rfl
@[simp] theorem granSet_alarmLost : (granSet s n x).alarmLost = s.alarmLost := rfl
@[simp] theorem granSet_lostSeq : (granSet s n x).lostSeq = s.lostSeq := rfl
@[simp] theorem granSet_up : (granSet s n x).up = s.up := rfl
@[simp] theorem granSet_net : (granSet s n x).net = s.net := rfl
@[simp] theorem granSet_way : (granSet s n x).way = s.way := rfl
@[simp] theorem granSet_outs : (granSet s n x).outs = s.outs := rfl
@[simp] theorem granSet_nic : (granSet s n x).nic = s.nic := rfl
@[simp] theorem granSet_noc : (granSet s n x).noc = s.noc := rfl
@[simp] theorem granSet_hw : (granSet s n x).hw = s.hw := rfl
@[simp] theorem granSet_selfFenced : (granSet s n x).selfFenced = s.selfFenced := rfl
@[simp] theorem granSet_frameAt : (granSet s n x).frameAt = s.frameAt := rfl
@[simp] theorem granSet_dram : (granSet s n x).dram = s.dram := rfl
@[simp] theorem granSet_mc : (granSet s n x).mc = s.mc := rfl
@[simp] theorem granSet_lane : (granSet s n x).lane = s.lane := rfl
@[simp] theorem granSet_quad : (granSet s n x).quad = s.quad := rfl
@[simp] theorem granSet_bight : (granSet s n x).bight = s.bight := rfl
@[simp] theorem granSet_tap : (granSet s n x).tap = s.tap := rfl
@[simp] theorem granSet_fns : (granSet s n x).fns = s.fns := rfl
@[simp] theorem granSet_pcie : (granSet s n x).pcie = s.pcie := rfl
@[simp] theorem granSet_msi : (granSet s n x).msi = s.msi := rfl
@[simp] theorem granSet_port : (granSet s n x).port = s.port := rfl
end

section
variable (s : State) (n line : Nat) (l : DLine)
@[simp] theorem dramSet_csr : (dramSet s n line l).csr = s.csr := rfl
@[simp] theorem dramSet_fresh : (dramSet s n line l).fresh = s.fresh := rfl
@[simp] theorem dramSet_pending : (dramSet s n line l).pending = s.pending := rfl
@[simp] theorem dramSet_rsp : (dramSet s n line l).rsp = s.rsp := rfl
@[simp] theorem dramSet_free : (dramSet s n line l).free = s.free := rfl
@[simp] theorem dramSet_isl : (dramSet s n line l).isl = s.isl := rfl
@[simp] theorem dramSet_hitch : (dramSet s n line l).hitch = s.hitch := rfl
@[simp] theorem dramSet_spine : (dramSet s n line l).spine = s.spine := rfl
@[simp] theorem dramSet_bram : (dramSet s n line l).bram = s.bram := rfl
@[simp] theorem dramSet_recent : (dramSet s n line l).recent = s.recent := rfl
@[simp] theorem dramSet_eng : (dramSet s n line l).eng = s.eng := rfl
@[simp] theorem dramSet_eis : (dramSet s n line l).eis = s.eis := rfl
@[simp] theorem dramSet_tim : (dramSet s n line l).tim = s.tim := rfl
@[simp] theorem dramSet_frames : (dramSet s n line l).frames = s.frames := rfl
@[simp] theorem dramSet_ff : (dramSet s n line l).ff = s.ff := rfl
@[simp] theorem dramSet_load : (dramSet s n line l).load = s.load := rfl
@[simp] theorem dramSet_pwr : (dramSet s n line l).pwr = s.pwr := rfl
@[simp] theorem dramSet_fuses : (dramSet s n line l).fuses = s.fuses := rfl
@[simp] theorem dramSet_flash : (dramSet s n line l).flash = s.flash := rfl
@[simp] theorem dramSet_boot : (dramSet s n line l).boot = s.boot := rfl
@[simp] theorem dramSet_csPos : (dramSet s n line l).csPos = s.csPos := rfl
@[simp] theorem dramSet_csStart : (dramSet s n line l).csStart = s.csStart := rfl
@[simp] theorem dramSet_mb : (dramSet s n line l).mb = s.mb := rfl
@[simp] theorem dramSet_plan : (dramSet s n line l).plan = s.plan := rfl
@[simp] theorem dramSet_parts : (dramSet s n line l).parts = s.parts := rfl
@[simp] theorem dramSet_sessions : (dramSet s n line l).sessions = s.sessions := rfl
@[simp] theorem dramSet_nextSession : (dramSet s n line l).nextSession = s.nextSession := rfl
@[simp] theorem dramSet_alarms : (dramSet s n line l).alarms = s.alarms := rfl
@[simp] theorem dramSet_nextAlarm : (dramSet s n line l).nextAlarm = s.nextAlarm := rfl
@[simp] theorem dramSet_alarmLost : (dramSet s n line l).alarmLost = s.alarmLost := rfl
@[simp] theorem dramSet_lostSeq : (dramSet s n line l).lostSeq = s.lostSeq := rfl
@[simp] theorem dramSet_up : (dramSet s n line l).up = s.up := rfl
@[simp] theorem dramSet_net : (dramSet s n line l).net = s.net := rfl
@[simp] theorem dramSet_way : (dramSet s n line l).way = s.way := rfl
@[simp] theorem dramSet_outs : (dramSet s n line l).outs = s.outs := rfl
@[simp] theorem dramSet_nic : (dramSet s n line l).nic = s.nic := rfl
@[simp] theorem dramSet_noc : (dramSet s n line l).noc = s.noc := rfl
@[simp] theorem dramSet_hw : (dramSet s n line l).hw = s.hw := rfl
@[simp] theorem dramSet_selfFenced : (dramSet s n line l).selfFenced = s.selfFenced := rfl
@[simp] theorem dramSet_frameAt : (dramSet s n line l).frameAt = s.frameAt := rfl
@[simp] theorem dramSet_mc : (dramSet s n line l).mc = s.mc := rfl
@[simp] theorem dramSet_sec : (dramSet s n line l).sec = s.sec := rfl
@[simp] theorem dramSet_lane : (dramSet s n line l).lane = s.lane := rfl
@[simp] theorem dramSet_quad : (dramSet s n line l).quad = s.quad := rfl
@[simp] theorem dramSet_bight : (dramSet s n line l).bight = s.bight := rfl
@[simp] theorem dramSet_tap : (dramSet s n line l).tap = s.tap := rfl
@[simp] theorem dramSet_fns : (dramSet s n line l).fns = s.fns := rfl
@[simp] theorem dramSet_pcie : (dramSet s n line l).pcie = s.pcie := rfl
@[simp] theorem dramSet_msi : (dramSet s n line l).msi = s.msi := rfl
@[simp] theorem dramSet_port : (dramSet s n line l).port = s.port := rfl
end

section
variable (s : State) (f : PowerSt → PowerSt)
@[simp] theorem pwrUpd_csr : (pwrUpd s f).csr = s.csr := rfl
@[simp] theorem pwrUpd_fresh : (pwrUpd s f).fresh = s.fresh := rfl
@[simp] theorem pwrUpd_pending : (pwrUpd s f).pending = s.pending := rfl
@[simp] theorem pwrUpd_rsp : (pwrUpd s f).rsp = s.rsp := rfl
@[simp] theorem pwrUpd_free : (pwrUpd s f).free = s.free := rfl
@[simp] theorem pwrUpd_isl : (pwrUpd s f).isl = s.isl := rfl
@[simp] theorem pwrUpd_hitch : (pwrUpd s f).hitch = s.hitch := rfl
@[simp] theorem pwrUpd_spine : (pwrUpd s f).spine = s.spine := rfl
@[simp] theorem pwrUpd_bram : (pwrUpd s f).bram = s.bram := rfl
@[simp] theorem pwrUpd_recent : (pwrUpd s f).recent = s.recent := rfl
@[simp] theorem pwrUpd_eng : (pwrUpd s f).eng = s.eng := rfl
@[simp] theorem pwrUpd_eis : (pwrUpd s f).eis = s.eis := rfl
@[simp] theorem pwrUpd_tim : (pwrUpd s f).tim = s.tim := rfl
@[simp] theorem pwrUpd_frames : (pwrUpd s f).frames = s.frames := rfl
@[simp] theorem pwrUpd_ff : (pwrUpd s f).ff = s.ff := rfl
@[simp] theorem pwrUpd_load : (pwrUpd s f).load = s.load := rfl
@[simp] theorem pwrUpd_fuses : (pwrUpd s f).fuses = s.fuses := rfl
@[simp] theorem pwrUpd_flash : (pwrUpd s f).flash = s.flash := rfl
@[simp] theorem pwrUpd_boot : (pwrUpd s f).boot = s.boot := rfl
@[simp] theorem pwrUpd_csPos : (pwrUpd s f).csPos = s.csPos := rfl
@[simp] theorem pwrUpd_csStart : (pwrUpd s f).csStart = s.csStart := rfl
@[simp] theorem pwrUpd_mb : (pwrUpd s f).mb = s.mb := rfl
@[simp] theorem pwrUpd_plan : (pwrUpd s f).plan = s.plan := rfl
@[simp] theorem pwrUpd_parts : (pwrUpd s f).parts = s.parts := rfl
@[simp] theorem pwrUpd_sessions : (pwrUpd s f).sessions = s.sessions := rfl
@[simp] theorem pwrUpd_nextSession : (pwrUpd s f).nextSession = s.nextSession := rfl
@[simp] theorem pwrUpd_alarms : (pwrUpd s f).alarms = s.alarms := rfl
@[simp] theorem pwrUpd_nextAlarm : (pwrUpd s f).nextAlarm = s.nextAlarm := rfl
@[simp] theorem pwrUpd_alarmLost : (pwrUpd s f).alarmLost = s.alarmLost := rfl
@[simp] theorem pwrUpd_lostSeq : (pwrUpd s f).lostSeq = s.lostSeq := rfl
@[simp] theorem pwrUpd_up : (pwrUpd s f).up = s.up := rfl
@[simp] theorem pwrUpd_net : (pwrUpd s f).net = s.net := rfl
@[simp] theorem pwrUpd_way : (pwrUpd s f).way = s.way := rfl
@[simp] theorem pwrUpd_outs : (pwrUpd s f).outs = s.outs := rfl
@[simp] theorem pwrUpd_nic : (pwrUpd s f).nic = s.nic := rfl
@[simp] theorem pwrUpd_noc : (pwrUpd s f).noc = s.noc := rfl
@[simp] theorem pwrUpd_hw : (pwrUpd s f).hw = s.hw := rfl
@[simp] theorem pwrUpd_selfFenced : (pwrUpd s f).selfFenced = s.selfFenced := rfl
@[simp] theorem pwrUpd_frameAt : (pwrUpd s f).frameAt = s.frameAt := rfl
@[simp] theorem pwrUpd_dram : (pwrUpd s f).dram = s.dram := rfl
@[simp] theorem pwrUpd_mc : (pwrUpd s f).mc = s.mc := rfl
@[simp] theorem pwrUpd_sec : (pwrUpd s f).sec = s.sec := rfl
@[simp] theorem pwrUpd_lane : (pwrUpd s f).lane = s.lane := rfl
@[simp] theorem pwrUpd_quad : (pwrUpd s f).quad = s.quad := rfl
@[simp] theorem pwrUpd_bight : (pwrUpd s f).bight = s.bight := rfl
@[simp] theorem pwrUpd_tap : (pwrUpd s f).tap = s.tap := rfl
@[simp] theorem pwrUpd_fns : (pwrUpd s f).fns = s.fns := rfl
@[simp] theorem pwrUpd_pcie : (pwrUpd s f).pcie = s.pcie := rfl
@[simp] theorem pwrUpd_msi : (pwrUpd s f).msi = s.msi := rfl
@[simp] theorem pwrUpd_port : (pwrUpd s f).port = s.port := rfl
end

section
variable (s : State) (n : Nat) (f : RailSt → RailSt)
@[simp] theorem railUpd_csr : (railUpd s n f).csr = s.csr := rfl
@[simp] theorem railUpd_fresh : (railUpd s n f).fresh = s.fresh := rfl
@[simp] theorem railUpd_pending : (railUpd s n f).pending = s.pending := rfl
@[simp] theorem railUpd_rsp : (railUpd s n f).rsp = s.rsp := rfl
@[simp] theorem railUpd_free : (railUpd s n f).free = s.free := rfl
@[simp] theorem railUpd_isl : (railUpd s n f).isl = s.isl := rfl
@[simp] theorem railUpd_hitch : (railUpd s n f).hitch = s.hitch := rfl
@[simp] theorem railUpd_spine : (railUpd s n f).spine = s.spine := rfl
@[simp] theorem railUpd_bram : (railUpd s n f).bram = s.bram := rfl
@[simp] theorem railUpd_recent : (railUpd s n f).recent = s.recent := rfl
@[simp] theorem railUpd_eng : (railUpd s n f).eng = s.eng := rfl
@[simp] theorem railUpd_eis : (railUpd s n f).eis = s.eis := rfl
@[simp] theorem railUpd_tim : (railUpd s n f).tim = s.tim := rfl
@[simp] theorem railUpd_frames : (railUpd s n f).frames = s.frames := rfl
@[simp] theorem railUpd_ff : (railUpd s n f).ff = s.ff := rfl
@[simp] theorem railUpd_load : (railUpd s n f).load = s.load := rfl
@[simp] theorem railUpd_fuses : (railUpd s n f).fuses = s.fuses := rfl
@[simp] theorem railUpd_flash : (railUpd s n f).flash = s.flash := rfl
@[simp] theorem railUpd_boot : (railUpd s n f).boot = s.boot := rfl
@[simp] theorem railUpd_csPos : (railUpd s n f).csPos = s.csPos := rfl
@[simp] theorem railUpd_csStart : (railUpd s n f).csStart = s.csStart := rfl
@[simp] theorem railUpd_mb : (railUpd s n f).mb = s.mb := rfl
@[simp] theorem railUpd_plan : (railUpd s n f).plan = s.plan := rfl
@[simp] theorem railUpd_parts : (railUpd s n f).parts = s.parts := rfl
@[simp] theorem railUpd_sessions : (railUpd s n f).sessions = s.sessions := rfl
@[simp] theorem railUpd_nextSession : (railUpd s n f).nextSession = s.nextSession := rfl
@[simp] theorem railUpd_alarms : (railUpd s n f).alarms = s.alarms := rfl
@[simp] theorem railUpd_nextAlarm : (railUpd s n f).nextAlarm = s.nextAlarm := rfl
@[simp] theorem railUpd_alarmLost : (railUpd s n f).alarmLost = s.alarmLost := rfl
@[simp] theorem railUpd_lostSeq : (railUpd s n f).lostSeq = s.lostSeq := rfl
@[simp] theorem railUpd_up : (railUpd s n f).up = s.up := rfl
@[simp] theorem railUpd_net : (railUpd s n f).net = s.net := rfl
@[simp] theorem railUpd_way : (railUpd s n f).way = s.way := rfl
@[simp] theorem railUpd_outs : (railUpd s n f).outs = s.outs := rfl
@[simp] theorem railUpd_nic : (railUpd s n f).nic = s.nic := rfl
@[simp] theorem railUpd_noc : (railUpd s n f).noc = s.noc := rfl
@[simp] theorem railUpd_hw : (railUpd s n f).hw = s.hw := rfl
@[simp] theorem railUpd_selfFenced : (railUpd s n f).selfFenced = s.selfFenced := rfl
@[simp] theorem railUpd_frameAt : (railUpd s n f).frameAt = s.frameAt := rfl
@[simp] theorem railUpd_dram : (railUpd s n f).dram = s.dram := rfl
@[simp] theorem railUpd_mc : (railUpd s n f).mc = s.mc := rfl
@[simp] theorem railUpd_sec : (railUpd s n f).sec = s.sec := rfl
@[simp] theorem railUpd_lane : (railUpd s n f).lane = s.lane := rfl
@[simp] theorem railUpd_quad : (railUpd s n f).quad = s.quad := rfl
@[simp] theorem railUpd_bight : (railUpd s n f).bight = s.bight := rfl
@[simp] theorem railUpd_tap : (railUpd s n f).tap = s.tap := rfl
@[simp] theorem railUpd_fns : (railUpd s n f).fns = s.fns := rfl
@[simp] theorem railUpd_pcie : (railUpd s n f).pcie = s.pcie := rfl
@[simp] theorem railUpd_msi : (railUpd s n f).msi = s.msi := rfl
@[simp] theorem railUpd_port : (railUpd s n f).port = s.port := rfl
end

section
variable (s : State) (n : Nat) (x : Frame)
@[simp] theorem frameSet_csr : (frameSet s n x).csr = s.csr := rfl
@[simp] theorem frameSet_fresh : (frameSet s n x).fresh = s.fresh := rfl
@[simp] theorem frameSet_pending : (frameSet s n x).pending = s.pending := rfl
@[simp] theorem frameSet_rsp : (frameSet s n x).rsp = s.rsp := rfl
@[simp] theorem frameSet_free : (frameSet s n x).free = s.free := rfl
@[simp] theorem frameSet_isl : (frameSet s n x).isl = s.isl := rfl
@[simp] theorem frameSet_hitch : (frameSet s n x).hitch = s.hitch := rfl
@[simp] theorem frameSet_spine : (frameSet s n x).spine = s.spine := rfl
@[simp] theorem frameSet_bram : (frameSet s n x).bram = s.bram := rfl
@[simp] theorem frameSet_recent : (frameSet s n x).recent = s.recent := rfl
@[simp] theorem frameSet_eng : (frameSet s n x).eng = s.eng := rfl
@[simp] theorem frameSet_eis : (frameSet s n x).eis = s.eis := rfl
@[simp] theorem frameSet_tim : (frameSet s n x).tim = s.tim := rfl
@[simp] theorem frameSet_ff : (frameSet s n x).ff = s.ff := rfl
@[simp] theorem frameSet_load : (frameSet s n x).load = s.load := rfl
@[simp] theorem frameSet_pwr : (frameSet s n x).pwr = s.pwr := rfl
@[simp] theorem frameSet_fuses : (frameSet s n x).fuses = s.fuses := rfl
@[simp] theorem frameSet_flash : (frameSet s n x).flash = s.flash := rfl
@[simp] theorem frameSet_boot : (frameSet s n x).boot = s.boot := rfl
@[simp] theorem frameSet_csPos : (frameSet s n x).csPos = s.csPos := rfl
@[simp] theorem frameSet_csStart : (frameSet s n x).csStart = s.csStart := rfl
@[simp] theorem frameSet_mb : (frameSet s n x).mb = s.mb := rfl
@[simp] theorem frameSet_plan : (frameSet s n x).plan = s.plan := rfl
@[simp] theorem frameSet_parts : (frameSet s n x).parts = s.parts := rfl
@[simp] theorem frameSet_sessions : (frameSet s n x).sessions = s.sessions := rfl
@[simp] theorem frameSet_nextSession : (frameSet s n x).nextSession = s.nextSession := rfl
@[simp] theorem frameSet_alarms : (frameSet s n x).alarms = s.alarms := rfl
@[simp] theorem frameSet_nextAlarm : (frameSet s n x).nextAlarm = s.nextAlarm := rfl
@[simp] theorem frameSet_alarmLost : (frameSet s n x).alarmLost = s.alarmLost := rfl
@[simp] theorem frameSet_lostSeq : (frameSet s n x).lostSeq = s.lostSeq := rfl
@[simp] theorem frameSet_up : (frameSet s n x).up = s.up := rfl
@[simp] theorem frameSet_net : (frameSet s n x).net = s.net := rfl
@[simp] theorem frameSet_way : (frameSet s n x).way = s.way := rfl
@[simp] theorem frameSet_outs : (frameSet s n x).outs = s.outs := rfl
@[simp] theorem frameSet_nic : (frameSet s n x).nic = s.nic := rfl
@[simp] theorem frameSet_noc : (frameSet s n x).noc = s.noc := rfl
@[simp] theorem frameSet_hw : (frameSet s n x).hw = s.hw := rfl
@[simp] theorem frameSet_selfFenced : (frameSet s n x).selfFenced = s.selfFenced := rfl
@[simp] theorem frameSet_frameAt : (frameSet s n x).frameAt = s.frameAt := rfl
@[simp] theorem frameSet_dram : (frameSet s n x).dram = s.dram := rfl
@[simp] theorem frameSet_mc : (frameSet s n x).mc = s.mc := rfl
@[simp] theorem frameSet_sec : (frameSet s n x).sec = s.sec := rfl
@[simp] theorem frameSet_lane : (frameSet s n x).lane = s.lane := rfl
@[simp] theorem frameSet_quad : (frameSet s n x).quad = s.quad := rfl
@[simp] theorem frameSet_bight : (frameSet s n x).bight = s.bight := rfl
@[simp] theorem frameSet_tap : (frameSet s n x).tap = s.tap := rfl
@[simp] theorem frameSet_fns : (frameSet s n x).fns = s.fns := rfl
@[simp] theorem frameSet_pcie : (frameSet s n x).pcie = s.pcie := rfl
@[simp] theorem frameSet_msi : (frameSet s n x).msi = s.msi := rfl
@[simp] theorem frameSet_port : (frameSet s n x).port = s.port := rfl
end

section
variable (s : State) (n : Nat) (x : Frame)
@[simp] theorem frameWrite_csr : (frameWrite s n x).csr = s.csr := rfl
@[simp] theorem frameWrite_fresh : (frameWrite s n x).fresh = s.fresh := rfl
@[simp] theorem frameWrite_pending : (frameWrite s n x).pending = s.pending := rfl
@[simp] theorem frameWrite_rsp : (frameWrite s n x).rsp = s.rsp := rfl
@[simp] theorem frameWrite_free : (frameWrite s n x).free = s.free := rfl
@[simp] theorem frameWrite_isl : (frameWrite s n x).isl = s.isl := rfl
@[simp] theorem frameWrite_hitch : (frameWrite s n x).hitch = s.hitch := rfl
@[simp] theorem frameWrite_spine : (frameWrite s n x).spine = s.spine := rfl
@[simp] theorem frameWrite_bram : (frameWrite s n x).bram = s.bram := rfl
@[simp] theorem frameWrite_recent : (frameWrite s n x).recent = s.recent := rfl
@[simp] theorem frameWrite_eng : (frameWrite s n x).eng = s.eng := rfl
@[simp] theorem frameWrite_eis : (frameWrite s n x).eis = s.eis := rfl
@[simp] theorem frameWrite_tim : (frameWrite s n x).tim = s.tim := rfl
@[simp] theorem frameWrite_ff : (frameWrite s n x).ff = s.ff := rfl
@[simp] theorem frameWrite_load : (frameWrite s n x).load = s.load := rfl
@[simp] theorem frameWrite_pwr : (frameWrite s n x).pwr = s.pwr := rfl
@[simp] theorem frameWrite_fuses : (frameWrite s n x).fuses = s.fuses := rfl
@[simp] theorem frameWrite_flash : (frameWrite s n x).flash = s.flash := rfl
@[simp] theorem frameWrite_boot : (frameWrite s n x).boot = s.boot := rfl
@[simp] theorem frameWrite_csPos : (frameWrite s n x).csPos = s.csPos := rfl
@[simp] theorem frameWrite_csStart : (frameWrite s n x).csStart = s.csStart := rfl
@[simp] theorem frameWrite_mb : (frameWrite s n x).mb = s.mb := rfl
@[simp] theorem frameWrite_plan : (frameWrite s n x).plan = s.plan := rfl
@[simp] theorem frameWrite_parts : (frameWrite s n x).parts = s.parts := rfl
@[simp] theorem frameWrite_sessions : (frameWrite s n x).sessions = s.sessions := rfl
@[simp] theorem frameWrite_nextSession : (frameWrite s n x).nextSession = s.nextSession := rfl
@[simp] theorem frameWrite_alarms : (frameWrite s n x).alarms = s.alarms := rfl
@[simp] theorem frameWrite_nextAlarm : (frameWrite s n x).nextAlarm = s.nextAlarm := rfl
@[simp] theorem frameWrite_alarmLost : (frameWrite s n x).alarmLost = s.alarmLost := rfl
@[simp] theorem frameWrite_lostSeq : (frameWrite s n x).lostSeq = s.lostSeq := rfl
@[simp] theorem frameWrite_up : (frameWrite s n x).up = s.up := rfl
@[simp] theorem frameWrite_net : (frameWrite s n x).net = s.net := rfl
@[simp] theorem frameWrite_way : (frameWrite s n x).way = s.way := rfl
@[simp] theorem frameWrite_outs : (frameWrite s n x).outs = s.outs := rfl
@[simp] theorem frameWrite_nic : (frameWrite s n x).nic = s.nic := rfl
@[simp] theorem frameWrite_noc : (frameWrite s n x).noc = s.noc := rfl
@[simp] theorem frameWrite_hw : (frameWrite s n x).hw = s.hw := rfl
@[simp] theorem frameWrite_selfFenced : (frameWrite s n x).selfFenced = s.selfFenced := rfl
@[simp] theorem frameWrite_dram : (frameWrite s n x).dram = s.dram := rfl
@[simp] theorem frameWrite_mc : (frameWrite s n x).mc = s.mc := rfl
@[simp] theorem frameWrite_sec : (frameWrite s n x).sec = s.sec := rfl
@[simp] theorem frameWrite_lane : (frameWrite s n x).lane = s.lane := rfl
@[simp] theorem frameWrite_quad : (frameWrite s n x).quad = s.quad := rfl
@[simp] theorem frameWrite_bight : (frameWrite s n x).bight = s.bight := rfl
@[simp] theorem frameWrite_tap : (frameWrite s n x).tap = s.tap := rfl
@[simp] theorem frameWrite_fns : (frameWrite s n x).fns = s.fns := rfl
@[simp] theorem frameWrite_pcie : (frameWrite s n x).pcie = s.pcie := rfl
@[simp] theorem frameWrite_msi : (frameWrite s n x).msi = s.msi := rfl
@[simp] theorem frameWrite_port : (frameWrite s n x).port = s.port := rfl
end

/-! ### Reading back -/

theorem pow_wd_mod (f : Fld) (v : Nat) : v % 2 ^ f.wd < 2 ^ f.wd := Nat.mod_lt _ (Nat.two_pow_pos _)

@[simp] theorem fget_fset_self (s : State) (b : Nat) (f : Fld) (v : Nat) : fget (fset s b f v) b f = v % 2 ^ f.wd := by
  simp [fget, fset]
theorem fget_fset_ne {s : State} {b b' : Nat} {f f' : Fld} (v : Nat) (h : fkey b' f' ≠ fkey b f) :
    fget (fset s b f v) b' f' = fget s b' f' :=
  tget_tset_other _ _ _ _ h
@[simp] theorem fget_fset2_self (s : State) (b : Nat) (f : Fld) (v w : Nat) : fget (fset2 s b f v w) b f = v % 2 ^ f.wd := by
  simp [fget, fset2, fset]
theorem fget_fset2_ne {s : State} {b b' : Nat} {f f' : Fld} (v w : Nat) (h : fkey b' f' ≠ fkey b f) :
    fget (fset2 s b f v w) b' f' = fget s b' f' :=
  tget_tset_other _ _ _ _ h
@[simp] theorem fget_fclr_self (s : State) (b : Nat) (f : Fld) : fget (fclr s b f) b f = ffresh s b f := by simp [fget, fclr]
theorem fget_fclr_ne {s : State} {b b' : Nat} {f f' : Fld} (h : fkey b' f' ≠ fkey b f) : fget (fclr s b f) b' f' = fget s b' f' :=
  tget_tset_other _ _ _ _ h
theorem fget_congr {s t : State} (h : t.csr = s.csr) (b : Nat) (f : Fld) : fget t b f = fget s b f := by
  simp [fget, h]

@[simp] theorem islGet_islUpd_self (s : State) (n : Nat) (f : IslSt → IslSt) : islGet (islUpd s n f) n = f (islGet s n) := by simp [islGet, islUpd, tmod]
theorem islGet_islUpd_ne (s : State) {n m : Nat} (f : IslSt → IslSt) (h : m ≠ n) : islGet (islUpd s n f) m = islGet s m := by
  simp [islGet, islUpd, tmod, tget_tset, h]
@[simp] theorem engGet_engUpd_self (s : State) (n : Nat) (f : EngSt → EngSt) : engGet (engUpd s n f) n = f (engGet s n) := by simp [engGet, engUpd, tmod]
theorem engGet_engUpd_ne (s : State) {n m : Nat} (f : EngSt → EngSt) (h : m ≠ n) : engGet (engUpd s n f) m = engGet s m := by
  simp [engGet, engUpd, tmod, tget_tset, h]
@[simp] theorem eisGet_eisUpd_self (s : State) (n : Nat) (f : EisSt → EisSt) : eisGet (eisUpd s n f) n = f (eisGet s n) := by simp [eisGet, eisUpd, tmod]
theorem eisGet_eisUpd_ne (s : State) {n m : Nat} (f : EisSt → EisSt) (h : m ≠ n) : eisGet (eisUpd s n f) m = eisGet s m := by
  simp [eisGet, eisUpd, tmod, tget_tset, h]
@[simp] theorem mbGet_mbUpd_self (s : State) (n : Nat) (f : MbSt → MbSt) : mbGet (mbUpd s n f) n = f (mbGet s n) := by simp [mbGet, mbUpd, tmod]
theorem mbGet_mbUpd_ne (s : State) {n m : Nat} (f : MbSt → MbSt) (h : m ≠ n) : mbGet (mbUpd s n f) m = mbGet s m := by
  simp [mbGet, mbUpd, tmod, tget_tset, h]
@[simp] theorem partGet_partUpd_self (s : State) (n : Nat) (f : PartSt → PartSt) : partGet (partUpd s n f) n = f (partGet s n) := by simp [partGet, partUpd, tmod]
theorem partGet_partUpd_ne (s : State) {n m : Nat} (f : PartSt → PartSt) (h : m ≠ n) : partGet (partUpd s n f) m = partGet s m := by
  simp [partGet, partUpd, tmod, tget_tset, h]
@[simp] theorem nicGet_nicUpd_self (s : State) (n : Nat) (f : NicSt → NicSt) : nicGet (nicUpd s n f) n = f (nicGet s n) := by simp [nicGet, nicUpd, tmod]
theorem nicGet_nicUpd_ne (s : State) {n m : Nat} (f : NicSt → NicSt) (h : m ≠ n) : nicGet (nicUpd s n f) m = nicGet s m := by
  simp [nicGet, nicUpd, tmod, tget_tset, h]
@[simp] theorem nocGet_nocUpd_self (s : State) (n : Nat) (f : NocSt → NocSt) : nocGet (nocUpd s n f) n = f (nocGet s n) := by simp [nocGet, nocUpd, tmod]
theorem nocGet_nocUpd_ne (s : State) {n m : Nat} (f : NocSt → NocSt) (h : m ≠ n) : nocGet (nocUpd s n f) m = nocGet s m := by
  simp [nocGet, nocUpd, tmod, tget_tset, h]
@[simp] theorem hwGet_hwUpd_self (s : State) (n : Nat) (f : HwSt → HwSt) : hwGet (hwUpd s n f) n = f (hwGet s n) := by simp [hwGet, hwUpd, tmod]
theorem hwGet_hwUpd_ne (s : State) {n m : Nat} (f : HwSt → HwSt) (h : m ≠ n) : hwGet (hwUpd s n f) m = hwGet s m := by
  simp [hwGet, hwUpd, tmod, tget_tset, h]
@[simp] theorem mcGet_mcUpd_self (s : State) (n : Nat) (f : McSt → McSt) : mcGet (mcUpd s n f) n = f (mcGet s n) := by simp [mcGet, mcUpd, tmod]
theorem mcGet_mcUpd_ne (s : State) {n m : Nat} (f : McSt → McSt) (h : m ≠ n) : mcGet (mcUpd s n f) m = mcGet s m := by
  simp [mcGet, mcUpd, tmod, tget_tset, h]
@[simp] theorem laneGet_laneUpd_self (s : State) (n : Nat) (f : LaneSt → LaneSt) : laneGet (laneUpd s n f) n = f (laneGet s n) := by simp [laneGet, laneUpd, tmod]
theorem laneGet_laneUpd_ne (s : State) {n m : Nat} (f : LaneSt → LaneSt) (h : m ≠ n) : laneGet (laneUpd s n f) m = laneGet s m := by
  simp [laneGet, laneUpd, tmod, tget_tset, h]
@[simp] theorem quadGet_quadUpd_self (s : State) (n : Nat) (f : QuadSt → QuadSt) : quadGet (quadUpd s n f) n = f (quadGet s n) := by simp [quadGet, quadUpd, tmod]
theorem quadGet_quadUpd_ne (s : State) {n m : Nat} (f : QuadSt → QuadSt) (h : m ≠ n) : quadGet (quadUpd s n f) m = quadGet s m := by
  simp [quadGet, quadUpd, tmod, tget_tset, h]
@[simp] theorem fnGet_fnUpd_self (s : State) (n : Nat) (f : FnSt → FnSt) : fnGet (fnUpd s n f) n = f (fnGet s n) := by simp [fnGet, fnUpd, tmod]
theorem fnGet_fnUpd_ne (s : State) {n m : Nat} (f : FnSt → FnSt) (h : m ≠ n) : fnGet (fnUpd s n f) m = fnGet s m := by
  simp [fnGet, fnUpd, tmod, tget_tset, h]
@[simp] theorem pcieGet_pcieUpd_self (s : State) (n : Nat) (f : PcieSt → PcieSt) : pcieGet (pcieUpd s n f) n = f (pcieGet s n) := by simp [pcieGet, pcieUpd, tmod]
theorem pcieGet_pcieUpd_ne (s : State) {n m : Nat} (f : PcieSt → PcieSt) (h : m ≠ n) : pcieGet (pcieUpd s n f) m = pcieGet s m := by
  simp [pcieGet, pcieUpd, tmod, tget_tset, h]

/-! ### A read of one part after an update of another -/

section
variable (s : State) (b : Nat) (f : Fld) (v : Nat)
@[simp] theorem islGet_fset (m : Nat) : islGet (fset s b f v) m = islGet s m := rfl
@[simp] theorem engGet_fset (m : Nat) : engGet (fset s b f v) m = engGet s m := rfl
@[simp] theorem eisGet_fset (m : Nat) : eisGet (fset s b f v) m = eisGet s m := rfl
@[simp] theorem mbGet_fset (m : Nat) : mbGet (fset s b f v) m = mbGet s m := rfl
@[simp] theorem partGet_fset (m : Nat) : partGet (fset s b f v) m = partGet s m := rfl
@[simp] theorem nicGet_fset (m : Nat) : nicGet (fset s b f v) m = nicGet s m := rfl
@[simp] theorem nocGet_fset (m : Nat) : nocGet (fset s b f v) m = nocGet s m := rfl
@[simp] theorem hwGet_fset (m : Nat) : hwGet (fset s b f v) m = hwGet s m := rfl
@[simp] theorem mcGet_fset (m : Nat) : mcGet (fset s b f v) m = mcGet s m := rfl
@[simp] theorem laneGet_fset (m : Nat) : laneGet (fset s b f v) m = laneGet s m := rfl
@[simp] theorem quadGet_fset (m : Nat) : quadGet (fset s b f v) m = quadGet s m := rfl
@[simp] theorem fnGet_fset (m : Nat) : fnGet (fset s b f v) m = fnGet s m := rfl
@[simp] theorem pcieGet_fset (m : Nat) : pcieGet (fset s b f v) m = pcieGet s m := rfl
@[simp] theorem bramGet_fset (m : Nat) : bramGet (fset s b f v) m = bramGet s m := rfl
@[simp] theorem granGet_fset (m : Nat) : granGet (fset s b f v) m = granGet s m := rfl
end

section
variable (s : State) (b : Nat) (f : Fld) (v w : Nat)
@[simp] theorem islGet_fset2 (m : Nat) : islGet (fset2 s b f v w) m = islGet s m := rfl
@[simp] theorem engGet_fset2 (m : Nat) : engGet (fset2 s b f v w) m = engGet s m := rfl
@[simp] theorem eisGet_fset2 (m : Nat) : eisGet (fset2 s b f v w) m = eisGet s m := rfl
@[simp] theorem mbGet_fset2 (m : Nat) : mbGet (fset2 s b f v w) m = mbGet s m := rfl
@[simp] theorem partGet_fset2 (m : Nat) : partGet (fset2 s b f v w) m = partGet s m := rfl
@[simp] theorem nicGet_fset2 (m : Nat) : nicGet (fset2 s b f v w) m = nicGet s m := rfl
@[simp] theorem nocGet_fset2 (m : Nat) : nocGet (fset2 s b f v w) m = nocGet s m := rfl
@[simp] theorem hwGet_fset2 (m : Nat) : hwGet (fset2 s b f v w) m = hwGet s m := rfl
@[simp] theorem mcGet_fset2 (m : Nat) : mcGet (fset2 s b f v w) m = mcGet s m := rfl
@[simp] theorem laneGet_fset2 (m : Nat) : laneGet (fset2 s b f v w) m = laneGet s m := rfl
@[simp] theorem quadGet_fset2 (m : Nat) : quadGet (fset2 s b f v w) m = quadGet s m := rfl
@[simp] theorem fnGet_fset2 (m : Nat) : fnGet (fset2 s b f v w) m = fnGet s m := rfl
@[simp] theorem pcieGet_fset2 (m : Nat) : pcieGet (fset2 s b f v w) m = pcieGet s m := rfl
@[simp] theorem bramGet_fset2 (m : Nat) : bramGet (fset2 s b f v w) m = bramGet s m := rfl
@[simp] theorem granGet_fset2 (m : Nat) : granGet (fset2 s b f v w) m = granGet s m := rfl
end

section
variable (s : State) (b : Nat) (f : Fld)
@[simp] theorem islGet_fclr (m : Nat) : islGet (fclr s b f) m = islGet s m := rfl
@[simp] theorem engGet_fclr (m : Nat) : engGet (fclr s b f) m = engGet s m := rfl
@[simp] theorem eisGet_fclr (m : Nat) : eisGet (fclr s b f) m = eisGet s m := rfl
@[simp] theorem mbGet_fclr (m : Nat) : mbGet (fclr s b f) m = mbGet s m := rfl
@[simp] theorem partGet_fclr (m : Nat) : partGet (fclr s b f) m = partGet s m := rfl
@[simp] theorem nicGet_fclr (m : Nat) : nicGet (fclr s b f) m = nicGet s m := rfl
@[simp] theorem nocGet_fclr (m : Nat) : nocGet (fclr s b f) m = nocGet s m := rfl
@[simp] theorem hwGet_fclr (m : Nat) : hwGet (fclr s b f) m = hwGet s m := rfl
@[simp] theorem mcGet_fclr (m : Nat) : mcGet (fclr s b f) m = mcGet s m := rfl
@[simp] theorem laneGet_fclr (m : Nat) : laneGet (fclr s b f) m = laneGet s m := rfl
@[simp] theorem quadGet_fclr (m : Nat) : quadGet (fclr s b f) m = quadGet s m := rfl
@[simp] theorem fnGet_fclr (m : Nat) : fnGet (fclr s b f) m = fnGet s m := rfl
@[simp] theorem pcieGet_fclr (m : Nat) : pcieGet (fclr s b f) m = pcieGet s m := rfl
@[simp] theorem bramGet_fclr (m : Nat) : bramGet (fclr s b f) m = bramGet s m := rfl
@[simp] theorem granGet_fclr (m : Nat) : granGet (fclr s b f) m = granGet s m := rfl
end

section
variable (s : State) (lo hi : Nat)
@[simp] theorem islGet_csrClear (m : Nat) : islGet (csrClear s lo hi) m = islGet s m := rfl
@[simp] theorem engGet_csrClear (m : Nat) : engGet (csrClear s lo hi) m = engGet s m := rfl
@[simp] theorem eisGet_csrClear (m : Nat) : eisGet (csrClear s lo hi) m = eisGet s m := rfl
@[simp] theorem mbGet_csrClear (m : Nat) : mbGet (csrClear s lo hi) m = mbGet s m := rfl
@[simp] theorem partGet_csrClear (m : Nat) : partGet (csrClear s lo hi) m = partGet s m := rfl
@[simp] theorem nicGet_csrClear (m : Nat) : nicGet (csrClear s lo hi) m = nicGet s m := rfl
@[simp] theorem nocGet_csrClear (m : Nat) : nocGet (csrClear s lo hi) m = nocGet s m := rfl
@[simp] theorem hwGet_csrClear (m : Nat) : hwGet (csrClear s lo hi) m = hwGet s m := rfl
@[simp] theorem mcGet_csrClear (m : Nat) : mcGet (csrClear s lo hi) m = mcGet s m := rfl
@[simp] theorem laneGet_csrClear (m : Nat) : laneGet (csrClear s lo hi) m = laneGet s m := rfl
@[simp] theorem quadGet_csrClear (m : Nat) : quadGet (csrClear s lo hi) m = quadGet s m := rfl
@[simp] theorem fnGet_csrClear (m : Nat) : fnGet (csrClear s lo hi) m = fnGet s m := rfl
@[simp] theorem pcieGet_csrClear (m : Nat) : pcieGet (csrClear s lo hi) m = pcieGet s m := rfl
@[simp] theorem bramGet_csrClear (m : Nat) : bramGet (csrClear s lo hi) m = bramGet s m := rfl
@[simp] theorem granGet_csrClear (m : Nat) : granGet (csrClear s lo hi) m = granGet s m := rfl
end

section
variable (s : State) (lo hi : Nat)
@[simp] theorem islGet_csrWipe (m : Nat) : islGet (csrWipe s lo hi) m = islGet s m := rfl
@[simp] theorem engGet_csrWipe (m : Nat) : engGet (csrWipe s lo hi) m = engGet s m := rfl
@[simp] theorem eisGet_csrWipe (m : Nat) : eisGet (csrWipe s lo hi) m = eisGet s m := rfl
@[simp] theorem mbGet_csrWipe (m : Nat) : mbGet (csrWipe s lo hi) m = mbGet s m := rfl
@[simp] theorem partGet_csrWipe (m : Nat) : partGet (csrWipe s lo hi) m = partGet s m := rfl
@[simp] theorem nicGet_csrWipe (m : Nat) : nicGet (csrWipe s lo hi) m = nicGet s m := rfl
@[simp] theorem nocGet_csrWipe (m : Nat) : nocGet (csrWipe s lo hi) m = nocGet s m := rfl
@[simp] theorem hwGet_csrWipe (m : Nat) : hwGet (csrWipe s lo hi) m = hwGet s m := rfl
@[simp] theorem mcGet_csrWipe (m : Nat) : mcGet (csrWipe s lo hi) m = mcGet s m := rfl
@[simp] theorem laneGet_csrWipe (m : Nat) : laneGet (csrWipe s lo hi) m = laneGet s m := rfl
@[simp] theorem quadGet_csrWipe (m : Nat) : quadGet (csrWipe s lo hi) m = quadGet s m := rfl
@[simp] theorem fnGet_csrWipe (m : Nat) : fnGet (csrWipe s lo hi) m = fnGet s m := rfl
@[simp] theorem pcieGet_csrWipe (m : Nat) : pcieGet (csrWipe s lo hi) m = pcieGet s m := rfl
@[simp] theorem bramGet_csrWipe (m : Nat) : bramGet (csrWipe s lo hi) m = bramGet s m := rfl
@[simp] theorem granGet_csrWipe (m : Nat) : granGet (csrWipe s lo hi) m = granGet s m := rfl
end

section
variable (s : State) (r : Resp) (v : Word)
@[simp] theorem islGet_answer (m : Nat) : islGet (answer s r v) m = islGet s m := rfl
@[simp] theorem engGet_answer (m : Nat) : engGet (answer s r v) m = engGet s m := rfl
@[simp] theorem eisGet_answer (m : Nat) : eisGet (answer s r v) m = eisGet s m := rfl
@[simp] theorem mbGet_answer (m : Nat) : mbGet (answer s r v) m = mbGet s m := rfl
@[simp] theorem partGet_answer (m : Nat) : partGet (answer s r v) m = partGet s m := rfl
@[simp] theorem nicGet_answer (m : Nat) : nicGet (answer s r v) m = nicGet s m := rfl
@[simp] theorem nocGet_answer (m : Nat) : nocGet (answer s r v) m = nocGet s m := rfl
@[simp] theorem hwGet_answer (m : Nat) : hwGet (answer s r v) m = hwGet s m := rfl
@[simp] theorem mcGet_answer (m : Nat) : mcGet (answer s r v) m = mcGet s m := rfl
@[simp] theorem laneGet_answer (m : Nat) : laneGet (answer s r v) m = laneGet s m := rfl
@[simp] theorem quadGet_answer (m : Nat) : quadGet (answer s r v) m = quadGet s m := rfl
@[simp] theorem fnGet_answer (m : Nat) : fnGet (answer s r v) m = fnGet s m := rfl
@[simp] theorem pcieGet_answer (m : Nat) : pcieGet (answer s r v) m = pcieGet s m := rfl
@[simp] theorem bramGet_answer (m : Nat) : bramGet (answer s r v) m = bramGet s m := rfl
@[simp] theorem granGet_answer (m : Nat) : granGet (answer s r v) m = granGet s m := rfl
@[simp] theorem fget_answer (c : Nat) (fl : Fld) : fget (answer s r v) c fl = fget s c fl := rfl
end

section
variable (s : State) (r : Resp) (b : List Byte)
@[simp] theorem islGet_answerBytes (m : Nat) : islGet (answerBytes s r b) m = islGet s m := rfl
@[simp] theorem engGet_answerBytes (m : Nat) : engGet (answerBytes s r b) m = engGet s m := rfl
@[simp] theorem eisGet_answerBytes (m : Nat) : eisGet (answerBytes s r b) m = eisGet s m := rfl
@[simp] theorem mbGet_answerBytes (m : Nat) : mbGet (answerBytes s r b) m = mbGet s m := rfl
@[simp] theorem partGet_answerBytes (m : Nat) : partGet (answerBytes s r b) m = partGet s m := rfl
@[simp] theorem nicGet_answerBytes (m : Nat) : nicGet (answerBytes s r b) m = nicGet s m := rfl
@[simp] theorem nocGet_answerBytes (m : Nat) : nocGet (answerBytes s r b) m = nocGet s m := rfl
@[simp] theorem hwGet_answerBytes (m : Nat) : hwGet (answerBytes s r b) m = hwGet s m := rfl
@[simp] theorem mcGet_answerBytes (m : Nat) : mcGet (answerBytes s r b) m = mcGet s m := rfl
@[simp] theorem laneGet_answerBytes (m : Nat) : laneGet (answerBytes s r b) m = laneGet s m := rfl
@[simp] theorem quadGet_answerBytes (m : Nat) : quadGet (answerBytes s r b) m = quadGet s m := rfl
@[simp] theorem fnGet_answerBytes (m : Nat) : fnGet (answerBytes s r b) m = fnGet s m := rfl
@[simp] theorem pcieGet_answerBytes (m : Nat) : pcieGet (answerBytes s r b) m = pcieGet s m := rfl
@[simp] theorem bramGet_answerBytes (m : Nat) : bramGet (answerBytes s r b) m = bramGet s m := rfl
@[simp] theorem granGet_answerBytes (m : Nat) : granGet (answerBytes s r b) m = granGet s m := rfl
@[simp] theorem fget_answerBytes (c : Nat) (fl : Fld) : fget (answerBytes s r b) c fl = fget s c fl := rfl
end

section
variable (s : State) (n : Nat) (f : IslSt → IslSt)
@[simp] theorem engGet_islUpd (m : Nat) : engGet (islUpd s n f) m = engGet s m := rfl
@[simp] theorem eisGet_islUpd (m : Nat) : eisGet (islUpd s n f) m = eisGet s m := rfl
@[simp] theorem mbGet_islUpd (m : Nat) : mbGet (islUpd s n f) m = mbGet s m := rfl
@[simp] theorem partGet_islUpd (m : Nat) : partGet (islUpd s n f) m = partGet s m := rfl
@[simp] theorem nicGet_islUpd (m : Nat) : nicGet (islUpd s n f) m = nicGet s m := rfl
@[simp] theorem nocGet_islUpd (m : Nat) : nocGet (islUpd s n f) m = nocGet s m := rfl
@[simp] theorem hwGet_islUpd (m : Nat) : hwGet (islUpd s n f) m = hwGet s m := rfl
@[simp] theorem mcGet_islUpd (m : Nat) : mcGet (islUpd s n f) m = mcGet s m := rfl
@[simp] theorem laneGet_islUpd (m : Nat) : laneGet (islUpd s n f) m = laneGet s m := rfl
@[simp] theorem quadGet_islUpd (m : Nat) : quadGet (islUpd s n f) m = quadGet s m := rfl
@[simp] theorem fnGet_islUpd (m : Nat) : fnGet (islUpd s n f) m = fnGet s m := rfl
@[simp] theorem pcieGet_islUpd (m : Nat) : pcieGet (islUpd s n f) m = pcieGet s m := rfl
@[simp] theorem bramGet_islUpd (m : Nat) : bramGet (islUpd s n f) m = bramGet s m := rfl
@[simp] theorem granGet_islUpd (m : Nat) : granGet (islUpd s n f) m = granGet s m := rfl
@[simp] theorem fget_islUpd (c : Nat) (fl : Fld) : fget (islUpd s n f) c fl = fget s c fl := rfl
end

section
variable (s : State) (n : Nat) (f : EngSt → EngSt)
@[simp] theorem islGet_engUpd (m : Nat) : islGet (engUpd s n f) m = islGet s m := rfl
@[simp] theorem eisGet_engUpd (m : Nat) : eisGet (engUpd s n f) m = eisGet s m := rfl
@[simp] theorem mbGet_engUpd (m : Nat) : mbGet (engUpd s n f) m = mbGet s m := rfl
@[simp] theorem partGet_engUpd (m : Nat) : partGet (engUpd s n f) m = partGet s m := rfl
@[simp] theorem nicGet_engUpd (m : Nat) : nicGet (engUpd s n f) m = nicGet s m := rfl
@[simp] theorem nocGet_engUpd (m : Nat) : nocGet (engUpd s n f) m = nocGet s m := rfl
@[simp] theorem hwGet_engUpd (m : Nat) : hwGet (engUpd s n f) m = hwGet s m := rfl
@[simp] theorem mcGet_engUpd (m : Nat) : mcGet (engUpd s n f) m = mcGet s m := rfl
@[simp] theorem laneGet_engUpd (m : Nat) : laneGet (engUpd s n f) m = laneGet s m := rfl
@[simp] theorem quadGet_engUpd (m : Nat) : quadGet (engUpd s n f) m = quadGet s m := rfl
@[simp] theorem fnGet_engUpd (m : Nat) : fnGet (engUpd s n f) m = fnGet s m := rfl
@[simp] theorem pcieGet_engUpd (m : Nat) : pcieGet (engUpd s n f) m = pcieGet s m := rfl
@[simp] theorem bramGet_engUpd (m : Nat) : bramGet (engUpd s n f) m = bramGet s m := rfl
@[simp] theorem granGet_engUpd (m : Nat) : granGet (engUpd s n f) m = granGet s m := rfl
@[simp] theorem fget_engUpd (c : Nat) (fl : Fld) : fget (engUpd s n f) c fl = fget s c fl := rfl
end

section
variable (s : State) (n : Nat) (e : EngSt)
@[simp] theorem islGet_engSet (m : Nat) : islGet (engSet s n e) m = islGet s m := rfl
@[simp] theorem eisGet_engSet (m : Nat) : eisGet (engSet s n e) m = eisGet s m := rfl
@[simp] theorem mbGet_engSet (m : Nat) : mbGet (engSet s n e) m = mbGet s m := rfl
@[simp] theorem partGet_engSet (m : Nat) : partGet (engSet s n e) m = partGet s m := rfl
@[simp] theorem nicGet_engSet (m : Nat) : nicGet (engSet s n e) m = nicGet s m := rfl
@[simp] theorem nocGet_engSet (m : Nat) : nocGet (engSet s n e) m = nocGet s m := rfl
@[simp] theorem hwGet_engSet (m : Nat) : hwGet (engSet s n e) m = hwGet s m := rfl
@[simp] theorem mcGet_engSet (m : Nat) : mcGet (engSet s n e) m = mcGet s m := rfl
@[simp] theorem laneGet_engSet (m : Nat) : laneGet (engSet s n e) m = laneGet s m := rfl
@[simp] theorem quadGet_engSet (m : Nat) : quadGet (engSet s n e) m = quadGet s m := rfl
@[simp] theorem fnGet_engSet (m : Nat) : fnGet (engSet s n e) m = fnGet s m := rfl
@[simp] theorem pcieGet_engSet (m : Nat) : pcieGet (engSet s n e) m = pcieGet s m := rfl
@[simp] theorem bramGet_engSet (m : Nat) : bramGet (engSet s n e) m = bramGet s m := rfl
@[simp] theorem granGet_engSet (m : Nat) : granGet (engSet s n e) m = granGet s m := rfl
@[simp] theorem fget_engSet (c : Nat) (fl : Fld) : fget (engSet s n e) c fl = fget s c fl := rfl
end

section
variable (s : State) (n : Nat) (f : EisSt → EisSt)
@[simp] theorem islGet_eisUpd (m : Nat) : islGet (eisUpd s n f) m = islGet s m := rfl
@[simp] theorem engGet_eisUpd (m : Nat) : engGet (eisUpd s n f) m = engGet s m := rfl
@[simp] theorem mbGet_eisUpd (m : Nat) : mbGet (eisUpd s n f) m = mbGet s m := rfl
@[simp] theorem partGet_eisUpd (m : Nat) : partGet (eisUpd s n f) m = partGet s m := rfl
@[simp] theorem nicGet_eisUpd (m : Nat) : nicGet (eisUpd s n f) m = nicGet s m := rfl
@[simp] theorem nocGet_eisUpd (m : Nat) : nocGet (eisUpd s n f) m = nocGet s m := rfl
@[simp] theorem hwGet_eisUpd (m : Nat) : hwGet (eisUpd s n f) m = hwGet s m := rfl
@[simp] theorem mcGet_eisUpd (m : Nat) : mcGet (eisUpd s n f) m = mcGet s m := rfl
@[simp] theorem laneGet_eisUpd (m : Nat) : laneGet (eisUpd s n f) m = laneGet s m := rfl
@[simp] theorem quadGet_eisUpd (m : Nat) : quadGet (eisUpd s n f) m = quadGet s m := rfl
@[simp] theorem fnGet_eisUpd (m : Nat) : fnGet (eisUpd s n f) m = fnGet s m := rfl
@[simp] theorem pcieGet_eisUpd (m : Nat) : pcieGet (eisUpd s n f) m = pcieGet s m := rfl
@[simp] theorem bramGet_eisUpd (m : Nat) : bramGet (eisUpd s n f) m = bramGet s m := rfl
@[simp] theorem granGet_eisUpd (m : Nat) : granGet (eisUpd s n f) m = granGet s m := rfl
@[simp] theorem fget_eisUpd (c : Nat) (fl : Fld) : fget (eisUpd s n f) c fl = fget s c fl := rfl
end

section
variable (s : State) (n : Nat) (x : HitchSt)
@[simp] theorem islGet_hitchSet (m : Nat) : islGet (hitchSet s n x) m = islGet s m := rfl
@[simp] theorem engGet_hitchSet (m : Nat) : engGet (hitchSet s n x) m = engGet s m := rfl
@[simp] theorem eisGet_hitchSet (m : Nat) : eisGet (hitchSet s n x) m = eisGet s m := rfl
@[simp] theorem mbGet_hitchSet (m : Nat) : mbGet (hitchSet s n x) m = mbGet s m := rfl
@[simp] theorem partGet_hitchSet (m : Nat) : partGet (hitchSet s n x) m = partGet s m := rfl
@[simp] theorem nicGet_hitchSet (m : Nat) : nicGet (hitchSet s n x) m = nicGet s m := rfl
@[simp] theorem nocGet_hitchSet (m : Nat) : nocGet (hitchSet s n x) m = nocGet s m := rfl
@[simp] theorem hwGet_hitchSet (m : Nat) : hwGet (hitchSet s n x) m = hwGet s m := rfl
@[simp] theorem mcGet_hitchSet (m : Nat) : mcGet (hitchSet s n x) m = mcGet s m := rfl
@[simp] theorem laneGet_hitchSet (m : Nat) : laneGet (hitchSet s n x) m = laneGet s m := rfl
@[simp] theorem quadGet_hitchSet (m : Nat) : quadGet (hitchSet s n x) m = quadGet s m := rfl
@[simp] theorem fnGet_hitchSet (m : Nat) : fnGet (hitchSet s n x) m = fnGet s m := rfl
@[simp] theorem pcieGet_hitchSet (m : Nat) : pcieGet (hitchSet s n x) m = pcieGet s m := rfl
@[simp] theorem bramGet_hitchSet (m : Nat) : bramGet (hitchSet s n x) m = bramGet s m := rfl
@[simp] theorem granGet_hitchSet (m : Nat) : granGet (hitchSet s n x) m = granGet s m := rfl
@[simp] theorem fget_hitchSet (c : Nat) (fl : Fld) : fget (hitchSet s n x) c fl = fget s c fl := rfl
end

section
variable (s : State) (n : Nat) (x : BramSt)
@[simp] theorem islGet_bramSet (m : Nat) : islGet (bramSet s n x) m = islGet s m := rfl
@[simp] theorem engGet_bramSet (m : Nat) : engGet (bramSet s n x) m = engGet s m := rfl
@[simp] theorem eisGet_bramSet (m : Nat) : eisGet (bramSet s n x) m = eisGet s m := rfl
@[simp] theorem mbGet_bramSet (m : Nat) : mbGet (bramSet s n x) m = mbGet s m := rfl
@[simp] theorem partGet_bramSet (m : Nat) : partGet (bramSet s n x) m = partGet s m := rfl
@[simp] theorem nicGet_bramSet (m : Nat) : nicGet (bramSet s n x) m = nicGet s m := rfl
@[simp] theorem nocGet_bramSet (m : Nat) : nocGet (bramSet s n x) m = nocGet s m := rfl
@[simp] theorem hwGet_bramSet (m : Nat) : hwGet (bramSet s n x) m = hwGet s m := rfl
@[simp] theorem mcGet_bramSet (m : Nat) : mcGet (bramSet s n x) m = mcGet s m := rfl
@[simp] theorem laneGet_bramSet (m : Nat) : laneGet (bramSet s n x) m = laneGet s m := rfl
@[simp] theorem quadGet_bramSet (m : Nat) : quadGet (bramSet s n x) m = quadGet s m := rfl
@[simp] theorem fnGet_bramSet (m : Nat) : fnGet (bramSet s n x) m = fnGet s m := rfl
@[simp] theorem pcieGet_bramSet (m : Nat) : pcieGet (bramSet s n x) m = pcieGet s m := rfl
@[simp] theorem granGet_bramSet (m : Nat) : granGet (bramSet s n x) m = granGet s m := rfl
@[simp] theorem fget_bramSet (c : Nat) (fl : Fld) : fget (bramSet s n x) c fl = fget s c fl := rfl
end

section
variable (s : State) (n : Nat) (f : MbSt → MbSt)
@[simp] theorem islGet_mbUpd (m : Nat) : islGet (mbUpd s n f) m = islGet s m := rfl
@[simp] theorem engGet_mbUpd (m : Nat) : engGet (mbUpd s n f) m = engGet s m := rfl
@[simp] theorem eisGet_mbUpd (m : Nat) : eisGet (mbUpd s n f) m = eisGet s m := rfl
@[simp] theorem partGet_mbUpd (m : Nat) : partGet (mbUpd s n f) m = partGet s m := rfl
@[simp] theorem nicGet_mbUpd (m : Nat) : nicGet (mbUpd s n f) m = nicGet s m := rfl
@[simp] theorem nocGet_mbUpd (m : Nat) : nocGet (mbUpd s n f) m = nocGet s m := rfl
@[simp] theorem hwGet_mbUpd (m : Nat) : hwGet (mbUpd s n f) m = hwGet s m := rfl
@[simp] theorem mcGet_mbUpd (m : Nat) : mcGet (mbUpd s n f) m = mcGet s m := rfl
@[simp] theorem laneGet_mbUpd (m : Nat) : laneGet (mbUpd s n f) m = laneGet s m := rfl
@[simp] theorem quadGet_mbUpd (m : Nat) : quadGet (mbUpd s n f) m = quadGet s m := rfl
@[simp] theorem fnGet_mbUpd (m : Nat) : fnGet (mbUpd s n f) m = fnGet s m := rfl
@[simp] theorem pcieGet_mbUpd (m : Nat) : pcieGet (mbUpd s n f) m = pcieGet s m := rfl
@[simp] theorem bramGet_mbUpd (m : Nat) : bramGet (mbUpd s n f) m = bramGet s m := rfl
@[simp] theorem granGet_mbUpd (m : Nat) : granGet (mbUpd s n f) m = granGet s m := rfl
@[simp] theorem fget_mbUpd (c : Nat) (fl : Fld) : fget (mbUpd s n f) c fl = fget s c fl := rfl
end

section
variable (s : State) (n : Nat) (f : PartSt → PartSt)
@[simp] theorem islGet_partUpd (m : Nat) : islGet (partUpd s n f) m = islGet s m := rfl
@[simp] theorem engGet_partUpd (m : Nat) : engGet (partUpd s n f) m = engGet s m := rfl
@[simp] theorem eisGet_partUpd (m : Nat) : eisGet (partUpd s n f) m = eisGet s m := rfl
@[simp] theorem mbGet_partUpd (m : Nat) : mbGet (partUpd s n f) m = mbGet s m := rfl
@[simp] theorem nicGet_partUpd (m : Nat) : nicGet (partUpd s n f) m = nicGet s m := rfl
@[simp] theorem nocGet_partUpd (m : Nat) : nocGet (partUpd s n f) m = nocGet s m := rfl
@[simp] theorem hwGet_partUpd (m : Nat) : hwGet (partUpd s n f) m = hwGet s m := rfl
@[simp] theorem mcGet_partUpd (m : Nat) : mcGet (partUpd s n f) m = mcGet s m := rfl
@[simp] theorem laneGet_partUpd (m : Nat) : laneGet (partUpd s n f) m = laneGet s m := rfl
@[simp] theorem quadGet_partUpd (m : Nat) : quadGet (partUpd s n f) m = quadGet s m := rfl
@[simp] theorem fnGet_partUpd (m : Nat) : fnGet (partUpd s n f) m = fnGet s m := rfl
@[simp] theorem pcieGet_partUpd (m : Nat) : pcieGet (partUpd s n f) m = pcieGet s m := rfl
@[simp] theorem bramGet_partUpd (m : Nat) : bramGet (partUpd s n f) m = bramGet s m := rfl
@[simp] theorem granGet_partUpd (m : Nat) : granGet (partUpd s n f) m = granGet s m := rfl
@[simp] theorem fget_partUpd (c : Nat) (fl : Fld) : fget (partUpd s n f) c fl = fget s c fl := rfl
end

section
variable (s : State) (n : Nat) (f : NicSt → NicSt)
@[simp] theorem islGet_nicUpd (m : Nat) : islGet (nicUpd s n f) m = islGet s m := rfl
@[simp] theorem engGet_nicUpd (m : Nat) : engGet (nicUpd s n f) m = engGet s m := rfl
@[simp] theorem eisGet_nicUpd (m : Nat) : eisGet (nicUpd s n f) m = eisGet s m := rfl
@[simp] theorem mbGet_nicUpd (m : Nat) : mbGet (nicUpd s n f) m = mbGet s m := rfl
@[simp] theorem partGet_nicUpd (m : Nat) : partGet (nicUpd s n f) m = partGet s m := rfl
@[simp] theorem nocGet_nicUpd (m : Nat) : nocGet (nicUpd s n f) m = nocGet s m := rfl
@[simp] theorem hwGet_nicUpd (m : Nat) : hwGet (nicUpd s n f) m = hwGet s m := rfl
@[simp] theorem mcGet_nicUpd (m : Nat) : mcGet (nicUpd s n f) m = mcGet s m := rfl
@[simp] theorem laneGet_nicUpd (m : Nat) : laneGet (nicUpd s n f) m = laneGet s m := rfl
@[simp] theorem quadGet_nicUpd (m : Nat) : quadGet (nicUpd s n f) m = quadGet s m := rfl
@[simp] theorem fnGet_nicUpd (m : Nat) : fnGet (nicUpd s n f) m = fnGet s m := rfl
@[simp] theorem pcieGet_nicUpd (m : Nat) : pcieGet (nicUpd s n f) m = pcieGet s m := rfl
@[simp] theorem bramGet_nicUpd (m : Nat) : bramGet (nicUpd s n f) m = bramGet s m := rfl
@[simp] theorem granGet_nicUpd (m : Nat) : granGet (nicUpd s n f) m = granGet s m := rfl
@[simp] theorem fget_nicUpd (c : Nat) (fl : Fld) : fget (nicUpd s n f) c fl = fget s c fl := rfl
end

section
variable (s : State) (n : Nat) (f : NocSt → NocSt)
@[simp] theorem islGet_nocUpd (m : Nat) : islGet (nocUpd s n f) m = islGet s m := rfl
@[simp] theorem engGet_nocUpd (m : Nat) : engGet (nocUpd s n f) m = engGet s m := rfl
@[simp] theorem eisGet_nocUpd (m : Nat) : eisGet (nocUpd s n f) m = eisGet s m := rfl
@[simp] theorem mbGet_nocUpd (m : Nat) : mbGet (nocUpd s n f) m = mbGet s m := rfl
@[simp] theorem partGet_nocUpd (m : Nat) : partGet (nocUpd s n f) m = partGet s m := rfl
@[simp] theorem nicGet_nocUpd (m : Nat) : nicGet (nocUpd s n f) m = nicGet s m := rfl
@[simp] theorem hwGet_nocUpd (m : Nat) : hwGet (nocUpd s n f) m = hwGet s m := rfl
@[simp] theorem mcGet_nocUpd (m : Nat) : mcGet (nocUpd s n f) m = mcGet s m := rfl
@[simp] theorem laneGet_nocUpd (m : Nat) : laneGet (nocUpd s n f) m = laneGet s m := rfl
@[simp] theorem quadGet_nocUpd (m : Nat) : quadGet (nocUpd s n f) m = quadGet s m := rfl
@[simp] theorem fnGet_nocUpd (m : Nat) : fnGet (nocUpd s n f) m = fnGet s m := rfl
@[simp] theorem pcieGet_nocUpd (m : Nat) : pcieGet (nocUpd s n f) m = pcieGet s m := rfl
@[simp] theorem bramGet_nocUpd (m : Nat) : bramGet (nocUpd s n f) m = bramGet s m := rfl
@[simp] theorem granGet_nocUpd (m : Nat) : granGet (nocUpd s n f) m = granGet s m := rfl
@[simp] theorem fget_nocUpd (c : Nat) (fl : Fld) : fget (nocUpd s n f) c fl = fget s c fl := rfl
end

section
variable (s : State) (n : Nat) (f : HwSt → HwSt)
@[simp] theorem islGet_hwUpd (m : Nat) : islGet (hwUpd s n f) m = islGet s m := rfl
@[simp] theorem engGet_hwUpd (m : Nat) : engGet (hwUpd s n f) m = engGet s m := rfl
@[simp] theorem eisGet_hwUpd (m : Nat) : eisGet (hwUpd s n f) m = eisGet s m := rfl
@[simp] theorem mbGet_hwUpd (m : Nat) : mbGet (hwUpd s n f) m = mbGet s m := rfl
@[simp] theorem partGet_hwUpd (m : Nat) : partGet (hwUpd s n f) m = partGet s m := rfl
@[simp] theorem nicGet_hwUpd (m : Nat) : nicGet (hwUpd s n f) m = nicGet s m := rfl
@[simp] theorem nocGet_hwUpd (m : Nat) : nocGet (hwUpd s n f) m = nocGet s m := rfl
@[simp] theorem mcGet_hwUpd (m : Nat) : mcGet (hwUpd s n f) m = mcGet s m := rfl
@[simp] theorem laneGet_hwUpd (m : Nat) : laneGet (hwUpd s n f) m = laneGet s m := rfl
@[simp] theorem quadGet_hwUpd (m : Nat) : quadGet (hwUpd s n f) m = quadGet s m := rfl
@[simp] theorem fnGet_hwUpd (m : Nat) : fnGet (hwUpd s n f) m = fnGet s m := rfl
@[simp] theorem pcieGet_hwUpd (m : Nat) : pcieGet (hwUpd s n f) m = pcieGet s m := rfl
@[simp] theorem bramGet_hwUpd (m : Nat) : bramGet (hwUpd s n f) m = bramGet s m := rfl
@[simp] theorem granGet_hwUpd (m : Nat) : granGet (hwUpd s n f) m = granGet s m := rfl
@[simp] theorem fget_hwUpd (c : Nat) (fl : Fld) : fget (hwUpd s n f) c fl = fget s c fl := rfl
end

section
variable (s : State) (n : Nat) (f : McSt → McSt)
@[simp] theorem islGet_mcUpd (m : Nat) : islGet (mcUpd s n f) m = islGet s m := rfl
@[simp] theorem engGet_mcUpd (m : Nat) : engGet (mcUpd s n f) m = engGet s m := rfl
@[simp] theorem eisGet_mcUpd (m : Nat) : eisGet (mcUpd s n f) m = eisGet s m := rfl
@[simp] theorem mbGet_mcUpd (m : Nat) : mbGet (mcUpd s n f) m = mbGet s m := rfl
@[simp] theorem partGet_mcUpd (m : Nat) : partGet (mcUpd s n f) m = partGet s m := rfl
@[simp] theorem nicGet_mcUpd (m : Nat) : nicGet (mcUpd s n f) m = nicGet s m := rfl
@[simp] theorem nocGet_mcUpd (m : Nat) : nocGet (mcUpd s n f) m = nocGet s m := rfl
@[simp] theorem hwGet_mcUpd (m : Nat) : hwGet (mcUpd s n f) m = hwGet s m := rfl
@[simp] theorem laneGet_mcUpd (m : Nat) : laneGet (mcUpd s n f) m = laneGet s m := rfl
@[simp] theorem quadGet_mcUpd (m : Nat) : quadGet (mcUpd s n f) m = quadGet s m := rfl
@[simp] theorem fnGet_mcUpd (m : Nat) : fnGet (mcUpd s n f) m = fnGet s m := rfl
@[simp] theorem pcieGet_mcUpd (m : Nat) : pcieGet (mcUpd s n f) m = pcieGet s m := rfl
@[simp] theorem bramGet_mcUpd (m : Nat) : bramGet (mcUpd s n f) m = bramGet s m := rfl
@[simp] theorem granGet_mcUpd (m : Nat) : granGet (mcUpd s n f) m = granGet s m := rfl
@[simp] theorem fget_mcUpd (c : Nat) (fl : Fld) : fget (mcUpd s n f) c fl = fget s c fl := rfl
end

section
variable (s : State) (n : Nat) (f : LaneSt → LaneSt)
@[simp] theorem islGet_laneUpd (m : Nat) : islGet (laneUpd s n f) m = islGet s m := rfl
@[simp] theorem engGet_laneUpd (m : Nat) : engGet (laneUpd s n f) m = engGet s m := rfl
@[simp] theorem eisGet_laneUpd (m : Nat) : eisGet (laneUpd s n f) m = eisGet s m := rfl
@[simp] theorem mbGet_laneUpd (m : Nat) : mbGet (laneUpd s n f) m = mbGet s m := rfl
@[simp] theorem partGet_laneUpd (m : Nat) : partGet (laneUpd s n f) m = partGet s m := rfl
@[simp] theorem nicGet_laneUpd (m : Nat) : nicGet (laneUpd s n f) m = nicGet s m := rfl
@[simp] theorem nocGet_laneUpd (m : Nat) : nocGet (laneUpd s n f) m = nocGet s m := rfl
@[simp] theorem hwGet_laneUpd (m : Nat) : hwGet (laneUpd s n f) m = hwGet s m := rfl
@[simp] theorem mcGet_laneUpd (m : Nat) : mcGet (laneUpd s n f) m = mcGet s m := rfl
@[simp] theorem quadGet_laneUpd (m : Nat) : quadGet (laneUpd s n f) m = quadGet s m := rfl
@[simp] theorem fnGet_laneUpd (m : Nat) : fnGet (laneUpd s n f) m = fnGet s m := rfl
@[simp] theorem pcieGet_laneUpd (m : Nat) : pcieGet (laneUpd s n f) m = pcieGet s m := rfl
@[simp] theorem bramGet_laneUpd (m : Nat) : bramGet (laneUpd s n f) m = bramGet s m := rfl
@[simp] theorem granGet_laneUpd (m : Nat) : granGet (laneUpd s n f) m = granGet s m := rfl
@[simp] theorem fget_laneUpd (c : Nat) (fl : Fld) : fget (laneUpd s n f) c fl = fget s c fl := rfl
end

section
variable (s : State) (n : Nat) (f : QuadSt → QuadSt)
@[simp] theorem islGet_quadUpd (m : Nat) : islGet (quadUpd s n f) m = islGet s m := rfl
@[simp] theorem engGet_quadUpd (m : Nat) : engGet (quadUpd s n f) m = engGet s m := rfl
@[simp] theorem eisGet_quadUpd (m : Nat) : eisGet (quadUpd s n f) m = eisGet s m := rfl
@[simp] theorem mbGet_quadUpd (m : Nat) : mbGet (quadUpd s n f) m = mbGet s m := rfl
@[simp] theorem partGet_quadUpd (m : Nat) : partGet (quadUpd s n f) m = partGet s m := rfl
@[simp] theorem nicGet_quadUpd (m : Nat) : nicGet (quadUpd s n f) m = nicGet s m := rfl
@[simp] theorem nocGet_quadUpd (m : Nat) : nocGet (quadUpd s n f) m = nocGet s m := rfl
@[simp] theorem hwGet_quadUpd (m : Nat) : hwGet (quadUpd s n f) m = hwGet s m := rfl
@[simp] theorem mcGet_quadUpd (m : Nat) : mcGet (quadUpd s n f) m = mcGet s m := rfl
@[simp] theorem laneGet_quadUpd (m : Nat) : laneGet (quadUpd s n f) m = laneGet s m := rfl
@[simp] theorem fnGet_quadUpd (m : Nat) : fnGet (quadUpd s n f) m = fnGet s m := rfl
@[simp] theorem pcieGet_quadUpd (m : Nat) : pcieGet (quadUpd s n f) m = pcieGet s m := rfl
@[simp] theorem bramGet_quadUpd (m : Nat) : bramGet (quadUpd s n f) m = bramGet s m := rfl
@[simp] theorem granGet_quadUpd (m : Nat) : granGet (quadUpd s n f) m = granGet s m := rfl
@[simp] theorem fget_quadUpd (c : Nat) (fl : Fld) : fget (quadUpd s n f) c fl = fget s c fl := rfl
end

section
variable (s : State) (n : Nat) (f : FnSt → FnSt)
@[simp] theorem islGet_fnUpd (m : Nat) : islGet (fnUpd s n f) m = islGet s m := rfl
@[simp] theorem engGet_fnUpd (m : Nat) : engGet (fnUpd s n f) m = engGet s m := rfl
@[simp] theorem eisGet_fnUpd (m : Nat) : eisGet (fnUpd s n f) m = eisGet s m := rfl
@[simp] theorem mbGet_fnUpd (m : Nat) : mbGet (fnUpd s n f) m = mbGet s m := rfl
@[simp] theorem partGet_fnUpd (m : Nat) : partGet (fnUpd s n f) m = partGet s m := rfl
@[simp] theorem nicGet_fnUpd (m : Nat) : nicGet (fnUpd s n f) m = nicGet s m := rfl
@[simp] theorem nocGet_fnUpd (m : Nat) : nocGet (fnUpd s n f) m = nocGet s m := rfl
@[simp] theorem hwGet_fnUpd (m : Nat) : hwGet (fnUpd s n f) m = hwGet s m := rfl
@[simp] theorem mcGet_fnUpd (m : Nat) : mcGet (fnUpd s n f) m = mcGet s m := rfl
@[simp] theorem laneGet_fnUpd (m : Nat) : laneGet (fnUpd s n f) m = laneGet s m := rfl
@[simp] theorem quadGet_fnUpd (m : Nat) : quadGet (fnUpd s n f) m = quadGet s m := rfl
@[simp] theorem pcieGet_fnUpd (m : Nat) : pcieGet (fnUpd s n f) m = pcieGet s m := rfl
@[simp] theorem bramGet_fnUpd (m : Nat) : bramGet (fnUpd s n f) m = bramGet s m := rfl
@[simp] theorem granGet_fnUpd (m : Nat) : granGet (fnUpd s n f) m = granGet s m := rfl
@[simp] theorem fget_fnUpd (c : Nat) (fl : Fld) : fget (fnUpd s n f) c fl = fget s c fl := rfl
end

section
variable (s : State) (n : Nat) (f : PcieSt → PcieSt)
@[simp] theorem islGet_pcieUpd (m : Nat) : islGet (pcieUpd s n f) m = islGet s m := rfl
@[simp] theorem engGet_pcieUpd (m : Nat) : engGet (pcieUpd s n f) m = engGet s m := rfl
@[simp] theorem eisGet_pcieUpd (m : Nat) : eisGet (pcieUpd s n f) m = eisGet s m := rfl
@[simp] theorem mbGet_pcieUpd (m : Nat) : mbGet (pcieUpd s n f) m = mbGet s m := rfl
@[simp] theorem partGet_pcieUpd (m : Nat) : partGet (pcieUpd s n f) m = partGet s m := rfl
@[simp] theorem nicGet_pcieUpd (m : Nat) : nicGet (pcieUpd s n f) m = nicGet s m := rfl
@[simp] theorem nocGet_pcieUpd (m : Nat) : nocGet (pcieUpd s n f) m = nocGet s m := rfl
@[simp] theorem hwGet_pcieUpd (m : Nat) : hwGet (pcieUpd s n f) m = hwGet s m := rfl
@[simp] theorem mcGet_pcieUpd (m : Nat) : mcGet (pcieUpd s n f) m = mcGet s m := rfl
@[simp] theorem laneGet_pcieUpd (m : Nat) : laneGet (pcieUpd s n f) m = laneGet s m := rfl
@[simp] theorem quadGet_pcieUpd (m : Nat) : quadGet (pcieUpd s n f) m = quadGet s m := rfl
@[simp] theorem fnGet_pcieUpd (m : Nat) : fnGet (pcieUpd s n f) m = fnGet s m := rfl
@[simp] theorem bramGet_pcieUpd (m : Nat) : bramGet (pcieUpd s n f) m = bramGet s m := rfl
@[simp] theorem granGet_pcieUpd (m : Nat) : granGet (pcieUpd s n f) m = granGet s m := rfl
@[simp] theorem fget_pcieUpd (c : Nat) (fl : Fld) : fget (pcieUpd s n f) c fl = fget s c fl := rfl
end

section
variable (s : State) (f : SecSt → SecSt)
@[simp] theorem islGet_secUpd (m : Nat) : islGet (secUpd s f) m = islGet s m := rfl
@[simp] theorem engGet_secUpd (m : Nat) : engGet (secUpd s f) m = engGet s m := rfl
@[simp] theorem eisGet_secUpd (m : Nat) : eisGet (secUpd s f) m = eisGet s m := rfl
@[simp] theorem mbGet_secUpd (m : Nat) : mbGet (secUpd s f) m = mbGet s m := rfl
@[simp] theorem partGet_secUpd (m : Nat) : partGet (secUpd s f) m = partGet s m := rfl
@[simp] theorem nicGet_secUpd (m : Nat) : nicGet (secUpd s f) m = nicGet s m := rfl
@[simp] theorem nocGet_secUpd (m : Nat) : nocGet (secUpd s f) m = nocGet s m := rfl
@[simp] theorem hwGet_secUpd (m : Nat) : hwGet (secUpd s f) m = hwGet s m := rfl
@[simp] theorem mcGet_secUpd (m : Nat) : mcGet (secUpd s f) m = mcGet s m := rfl
@[simp] theorem laneGet_secUpd (m : Nat) : laneGet (secUpd s f) m = laneGet s m := rfl
@[simp] theorem quadGet_secUpd (m : Nat) : quadGet (secUpd s f) m = quadGet s m := rfl
@[simp] theorem fnGet_secUpd (m : Nat) : fnGet (secUpd s f) m = fnGet s m := rfl
@[simp] theorem pcieGet_secUpd (m : Nat) : pcieGet (secUpd s f) m = pcieGet s m := rfl
@[simp] theorem bramGet_secUpd (m : Nat) : bramGet (secUpd s f) m = bramGet s m := rfl
@[simp] theorem fget_secUpd (c : Nat) (fl : Fld) : fget (secUpd s f) c fl = fget s c fl := rfl
end

section
variable (s : State) (n : Nat) (x : Gran)
@[simp] theorem islGet_granSet (m : Nat) : islGet (granSet s n x) m = islGet s m := rfl
@[simp] theorem engGet_granSet (m : Nat) : engGet (granSet s n x) m = engGet s m := rfl
@[simp] theorem eisGet_granSet (m : Nat) : eisGet (granSet s n x) m = eisGet s m := rfl
@[simp] theorem mbGet_granSet (m : Nat) : mbGet (granSet s n x) m = mbGet s m := rfl
@[simp] theorem partGet_granSet (m : Nat) : partGet (granSet s n x) m = partGet s m := rfl
@[simp] theorem nicGet_granSet (m : Nat) : nicGet (granSet s n x) m = nicGet s m := rfl
@[simp] theorem nocGet_granSet (m : Nat) : nocGet (granSet s n x) m = nocGet s m := rfl
@[simp] theorem hwGet_granSet (m : Nat) : hwGet (granSet s n x) m = hwGet s m := rfl
@[simp] theorem mcGet_granSet (m : Nat) : mcGet (granSet s n x) m = mcGet s m := rfl
@[simp] theorem laneGet_granSet (m : Nat) : laneGet (granSet s n x) m = laneGet s m := rfl
@[simp] theorem quadGet_granSet (m : Nat) : quadGet (granSet s n x) m = quadGet s m := rfl
@[simp] theorem fnGet_granSet (m : Nat) : fnGet (granSet s n x) m = fnGet s m := rfl
@[simp] theorem pcieGet_granSet (m : Nat) : pcieGet (granSet s n x) m = pcieGet s m := rfl
@[simp] theorem bramGet_granSet (m : Nat) : bramGet (granSet s n x) m = bramGet s m := rfl
@[simp] theorem fget_granSet (c : Nat) (fl : Fld) : fget (granSet s n x) c fl = fget s c fl := rfl
end

section
variable (s : State) (n line : Nat) (l : DLine)
@[simp] theorem islGet_dramSet (m : Nat) : islGet (dramSet s n line l) m = islGet s m := rfl
@[simp] theorem engGet_dramSet (m : Nat) : engGet (dramSet s n line l) m = engGet s m := rfl
@[simp] theorem eisGet_dramSet (m : Nat) : eisGet (dramSet s n line l) m = eisGet s m := rfl
@[simp] theorem mbGet_dramSet (m : Nat) : mbGet (dramSet s n line l) m = mbGet s m := rfl
@[simp] theorem partGet_dramSet (m : Nat) : partGet (dramSet s n line l) m = partGet s m := rfl
@[simp] theorem nicGet_dramSet (m : Nat) : nicGet (dramSet s n line l) m = nicGet s m := rfl
@[simp] theorem nocGet_dramSet (m : Nat) : nocGet (dramSet s n line l) m = nocGet s m := rfl
@[simp] theorem hwGet_dramSet (m : Nat) : hwGet (dramSet s n line l) m = hwGet s m := rfl
@[simp] theorem mcGet_dramSet (m : Nat) : mcGet (dramSet s n line l) m = mcGet s m := rfl
@[simp] theorem laneGet_dramSet (m : Nat) : laneGet (dramSet s n line l) m = laneGet s m := rfl
@[simp] theorem quadGet_dramSet (m : Nat) : quadGet (dramSet s n line l) m = quadGet s m := rfl
@[simp] theorem fnGet_dramSet (m : Nat) : fnGet (dramSet s n line l) m = fnGet s m := rfl
@[simp] theorem pcieGet_dramSet (m : Nat) : pcieGet (dramSet s n line l) m = pcieGet s m := rfl
@[simp] theorem bramGet_dramSet (m : Nat) : bramGet (dramSet s n line l) m = bramGet s m := rfl
@[simp] theorem granGet_dramSet (m : Nat) : granGet (dramSet s n line l) m = granGet s m := rfl
@[simp] theorem fget_dramSet (c : Nat) (fl : Fld) : fget (dramSet s n line l) c fl = fget s c fl := rfl
end

section
variable (s : State) (f : PowerSt → PowerSt)
@[simp] theorem islGet_pwrUpd (m : Nat) : islGet (pwrUpd s f) m = islGet s m := rfl
@[simp] theorem engGet_pwrUpd (m : Nat) : engGet (pwrUpd s f) m = engGet s m := rfl
@[simp] theorem eisGet_pwrUpd (m : Nat) : eisGet (pwrUpd s f) m = eisGet s m := rfl
@[simp] theorem mbGet_pwrUpd (m : Nat) : mbGet (pwrUpd s f) m = mbGet s m := rfl
@[simp] theorem partGet_pwrUpd (m : Nat) : partGet (pwrUpd s f) m = partGet s m := rfl
@[simp] theorem nicGet_pwrUpd (m : Nat) : nicGet (pwrUpd s f) m = nicGet s m := rfl
@[simp] theorem nocGet_pwrUpd (m : Nat) : nocGet (pwrUpd s f) m = nocGet s m := rfl
@[simp] theorem hwGet_pwrUpd (m : Nat) : hwGet (pwrUpd s f) m = hwGet s m := rfl
@[simp] theorem mcGet_pwrUpd (m : Nat) : mcGet (pwrUpd s f) m = mcGet s m := rfl
@[simp] theorem laneGet_pwrUpd (m : Nat) : laneGet (pwrUpd s f) m = laneGet s m := rfl
@[simp] theorem quadGet_pwrUpd (m : Nat) : quadGet (pwrUpd s f) m = quadGet s m := rfl
@[simp] theorem fnGet_pwrUpd (m : Nat) : fnGet (pwrUpd s f) m = fnGet s m := rfl
@[simp] theorem pcieGet_pwrUpd (m : Nat) : pcieGet (pwrUpd s f) m = pcieGet s m := rfl
@[simp] theorem bramGet_pwrUpd (m : Nat) : bramGet (pwrUpd s f) m = bramGet s m := rfl
@[simp] theorem granGet_pwrUpd (m : Nat) : granGet (pwrUpd s f) m = granGet s m := rfl
@[simp] theorem fget_pwrUpd (c : Nat) (fl : Fld) : fget (pwrUpd s f) c fl = fget s c fl := rfl
end

section
variable (s : State) (n : Nat) (f : RailSt → RailSt)
@[simp] theorem islGet_railUpd (m : Nat) : islGet (railUpd s n f) m = islGet s m := rfl
@[simp] theorem engGet_railUpd (m : Nat) : engGet (railUpd s n f) m = engGet s m := rfl
@[simp] theorem eisGet_railUpd (m : Nat) : eisGet (railUpd s n f) m = eisGet s m := rfl
@[simp] theorem mbGet_railUpd (m : Nat) : mbGet (railUpd s n f) m = mbGet s m := rfl
@[simp] theorem partGet_railUpd (m : Nat) : partGet (railUpd s n f) m = partGet s m := rfl
@[simp] theorem nicGet_railUpd (m : Nat) : nicGet (railUpd s n f) m = nicGet s m := rfl
@[simp] theorem nocGet_railUpd (m : Nat) : nocGet (railUpd s n f) m = nocGet s m := rfl
@[simp] theorem hwGet_railUpd (m : Nat) : hwGet (railUpd s n f) m = hwGet s m := rfl
@[simp] theorem mcGet_railUpd (m : Nat) : mcGet (railUpd s n f) m = mcGet s m := rfl
@[simp] theorem laneGet_railUpd (m : Nat) : laneGet (railUpd s n f) m = laneGet s m := rfl
@[simp] theorem quadGet_railUpd (m : Nat) : quadGet (railUpd s n f) m = quadGet s m := rfl
@[simp] theorem fnGet_railUpd (m : Nat) : fnGet (railUpd s n f) m = fnGet s m := rfl
@[simp] theorem pcieGet_railUpd (m : Nat) : pcieGet (railUpd s n f) m = pcieGet s m := rfl
@[simp] theorem bramGet_railUpd (m : Nat) : bramGet (railUpd s n f) m = bramGet s m := rfl
@[simp] theorem granGet_railUpd (m : Nat) : granGet (railUpd s n f) m = granGet s m := rfl
@[simp] theorem fget_railUpd (c : Nat) (fl : Fld) : fget (railUpd s n f) c fl = fget s c fl := rfl
end

section
variable (s : State) (n : Nat) (x : Frame)
@[simp] theorem islGet_frameSet (m : Nat) : islGet (frameSet s n x) m = islGet s m := rfl
@[simp] theorem engGet_frameSet (m : Nat) : engGet (frameSet s n x) m = engGet s m := rfl
@[simp] theorem eisGet_frameSet (m : Nat) : eisGet (frameSet s n x) m = eisGet s m := rfl
@[simp] theorem mbGet_frameSet (m : Nat) : mbGet (frameSet s n x) m = mbGet s m := rfl
@[simp] theorem partGet_frameSet (m : Nat) : partGet (frameSet s n x) m = partGet s m := rfl
@[simp] theorem nicGet_frameSet (m : Nat) : nicGet (frameSet s n x) m = nicGet s m := rfl
@[simp] theorem nocGet_frameSet (m : Nat) : nocGet (frameSet s n x) m = nocGet s m := rfl
@[simp] theorem hwGet_frameSet (m : Nat) : hwGet (frameSet s n x) m = hwGet s m := rfl
@[simp] theorem mcGet_frameSet (m : Nat) : mcGet (frameSet s n x) m = mcGet s m := rfl
@[simp] theorem laneGet_frameSet (m : Nat) : laneGet (frameSet s n x) m = laneGet s m := rfl
@[simp] theorem quadGet_frameSet (m : Nat) : quadGet (frameSet s n x) m = quadGet s m := rfl
@[simp] theorem fnGet_frameSet (m : Nat) : fnGet (frameSet s n x) m = fnGet s m := rfl
@[simp] theorem pcieGet_frameSet (m : Nat) : pcieGet (frameSet s n x) m = pcieGet s m := rfl
@[simp] theorem bramGet_frameSet (m : Nat) : bramGet (frameSet s n x) m = bramGet s m := rfl
@[simp] theorem granGet_frameSet (m : Nat) : granGet (frameSet s n x) m = granGet s m := rfl
@[simp] theorem fget_frameSet (c : Nat) (fl : Fld) : fget (frameSet s n x) c fl = fget s c fl := rfl
end

section
variable (s : State) (n : Nat) (x : Frame)
@[simp] theorem islGet_frameWrite (m : Nat) : islGet (frameWrite s n x) m = islGet s m := rfl
@[simp] theorem engGet_frameWrite (m : Nat) : engGet (frameWrite s n x) m = engGet s m := rfl
@[simp] theorem eisGet_frameWrite (m : Nat) : eisGet (frameWrite s n x) m = eisGet s m := rfl
@[simp] theorem mbGet_frameWrite (m : Nat) : mbGet (frameWrite s n x) m = mbGet s m := rfl
@[simp] theorem partGet_frameWrite (m : Nat) : partGet (frameWrite s n x) m = partGet s m := rfl
@[simp] theorem nicGet_frameWrite (m : Nat) : nicGet (frameWrite s n x) m = nicGet s m := rfl
@[simp] theorem nocGet_frameWrite (m : Nat) : nocGet (frameWrite s n x) m = nocGet s m := rfl
@[simp] theorem hwGet_frameWrite (m : Nat) : hwGet (frameWrite s n x) m = hwGet s m := rfl
@[simp] theorem mcGet_frameWrite (m : Nat) : mcGet (frameWrite s n x) m = mcGet s m := rfl
@[simp] theorem laneGet_frameWrite (m : Nat) : laneGet (frameWrite s n x) m = laneGet s m := rfl
@[simp] theorem quadGet_frameWrite (m : Nat) : quadGet (frameWrite s n x) m = quadGet s m := rfl
@[simp] theorem fnGet_frameWrite (m : Nat) : fnGet (frameWrite s n x) m = fnGet s m := rfl
@[simp] theorem pcieGet_frameWrite (m : Nat) : pcieGet (frameWrite s n x) m = pcieGet s m := rfl
@[simp] theorem bramGet_frameWrite (m : Nat) : bramGet (frameWrite s n x) m = bramGet s m := rfl
@[simp] theorem granGet_frameWrite (m : Nat) : granGet (frameWrite s n x) m = granGet s m := rfl
@[simp] theorem fget_frameWrite (c : Nat) (fl : Fld) : fget (frameWrite s n x) c fl = fget s c fl := rfl
end

@[simp] theorem engGet_engSet_self (s : State) (n : Nat) (e : EngSt) : engGet (engSet s n e) n = e := by simp [engGet, engSet]
theorem engGet_engSet_ne (s : State) {n m : Nat} (e : EngSt) (h : m ≠ n) : engGet (engSet s n e) m = engGet s m := by
  simp [engGet, engSet, tget_tset, h]
@[simp] theorem bramGet_bramSet_self (s : State) (n : Nat) (x : BramSt) : bramGet (bramSet s n x) n = x := by simp [bramGet, bramSet]
theorem bramGet_bramSet_ne (s : State) {n m : Nat} (x : BramSt) (h : m ≠ n) : bramGet (bramSet s n x) m = bramGet s m := by
  simp [bramGet, bramSet, tget_tset, h]
@[simp] theorem granGet_granSet_self (s : State) (n : Nat) (x : Gran) : granGet (granSet s n x) n = x := by
  simp [granGet, granSet, secUpd]
theorem granGet_granSet_ne (s : State) {n m : Nat} (x : Gran) (h : m ≠ n) : granGet (granSet s n x) m = granGet s m := by
  simp [granGet, granSet, secUpd, tget_tset, h]
@[simp] theorem pwrUpd_pwr (s : State) (f : PowerSt → PowerSt) : (pwrUpd s f).pwr = f s.pwr := rfl
@[simp] theorem secUpd_sec (s : State) (f : SecSt → SecSt) : (secUpd s f).sec = f s.sec := rfl
@[simp] theorem answer_rsp (s : State) (r : Resp) (v : Word) : (answer s r v).rsp = ⟨r, v, []⟩ := rfl
@[simp] theorem answerBytes_rsp (s : State) (r : Resp) (b : List Byte) : (answerBytes s r b).rsp = ⟨r, 0, b⟩ := rfl

end Sys2Proof.Machine
end

