-- ==== Sys2Proof/Laws/Mailbox.lean ====
section
/-! SUPPORT. Mailboxes: what a submitted command becomes when it is served at once, the retry of waiting commands, and the doorbell
as a wake source. -/

namespace Sys2Proof.Machine

theorem natLe_length (v n : Nat) : (natLe v n).length = n := by
  induction n generalizing v with
  | zero => rfl
  | succ n ih => simp [natLe, ih]

theorem natLe_leNat (l : List Byte) (n : Nat) (h : l.length ≤ n) : natLe (leNat l) n = l ++ List.replicate (n - l.length) 0 := by
  induction n generalizing l with
  | zero =>
    have : l = [] := List.length_eq_zero_iff.mp (by omega)
    subst this
    rfl
  | succ n ih =>
    cases l with
    | nil =>
      have := ih [] (by simp)
      simp only [leNat] at this
      simp [natLe, leNat, this, List.replicate_succ]
    | cons b t =>
      have h1 : (b.toNat + 256 * leNat t) / 256 = leNat t := by have := b.isLt; omega
      have h2 : BitVec.ofNat 8 (b.toNat + 256 * leNat t) = b := by
        apply BitVec.eq_of_toNat_eq
        have := b.isLt
        simp; omega
      simp only [natLe, leNat, h1, h2, ih t (by simpa using h)]
      simp

theorem leNat_lt (l : List Byte) : leNat l < 256 ^ l.length := by
  induction l with
  | nil => simp [leNat]
  | cons b t ih =>
    have := b.isLt
    simp only [leNat, List.length_cons, Nat.pow_succ]
    omega

/-- Words taken from a list of bytes give its bytes back. -/
theorem words_take (K : Nat) (p : List Byte) (h : p.length ≤ 4 * K) :
    ((List.range K).flatMap (fun k => natLe (leAt p (4 * k) 4) 4)).take p.length = p := by
  induction K generalizing p with
  | zero =>
    have : p = [] := List.length_eq_zero_iff.mp (by omega)
    subst this
    rfl
  | succ K ih =>
    rw [List.range_succ_eq_map, List.flatMap_cons, List.flatMap_map]
    have e : ∀ k, leAt p (4 * (k + 1)) 4 = leAt (p.drop 4) (4 * k) 4 := by
      intro k
      simp only [leAt, List.drop_drop]
      congr 3
      ring
    have e0 : natLe (leAt p (4 * 0) 4) 4 = p.take 4 ++ List.replicate (4 - (p.take 4).length) 0 := by
      rw [← natLe_leNat _ _ (by simp)]
      simp [leAt]
    simp only [Nat.succ_eq_add_one, e, e0]
    by_cases h4 : 4 ≤ p.length
    · have := ih (p.drop 4) (by simp; omega)
      have hl : (p.take 4).length = 4 := by simp [h4]
      rw [hl]
      simp only [Nat.sub_self, List.replicate_zero, List.append_nil]
      rw [List.take_append, hl, List.take_of_length_le (by omega)]
      rw [List.length_drop] at this
      rw [this, List.take_append_drop]
    · rw [List.take_of_length_le (l := p) (by omega : p.length ≤ 4)]
      simp

theorem tget_foldl_tset (ws : List (Nat × Word)) (t : Tab Word) (hn : (ws.map Prod.fst).Nodup) (k : Nat) (v : Word) (h : (k, v) ∈ ws) :
    tget 0 (ws.foldl (fun t p => tset 0 t p.1 p.2) t) k = v := by
  induction ws generalizing t with
  | nil => simp at h
  | cons a ws ih =>
    simp only [List.foldl_cons]
    simp only [List.map_cons, List.nodup_cons] at hn
    rcases List.mem_cons.mp h with rfl | h
    · have : ∀ (l : List (Nat × Word)) (t : Tab Word), k ∉ l.map Prod.fst →
          tget 0 (l.foldl (fun t p => tset 0 t p.1 p.2) t) k = tget 0 t k := by
        intro l
        induction l with
        | nil => intro t _; rfl
        | cons b l ihl =>
          intro t hk
          simp only [List.map_cons, List.mem_cons, not_or] at hk
          simp only [List.foldl_cons]
          rw [ihl _ hk.2, tget_tset_ne _ _ _ hk.1]
      rw [this _ _ hn.1]
      simp
    · exact ih _ hn.2 h

/-- The slot holds the payload that was written into it. -/
theorem slotBytes_filled (m : MbSt) (old : Tab Word) (p : List Byte) (h : p.length ≤ 240)
    (hm : m.pay = List.foldl (fun t p => tset 0 t p.1 p.2) old
      ((List.range (min ((p.length + 3) / 4) 60)).map (fun i => (i, BitVec.ofNat 32 (leAt p (4 * i) 4))))) :
    slotBytes m p.length = p := by
  set k := (p.length + 3) / 4 with hk
  have hk60 : min k 60 = k := by omega
  simp only [hk60] at hm
  simp only [slotBytes, slotWord, hm]
  generalize hws : (List.range k).map (fun i => (i, BitVec.ofNat 32 (leAt p (4 * i) 4))) = ws
  have hn : (ws.map Prod.fst).Nodup := by
    rw [← hws, List.map_map]
    simpa [Function.comp_def] using List.nodup_range
  have hg : ∀ i ∈ List.range k, natLe (tget 0 (ws.foldl (fun t p => tset 0 t p.1 p.2) old) i).toNat 4 = natLe (leAt p (4 * i) 4) 4 := by
    intro i hi
    rw [tget_foldl_tset ws old hn i (BitVec.ofNat 32 (leAt p (4 * i) 4)) (by rw [← hws]; exact List.mem_map.mpr ⟨i, hi, rfl⟩)]
    congr 1
    simp only [BitVec.toNat_ofNat]
    apply Nat.mod_eq_of_lt
    have := leNat_lt ((p.drop (4 * i)).take 4)
    refine lt_of_lt_of_le this ?_
    have : ((p.drop (4 * i)).take 4).length ≤ 4 := by simp
    calc 256 ^ ((p.drop (4 * i)).take 4).length ≤ 256 ^ 4 := Nat.pow_le_pow_right (by norm_num) this
      _ = 2 ^ 32 := by norm_num
  have hr : List.range 60 = List.range k ++ (List.range (60 - k)).map (k + ·) := by
    rw [← List.range_add]
    congr 1
    omega
  rw [hr, List.flatMap_append, List.flatMap_congr hg]
  have hlen : ((List.range k).flatMap (fun i => natLe (leAt p (4 * i) 4) 4)).length = 4 * k := by
    simp [List.length_flatMap, natLe_length]
    omega
  rw [List.take_append_of_le_length (by rw [hlen]; omega)]
  exact words_take k p (by omega)

/-- No command waits for an object: nothing is retried. -/
theorem retryWaiting_none {s : State} (h : ∀ n, waiting s n = false) : retryWaiting s = s := by
  unfold retryWaiting
  have : ∀ l : List Nat, l.foldl (fun s n => if waiting s n then cmdBody (svcCmd s n) s else s) s = s := by
    intro l
    induction l with
    | nil => rfl
    | cons a l ih => simp only [List.foldl_cons, h a]; exact ih
  exact this _

/-- In RUN a wake source is at most noted. -/
theorem wakeFire_run {s : State} (src : Nat) (h : devState s = 0) (hd : s.pwr.dormant = false) :
    ∃ p, wakeFire s src = { s with pwr := p } := by
  have h' : fget s pwrBase Reg.Pwr.DEV_STATE = 0 := h
  unfold wakeFire
  split
  · exact ⟨s.pwr, rfl⟩
  · simp only [hd, Bool.false_eq_true, if_false]
    split
    · exact ⟨s.pwr, rfl⟩
    · have : devState (pwrUpd s (fun p => { p with fired := tset 0 p.fired src (upUs s + 1) })) = 0 := h
      simp only [this]
      exact ⟨_, rfl⟩

/-- The lease of a command's session is all that its renewal changes, and it depends on the sessions and the time alone. -/
theorem renew_eq {s u : State} (c : Cmd) (h : u.sessions = s.sessions) (hu : u.up = s.up) : renew c u = { u with sessions := (renew c s).sessions } := by
  have e : sessOk u c = sessOk s c := by
    unfold sessOk
    rw [h]
  unfold renew
  rw [e, h, hu]
  split
  · rfl
  · rw [← h, ← hu]

/-- The checks before the payload do not depend on the lease. -/
theorem cmdGate_renew (c d : Cmd) (s : State) : cmdGate (renew c s) d = cmdGate s d := by
  have h : sessOk (renew c s) d = sessOk s d := by
    unfold renew
    split
    · simp only [sessOk, List.any_map]
      congr 1
      funext x
      simp only [Function.comp]
      split <;> rfl
    · rfl
  have hp : partGet (renew c s) d.part = partGet s d.part := by
    rw [renew_eq c rfl rfl]
    rfl
  unfold cmdGate sessRight
  rw [h, hp]

/-- The mailbox as the doorbell of request `r` leaves it, BUSY with the command. -/
theorem begun_mailbox {s : State} {op : Nat} (r : MbReq) (hop : op < 65536) (hl : r.payload.length = r.len.toNat) (hb : r.len.toNat ≤ 240) :
    ∃ m : MbSt, m.state = 1 ∧ m.ropcode = op ∧ m.cmd = r.payload ∧ m.path = some r.path ∧ m.rseq = r.seq.toNat ∧
      m.rsession = r.session.toNat ∧ m.wait = .none ∧ m.code = 0 ∧ m.doneCnt = (mbGet s r.mb.val).doneCnt ∧
      (slotReq (slotFill s r op) r.mb.val r.path).len = r.len ∧
      mbBegin (slotFill s r op) (slotReq (slotFill s r op) r.mb.val r.path) ((mbGet (slotFill s r op) r.mb.val).hdr0.extractLsb' 0 16).toNat =
        { s with mb := tset {} (tset {} s.mb r.mb.val (mbGet (slotFill s r op) r.mb.val)) r.mb.val m } := by
  generalize hv : slotFill s r op = v
  have hg : ∃ pay, mbGet v r.mb.val = { mbGet s r.mb.val with
      hdr0 := BitVec.ofNat 32 (op + 65536 * r.len.toNat)
      hdr1 := BitVec.ofNat 32 (r.session.toNat + 65536 * r.seq.toNat)
      pay := pay } ∧ slotBytes (mbGet v r.mb.val) r.payload.length = r.payload := by
    refine ⟨List.foldl (fun t p => tset 0 t p.1 p.2) (mbGet s r.mb.val).pay
      ((List.range (min ((r.payload.length + 3) / 4) 60)).map (fun i => (i, BitVec.ofNat 32 (leAt r.payload (4 * i) 4)))), ?_, ?_⟩
    · rw [← hv]
      simp [slotFill, mbGet, mbUpd, tmod]
    · apply slotBytes_filled _ (mbGet s r.mb.val).pay _ (by omega)
      rw [← hv]
      simp [slotFill, mbGet, mbUpd, tmod]
  obtain ⟨pay, hg, hsb⟩ := hg
  have h0 : (mbGet v r.mb.val).hdr0 = BitVec.ofNat 32 (op + 65536 * r.len.toNat) := by rw [hg]
  have h1 : (mbGet v r.mb.val).hdr1 = BitVec.ofNat 32 (r.session.toNat + 65536 * r.seq.toNat) := by rw [hg]
  have hlen := r.len.isLt
  have hses := r.session.isLt
  have hseq := r.seq.isLt
  have e0 : ((mbGet v r.mb.val).hdr0.extractLsb' 0 16).toNat = op := by
    rw [h0]
    simp [BitVec.extractLsb'_toNat]
    omega
  have e1 : (mbGet v r.mb.val).hdr0.extractLsb' 16 8 = r.len := by
    rw [h0]
    apply BitVec.eq_of_toNat_eq
    simp [BitVec.extractLsb'_toNat, Nat.shiftRight_eq_div_pow]
    omega
  have e2 : (mbGet v r.mb.val).hdr1.extractLsb' 0 16 = r.session := by
    rw [h1]
    apply BitVec.eq_of_toNat_eq
    simp [BitVec.extractLsb'_toNat]
    omega
  have e3 : (mbGet v r.mb.val).hdr1.extractLsb' 16 16 = r.seq := by
    rw [h1]
    apply BitVec.eq_of_toNat_eq
    simp [BitVec.extractLsb'_toNat, Nat.shiftRight_eq_div_pow]
    omega
  have e4 : (mbGet v r.mb.val).hdr0.toNat / 65536 % 256 = r.len.toNat := by
    rw [h0]
    simp
    omega
  have hmb : r.mb.val % 32 = r.mb.val := Nat.mod_eq_of_lt r.mb.isLt
  have hq : slotReq v r.mb.val r.path = r := by
    simp only [slotReq, e1, e2, e3, e4, Nat.min_eq_right hb, hmb]
    rw [← hl, hsb]
  refine ⟨{ mbGet v r.mb.val with
      state := 1
      code := 0
      rlen := 0
      abortCode := 0
      abortSeen := false
      detail := 0
      rseq := r.seq.toNat
      ropcode := op
      rsession := r.session.toNat
      wait := .none
      path := some r.path
      cmd := r.payload
      data := []
      abortArm := false }, rfl, rfl, rfl, rfl, rfl, rfl, rfl, rfl, ?_, ?_, ?_⟩
  · rw [hg]
  · rw [hq]
  · rw [hq, e0, ← hv]
    have : mbGet (slotFill s r op) r.mb.val = tget {} (slotFill s r op).mb r.mb.val := rfl
    simp [mbBegin, mbUpd, tmod, slotFill, mbGet]

/-- What a row of the command table does with a request that is sampled as it is submitted (13 R374 to R378). -/
theorem mailboxRow_served {s : State} {op : Nat} {r : MbReq} {part : Nat} (h : offered s r part) (hop : op < 65536) :
    ∃ (m : MbSt) (old : Tab MbSt), m.state = 1 ∧ m.ropcode = op ∧ m.cmd = r.payload ∧ m.path = some r.path ∧ m.rseq = r.seq.toNat ∧
      m.rsession = r.session.toNat ∧ m.wait = .none ∧ m.code = 0 ∧ m.doneCnt = (mbGet s r.mb.val).doneCnt ∧
      (∀ n, n ≠ r.mb.val → tget {} old n = mbGet s n) ∧
      sampled s op r = { s with
        rsp := ⟨.okay, 0, []⟩, mb := tset {} old r.mb.val m, sessions := (renew (cmdOf op r part) s).sessions } ∧
      (op ≠ 0xF0 ∨ r.len ≠ 0 ∨ doneNow s r.mb.val = false → mailboxRow op r s = retryWaiting (bellWakes 0 (cmdOf op r part)
        (match cmdGate s (cmdOf op r part) with
          | some e => mbFinish (sampled s op r) r.mb.val e.1 e.2 []
          | none => cmdBody (cmdOf op r part) (sampled s op r)))) := by
  obtain ⟨h1, _, h2, h3, h4, h5, h6, h7, h8, hlen⟩ := h
  obtain ⟨m, m1, m2, m3, m4, m5, m6, m7, m8, m9, m10, m11⟩ := begun_mailbox (s := answer s .okay 0) r hop h8 hlen
  have hpp : (pathPart s r.path).getD 0 = part := by rw [h4]; rfl
  have hsm : sampled s op r = { s with
      rsp := ⟨.okay, 0, []⟩
      mb := tset {} (tset {} s.mb r.mb.val (mbGet (slotFill (answer s .okay 0) r op) r.mb.val)) r.mb.val m
      sessions := (renew (cmdOf op r part) s).sessions } := by
    unfold sampled
    simp only [m11, hpp]
    exact renew_eq (s := s) _ rfl rfl
  refine ⟨m, tset {} s.mb r.mb.val (mbGet (slotFill (answer s .okay 0) r op) r.mb.val), m1, m2, m3, m4, m5, m6, m7, m8, m9, ?_, hsm, ?_⟩
  · intro n hn
    exact tget_tset_ne _ _ _ hn
  · intro habort
    have hreach : mbReach s r.path part r.mb.val = true := by simp [mbReach, h5]
    have hc : slotClosed (answer s .okay 0) r.mb.val = false := h6
    have hd : (slotFill (answer s .okay 0) r op).boot.dmc = true := h2
    have ha : (op = 0xF0 ∧ r.len = 0 ∧ doneNow (answer s .okay 0) r.mb.val = true ∧
        (mbGet (answer s .okay 0) r.mb.val).path.any (samePath r.path) = true) ↔ False := by
      have : doneNow (answer s .okay 0) r.mb.val = doneNow s r.mb.val := rfl
      rw [this]
      simp only [iff_false]
      rintro ⟨a1, a2, a3, _⟩
      rcases habort with h | h | h
      · exact h a1
      · exact h a2
      · rw [h] at a3
        cases a3
    unfold mailboxRow
    simp only [h1, h4, hreach, Bool.not_true, Bool.false_eq_true, if_false, hc, ha, ringBell, hd, if_true]
    unfold serveSlot
    simp only [m10, m11]
    have hsm' := hsm
    unfold sampled at hsm'
    simp only [m11, hpp] at hsm'
    generalize hu : ({ answer s .okay 0 with mb := tset {} (tset {} (answer s .okay 0).mb r.mb.val
      (mbGet (slotFill (answer s .okay 0) r op) r.mb.val)) r.mb.val m } : State) = u at hsm' ⊢
    have hm : mbGet u r.mb.val = m := by rw [← hu]; simp [mbGet]
    have hh : mbHolder u r.mb.val = part := by rw [← hu]; exact h5
    have hcmd : { svcCmd u r.mb.val with len := r.len.toNat } = cmdOf op r part := by
      simp only [svcCmd, hm, m2, m3, m4, m6, hh, cmdOf]
      rfl
    have hgate : cmdGate u (cmdOf op r part) = cmdGate s (cmdOf op r part) := by rw [← hu]; rfl
    have hdev : devState (slotFill (answer s .okay 0) r op) = 0 := h3
    rw [hcmd, hdev, cmdGate_renew, hgate, hsm', hsm] <;> (cases cmdGate s (cmdOf op r part) <;> rfl)

/-- A row whose request was sampled leaves what its checks or its body leave, but for a wake source noted in the power block. -/
theorem mailboxRow_ends {s : State} {op : Nat} {r : MbReq} {part : Nat} (h : offered s r part) (hop : op < 65536) :
    ∃ (m : MbSt) (old : Tab MbSt), m.state = 1 ∧ m.ropcode = op ∧ m.cmd = r.payload ∧ m.path = some r.path ∧ m.rseq = r.seq.toNat ∧
      m.rsession = r.session.toNat ∧ m.wait = .none ∧ m.code = 0 ∧ m.doneCnt = (mbGet s r.mb.val).doneCnt ∧
      (∀ n, n ≠ r.mb.val → tget {} old n = mbGet s n) ∧
      sampled s op r = { s with
        rsp := ⟨.okay, 0, []⟩, mb := tset {} old r.mb.val m, sessions := (renew (cmdOf op r part) s).sessions } ∧
      ∀ v, (op ≠ 0xF0 ∨ r.len ≠ 0 ∨ doneNow s r.mb.val = false) → (match cmdGate s (cmdOf op r part) with
          | some e => mbFinish (sampled s op r) r.mb.val e.1 e.2 []
          | none => cmdBody (cmdOf op r part) (sampled s op r)) = v →
        (∀ n, waiting v n = false) → devState v = 0 → v.pwr.dormant = false → ∃ p, mailboxRow op r s = { v with pwr := p } := by
  obtain ⟨m, old, m1, m2, m3, m4, m5, m6, m7, m8, m9, m10, ms, m11⟩ := mailboxRow_served h hop
  refine ⟨m, old, m1, m2, m3, m4, m5, m6, m7, m8, m9, m10, ms, ?_⟩
  intro v ha hv hw hd hp
  rw [m11 ha, hv]
  have : ∃ p, bellWakes 0 (cmdOf op r part) v = { v with pwr := p } := by
    unfold bellWakes
    simp only
    split
    · exact ⟨v.pwr, rfl⟩
    · exact wakeFire_run 3 hd hp
  obtain ⟨p, hb⟩ := this
  refine ⟨p, ?_⟩
  rw [hb]
  exact retryWaiting_none hw

theorem msiSignal_mb (s : State) (fn v : Nat) : (msiSignal s fn v).mb = s.mb := by
  unfold msiSignal
  simp only
  split
  · rfl
  · split <;> rfl

/-- The end of a command shows in its mailbox and in no other. -/
theorem mbFinish_get (s : State) (n code : Nat) (det : Word) (payload : List Byte) (k : Nat) :
    mbGet (mbFinish s n code det payload) k = if k = n then { mbGet s n with
      state := 2, code := code, detail := if code = 0 then 0 else det, rlen := payload.length, rsp := payload
      doneCnt := ((mbGet s n).doneCnt + 1) % 65536, wait := .none, cmd := [], data := [], doneAt := s.up + 1 } else mbGet s k := by
  have : (mbFinish s n code det payload).mb = (mbUpd s n (fun m =>
      { m with state := 2, code := code, detail := if code = 0 then 0 else det, rlen := payload.length, rsp := payload
               doneCnt := (m.doneCnt + 1) % 65536, wait := .none, cmd := [], data := [], doneAt := s.up + 1 })).mb := by
    unfold mbFinish
    simp only
    split
    · exact msiSignal_mb _ _ _
    · rfl
  unfold mbGet at *
  rw [this]
  simp only [mbUpd, tmod]
  rw [tget_tset]

/-- The end of a command leaves everything but its mailbox and the interrupt vectors. -/
theorem mbFinish_frame (s : State) (n code : Nat) (det : Word) (payload : List Byte) :
    { mbFinish s n code det payload with mb := s.mb, fns := s.fns, msi := s.msi } = s := by
  have h : ∀ (v : State) fn k, { msiSignal v fn k with mb := s.mb, fns := s.fns, msi := s.msi } =
      { v with mb := s.mb, fns := s.fns, msi := s.msi } := by
    intro v fn k
    unfold msiSignal
    simp only
    split
    · rfl
    · split <;> rfl
  unfold mbFinish
  simp only
  split
  · rw [h]
    rfl
  · rfl

theorem mbFinish_csr (s : State) (n code : Nat) (det : Word) (payload : List Byte) : (mbFinish s n code det payload).csr = s.csr := by
  have := congrArg State.csr (mbFinish_frame s n code det payload)
  exact this
theorem mbFinish_pwr (s : State) (n code : Nat) (det : Word) (payload : List Byte) : (mbFinish s n code det payload).pwr = s.pwr := by
  have := congrArg State.pwr (mbFinish_frame s n code det payload)
  exact this

/-- A served row whose body ends the command on a state that changed neither the mailboxes nor the device's state: its mailbox shows
the end, the others stand, and the rest is what the body left but for a wake source noted in the power block. -/
theorem mailboxRow_finishes {s : State} {op : Nat} {r : MbReq} {part : Nat} (h : accepted s op r part) (hop : op < 65536)
    (ha : op ≠ 0xF0 ∨ r.len ≠ 0 ∨ doneNow s r.mb.val = false)
    {v : State} {code : Nat} {det : Word} {payload : List Byte}
    (hv : cmdBody (cmdOf op r part) (sampled s op r) = mbFinish v r.mb.val code det payload)
    (hm : v.mb = (sampled s op r).mb) (hd : devState v = 0) (hp : v.pwr.dormant = false) :
    ended (mailboxRow op r s) r.mb.val code payload ∧ (∀ k, k ≠ r.mb.val → mbGet (mailboxRow op r s) k = mbGet s k) ∧
      ∃ mb fns msi pwr, mailboxRow op r s = { v with mb := mb, fns := fns, msi := msi, pwr := pwr } := by
  obtain ⟨m, old, m1, m2, m3, m4, m5, m6, m7, m8, m9, m10, m11, m12⟩ := mailboxRow_ends h.1 hop
  rw [h.2] at m12
  simp only [hv] at m12
  have hk : ∀ k, k ≠ r.mb.val → mbGet v k = mbGet s k := by
    intro k hk
    unfold mbGet
    rw [hm, m11, tget_tset_ne _ _ _ hk, m10 k hk]
    rfl
  obtain ⟨p, e⟩ := m12 _ ha rfl (by
      intro k
      simp only [waiting, mbBusy, mbFinish_get]
      by_cases hkn : k = r.mb.val
      · simp [hkn]
      · simp only [hkn, if_false, hk k hkn]
        simpa [waiting, mbBusy] using h.1.2.2.2.2.2.2.2.1 k) (by
      unfold devState at *
      rw [fget_congr (mbFinish_csr _ _ _ _ _), hd]) (by rw [mbFinish_pwr, hp])
  have hg : ∀ k, mbGet (mailboxRow op r s) k = mbGet (mbFinish v r.mb.val code det payload) k := by
    intro k
    rw [e]
    rfl
  refine ⟨?_, ?_, ?_⟩
  · simp [ended, hg, mbFinish_get]
  · intro k hkn
    rw [hg, mbFinish_get, if_neg hkn, hk k hkn]
  · refine ⟨(mbFinish v r.mb.val code det payload).mb, (mbFinish v r.mb.val code det payload).fns,
      (mbFinish v r.mb.val code det payload).msi, p, ?_⟩
    rw [e]
    exact congrArg (fun t : State => { t with
      mb := (mbFinish v r.mb.val code det payload).mb
      fns := (mbFinish v r.mb.val code det payload).fns
      msi := (mbFinish v r.mb.val code det payload).msi
      pwr := p }) (mbFinish_frame v r.mb.val code det payload)

/-- A served row whose body leaves the command BUSY with its operation running: the other mailboxes stand, and the rest is what the
body left but for a wake source noted in the power block. -/
theorem mailboxRow_runs {s : State} {op : Nat} {r : MbReq} {part : Nat} (h : accepted s op r part) (hop : op < 65536)
    (ha : op ≠ 0xF0 ∨ r.len ≠ 0 ∨ doneNow s r.mb.val = false)
    {v : State} {f : MbSt → MbSt} (hv : cmdBody (cmdOf op r part) (sampled s op r) = mbUpd v r.mb.val f)
    (hf : (f (mbGet v r.mb.val)).wait = .run ∧ (f (mbGet v r.mb.val)).state = 1 ∧ (f (mbGet v r.mb.val)).ropcode = op)
    (hm : v.mb = (sampled s op r).mb) (hd : devState v = 0) (hp : v.pwr.dormant = false) :
    inService (mailboxRow op r s) r.mb.val op ∧ mbGet (mailboxRow op r s) r.mb.val = f (mbGet v r.mb.val) ∧
      (∀ k, k ≠ r.mb.val → mbGet (mailboxRow op r s) k = mbGet s k) ∧ ∃ mb pwr, mailboxRow op r s = { v with mb := mb, pwr := pwr } := by
  obtain ⟨m, old, m1, m2, m3, m4, m5, m6, m7, m8, m9, m10, m11, m12⟩ := mailboxRow_ends h.1 hop
  rw [h.2] at m12
  simp only [hv] at m12
  have hk : ∀ k, k ≠ r.mb.val → mbGet v k = mbGet s k := by
    intro k hk
    unfold mbGet
    rw [hm, m11, tget_tset_ne _ _ _ hk, m10 k hk]
    rfl
  have hu : ∀ k, mbGet (mbUpd v r.mb.val f) k = if k = r.mb.val then f (mbGet v r.mb.val) else mbGet v k := by
    intro k
    simp only [mbGet, mbUpd, tmod, tget_tset]
  obtain ⟨p, e⟩ := m12 _ ha rfl (by
      intro k
      simp only [waiting, mbBusy, hu]
      by_cases hkn : k = r.mb.val
      · simp [hkn, hf.1]
      · simp only [hkn, if_false, hk k hkn]
        simpa [waiting, mbBusy] using h.1.2.2.2.2.2.2.2.1 k) hd hp
  have hg : ∀ k, mbGet (mailboxRow op r s) k = mbGet (mbUpd v r.mb.val f) k := by
    intro k
    rw [e]
    rfl
  have hn : mbGet (mailboxRow op r s) r.mb.val = f (mbGet v r.mb.val) := by rw [hg, hu, if_pos rfl]
  refine ⟨?_, hn, ?_, ?_⟩
  · simp only [inService, hn]
    exact ⟨hf.2.1, hf.2.2, hf.1⟩
  · intro k hkn
    rw [hg, hu, if_neg hkn, hk k hkn]
  · exact ⟨(mbUpd v r.mb.val f).mb, p, e⟩

/-- The sampled state is the state before but for the response and the mailbox, whose command is BUSY. -/
theorem sampled_eq {s : State} {op : Nat} {r : MbReq} {part : Nat} (h : offered s r part) (hop : op < 65536) :
    ∃ (m : MbSt) (old : Tab MbSt), m.state = 1 ∧ m.ropcode = op ∧ m.cmd = r.payload ∧ m.wait = .none ∧
      (∀ n, n ≠ r.mb.val → tget {} old n = mbGet s n) ∧ sampled s op r = { s with
        rsp := ⟨.okay, 0, []⟩, mb := tset {} old r.mb.val m, sessions := (renew (cmdOf op r part) s).sessions } := by
  obtain ⟨m, old, m1, m2, m3, m4, m5, m6, m7, m8, m9, m10, m11, m12⟩ := mailboxRow_ends h hop
  exact ⟨m, old, m1, m2, m3, m7, m10, m11⟩

/-- The objects that other commands hold do not depend on the mailbox that asks. -/
theorem objsFree_sampled {s : State} {op : Nat} {r : MbReq} {part : Nat} (h : offered s r part) (hop : op < 65536) (c : Cmd)
    (hc : c.n = r.mb.val) : objsFree (sampled s op r) c = objsFree s c := by
  obtain ⟨m, old, m1, m2, m3, m4, m5, e⟩ := sampled_eq h hop
  rw [e]
  unfold objsFree
  congr 1
  funext k
  by_cases hk : k = c.n
  · simp [hk]
  · have hg : mbGet { s with rsp := ⟨.okay, 0, []⟩, mb := tset {} old r.mb.val m, sessions := (renew (cmdOf op r part) s).sessions } k = mbGet s k := by
      unfold mbGet
      rw [tget_tset_ne _ _ _ (by rw [← hc]; exact hk), m5 k (by rw [← hc]; exact hk)]
      rfl
    have : heldBy { s with rsp := ⟨.okay, 0, []⟩, mb := tset {} old r.mb.val m, sessions := (renew (cmdOf op r part) s).sessions } k = heldBy s k := by
      unfold heldBy mbBusy
      rw [hg]
      rfl
    rw [this]
    rfl

end Sys2Proof.Machine
end

