-- ==== Sys2Proof/Laws/Crypt.lean ====
section
/-! SUPPORT. What the cipher of a line undoes: decryption after encryption under one key set gives the data back (11 R310). -/

namespace Sys2Proof.Machine

/-! ### Bytes -/

set_option maxRecDepth 100000 in
theorem aesSInv_aesS : ∀ b : Byte, aesSInv (aesS b) = b := by decide +kernel

theorem zero_xor_byte (x : Byte) : 0 ^^^ x = x := by simp
/-- `v` where `c`, else 0. -/
def sel (c : Bool) (v : Byte) : Byte := if c then v else 0
theorem sel_xor (p q : Bool) (v : Byte) : sel (xor p q) v = sel p v ^^^ sel q v := by cases p <;> cases q <;> simp [sel]
/-- A product as the sum of the doubled left factor over the bits of the right one. -/
theorem aesMul_eq_sum (a b : Byte) : aesMul a b =
    sel (b.getLsbD 0) a ^^^ sel (b.getLsbD 1) (aesX a) ^^^ sel (b.getLsbD 2) (aesX (aesX a)) ^^^ sel (b.getLsbD 3) (aesX (aesX (aesX a))) ^^^
    sel (b.getLsbD 4) (aesX (aesX (aesX (aesX a)))) ^^^ sel (b.getLsbD 5) (aesX (aesX (aesX (aesX (aesX a))))) ^^^
    sel (b.getLsbD 6) (aesX (aesX (aesX (aesX (aesX (aesX a)))))) ^^^ sel (b.getLsbD 7) (aesX (aesX (aesX (aesX (aesX (aesX (aesX a))))))) := by
  have h : ∀ (c : Bool) (x v : Byte), (if c then x ^^^ v else x) = x ^^^ sel c v := by intro c x v; cases c <;> simp [sel]
  simp only [aesMul, List.range, List.range.loop, List.foldl_cons, List.foldl_nil, h, zero_xor_byte]
theorem aesMul_xor (a x y : Byte) : aesMul a (x ^^^ y) = aesMul a x ^^^ aesMul a y := by
  simp only [aesMul_eq_sum, BitVec.getLsbD_xor, sel_xor]; ac_rfl
/-- Two additive functions that agree on the powers of x agree. -/
theorem additive_ext {f g : Byte → Byte} (hf : ∀ x y, f (x ^^^ y) = f x ^^^ f y) (hg : ∀ x y, g (x ^^^ y) = g x ^^^ g y)
    (h : ∀ i : Fin 8, f (1 <<< i.val) = g (1 <<< i.val)) (b : Byte) : f b = g b := by
  have f0 : f 0 = 0 := by have := hf 0 0; simpa using this
  have g0 : g 0 = 0 := by have := hg 0 0; simpa using this
  have hs : ∀ (c : Bool) (i : Fin 8), f (sel c (1 <<< i.val)) = g (sel c (1 <<< i.val)) := by
    intro c i; cases c
    · simpa [sel] using f0.trans g0.symm
    · simpa [sel] using h i
  have hb : ∀ b : Byte, b = sel (b.getLsbD 0) (1 <<< 0) ^^^ sel (b.getLsbD 1) (1 <<< 1) ^^^ sel (b.getLsbD 2) (1 <<< 2) ^^^
      sel (b.getLsbD 3) (1 <<< 3) ^^^ sel (b.getLsbD 4) (1 <<< 4) ^^^ sel (b.getLsbD 5) (1 <<< 5) ^^^ sel (b.getLsbD 6) (1 <<< 6) ^^^
      sel (b.getLsbD 7) (1 <<< 7) := by decide +kernel
  rw [hb b]; simp only [hf, hg]
  rw [show f (sel (b.getLsbD 0) (1 <<< 0)) = _ from hs _ 0, show f (sel (b.getLsbD 1) (1 <<< 1)) = _ from hs _ 1,
    show f (sel (b.getLsbD 2) (1 <<< 2)) = _ from hs _ 2, show f (sel (b.getLsbD 3) (1 <<< 3)) = _ from hs _ 3,
    show f (sel (b.getLsbD 4) (1 <<< 4)) = _ from hs _ 4, show f (sel (b.getLsbD 5) (1 <<< 5)) = _ from hs _ 5,
    show f (sel (b.getLsbD 6) (1 <<< 6)) = _ from hs _ 6, show f (sel (b.getLsbD 7) (1 <<< 7)) = _ from hs _ 7]
  rfl
/-- The two matrices of the columns are inverse, coefficient by coefficient. -/
theorem mix_unit (b : Byte) : aesMul 14 (aesMul 2 b) ^^^ aesMul 11 (aesMul 1 b) ^^^ aesMul 13 (aesMul 1 b) ^^^ aesMul 9 (aesMul 3 b) = b :=
  additive_ext (f := fun b => aesMul 14 (aesMul 2 b) ^^^ aesMul 11 (aesMul 1 b) ^^^ aesMul 13 (aesMul 1 b) ^^^ aesMul 9 (aesMul 3 b)) (g := fun b => b)
    (by intro x y; simp only [aesMul_xor]; ac_rfl) (fun _ _ => rfl) (by decide +kernel) b
theorem mix_zero1 (b : Byte) : aesMul 14 (aesMul 3 b) ^^^ aesMul 11 (aesMul 2 b) ^^^ aesMul 13 (aesMul 1 b) ^^^ aesMul 9 (aesMul 1 b) = 0 :=
  additive_ext (f := fun b => aesMul 14 (aesMul 3 b) ^^^ aesMul 11 (aesMul 2 b) ^^^ aesMul 13 (aesMul 1 b) ^^^ aesMul 9 (aesMul 1 b)) (g := fun _ => 0)
    (by intro x y; simp only [aesMul_xor]; ac_rfl) (fun _ _ => rfl) (by decide +kernel) b
theorem mix_zero2 (b : Byte) : aesMul 14 (aesMul 1 b) ^^^ aesMul 11 (aesMul 3 b) ^^^ aesMul 13 (aesMul 2 b) ^^^ aesMul 9 (aesMul 1 b) = 0 :=
  additive_ext (f := fun b => aesMul 14 (aesMul 1 b) ^^^ aesMul 11 (aesMul 3 b) ^^^ aesMul 13 (aesMul 2 b) ^^^ aesMul 9 (aesMul 1 b)) (g := fun _ => 0)
    (by intro x y; simp only [aesMul_xor]; ac_rfl) (fun _ _ => rfl) (by decide +kernel) b
theorem mix_zero3 (b : Byte) : aesMul 14 (aesMul 1 b) ^^^ aesMul 11 (aesMul 1 b) ^^^ aesMul 13 (aesMul 3 b) ^^^ aesMul 9 (aesMul 2 b) = 0 :=
  additive_ext (f := fun b => aesMul 14 (aesMul 1 b) ^^^ aesMul 11 (aesMul 1 b) ^^^ aesMul 13 (aesMul 3 b) ^^^ aesMul 9 (aesMul 2 b)) (g := fun _ => 0)
    (by intro x y; simp only [aesMul_xor]; ac_rfl) (fun _ _ => rfl) (by decide +kernel) b

/-! ### Blocks -/

theorem list16 {st : List Byte} (h : st.length = 16) : ∃ a b c d e f g i j k l m n o p q, st = [a, b, c, d, e, f, g, i, j, k, l, m, n, o, p, q] := by
  match st, h with
  | [a, b, c, d, e, f, g, i, j, k, l, m, n, o, p, q], _ => exact ⟨a, b, c, d, e, f, g, i, j, k, l, m, n, o, p, q, rfl⟩
theorem column_inverse (a b c d : Byte) :
    aesMul 14 (aesMul 2 a ^^^ aesMul 3 b ^^^ aesMul 1 c ^^^ aesMul 1 d) ^^^ aesMul 11 (aesMul 2 b ^^^ aesMul 3 c ^^^ aesMul 1 d ^^^ aesMul 1 a) ^^^
      aesMul 13 (aesMul 2 c ^^^ aesMul 3 d ^^^ aesMul 1 a ^^^ aesMul 1 b) ^^^ aesMul 9 (aesMul 2 d ^^^ aesMul 3 a ^^^ aesMul 1 b ^^^ aesMul 1 c) = a := by
  simp only [aesMul_xor]
  calc _ = (aesMul 14 (aesMul 2 a) ^^^ aesMul 11 (aesMul 1 a) ^^^ aesMul 13 (aesMul 1 a) ^^^ aesMul 9 (aesMul 3 a)) ^^^
      (aesMul 14 (aesMul 3 b) ^^^ aesMul 11 (aesMul 2 b) ^^^ aesMul 13 (aesMul 1 b) ^^^ aesMul 9 (aesMul 1 b)) ^^^
      (aesMul 14 (aesMul 1 c) ^^^ aesMul 11 (aesMul 3 c) ^^^ aesMul 13 (aesMul 2 c) ^^^ aesMul 9 (aesMul 1 c)) ^^^
      (aesMul 14 (aesMul 1 d) ^^^ aesMul 11 (aesMul 1 d) ^^^ aesMul 13 (aesMul 3 d) ^^^ aesMul 9 (aesMul 2 d)) := by ac_rfl
    _ = a := by rw [mix_unit, mix_zero1, mix_zero2, mix_zero3]; simp
theorem column (c0 c1 c2 c3 a b c d e f g i j k l m n o p q : Byte) : aesMixWith [c0, c1, c2, c3] [a, b, c, d, e, f, g, i, j, k, l, m, n, o, p, q] =
    let r := fun (a b c d : Byte) => aesMul c0 a ^^^ aesMul c1 b ^^^ aesMul c2 c ^^^ aesMul c3 d
    [r a b c d, r b c d a, r c d a b, r d a b c, r e f g i, r f g i e, r g i e f, r i e f g, r j k l m, r k l m j, r l m j k, r m j k l, r n o p q, r o p q n, r p q n o, r q n o p] := by
  have h : aesMixWith [c0, c1, c2, c3] [a, b, c, d, e, f, g, i, j, k, l, m, n, o, p, q] =
    [0 ^^^ aesMul c0 a ^^^ aesMul c1 b ^^^ aesMul c2 c ^^^ aesMul c3 d, 0 ^^^ aesMul c3 a ^^^ aesMul c0 b ^^^ aesMul c1 c ^^^ aesMul c2 d,
      0 ^^^ aesMul c2 a ^^^ aesMul c3 b ^^^ aesMul c0 c ^^^ aesMul c1 d, 0 ^^^ aesMul c1 a ^^^ aesMul c2 b ^^^ aesMul c3 c ^^^ aesMul c0 d,
     0 ^^^ aesMul c0 e ^^^ aesMul c1 f ^^^ aesMul c2 g ^^^ aesMul c3 i, 0 ^^^ aesMul c3 e ^^^ aesMul c0 f ^^^ aesMul c1 g ^^^ aesMul c2 i,
      0 ^^^ aesMul c2 e ^^^ aesMul c3 f ^^^ aesMul c0 g ^^^ aesMul c1 i, 0 ^^^ aesMul c1 e ^^^ aesMul c2 f ^^^ aesMul c3 g ^^^ aesMul c0 i,
     0 ^^^ aesMul c0 j ^^^ aesMul c1 k ^^^ aesMul c2 l ^^^ aesMul c3 m, 0 ^^^ aesMul c3 j ^^^ aesMul c0 k ^^^ aesMul c1 l ^^^ aesMul c2 m,
      0 ^^^ aesMul c2 j ^^^ aesMul c3 k ^^^ aesMul c0 l ^^^ aesMul c1 m, 0 ^^^ aesMul c1 j ^^^ aesMul c2 k ^^^ aesMul c3 l ^^^ aesMul c0 m,
     0 ^^^ aesMul c0 n ^^^ aesMul c1 o ^^^ aesMul c2 p ^^^ aesMul c3 q, 0 ^^^ aesMul c3 n ^^^ aesMul c0 o ^^^ aesMul c1 p ^^^ aesMul c2 q,
      0 ^^^ aesMul c2 n ^^^ aesMul c3 o ^^^ aesMul c0 p ^^^ aesMul c1 q, 0 ^^^ aesMul c1 n ^^^ aesMul c2 o ^^^ aesMul c3 p ^^^ aesMul c0 q] := rfl
  rw [h]; simp only [zero_xor_byte, List.cons.injEq, and_true, true_and]
  refine ⟨?_, ?_, ?_, ?_, ?_, ?_, ?_, ?_, ?_, ?_, ?_, ?_⟩ <;> ac_rfl
theorem aesMixInv_aesMix {st : List Byte} (h : st.length = 16) : aesMixInv (aesMix st) = st := by
  obtain ⟨a, b, c, d, e, f, g, i, j, k, l, m, n, o, p, q, rfl⟩ := list16 h
  rw [aesMix, column]; simp only []; rw [aesMixInv, column]; simp only [column_inverse]
theorem aesShiftInv_aesShift {st : List Byte} (h : st.length = 16) : aesShiftInv (aesShift st) = st := by
  obtain ⟨a, b, c, d, e, f, g, i, j, k, l, m, n, o, p, q, rfl⟩ := list16 h; rfl
theorem map_aesSInv_map_aesS (st : List Byte) : (st.map aesS).map aesSInv = st := by
  rw [List.map_map]; conv_rhs => rw [← List.map_id st]
  exact List.map_congr_left (fun b _ => aesSInv_aesS b)
@[simp] theorem xorBytes_length (a b : List Byte) : (xorBytes a b).length = min a.length b.length := by simp [xorBytes]
theorem xorBytes_xorBytes {a b : List Byte} (h : a.length = b.length) : xorBytes (xorBytes a b) b = a := by
  induction a generalizing b with
  | nil => cases b <;> simp [xorBytes]
  | cons x a ih =>
    cases b with
    | nil => simp at h
    | cons y b =>
      have := ih (b := b) (by simpa using h)
      simp only [xorBytes, List.zip_cons_cons, List.map_cons] at this ⊢
      rw [this, BitVec.xor_assoc, BitVec.xor_self, BitVec.xor_zero]
@[simp] theorem aesMix_length (st : List Byte) : (aesMix st).length = 16 := by simp [aesMix, aesMixWith]
@[simp] theorem aesShift_length (st : List Byte) : (aesShift st).length = 16 := by simp [aesShift]
/-- One round of decryption undoes one of encryption. -/
theorem round_inverse {st k : List Byte} (hk : k.length = 16) :
    aesMixInv (xorBytes ((aesShiftInv (aesShift ((xorBytes (aesMix (aesShift (st.map aesS))) k).map aesS))).map aesSInv) k) = aesShift (st.map aesS) := by
  rw [aesShiftInv_aesShift (by simp [hk]), map_aesSInv_map_aesS, xorBytes_xorBytes (by simp [hk]), aesMixInv_aesMix (by simp)]
/-- The state of the encryption before its round n + 1, and that of the decryption n rounds in. -/
def encAt (w : List Byte) (st : List Byte) (n : Nat) : List Byte :=
  (List.range n).foldl (fun st r => xorBytes (aesMix (aesShift (st.map aesS))) (roundKey w (r + 1))) (xorBytes st (roundKey w 0))
def decAt (w : List Byte) (st : List Byte) (n : Nat) : List Byte :=
  (List.range n).foldl (fun st r => aesMixInv (xorBytes ((aesShiftInv st).map aesSInv) (roundKey w (13 - r)))) st
theorem encAt_succ (w st : List Byte) (n : Nat) : encAt w st (n + 1) = xorBytes (aesMix (aesShift ((encAt w st n).map aesS))) (roundKey w (n + 1)) := by
  simp [encAt, List.range_succ]
theorem decAt_succ (w st : List Byte) (n : Nat) :
    decAt w st (n + 1) = aesMixInv (xorBytes ((aesShiftInv (decAt w st n)).map aesSInv) (roundKey w (13 - n))) := by
  simp [decAt, List.range_succ]
theorem encAt_length {w st : List Byte} (h : st.length = 16) (hk : ∀ r, r < 15 → (roundKey w r).length = 16) {n : Nat} (hn : n < 15) :
    (encAt w st n).length = 16 := by
  cases n with
  | zero => simp [encAt, h, hk 0]
  | succ n => rw [encAt_succ]; simp [hk (n + 1) hn]
/-- Decryption passes through the states of the encryption, backwards. -/
theorem decAt_encAt {w st : List Byte} (hk : ∀ r, r < 15 → (roundKey w r).length = 16) (n : Nat) (hn : n ≤ 13) :
    decAt w (aesShift ((encAt w st 13).map aesS)) n = aesShift ((encAt w st (13 - n)).map aesS) := by
  induction n with
  | zero => rfl
  | succ n ih =>
    rw [decAt_succ, ih (by omega)]
    have e : 13 - n = 13 - (n + 1) + 1 := by omega
    rw [e, encAt_succ]
    exact round_inverse (hk _ (by omega))
theorem aesDecW_aesEncW {w st : List Byte} (h : st.length = 16) (hk : ∀ r, r < 15 → (roundKey w r).length = 16) : aesDecW w (aesEncW w st) = st := by
  have e : aesEncW w st = xorBytes (aesShift ((encAt w st 13).map aesS)) (roundKey w 14) := rfl
  have d : ∀ x, aesDecW w x = xorBytes ((aesShiftInv (decAt w (xorBytes x (roundKey w 14)) 13)).map aesSInv) (roundKey w 0) := fun _ => rfl
  rw [d, e, xorBytes_xorBytes (by simp [hk 14]), decAt_encAt hk 13 (by omega), aesShiftInv_aesShift, map_aesSInv_map_aesS]
  · exact xorBytes_xorBytes (by rw [h, hk 0 (by omega)])
  · simpa using encAt_length h hk (n := 0) (by omega)
theorem aesEncW_length {w : List Byte} (st : List Byte) (hk : ∀ r, r < 15 → (roundKey w r).length = 16) : (aesEncW w st).length = 16 := by
  simp [aesEncW, hk 14]

/-! ### Keys -/

theorem aesExpand_length {key : List Byte} (h : key.length = 32) : (aesExpand key).length = 240 := by
  have word : ∀ (w : List Byte) (i : Nat), 4 * i + 4 ≤ w.length → (word4 w i).length = 4 := by intro w i hi; simp [word4]; omega
  have step : ∀ t : List Byte, t.length = 4 → ∀ i, (if i % 8 = 0 then
          match (t.drop 1 ++ t.take 1).map aesS with
          | h :: q => (h ^^^ aesRcon (i / 8 - 1)) :: q
          | [] => []
        else if i % 8 = 4 then t.map aesS else t).length = 4 := by
    intro t ht i
    match t, ht with
    | [p, q, r, s], _ =>
      split
      · rfl
      · split <;> rfl
  have go : ∀ n, ((List.range n).foldl (fun w j =>
      let i := j + 8
      let t := word4 w (i - 1)
      let t := if i % 8 = 0 then
          let r := (t.drop 1 ++ t.take 1).map aesS
          match r with
          | h :: q => (h ^^^ aesRcon (i / 8 - 1)) :: q
          | [] => []
        else if i % 8 = 4 then t.map aesS else t
      w ++ xorBytes (word4 w (i - 8)) t) key).length = 32 + 4 * n := by
    intro n
    induction n with
    | zero => simp [h]
    | succ n ih =>
      rw [List.range_succ, List.foldl_append]
      generalize (List.range n).foldl _ key = w at ih ⊢
      have a : (word4 w (n + 8 - 1)).length = 4 := word _ _ (by omega)
      have b : (word4 w (n + 8 - 8)).length = 4 := word _ _ (by omega)
      simp only [List.foldl_cons, List.foldl_nil, List.length_append, xorBytes_length, b]
      rw [step _ a, ih]; omega
  exact go 52
theorem roundKey_length {key : List Byte} (h : key.length = 32) (r : Nat) (hr : r < 15) : (roundKey (aesExpand key) r).length = 16 := by
  simp [roundKey, aesExpand_length h]; omega
theorem cmacGo_length {w : List Byte} (hk : ∀ r, r < 15 → (roundKey w r).length = 16) (k1 k2 : List Byte) (n : Nat) (c m : List Byte)
    (hc : c.length = 16) : (cmacGo w k1 k2 n c m).length = 16 := by
  induction n generalizing c m with
  | zero => exact hc
  | succ n ih =>
    rw [cmacGo]
    split
    · exact aesEncW_length _ hk
    · exact ih _ _ (aesEncW_length _ hk)
theorem cmac_length {key : List Byte} (h : key.length = 32) (m : List Byte) : (cmac key m).length = 16 :=
  cmacGo_length (roundKey_length h) _ _ _ _ _ (by simp)
theorem kdf_length (km : BitVec 256) (pn major : Nat) : (kdf km pn major).length = 96 := by
  have h : (natLe km.toNat 32).length = 32 := natLe_length _ _
  simp [kdf, List.range, List.range.loop, cmac_length h]
theorem keySet_lengths (km : BitVec 256) (pn major : Nat) : (keySet km pn major).k1.length = 32 ∧ (keySet km pn major).k2.length = 32 := by
  simp [keySet, kdf_length]

/-! ### Lines -/

theorem leNat_natLe (n v : Nat) (h : v < 256 ^ n) : leNat (natLe v n) = v := by
  induction n generalizing v with
  | zero => simp at h; simp [natLe, leNat, h]
  | succ n ih =>
    have hd : v / 256 < 256 ^ n := Nat.div_lt_of_lt_mul (by rw [Nat.pow_succ, Nat.mul_comm] at h; exact h)
    simp [natLe, leNat, ih _ hd]; omega
theorem xtsDbl_length (t : List Byte) : (xtsDbl t).length = 16 := by simp [xtsDbl, natLe_length]
theorem take_drop_natLe_leNat {a b c d : List Byte} (ha : a.length = 16) (hb : b.length = 16) (hc : c.length = 16) (hd : d.length = 16) :
    natLe (BitVec.ofNat 512 (leNat (a ++ b ++ c ++ d))).toNat 64 = a ++ b ++ c ++ d := by
  have hl : (a ++ b ++ c ++ d).length = 64 := by simp [ha, hb, hc, hd]
  have hlt := leNat_lt (a ++ b ++ c ++ d)
  rw [hl] at hlt
  have hp : (2 : Nat) ^ 512 = 256 ^ 64 := by rw [show (256 : Nat) = 2 ^ 8 from rfl, ← Nat.pow_mul]
  rw [BitVec.toNat_ofNat, hp, Nat.mod_eq_of_lt hlt, natLe_leNat _ _ (by omega), hl]; simp
/-- XTS over four given blocks. -/
theorem xtsLine_eq (f : List Byte → List Byte) (k2 : List Byte) (ln : Nat) (data : BitVec 512) {a b c d : List Byte}
    (ha : a.length = 16) (hb : b.length = 16) (hc : c.length = 16) (hd : d.length = 16) (h : natLe data.toNat 64 = a ++ b ++ c ++ d) :
    xtsLine f k2 ln data =
      let t0 := aesEncW (aesExpand k2) (natLe ln 16)
      BitVec.ofNat 512 (leNat (xorBytes (f (xorBytes a t0)) t0 ++ xorBytes (f (xorBytes b (xtsDbl t0))) (xtsDbl t0) ++
        xorBytes (f (xorBytes c (xtsDbl (xtsDbl t0)))) (xtsDbl (xtsDbl t0)) ++
        xorBytes (f (xorBytes d (xtsDbl (xtsDbl (xtsDbl t0))))) (xtsDbl (xtsDbl (xtsDbl t0))))) := by
  unfold xtsLine; rw [h]
  have e0 : ((a ++ b ++ c ++ d).drop (16 * 0)).take 16 = a := by simp [ha]
  have e1 : ((a ++ b ++ c ++ d).drop (16 * 1)).take 16 = b := by simp [ha, hb]
  have e2 : ((a ++ b ++ c ++ d).drop (16 * 2)).take 16 = c := by simp [List.drop_append, List.take_append, ha, hb, hc]
  have e3 : ((a ++ b ++ c ++ d).drop (16 * 3)).take 16 = d := by
    rw [List.drop_append, List.drop_eq_nil_of_le (by simp [ha, hb, hc])]; simp [ha, hb, hc, hd]
  simp only [List.range, List.range.loop, List.foldl_cons, List.foldl_nil, e0, e1, e2, e3, List.nil_append]
/-- Decryption with the inverse block function undoes encryption. -/
theorem xtsLine_inverse {f g : List Byte → List Byte} (hf : ∀ x, x.length = 16 → (f x).length = 16) (hg : ∀ x, x.length = 16 → g (f x) = x)
    {k2 : List Byte} (hk : k2.length = 32) (ln : Nat) (data : BitVec 512) : xtsLine g k2 ln (xtsLine f k2 ln data) = data := by
  have h0 : (aesEncW (aesExpand k2) (natLe ln 16)).length = 16 := aesEncW_length _ (roundKey_length hk)
  have hl : (natLe data.toNat 64).length = 64 := natLe_length _ _
  obtain ⟨a, b, c, d, ha, hb, hc, hd, hs⟩ : ∃ a b c d : List Byte, a.length = 16 ∧ b.length = 16 ∧ c.length = 16 ∧ d.length = 16 ∧
      natLe data.toNat 64 = a ++ b ++ c ++ d := by
    refine ⟨(natLe data.toNat 64).take 16, ((natLe data.toNat 64).drop 16).take 16, ((natLe data.toNat 64).drop 32).take 16, (natLe data.toNat 64).drop 48,
      by simp [hl], by simp [hl], by simp [hl], by simp [hl], ?_⟩
    conv_lhs => rw [← List.take_append_drop 48 (natLe data.toNat 64)]
    congr 1
  rw [xtsLine_eq f k2 ln data ha hb hc hd hs]
  generalize ht : aesEncW (aesExpand k2) (natLe ln 16) = t0 at h0
  have hx : ∀ x t : List Byte, x.length = 16 → t.length = 16 → (xorBytes (f (xorBytes x t)) t).length = 16 := by
    intro x t hx ht; rw [xorBytes_length, hf _ (by simp [hx, ht]), ht]; rfl
  have h1 := xtsDbl_length t0
  have h2 := xtsDbl_length (xtsDbl t0)
  have h3 := xtsDbl_length (xtsDbl (xtsDbl t0))
  have back : ∀ x t : List Byte, x.length = 16 → t.length = 16 → xorBytes (g (xorBytes (xorBytes (f (xorBytes x t)) t) t)) t = x := by
    intro x t hx ht
    rw [xorBytes_xorBytes (by rw [hf _ (by simp [hx, ht]), ht]), hg _ (by simp [hx, ht]), xorBytes_xorBytes (by rw [hx, ht])]
  simp only []
  rw [xtsLine_eq g k2 ln _ (hx a _ ha h0) (hx b _ hb h1) (hx c _ hc h2) (hx d _ hd h3)
    (take_drop_natLe_leNat (hx a _ ha h0) (hx b _ hb h1) (hx c _ hc h2) (hx d _ hd h3))]
  simp only [ht, back a t0 ha h0, back b _ hb h1, back c _ hc h2, back d _ hd h3]
  rw [← hs]
  have hp : (2 : Nat) ^ 512 = 256 ^ 64 := by rw [show (256 : Nat) = 2 ^ 8 from rfl, ← Nat.pow_mul]
  apply BitVec.eq_of_toNat_eq
  rw [BitVec.toNat_ofNat, leNat_natLe 64 _ (hp ▸ data.isLt), Nat.mod_eq_of_lt data.isLt]
/-- Decryption of a line undoes its encryption (R310). -/
theorem xtsDec_xtsEnc (km : BitVec 256) (pn major ln : Nat) (data : BitVec 512) :
    xtsDec (keySet km pn major) ln (xtsEnc (keySet km pn major) ln data) = data :=
  xtsLine_inverse (fun x _ => aesEncW_length x (roundKey_length (keySet_lengths km pn major).1))
    (fun x hx => aesDecW_aesEncW hx (roundKey_length (keySet_lengths km pn major).1)) (keySet_lengths km pn major).2 ln data

end Sys2Proof.Machine
end

