-- ==== Sys2Proof/Laws/Engine.lean ====
section
/-! SUPPORT. What the shared operations of the signal engines do, said once: an issued slot is `ranA`, `ranB` or `ranCT` of its results, and
each helper of the operand and flag computations in the words of 05 R151 to R168 and 06 R175 to R190. -/

namespace Sys2Proof.Machine

/-! ### Slot A: a legal operation of an engine that issues leaves exactly its results in flight -/

theorem slotA_legal {s : State} {g : Eng} (h : opens s g = true) (f : EngSt → List (Nat × ResW)) :
    slotA g true f s = engUpd s (engId g) (fun e => { putA e (f e) with half := 1 }) := by
  unfold opens at h
  simp only [slotA, h, if_true]
theorem engUpd_of_eq_at {s : State} {n : Nat} {f f' : EngSt → EngSt} (h : f (engGet s n) = f' (engGet s n)) : engUpd s n f = engUpd s n f' := by
  unfold engUpd tmod; unfold engGet at h; rw [h]
theorem slotA_eq_ranA {s : State} {g : Eng} {l : Bool} (h : opens s g = true) (hl : l = true) (f : EngSt → List (Nat × ResW)) {ws}
   (hw : f (engOf s g) = ws) : slotA g l f s = ranA s g ws := by
  subst hw hl
  rw [slotA_legal h]
  exact engUpd_of_eq_at rfl
theorem add_wraps_iff_overflow32 (a b : Word) : decide ((a + b).toInt ≠ a.toInt + b.toInt) = overflow32 (a.toInt + b.toInt) := by
  rw [BitVec.toInt_add, overflow32, Bool.eq_iff_iff]; simp
  have := BitVec.toInt_lt (x := a); have := BitVec.le_toInt (x:=a); have := BitVec.toInt_lt (x := b); have := BitVec.le_toInt (x:=b)
  simp [Int.bmod] at *
  split <;> omega
theorem sub_wraps_iff_overflow32 (a b : Word) : decide ((a - b).toInt ≠ a.toInt - b.toInt) = overflow32 (a.toInt - b.toInt) := by
  rw [BitVec.toInt_sub, overflow32, Bool.eq_iff_iff]; simp
  have := BitVec.toInt_lt (x := a); have := BitVec.le_toInt (x:=a); have := BitVec.toInt_lt (x := b); have := BitVec.le_toInt (x:=b)
  simp [Int.bmod] at *
  split <;> omega
theorem flags_eq_flagWord (r : Word) (c v : Bool) : flagsZN r ||| when c St.C ||| when v St.V = flagWord (r == 0) r.msb c v := by
  have : r.msb = r.getLsbD 31 := rfl
  rw [this]; unfold flagsZN; generalize (r == 0) = z; generalize r.getLsbD 31 = n
  cases z <;> cases n <;> cases c <;> cases v <;> rfl
theorem flagsZN_eq_flagWord (r : Word) : flagsZN r = flagWord (r == 0) r.msb false false := by rw [← flags_eq_flagWord]; simp [when]
theorem packW_eq_append (re im : BitVec 16) : packW re im = im ++ re := by
  unfold packW
  apply BitVec.eq_of_getLsbD_eq
  intro i hi
  simp only [BitVec.getLsbD_or, BitVec.getLsbD_setWidth, BitVec.getLsbD_shiftLeft, BitVec.getLsbD_append, hi]
  by_cases h : i < 16
  · simp [h]
  · simp [h]; rw [BitVec.getLsbD_of_ge re i (by omega)]; simp; omega
theorem sat16_eq_clip (v : Int) : sat16 v = BitVec.ofInt 16 (max (-32768) (min 32767 v)) := by
  unfold sat16; split
  · rw [max_eq_left (by omega)]; rfl
  · split
    · rw [min_eq_left (by omega)]; rfl
    · congr 1; omega
theorem clips16_eq_out_of_range (v : Int) : clips16 v = decide (v < -32768 ∨ 32767 < v) := by simp [clips16]
theorem resSat_eq_clips (rd : BitVec 4) (a b : Int) : resSat rd a b = (1, ResW.reg rd.toNat (BitVec.ofInt 16 (max (-32768) (min 32767 b)) ++ BitVec.ofInt 16 (max (-32768) (min 32767 a)))) ::
   (if decide (a < -32768 ∨ 32767 < a) || decide (b < -32768 ∨ 32767 < b) then [(1, ResW.sticky 0x10)] else []) := by
  rw [resSat, packW_eq_append, sat16_eq_clip, sat16_eq_clip, clips16_eq_out_of_range, clips16_eq_out_of_range]; rfl
theorem resAcc_eq_wraps (ad : BitVec 2) (re im : Int) : resAcc ad re im = (1, ResW.acc ad.toNat ⟨BitVec.ofInt 48 re, BitVec.ofInt 48 im⟩) ::
        (if decide (re < -2 ^ 47 ∨ 2 ^ 47 - 1 < re) || decide (im < -2 ^ 47 ∨ 2 ^ 47 - 1 < im) then [(1, ResW.sticky 0x20)] else []) := by
  have : ∀ v : Int, wraps48 v = decide (v < -2 ^ 47 ∨ 2 ^ 47 - 1 < v) := by
    intro v; unfold wraps48; rw [Bool.eq_iff_iff]; simp; omega
  simp only [resAcc, this]; rfl
theorem sat32_eq_clip (v : Int) : sat32 v = BitVec.ofInt 32 (max (-2 ^ 31) (min (2 ^ 31 - 1) v)) := by
  unfold sat32; split
  · rw [max_eq_left (by omega)]; rfl
  · split
    · rw [min_eq_left (by omega)]; rfl
    · congr 1; omega
theorem setWidth_eq_low_part (v : BitVec 48) : v.setWidth 32 = v.extractLsb' 0 32 := by ext i; simp
theorem shift_setWidth_eq_high_part (v : BitVec 48) : (v >>> 32).setWidth 16 = v.extractLsb' 32 16 := by ext i; simp
theorem bexpOf_eq_field (e : EngSt) : bexpOf e = ((stOf e).extractLsb' 16 6).toNat := by unfold bexpOf; simp [BitVec.extractLsb'_toNat]
theorem beOf_eq_field (e : EngSt) : beOf e = ((stOf e).extractLsb' 24 8).toInt := by unfold beOf; congr 1
theorem exponent_field_eq_append (c : BitVec 8) : c.setWidth 32 <<< 24 = c ++ (0 : BitVec 24) := by
  apply BitVec.eq_of_toNat_eq
  rw [BitVec.toNat_append, BitVec.toNat_shiftLeft, BitVec.toNat_setWidth]
  have := c.isLt
  simp [Nat.shiftLeft_eq]; omega
theorem closeBlock_eq_clamps (v : Int) : closeBlock v = (1, ResW.stBits 0xFF3F0000 (BitVec.ofInt 8 (max (-128) (min 127 v)) ++ (0 : BitVec 24))) ::
        (if decide (v < -128 ∨ 127 < v) then [(1, ResW.sticky 0x200)] else []) := by
  have h1 : (if v < -128 then -128 else if 127 < v then 127 else v) = max (-128) (min 127 v) := by omega
  have h2 : decide (max (-128) (min 127 v) ≠ v) = decide (v < -128 ∨ 127 < v) := by rw [Bool.eq_iff_iff]; simp; omega
  simp only [closeBlock, h1, h2, exponent_field_eq_append]; rfl
theorem truncOmega_eq_sum (a b : BitVec 16) : truncOmega a b = ((List.range 12).map (fun i => ((List.range (12 - i)).map (fun j =>
      2 ^ (i + j) * ((a.getLsbD i).toNat * (b.getLsbD j).toNat))).sum)).sum := by
  unfold truncOmega; congr 2; funext i; congr 2; funext j
  cases a.getLsbD i <;> cases b.getLsbD j <;> simp
/-! ### Slot B -/

theorem slotB_eq_ranB {s : State} {g : Eng} {l : Bool} (h : canIssue s (engId g) = true) (hl : l = true) (f : EngSt → List (Nat × ResW)) {ws}
   (hw : f (engOf s g) = ws) : slotB g l f s = ranB s g ws := by
  subst hw hl; simp [slotB, h, ranB, engOf]
theorem slotCT_eq_ranCT {s : State} {g : Eng} {l : Bool} (h : canIssue s (engId g) = true) (hl : l = true) (hf : (engOf s g).flow = .seq) (f : EngSt → List (Nat × ResW) × Nat × Flow) {ws p fl}
   (hw : f (engOf s g) = (ws, p, fl)) : slotCT g l f s = ranCT s g ws p fl := by
  subst hl; unfold engOf at *; simp [slotCT, h, ranCT, engOf, hf, hw]
theorem slotCT_ignored_eq_ranB {s : State} {g : Eng} {l : Bool} (h : canIssue s (engId g) = true) (hl : l = true) (hf : (engOf s g).flow ≠ .seq) (f : EngSt → List (Nat × ResW) × Nat × Flow)  :
   slotCT g l f s = ranB s g [(1, .sticky 0x80)] := by
  subst hl; unfold engOf at *; simp [slotCT, h, ranB, engOf, hf, St.ILLS]
theorem sub_mod_eq_div_mul (a w : Nat) : a - a % w = a / w * w := by
  have := Nat.div_add_mod a w; rw [Nat.mul_comm] at this; omega
theorem aNew_eq_address_rule (e : EngSt) (ai : BitVec 3) (mode : BitVec 2) (md : BitVec 15) : aNew e ai mode md =
   (let reg := fun (n : Nat) => regRead e e.bank n
    let a := (reg (16 + ai.toNat)).toNat
    let b := (reg (32 + ai.toNat)).toNat
    let l := (reg (40 + ai.toNat)).toNat
    let m := if mode.getLsbD 0 then md.toInt else (reg (24 + (md.extractLsb' 12 3).toNat)).toInt
    if l = 0 then ((a + m) % 2 ^ 20).toNat else ((b + ((a - b + m) % l)) % 2 ^ 20).toNat) := by
  have : (md >>> 12).toNat = (md.extractLsb' 12 3).toNat := by
    simp [BitVec.extractLsb'_toNat]; have := md.isLt; omega
  simp only [aNew, addrUpdate, modOf, this]
theorem accAddr_eq_aligned (e : EngSt) (ai : BitVec 3) (mode : BitVec 2) (md : BitVec 15) (w : Nat) : accAddr e ai mode md w =
   (if mode.getLsbD 1 = false then (regRead e e.bank (16 + ai.toNat)).toNat else aNew e ai mode md) / w * w := by
  unfold accAddr; simp only [sub_mod_eq_div_mul]; cases mode.getLsbD 1 <;> rfl
theorem aUpdate_eq_post (e : EngSt) (ai : BitVec 3) (mode : BitVec 2) (md : BitVec 15) : aUpdate e ai mode md =
   (if mode.getLsbD 1 = false then [(1, .reg (16 + ai.toNat) (BitVec.ofNat 32 (aNew e ai mode md)))] else []) := by
  unfold aUpdate; cases mode.getLsbD 1 <;> rfl
theorem mdLegal_of_form {mode : BitVec 2} {md : BitVec 15} (h : mode.getLsbD 0 = true ∨ md.extractLsb' 0 12 = 0) : mdLegal mode md = true := by
  unfold mdLegal; simp at *; rcases h with h | h
  · left; exact h
  · right; rw [← h]; ext i; simp
theorem storeRes_eq_writes (ai : BitVec 3) (mode : BitVec 2) (md : BitVec 15) (w : Nat) (v : EngSt → BitVec 64) (e : EngSt) :
    storeRes ai mode md w v e = (fun (w : Nat) (v : BitVec 64) =>
      if accAddr e ai mode md w < 0x8040 ∨ (accAddr e ai mode md w = 0x80C8 ∧ w = 4) ∨ 0x80000 ≤ accAddr e ai mode md w then [(2, ResW.store (accAddr e ai mode md w) w v)]
      else if accAddr e ai mode md w = 0x8040 ∧ w = 8 ∧ v.toNat / 2 ^ 16 % 128 ≤ 64 ∧ v.toNat / 2 ^ 25 % 128 = 0 ∧ v.toNat / 2 ^ 44 = 0 then
        [(2, ResW.send v ((List.range (v.toNat / 2 ^ 16 % 128)).map (fun i => tget 0 e.msgOut i)))]
      else [(1, ResW.sticky 0x40)]) w (v e) ++ aUpdate e ai mode md := by
  unfold storeRes storeWrites storeOk sendOk; beta_reduce
  generalize accAddr e ai mode md w = a
  simp only [Bool.or_eq_true, decide_eq_true_eq, Bool.and_eq_true, St.AERR]
  congr 1
  by_cases h1 : a < 0x8040 ∨ (a = 0x80C8 ∧ w = 4) ∨ 0x80000 ≤ a
  · rw [if_pos (by tauto), if_neg (by omega), if_pos h1]
  · rw [if_neg h1]
    by_cases h2 : a = 0x8040 ∧ w = 8
    · rw [if_pos (by tauto), if_pos h2.1]
      split <;> split <;> first | rfl | (exfalso; tauto)
    · rw [if_neg (by tauto), if_neg (by tauto)]
theorem pair_eq_append (e : EngSt) (rs : BitVec 6) (h : rs.toNat < 16) (h2 : rs.toNat % 2 = 0) :
    (rb e rs).setWidth 64 ||| ((rb e (rs + 1)).setWidth 64 <<< 32) = regRead e e.bank (rs.toNat + 1) ++ regRead e e.bank rs.toNat := by
  have : (rs + 1).toNat = rs.toNat + 1 := by rw [BitVec.toNat_add]; simp; omega
  unfold rb; rw [this]; generalize regRead e e.bank (rs.toNat + 1) = p; generalize regRead e e.bank rs.toNat = q
  apply BitVec.eq_of_getLsbD_eq
  intro i hi
  simp only [BitVec.getLsbD_or, BitVec.getLsbD_setWidth, BitVec.getLsbD_shiftLeft, BitVec.getLsbD_append, hi]
  by_cases h : i < 32
  · simp [h]
  · simp [h]; rw [BitVec.getLsbD_of_ge q i (by omega)]; simp; omega
theorem stBit_eq_getLsbD (v : Word) (i : Nat) (hi : i < 32) : stBit v (BitVec.ofNat 32 (2^i)) = v.getLsbD i := by
  unfold stBit
  rw [show BitVec.ofNat 32 (2^i) = BitVec.twoPow 32 i from BitVec.eq_of_toNat_eq (by simp [BitVec.toNat_twoPow]), BitVec.and_twoPow]
  cases v.getLsbD i <;> simp
  intro hc
  have := congrArg (fun v => BitVec.getLsbD v i) hc
  simp [hi] at this
theorem condHolds_eq_table (c : BitVec 4) (st : Word) : condHolds c st = (match c.toNat with
      | 0 => true | 1 => st.getLsbD 0 | 2 => !st.getLsbD 0 | 3 => st.getLsbD 1 | 4 => !st.getLsbD 1 | 5 => st.getLsbD 2 | 6 => !st.getLsbD 2 | 7 => st.getLsbD 3 | 8 => !st.getLsbD 3
      | 9 => xor (st.getLsbD 1) (st.getLsbD 3) | 10 => !xor (st.getLsbD 1) (st.getLsbD 3) | 11 => !st.getLsbD 0 && !xor (st.getLsbD 1) (st.getLsbD 3) | _ => st.getLsbD 0 || xor (st.getLsbD 1) (st.getLsbD 3)) := by
  have h0 := stBit_eq_getLsbD st 0 (by omega); have h1 := stBit_eq_getLsbD st 1 (by omega); have h2 := stBit_eq_getLsbD st 2 (by omega); have h3 := stBit_eq_getLsbD st 3 (by omega)
  unfold condHolds
  simp only [show St.Z = BitVec.ofNat 32 (2^0) from rfl, show St.N = BitVec.ofNat 32 (2^1) from rfl, show St.C = BitVec.ofNat 32 (2^2) from rfl, show St.V = BitVec.ofNat 32 (2^3) from rfl, h0, h1, h2, h3]
  split <;> simp_all <;> (generalize st[1] = p; generalize st[3] = q; generalize st[0] = r; revert p q r; decide)
/-! ### An illegal bundle -/

theorem engFault_facts (s : State) (n cause pc : Nat) (hc : cause < 256) (hp : pc < 1024) :
   engState (engFault s n cause pc) n = 3 ∧ fget (engFault s n cause pc) (engBase n) Reg.Eng.FAULT_CAUSE = cause ∧ fget (engFault s n cause pc) (engBase n) Reg.Eng.FAULT_PC = pc
   ∧ (engGet (engFault s n cause pc) n) = { stageDiscard (engGet s n) with flow := .seq, starting := 0 } := by
  unfold engFault setEngState engState
  refine ⟨?_,?_,?_,?_⟩
  · rw [fget_fset_ne _ (by unfold fkey; intro h; simp [Reg.Eng.STATE, Reg.Eng.LAST_END] at h), fget_fset_ne _ (by unfold fkey; simp [Reg.Eng.STATE, Reg.Eng.FAULT_PC]), fget_fset_ne _ (by unfold fkey; simp [Reg.Eng.STATE, Reg.Eng.FAULT_CAUSE]), fget_fset_self]; rfl
  · rw [fget_fset_ne _ (by unfold fkey; simp [Reg.Eng.FAULT_CAUSE, Reg.Eng.LAST_END]; omega), fget_fset_ne _ (by unfold fkey; simp [Reg.Eng.FAULT_CAUSE, Reg.Eng.FAULT_PC]),  fget_fset_self]; exact Nat.mod_eq_of_lt hc
  · rw [fget_fset_ne _ (by unfold fkey; simp [Reg.Eng.FAULT_PC, Reg.Eng.LAST_END]; omega), fget_fset_self]; exact Nat.mod_eq_of_lt hp
  · simp
theorem illegalBundle_facts (s : State) (g : Eng) (hp : (engOf s g).pc < 1024) : ∃ t, Host.Outcome.next (illegalBundle s (engId g)) = (.next t : Out) ∧ engState t (engId g) = 3 ∧
      fget t (engBase (engId g)) Reg.Eng.FAULT_CAUSE = 3 ∧ fget t (engBase (engId g)) Reg.Eng.FAULT_PC = (engOf s g).pc ∧
      (∀ r ∈ (engOf t g).fly, r.seq ≠ (engOf s g).seq) ∧ (engOf t g).main = (engOf s g).main ∧ (engOf t g).dm = (engOf s g).dm := by
  refine ⟨_, rfl, ?_⟩
  unfold illegalBundle
  obtain ⟨h1,h2,h3,h4⟩ := engFault_facts (engSet s (engId g) { engGet s (engId g) with fly := (engGet s (engId g)).fly.filter (fun r => r.seq != (engGet s (engId g)).seq) }) (engId g) 3 (engGet s (engId g)).pc (by omega) hp
  refine ⟨h1,h2,h3,?_⟩
  unfold engOf; rw [h4]; simp [stageDiscard]

end Sys2Proof.Machine
end

