-- ==== Sys2Proof/Laws/Keep.lean ====
section
/-! SUPPORT. What every operation keeps, said once: `Keep k s` holds of a state with the queue, the free-value counter at least and
the rollback count at least those of `k`, and with `Inv`. The files Laws/Keep*.lean hold one lemma per operation. -/

namespace Sys2Proof.Machine

/-- What an operation is measured against: a queue, a count of free values and a rollback count. -/
structure KeepAt where
  queue : List Instr
  free : Nat
  rollback : Nat

/-- The state keeps to `k`. -/
def Keep (k : KeepAt) (s : State) : Prop :=
  s.pending = k.queue ∧ k.free ≤ s.free ∧ k.rollback ≤ s.fuses.rollback ∧ Memory.wf s.dram = true ∧ rising s.csr

variable {k : KeepAt}

/-- A change of other fields keeps. -/
theorem keep_mk {s : State} {csr fresh pending rsp free isl hitch spine bram recent eng eis tim frames ff load pwr fuses flash boot csPos csStart mb plan
    parts sessions nextSession alarms nextAlarm alarmLost lostSeq up net way outs nic noc hw selfFenced frameAt dram mc sec
    lane quad bight tap fns pcie msi port}
    (h1 : pending = s.pending) (h2 : free = s.free) (h3 : fuses = s.fuses) (h4 : dram = s.dram) (h5 : csr = s.csr) (h : Keep k s) :
    Keep k (State.mk csr fresh pending rsp free isl hitch spine bram recent eng eis tim frames ff load pwr fuses flash boot csPos csStart mb plan
    parts sessions nextSession alarms nextAlarm alarmLost lostSeq up net way outs nic noc hw selfFenced frameAt dram mc sec
    lane quad bight tap fns pcie msi port) := by
  subst h1 h2 h3 h4 h5
  exact h

/-- A new free value keeps. -/
theorem keep_free {s : State} {csr fresh pending rsp free isl hitch spine bram recent eng eis tim frames ff load pwr fuses flash boot csPos csStart mb plan
    parts sessions nextSession alarms nextAlarm alarmLost lostSeq up net way outs nic noc hw selfFenced frameAt dram mc sec
    lane quad bight tap fns pcie msi port}
    (h1 : pending = s.pending) (h2 : free = s.free + 1) (h3 : fuses = s.fuses) (h4 : dram = s.dram) (h5 : csr = s.csr) (h : Keep k s) :
    Keep k (State.mk csr fresh pending rsp free isl hitch spine bram recent eng eis tim frames ff load pwr fuses flash boot csPos csStart mb plan
    parts sessions nextSession alarms nextAlarm alarmLost lostSeq up net way outs nic noc hw selfFenced frameAt dram mc sec
    lane quad bight tap fns pcie msi port) := by
  subst h1 h2 h3 h4 h5
  exact ⟨h.1, Nat.le_succ_of_le h.2.1, h.2.2⟩

theorem keep_ite {c : Prop} [Decidable c] {a b : State} (ha : c → Keep k a) (hb : ¬c → Keep k b) : Keep k (if c then a else b) := by
  split
  · exact ha ‹_›
  · exact hb ‹_›
theorem keep_ite2 {α : Type} {c : Prop} [Decidable c] {a b : α × State} (ha : c → Keep k a.2) (hb : ¬c → Keep k b.2) :
    Keep k (if c then a else b).2 := by
  split
  · exact ha ‹_›
  · exact hb ‹_›
theorem keep_ite1 {α : Type} {c : Prop} [Decidable c] {a b : State × α} (ha : c → Keep k a.1) (hb : ¬c → Keep k b.1) :
    Keep k (if c then a else b).1 := by
  split
  · exact ha ‹_›
  · exact hb ‹_›
theorem keep_ite3 {α β : Type} {c : Prop} [Decidable c] {a b : α × β × State} (ha : c → Keep k a.2.2) (hb : ¬c → Keep k b.2.2) :
    Keep k (if c then a else b).2.2 := by
  split
  · exact ha ‹_›
  · exact hb ‹_›
theorem keep_foldl {α : Type} {f : State → α → State} {l : List α} {s : State} (h : Keep k s) (hf : ∀ s x, Keep k s → Keep k (f s x)) :
    Keep k (l.foldl f s) := by
  induction l generalizing s with
  | nil => exact h
  | cons a l ih => exact ih (hf s a h)
theorem keep_foldl2 {α β : Type} {f : β × State → α → β × State} {l : List α} {p : β × State} (h : Keep k p.2)
    (hf : ∀ p x, Keep k p.2 → Keep k (f p x).2) : Keep k (l.foldl f p).2 := by
  induction l generalizing p with
  | nil => exact h
  | cons a l ih => exact ih (hf p a h)
theorem keep_foldl3 {α β γ : Type} {f : β × γ × State → α → β × γ × State} {l : List α} {p : β × γ × State} (h : Keep k p.2.2)
    (hf : ∀ p x, Keep k p.2.2 → Keep k (f p x).2.2) : Keep k (l.foldl f p).2.2 := by
  induction l generalizing p with
  | nil => exact h
  | cons a l ih => exact ih (hf p a h)

theorem fset_keep {s : State} (b : Nat) (f : Fld) (v : Nat) (h : Keep k s) : Keep k (fset s b f v) :=
  ⟨h.1, h.2.1, h.2.2.1, h.2.2.2.1, rising_tset _ _ _ h.2.2.2.2⟩
theorem fset2_keep {s : State} (b : Nat) (f : Fld) (v w : Nat) (h : Keep k s) : Keep k (fset2 s b f v w) :=
  ⟨h.1, h.2.1, h.2.2.1, h.2.2.2.1, rising_tset _ _ _ h.2.2.2.2⟩
theorem fclr_keep {s : State} (b : Nat) (f : Fld) (h : Keep k s) : Keep k (fclr s b f) :=
  ⟨h.1, h.2.1, h.2.2.1, h.2.2.2.1, rising_tset _ _ _ h.2.2.2.2⟩
theorem rising_put (l : List (Nat × Nat)) (t : Tab Nat) (h : rising t) : rising (l.foldr (fun p t => tins p (tdel t p.1)) t) := by
  induction l with
  | nil => exact h
  | cons p l ih => exact rising_tins _ _ (rising_tdel _ ih) (fun q hq => by simpa [tdel] using (List.mem_filter.mp hq).2)
theorem csrWipe_keep {s : State} (lo hi : Nat) (h : Keep k s) : Keep k (csrWipe s lo hi) :=
  ⟨h.1, h.2.1, h.2.2.1, h.2.2.2.1, rising_put _ _ (rising_tclear _ _ h.2.2.2.2)⟩
theorem csrClear_keep {s : State} (lo hi : Nat) (h : Keep k s) : Keep k (csrClear s lo hi) :=
  ⟨h.1, h.2.1, h.2.2.1, h.2.2.2.1, rising_tclear _ _ h.2.2.2.2⟩
theorem dramSet_keep {s : State} (n line : Nat) (l : DLine) (h : Keep k s) : Keep k (dramSet s n line l) :=
  ⟨h.1, h.2.1, h.2.2.1, twf_tset _ _ _ h.2.2.2.1, h.2.2.2.2⟩
theorem freset_keep {s : State} (b : Nat) (l : List Fld) (h : Keep k s) : Keep k (freset s b l) := by
  induction l generalizing s with
  | nil => exact h
  | cons f l ih => exact ih (fset_keep b f f.rst h)

end Sys2Proof.Machine
end

