-- ==== Sys2Proof/Laws/KeepOps.lean ====
section
/-! SUPPORT. The operations of Machine/Ops.lean keep the queue, the counts that only rise, and `Inv`. -/

namespace Sys2Proof.Machine

set_option linter.unusedTactic false
set_option linter.unreachableTactic false
set_option linter.unusedVariables false

variable {k : KeepAt}

theorem fflag_keep (s : State) (base : ℕ) (f : Fld) (b : Bool) (h0 : Keep k s) :
    Keep k (fflag s base f b) := by
  unfold fflag
  repeat' (first | (with_reducible assumption) | (intro _) | (with_reducible (first | apply fset_keep)) | (with_reducible (first | apply keep_ite | apply keep_ite2 | apply keep_ite3 | apply keep_ite1 | apply keep_foldl | apply keep_foldl2 | apply keep_foldl3 | (fail_if_no_progress refine keep_mk rfl rfl rfl rfl rfl ?_) | refine keep_free rfl rfl rfl rfl rfl ?_)) | dsimp only | split)
theorem faddSat_keep (s : State) (base : ℕ) (f : Fld) (n : ℕ) (h0 : Keep k s) :
    Keep k (faddSat s base f n) := by
  unfold faddSat
  repeat' (first | (with_reducible assumption) | (intro _) | (with_reducible (first | apply fset2_keep)) | (with_reducible (first | apply keep_ite | apply keep_ite2 | apply keep_ite3 | apply keep_ite1 | apply keep_foldl | apply keep_foldl2 | apply keep_foldl3 | (fail_if_no_progress refine keep_mk rfl rfl rfl rfl rfl ?_) | refine keep_free rfl rfl rfl rfl rfl ?_)) | dsimp only | split)
theorem finc_keep (s : State) (base : ℕ) (f : Fld) (h0 : Keep k s) :
    Keep k (finc s base f) := by
  unfold finc
  repeat' (first | (with_reducible assumption) | (intro _) | (with_reducible (first | apply faddSat_keep)) | (with_reducible (first | apply keep_ite | apply keep_ite2 | apply keep_ite3 | apply keep_ite1 | apply keep_foldl | apply keep_foldl2 | apply keep_foldl3 | (fail_if_no_progress refine keep_mk rfl rfl rfl rfl rfl ?_) | refine keep_free rfl rfl rfl rfl rfl ?_)) | dsimp only | split)
theorem fincWrap_keep (s : State) (base : ℕ) (f : Fld) (h0 : Keep k s) :
    Keep k (fincWrap s base f) := by
  unfold fincWrap
  repeat' (first | (with_reducible assumption) | (intro _) | (with_reducible (first | apply fset_keep)) | (with_reducible (first | apply keep_ite | apply keep_ite2 | apply keep_ite3 | apply keep_ite1 | apply keep_foldl | apply keep_foldl2 | apply keep_foldl3 | (fail_if_no_progress refine keep_mk rfl rfl rfl rfl rfl ?_) | refine keep_free rfl rfl rfl rfl rfl ?_)) | dsimp only | split)
theorem fsetBit_keep (s : State) (base : ℕ) (f : Fld) (i : ℕ) (b : Bool) (h0 : Keep k s) :
    Keep k (fsetBit s base f i b) := by
  unfold fsetBit
  repeat' (first | (with_reducible assumption) | (intro _) | (with_reducible (first | apply fset2_keep)) | (with_reducible (first | apply keep_ite | apply keep_ite2 | apply keep_ite3 | apply keep_ite1 | apply keep_foldl | apply keep_foldl2 | apply keep_foldl3 | (fail_if_no_progress refine keep_mk rfl rfl rfl rfl rfl ?_) | refine keep_free rfl rfl rfl rfl rfl ?_)) | dsimp only | split)
theorem fwipe_keep (s : State) (base : ℕ) (l : List Fld) (h0 : Keep k s) :
    Keep k (fwipe s base l) := by
  unfold fwipe
  repeat' (first | (with_reducible assumption) | (intro _) | (with_reducible (first | apply fclr_keep)) | (with_reducible (first | apply keep_ite | apply keep_ite2 | apply keep_ite3 | apply keep_ite1 | apply keep_foldl | apply keep_foldl2 | apply keep_foldl3 | (fail_if_no_progress refine keep_mk rfl rfl rfl rfl rfl ?_) | refine keep_free rfl rfl rfl rfl rfl ?_)) | dsimp only | split)
theorem writeField_keep (s : State) (base : ℕ) (f : Fld) (v : Word) (h0 : Keep k s) :
    Keep k (writeField s base f v) := by
  unfold writeField
  split
  · exact fset_keep _ _ _ h0
  · exact keep_ite (fun _ => fset_keep _ _ _ h0) (fun _ => h0)
  · exact ⟨h0.1, h0.2.1, h0.2.2.1, h0.2.2.2.1, rising_tset _ _ _ h0.2.2.2.2⟩
  · exact fset_keep _ _ _ h0
  · exact h0
  · exact h0
theorem writeFields_keep (s : State) (base : ℕ) (fs : List Fld) (v : Word) (h0 : Keep k s) :
    Keep k (writeFields s base fs v) := by
  unfold writeFields
  repeat' (first | (with_reducible assumption) | (intro _) | (with_reducible (first | apply writeField_keep)) | (with_reducible (first | apply keep_ite | apply keep_ite2 | apply keep_ite3 | apply keep_ite1 | apply keep_foldl | apply keep_foldl2 | apply keep_foldl3 | (fail_if_no_progress refine keep_mk rfl rfl rfl rfl rfl ?_) | refine keep_free rfl rfl rfl rfl rfl ?_)) | dsimp only | split)
theorem answer_keep (s : State) (r : Resp) (v : Word) (h0 : Keep k s) :
    Keep k (answer s r v) := by
  unfold answer
  repeat' (first | (with_reducible assumption) | (intro _) | (with_reducible (first | apply keep_ite | apply keep_ite2 | apply keep_ite3 | apply keep_ite1 | apply keep_foldl | apply keep_foldl2 | apply keep_foldl3 | (fail_if_no_progress refine keep_mk rfl rfl rfl rfl rfl ?_) | refine keep_free rfl rfl rfl rfl rfl ?_)) | dsimp only | split)
theorem answerBytes_keep (s : State) (r : Resp) (b : List Byte) (h0 : Keep k s) :
    Keep k (answerBytes s r b) := by
  unfold answerBytes
  repeat' (first | (with_reducible assumption) | (intro _) | (with_reducible (first | apply keep_ite | apply keep_ite2 | apply keep_ite3 | apply keep_ite1 | apply keep_foldl | apply keep_foldl2 | apply keep_foldl3 | (fail_if_no_progress refine keep_mk rfl rfl rfl rfl rfl ?_) | refine keep_free rfl rfl rfl rfl rfl ?_)) | dsimp only | split)
theorem islUpd_keep (s : State) (n : ℕ) (f : IslSt → IslSt) (h0 : Keep k s) :
    Keep k (islUpd s n f) := by
  unfold islUpd
  repeat' (first | (with_reducible assumption) | (intro _) | (with_reducible (first | apply keep_ite | apply keep_ite2 | apply keep_ite3 | apply keep_ite1 | apply keep_foldl | apply keep_foldl2 | apply keep_foldl3 | (fail_if_no_progress refine keep_mk rfl rfl rfl rfl rfl ?_) | refine keep_free rfl rfl rfl rfl rfl ?_)) | dsimp only | split)
theorem engUpd_keep (s : State) (n : ℕ) (f : EngSt → EngSt) (h0 : Keep k s) :
    Keep k (engUpd s n f) := by
  unfold engUpd
  repeat' (first | (with_reducible assumption) | (intro _) | (with_reducible (first | apply keep_ite | apply keep_ite2 | apply keep_ite3 | apply keep_ite1 | apply keep_foldl | apply keep_foldl2 | apply keep_foldl3 | (fail_if_no_progress refine keep_mk rfl rfl rfl rfl rfl ?_) | refine keep_free rfl rfl rfl rfl rfl ?_)) | dsimp only | split)
theorem engSet_keep (s : State) (n : ℕ) (e : EngSt) (h0 : Keep k s) :
    Keep k (engSet s n e) := by
  unfold engSet
  repeat' (first | (with_reducible assumption) | (intro _) | (with_reducible (first | apply keep_ite | apply keep_ite2 | apply keep_ite3 | apply keep_ite1 | apply keep_foldl | apply keep_foldl2 | apply keep_foldl3 | (fail_if_no_progress refine keep_mk rfl rfl rfl rfl rfl ?_) | refine keep_free rfl rfl rfl rfl rfl ?_)) | dsimp only | split)
theorem eisUpd_keep (s : State) (n : ℕ) (f : EisSt → EisSt) (h0 : Keep k s) :
    Keep k (eisUpd s n f) := by
  unfold eisUpd
  repeat' (first | (with_reducible assumption) | (intro _) | (with_reducible (first | apply keep_ite | apply keep_ite2 | apply keep_ite3 | apply keep_ite1 | apply keep_foldl | apply keep_foldl2 | apply keep_foldl3 | (fail_if_no_progress refine keep_mk rfl rfl rfl rfl rfl ?_) | refine keep_free rfl rfl rfl rfl rfl ?_)) | dsimp only | split)
theorem bramSet_keep (s : State) (k0 : ℕ) (b : BramSt) (h0 : Keep k s) :
    Keep k (bramSet s k0 b) := by
  unfold bramSet
  repeat' (first | (with_reducible assumption) | (intro _) | (with_reducible (first | apply keep_ite | apply keep_ite2 | apply keep_ite3 | apply keep_ite1 | apply keep_foldl | apply keep_foldl2 | apply keep_foldl3 | (fail_if_no_progress refine keep_mk rfl rfl rfl rfl rfl ?_) | refine keep_free rfl rfl rfl rfl rfl ?_)) | dsimp only | split)
theorem mbUpd_keep (s : State) (n : ℕ) (f : MbSt → MbSt) (h0 : Keep k s) :
    Keep k (mbUpd s n f) := by
  unfold mbUpd
  repeat' (first | (with_reducible assumption) | (intro _) | (with_reducible (first | apply keep_ite | apply keep_ite2 | apply keep_ite3 | apply keep_ite1 | apply keep_foldl | apply keep_foldl2 | apply keep_foldl3 | (fail_if_no_progress refine keep_mk rfl rfl rfl rfl rfl ?_) | refine keep_free rfl rfl rfl rfl rfl ?_)) | dsimp only | split)
theorem partUpd_keep (s : State) (p : ℕ) (f : PartSt → PartSt) (h0 : Keep k s) :
    Keep k (partUpd s p f) := by
  unfold partUpd
  repeat' (first | (with_reducible assumption) | (intro _) | (with_reducible (first | apply keep_ite | apply keep_ite2 | apply keep_ite3 | apply keep_ite1 | apply keep_foldl | apply keep_foldl2 | apply keep_foldl3 | (fail_if_no_progress refine keep_mk rfl rfl rfl rfl rfl ?_) | refine keep_free rfl rfl rfl rfl rfl ?_)) | dsimp only | split)
theorem freeWord_keep (s : State) (h0 : Keep k s) :
    Keep k (freeWord s).2 := by
  unfold freeWord
  repeat' (first | (with_reducible assumption) | (intro _) | (with_reducible (first | apply keep_ite | apply keep_ite2 | apply keep_ite3 | apply keep_ite1 | apply keep_foldl | apply keep_foldl2 | apply keep_foldl3 | (fail_if_no_progress refine keep_mk rfl rfl rfl rfl rfl ?_) | refine keep_free rfl rfl rfl rfl rfl ?_)) | dsimp only | split)
theorem nicUpd_keep (s : State) (n : ℕ) (f : NicSt → NicSt) (h0 : Keep k s) :
    Keep k (nicUpd s n f) := by
  unfold nicUpd
  repeat' (first | (with_reducible assumption) | (intro _) | (with_reducible (first | apply keep_ite | apply keep_ite2 | apply keep_ite3 | apply keep_ite1 | apply keep_foldl | apply keep_foldl2 | apply keep_foldl3 | (fail_if_no_progress refine keep_mk rfl rfl rfl rfl rfl ?_) | refine keep_free rfl rfl rfl rfl rfl ?_)) | dsimp only | split)
theorem nocUpd_keep (s : State) (n : ℕ) (f : NocSt → NocSt) (h0 : Keep k s) :
    Keep k (nocUpd s n f) := by
  unfold nocUpd
  repeat' (first | (with_reducible assumption) | (intro _) | (with_reducible (first | apply keep_ite | apply keep_ite2 | apply keep_ite3 | apply keep_ite1 | apply keep_foldl | apply keep_foldl2 | apply keep_foldl3 | (fail_if_no_progress refine keep_mk rfl rfl rfl rfl rfl ?_) | refine keep_free rfl rfl rfl rfl rfl ?_)) | dsimp only | split)
theorem hwUpd_keep (s : State) (n : ℕ) (f : HwSt → HwSt) (h0 : Keep k s) :
    Keep k (hwUpd s n f) := by
  unfold hwUpd
  repeat' (first | (with_reducible assumption) | (intro _) | (with_reducible (first | apply keep_ite | apply keep_ite2 | apply keep_ite3 | apply keep_ite1 | apply keep_foldl | apply keep_foldl2 | apply keep_foldl3 | (fail_if_no_progress refine keep_mk rfl rfl rfl rfl rfl ?_) | refine keep_free rfl rfl rfl rfl rfl ?_)) | dsimp only | split)
theorem mcUpd_keep (s : State) (n : ℕ) (f : McSt → McSt) (h0 : Keep k s) :
    Keep k (mcUpd s n f) := by
  unfold mcUpd
  repeat' (first | (with_reducible assumption) | (intro _) | (with_reducible (first | apply keep_ite | apply keep_ite2 | apply keep_ite3 | apply keep_ite1 | apply keep_foldl | apply keep_foldl2 | apply keep_foldl3 | (fail_if_no_progress refine keep_mk rfl rfl rfl rfl rfl ?_) | refine keep_free rfl rfl rfl rfl rfl ?_)) | dsimp only | split)
theorem laneUpd_keep (s : State) (n : ℕ) (f : LaneSt → LaneSt) (h0 : Keep k s) :
    Keep k (laneUpd s n f) := by
  unfold laneUpd
  repeat' (first | (with_reducible assumption) | (intro _) | (with_reducible (first | apply keep_ite | apply keep_ite2 | apply keep_ite3 | apply keep_ite1 | apply keep_foldl | apply keep_foldl2 | apply keep_foldl3 | (fail_if_no_progress refine keep_mk rfl rfl rfl rfl rfl ?_) | refine keep_free rfl rfl rfl rfl rfl ?_)) | dsimp only | split)
theorem quadUpd_keep (s : State) (q : ℕ) (f : QuadSt → QuadSt) (h0 : Keep k s) :
    Keep k (quadUpd s q f) := by
  unfold quadUpd
  repeat' (first | (with_reducible assumption) | (intro _) | (with_reducible (first | apply keep_ite | apply keep_ite2 | apply keep_ite3 | apply keep_ite1 | apply keep_foldl | apply keep_foldl2 | apply keep_foldl3 | (fail_if_no_progress refine keep_mk rfl rfl rfl rfl rfl ?_) | refine keep_free rfl rfl rfl rfl rfl ?_)) | dsimp only | split)
theorem fnUpd_keep (s : State) (n : ℕ) (f : FnSt → FnSt) (h0 : Keep k s) :
    Keep k (fnUpd s n f) := by
  unfold fnUpd
  repeat' (first | (with_reducible assumption) | (intro _) | (with_reducible (first | apply keep_ite | apply keep_ite2 | apply keep_ite3 | apply keep_ite1 | apply keep_foldl | apply keep_foldl2 | apply keep_foldl3 | (fail_if_no_progress refine keep_mk rfl rfl rfl rfl rfl ?_) | refine keep_free rfl rfl rfl rfl rfl ?_)) | dsimp only | split)
theorem pcieUpd_keep (s : State) (c : ℕ) (f : PcieSt → PcieSt) (h0 : Keep k s) :
    Keep k (pcieUpd s c f) := by
  unfold pcieUpd
  repeat' (first | (with_reducible assumption) | (intro _) | (with_reducible (first | apply keep_ite | apply keep_ite2 | apply keep_ite3 | apply keep_ite1 | apply keep_foldl | apply keep_foldl2 | apply keep_foldl3 | (fail_if_no_progress refine keep_mk rfl rfl rfl rfl rfl ?_) | refine keep_free rfl rfl rfl rfl rfl ?_)) | dsimp only | split)
theorem secUpd_keep (s : State) (f : SecSt → SecSt) (h0 : Keep k s) :
    Keep k (secUpd s f) := by
  unfold secUpd
  repeat' (first | (with_reducible assumption) | (intro _) | (with_reducible (first | apply keep_ite | apply keep_ite2 | apply keep_ite3 | apply keep_ite1 | apply keep_foldl | apply keep_foldl2 | apply keep_foldl3 | (fail_if_no_progress refine keep_mk rfl rfl rfl rfl rfl ?_) | refine keep_free rfl rfl rfl rfl rfl ?_)) | dsimp only | split)
theorem granSet_keep (s : State) (g : ℕ) (x : Gran) (h0 : Keep k s) :
    Keep k (granSet s g x) := by
  unfold granSet
  repeat' (first | (with_reducible assumption) | (intro _) | (with_reducible (first | apply secUpd_keep)) | (with_reducible (first | apply keep_ite | apply keep_ite2 | apply keep_ite3 | apply keep_ite1 | apply keep_foldl | apply keep_foldl2 | apply keep_foldl3 | (fail_if_no_progress refine keep_mk rfl rfl rfl rfl rfl ?_) | refine keep_free rfl rfl rfl rfl rfl ?_)) | dsimp only | split)

end Sys2Proof.Machine
end

