-- ==== Sys2Proof/Laws/KeepEngCore.lean ====
section
/-! SUPPORT. The operations of Machine/EngCore.lean keep the queue, the counts that only rise, and `Inv`. -/

namespace Sys2Proof.Machine

set_option linter.unusedTactic false
set_option linter.unreachableTactic false
set_option linter.unusedVariables false

variable {k : KeepAt}

theorem setEngState_keep (s : State) (n : ℕ) (v : ℕ) (h0 : Keep k s) :
    Keep k (setEngState s n v) := by
  unfold setEngState
  repeat' (first | (with_reducible assumption) | (intro _) | (with_reducible (first | apply fset_keep)) | (with_reducible (first | apply keep_ite | apply keep_ite2 | apply keep_ite3 | apply keep_ite1 | apply keep_foldl | apply keep_foldl2 | apply keep_foldl3 | (fail_if_no_progress refine keep_mk rfl rfl rfl rfl rfl ?_) | refine keep_free rfl rfl rfl rfl rfl ?_)) | dsimp only | split)
theorem engRecord_keep (s : State) (n : ℕ) (pm : Bool) (dbe : Bool) (a : ℕ) (h0 : Keep k s) :
    Keep k (engRecord s n pm dbe a) := by
  unfold engRecord
  repeat' (first | (with_reducible assumption) | (intro _) | (with_reducible (first | apply fflag_keep | apply fset_keep)) | (with_reducible (first | apply keep_ite | apply keep_ite2 | apply keep_ite3 | apply keep_ite1 | apply keep_foldl | apply keep_foldl2 | apply keep_foldl3 | (fail_if_no_progress refine keep_mk rfl rfl rfl rfl rfl ?_) | refine keep_free rfl rfl rfl rfl rfl ?_)) | dsimp only | split)
theorem dmReadAcc_keep (s : State) (n : ℕ) (a : ℕ) (w : ℕ) (h0 : Keep k s) :
    Keep k (dmReadAcc s n a w).2.2 := by
  unfold dmReadAcc
  repeat' (first | (with_reducible assumption) | (intro _) | (with_reducible (first | apply engUpd_keep | apply finc_keep | apply engRecord_keep)) | (with_reducible (first | apply keep_ite | apply keep_ite2 | apply keep_ite3 | apply keep_ite1 | apply keep_foldl | apply keep_foldl2 | apply keep_foldl3 | (fail_if_no_progress refine keep_mk rfl rfl rfl rfl rfl ?_) | refine keep_free rfl rfl rfl rfl rfl ?_)) | dsimp only | split)
theorem stageEnter_keep (s : State) (n : ℕ) (x : StEnt) (h0 : Keep k s) :
    Keep k (stageEnter s n x) := by
  unfold stageEnter
  repeat' (first | (with_reducible assumption) | (intro _) | (with_reducible (first | apply engUpd_keep)) | (with_reducible (first | apply keep_ite | apply keep_ite2 | apply keep_ite3 | apply keep_ite1 | apply keep_foldl | apply keep_foldl2 | apply keep_foldl3 | (fail_if_no_progress refine keep_mk rfl rfl rfl rfl rfl ?_) | refine keep_free rfl rfl rfl rfl rfl ?_)) | dsimp only | split)
theorem commitRelease_keep (s : State) (n : ℕ) (h0 : Keep k s) :
    Keep k (commitRelease s n) := by
  unfold commitRelease
  repeat' (first | (with_reducible assumption) | (intro _) | (with_reducible (first | apply finc_keep | apply engSet_keep)) | (with_reducible (first | apply keep_ite | apply keep_ite2 | apply keep_ite3 | apply keep_ite1 | apply keep_foldl | apply keep_foldl2 | apply keep_foldl3 | (fail_if_no_progress refine keep_mk rfl rfl rfl rfl rfl ?_) | refine keep_free rfl rfl rfl rfl rfl ?_)) | dsimp only | split)
theorem applyStore_keep (s : State) (n : ℕ) (r : Res) (h0 : Keep k s) :
    Keep k (applyStore s n r) := by
  unfold applyStore
  repeat' (first | (with_reducible assumption) | (intro _) | (with_reducible (first | apply stageEnter_keep | apply engUpd_keep | apply commitRelease_keep)) | (with_reducible (first | apply keep_ite | apply keep_ite2 | apply keep_ite3 | apply keep_ite1 | apply keep_foldl | apply keep_foldl2 | apply keep_foldl3 | (fail_if_no_progress refine keep_mk rfl rfl rfl rfl rfl ?_) | refine keep_free rfl rfl rfl rfl rfl ?_)) | dsimp only | split)
theorem flushCommit_keep (s : State) (n : ℕ) (h0 : Keep k s) :
    Keep k (flushCommit s n) := by
  unfold flushCommit
  repeat' (first | (with_reducible assumption) | (intro _) | (with_reducible (first | apply applyStore_keep | apply engSet_keep)) | (with_reducible (first | apply keep_ite | apply keep_ite2 | apply keep_ite3 | apply keep_ite1 | apply keep_foldl | apply keep_foldl2 | apply keep_foldl3 | (fail_if_no_progress refine keep_mk rfl rfl rfl rfl rfl ?_) | refine keep_free rfl rfl rfl rfl rfl ?_)) | dsimp only | split)
theorem endRun_keep (s : State) (n : ℕ) (cause : ℕ) (h0 : Keep k s) :
    Keep k (endRun s n cause) := by
  unfold endRun
  repeat' (first | (with_reducible assumption) | (intro _) | (with_reducible (first | apply engSet_keep | apply setEngState_keep | apply fset_keep | apply finc_keep)) | (with_reducible (first | apply keep_ite | apply keep_ite2 | apply keep_ite3 | apply keep_ite1 | apply keep_foldl | apply keep_foldl2 | apply keep_foldl3 | (fail_if_no_progress refine keep_mk rfl rfl rfl rfl rfl ?_) | refine keep_free rfl rfl rfl rfl rfl ?_)) | dsimp only | split)
theorem haltRun_keep (s : State) (n : ℕ) (cause : ℕ) (h0 : Keep k s) :
    Keep k (haltRun s n cause) := by
  unfold haltRun
  repeat' (first | (with_reducible assumption) | (intro _) | (with_reducible (first | apply endRun_keep | apply flushCommit_keep)) | (with_reducible (first | apply keep_ite | apply keep_ite2 | apply keep_ite3 | apply keep_ite1 | apply keep_foldl | apply keep_foldl2 | apply keep_foldl3 | (fail_if_no_progress refine keep_mk rfl rfl rfl rfl rfl ?_) | refine keep_free rfl rfl rfl rfl rfl ?_)) | dsimp only | split)
theorem engFault_keep (s : State) (n : ℕ) (cause : ℕ) (pc : ℕ) (h0 : Keep k s) :
    Keep k (engFault s n cause pc) := by
  unfold engFault
  repeat' (first | (with_reducible assumption) | (intro _) | (with_reducible (first | apply engUpd_keep | apply setEngState_keep | apply fset_keep)) | (with_reducible (first | apply keep_ite | apply keep_ite2 | apply keep_ite3 | apply keep_ite1 | apply keep_foldl | apply keep_foldl2 | apply keep_foldl3 | (fail_if_no_progress refine keep_mk rfl rfl rfl rfl rfl ?_) | refine keep_free rfl rfl rfl rfl rfl ?_)) | dsimp only | split)
theorem illegalBundle_keep (s : State) (n : ℕ) (h0 : Keep k s) :
    Keep k (illegalBundle s n) := by
  unfold illegalBundle
  repeat' (first | (with_reducible assumption) | (intro _) | (with_reducible (first | apply engFault_keep | apply engSet_keep)) | (with_reducible (first | apply keep_ite | apply keep_ite2 | apply keep_ite3 | apply keep_ite1 | apply keep_foldl | apply keep_foldl2 | apply keep_foldl3 | (fail_if_no_progress refine keep_mk rfl rfl rfl rfl rfl ?_) | refine keep_free rfl rfl rfl rfl rfl ?_)) | dsimp only | split)
theorem slotA_keep (g : Eng) (legal : Bool) (f : EngSt → List (ℕ × ResW)) (s : State) (h3 : Keep k s) :
    Keep k (slotA g legal f s) := by
  unfold slotA
  repeat' (first | (with_reducible assumption) | (intro _) | (with_reducible (first | apply engUpd_keep | apply illegalBundle_keep)) | (with_reducible (first | apply keep_ite | apply keep_ite2 | apply keep_ite3 | apply keep_ite1 | apply keep_foldl | apply keep_foldl2 | apply keep_foldl3 | (fail_if_no_progress refine keep_mk rfl rfl rfl rfl rfl ?_) | refine keep_free rfl rfl rfl rfl rfl ?_)) | dsimp only | split)
theorem bundleDone_keep (s : State) (n : ℕ) (pc : ℕ) (bank : Bool) (h0 : Keep k s) :
    Keep k (bundleDone s n pc bank) := by
  unfold bundleDone
  repeat' (first | (with_reducible assumption) | (intro _) | (with_reducible (first | apply engUpd_keep | apply fflag_keep | apply fset_keep)) | (with_reducible (first | apply keep_ite | apply keep_ite2 | apply keep_ite3 | apply keep_ite1 | apply keep_foldl | apply keep_foldl2 | apply keep_foldl3 | (fail_if_no_progress refine keep_mk rfl rfl rfl rfl rfl ?_) | refine keep_free rfl rfl rfl rfl rfl ?_)) | dsimp only | split)
theorem slotB_keep (g : Eng) (legal : Bool) (f : EngSt → List (ℕ × ResW)) (s : State) (h3 : Keep k s) :
    Keep k (slotB g legal f s) := by
  unfold slotB
  repeat' (first | (with_reducible assumption) | (intro _) | (with_reducible (first | apply bundleDone_keep | apply engSet_keep | apply illegalBundle_keep)) | (with_reducible (first | apply keep_ite | apply keep_ite2 | apply keep_ite3 | apply keep_ite1 | apply keep_foldl | apply keep_foldl2 | apply keep_foldl3 | (fail_if_no_progress refine keep_mk rfl rfl rfl rfl rfl ?_) | refine keep_free rfl rfl rfl rfl rfl ?_)) | dsimp only | split)
theorem slotCT_keep (g : Eng) (legal : Bool) (f : EngSt → List (ℕ × ResW) × ℕ × Flow) (s : State) (h3 : Keep k s) :
    Keep k (slotCT g legal f s) := by
  unfold slotCT
  repeat' (first | (with_reducible assumption) | (intro _) | (with_reducible (first | apply bundleDone_keep | apply engSet_keep | apply illegalBundle_keep)) | (with_reducible (first | apply keep_ite | apply keep_ite2 | apply keep_ite3 | apply keep_ite1 | apply keep_foldl | apply keep_foldl2 | apply keep_foldl3 | (fail_if_no_progress refine keep_mk rfl rfl rfl rfl rfl ?_) | refine keep_free rfl rfl rfl rfl rfl ?_)) | dsimp only | split)
theorem passRes_keep (n : ℕ) (p : List Res × State) (r : Res) (h1 : Keep k p.2) :
    Keep k (passRes n p r).2 := by
  unfold passRes
  repeat' (first | (with_reducible assumption) | (intro _) | (with_reducible (first | apply dmReadAcc_keep)) | (with_reducible (first | apply keep_ite | apply keep_ite2 | apply keep_ite3 | apply keep_ite1 | apply keep_foldl | apply keep_foldl2 | apply keep_foldl3 | (fail_if_no_progress refine keep_mk rfl rfl rfl rfl rfl ?_) | refine keep_free rfl rfl rfl rfl rfl ?_)) | dsimp only | split)
theorem flowEnd_keep (s : State) (n : ℕ) (h0 : Keep k s) :
    Keep k (flowEnd s n) := by
  unfold flowEnd
  repeat' (first | (with_reducible assumption) | (intro _) | (with_reducible (first | apply engSet_keep | apply endRun_keep)) | (with_reducible (first | apply keep_ite | apply keep_ite2 | apply keep_ite3 | apply keep_ite1 | apply keep_foldl | apply keep_foldl2 | apply keep_foldl3 | (fail_if_no_progress refine keep_mk rfl rfl rfl rfl rfl ?_) | refine keep_free rfl rfl rfl rfl rfl ?_)) | dsimp only | split)
theorem frameLoad_keep (s : State) (n : ℕ) (h0 : Keep k s) :
    Keep k (frameLoad s n) := by
  unfold frameLoad
  repeat' (first | (with_reducible assumption) | (intro _) | (with_reducible (first | apply engUpd_keep | apply setEngState_keep)) | (with_reducible (first | apply keep_ite | apply keep_ite2 | apply keep_ite3 | apply keep_ite1 | apply keep_foldl | apply keep_foldl2 | apply keep_foldl3 | (fail_if_no_progress refine keep_mk rfl rfl rfl rfl rfl ?_) | refine keep_free rfl rfl rfl rfl rfl ?_)) | dsimp only | split)
theorem frameStep_keep (s : State) (n : ℕ) (h0 : Keep k s) :
    Keep k (frameStep s n) := by
  unfold frameStep
  repeat' (first | (with_reducible assumption) | (intro _) | (with_reducible (first | apply engSet_keep | apply dmReadAcc_keep | apply engUpd_keep | apply engFault_keep | apply frameLoad_keep)) | (with_reducible (first | apply keep_ite | apply keep_ite2 | apply keep_ite3 | apply keep_ite1 | apply keep_foldl | apply keep_foldl2 | apply keep_foldl3 | (fail_if_no_progress refine keep_mk rfl rfl rfl rfl rfl ?_) | refine keep_free rfl rfl rfl rfl rfl ?_)) | dsimp only | split)
theorem retire_keep (s : State) (n : ℕ) (h0 : Keep k s) :
    Keep k (retire s n) := by
  unfold retire
  repeat' (first | (with_reducible assumption) | (intro _) | (with_reducible (first | apply engSet_keep | apply applyStore_keep | apply passRes_keep | apply engUpd_keep | apply engFault_keep | apply flowEnd_keep | apply frameStep_keep)) | (with_reducible (first | apply keep_ite | apply keep_ite2 | apply keep_ite3 | apply keep_ite1 | apply keep_foldl | apply keep_foldl2 | apply keep_foldl3 | (fail_if_no_progress refine keep_mk rfl rfl rfl rfl rfl ?_) | refine keep_free rfl rfl rfl rfl rfl ?_)) | dsimp only | split)

end Sys2Proof.Machine
end

