-- ==== Sys2Proof/Laws/KeepEngineA.lean ====
section
/-! SUPPORT. The operations of Machine/EngineA.lean keep the queue, the counts that only rise, and `Inv`. -/

namespace Sys2Proof.Machine

set_option linter.unusedTactic false
set_option linter.unreachableTactic false
set_option linter.unusedVariables false

variable {k : KeepAt}

theorem opSlotANop_keep (g : Eng) (x1 : State) (h1 : Keep k x1) :
    Keep k (opSlotANop g x1) := by
  unfold opSlotANop
  repeat' (first | (with_reducible assumption) | (intro _) | (with_reducible (first | apply slotA_keep)) | (with_reducible (first | apply keep_ite | apply keep_ite2 | apply keep_ite3 | apply keep_ite1 | apply keep_foldl | apply keep_foldl2 | apply keep_foldl3 | (fail_if_no_progress refine keep_mk rfl rfl rfl rfl rfl ?_) | refine keep_free rfl rfl rfl rfl rfl ?_)) | dsimp only | split)
theorem opAddW_keep (g : Eng) (rd : BitVec 4) (rs : BitVec 4) (rt : BitVec 4) (x4 : State) (h4 : Keep k x4) :
    Keep k (opAddW g rd rs rt x4) := by
  unfold opAddW
  repeat' (first | (with_reducible assumption) | (intro _) | (with_reducible (first | apply slotA_keep)) | (with_reducible (first | apply keep_ite | apply keep_ite2 | apply keep_ite3 | apply keep_ite1 | apply keep_foldl | apply keep_foldl2 | apply keep_foldl3 | (fail_if_no_progress refine keep_mk rfl rfl rfl rfl rfl ?_) | refine keep_free rfl rfl rfl rfl rfl ?_)) | dsimp only | split)
theorem opSubW_keep (g : Eng) (rd : BitVec 4) (rs : BitVec 4) (rt : BitVec 4) (x4 : State) (h4 : Keep k x4) :
    Keep k (opSubW g rd rs rt x4) := by
  unfold opSubW
  repeat' (first | (with_reducible assumption) | (intro _) | (with_reducible (first | apply slotA_keep)) | (with_reducible (first | apply keep_ite | apply keep_ite2 | apply keep_ite3 | apply keep_ite1 | apply keep_foldl | apply keep_foldl2 | apply keep_foldl3 | (fail_if_no_progress refine keep_mk rfl rfl rfl rfl rfl ?_) | refine keep_free rfl rfl rfl rfl rfl ?_)) | dsimp only | split)
theorem opCmpW_keep (g : Eng) (rs : BitVec 4) (rt : BitVec 4) (x3 : State) (h3 : Keep k x3) :
    Keep k (opCmpW g rs rt x3) := by
  unfold opCmpW
  repeat' (first | (with_reducible assumption) | (intro _) | (with_reducible (first | apply slotA_keep)) | (with_reducible (first | apply keep_ite | apply keep_ite2 | apply keep_ite3 | apply keep_ite1 | apply keep_foldl | apply keep_foldl2 | apply keep_foldl3 | (fail_if_no_progress refine keep_mk rfl rfl rfl rfl rfl ?_) | refine keep_free rfl rfl rfl rfl rfl ?_)) | dsimp only | split)
theorem opAddH_keep (g : Eng) (rd : BitVec 4) (rs : BitVec 4) (rt : BitVec 4) (x4 : State) (h4 : Keep k x4) :
    Keep k (opAddH g rd rs rt x4) := by
  unfold opAddH
  repeat' (first | (with_reducible assumption) | (intro _) | (with_reducible (first | apply slotA_keep)) | (with_reducible (first | apply keep_ite | apply keep_ite2 | apply keep_ite3 | apply keep_ite1 | apply keep_foldl | apply keep_foldl2 | apply keep_foldl3 | (fail_if_no_progress refine keep_mk rfl rfl rfl rfl rfl ?_) | refine keep_free rfl rfl rfl rfl rfl ?_)) | dsimp only | split)
theorem opSubH_keep (g : Eng) (rd : BitVec 4) (rs : BitVec 4) (rt : BitVec 4) (x4 : State) (h4 : Keep k x4) :
    Keep k (opSubH g rd rs rt x4) := by
  unfold opSubH
  repeat' (first | (with_reducible assumption) | (intro _) | (with_reducible (first | apply slotA_keep)) | (with_reducible (first | apply keep_ite | apply keep_ite2 | apply keep_ite3 | apply keep_ite1 | apply keep_foldl | apply keep_foldl2 | apply keep_foldl3 | (fail_if_no_progress refine keep_mk rfl rfl rfl rfl rfl ?_) | refine keep_free rfl rfl rfl rfl rfl ?_)) | dsimp only | split)
theorem opAddsH_keep (g : Eng) (rd : BitVec 4) (rs : BitVec 4) (rt : BitVec 4) (x4 : State) (h4 : Keep k x4) :
    Keep k (opAddsH g rd rs rt x4) := by
  unfold opAddsH
  repeat' (first | (with_reducible assumption) | (intro _) | (with_reducible (first | apply slotA_keep)) | (with_reducible (first | apply keep_ite | apply keep_ite2 | apply keep_ite3 | apply keep_ite1 | apply keep_foldl | apply keep_foldl2 | apply keep_foldl3 | (fail_if_no_progress refine keep_mk rfl rfl rfl rfl rfl ?_) | refine keep_free rfl rfl rfl rfl rfl ?_)) | dsimp only | split)
theorem opSubsH_keep (g : Eng) (rd : BitVec 4) (rs : BitVec 4) (rt : BitVec 4) (x4 : State) (h4 : Keep k x4) :
    Keep k (opSubsH g rd rs rt x4) := by
  unfold opSubsH
  repeat' (first | (with_reducible assumption) | (intro _) | (with_reducible (first | apply slotA_keep)) | (with_reducible (first | apply keep_ite | apply keep_ite2 | apply keep_ite3 | apply keep_ite1 | apply keep_foldl | apply keep_foldl2 | apply keep_foldl3 | (fail_if_no_progress refine keep_mk rfl rfl rfl rfl rfl ?_) | refine keep_free rfl rfl rfl rfl rfl ?_)) | dsimp only | split)
theorem opAndW_keep (g : Eng) (rd : BitVec 4) (rs : BitVec 4) (rt : BitVec 4) (x4 : State) (h4 : Keep k x4) :
    Keep k (opAndW g rd rs rt x4) := by
  unfold opAndW
  repeat' (first | (with_reducible assumption) | (intro _) | (with_reducible (first | apply slotA_keep)) | (with_reducible (first | apply keep_ite | apply keep_ite2 | apply keep_ite3 | apply keep_ite1 | apply keep_foldl | apply keep_foldl2 | apply keep_foldl3 | (fail_if_no_progress refine keep_mk rfl rfl rfl rfl rfl ?_) | refine keep_free rfl rfl rfl rfl rfl ?_)) | dsimp only | split)
theorem opOrW_keep (g : Eng) (rd : BitVec 4) (rs : BitVec 4) (rt : BitVec 4) (x4 : State) (h4 : Keep k x4) :
    Keep k (opOrW g rd rs rt x4) := by
  unfold opOrW
  repeat' (first | (with_reducible assumption) | (intro _) | (with_reducible (first | apply slotA_keep)) | (with_reducible (first | apply keep_ite | apply keep_ite2 | apply keep_ite3 | apply keep_ite1 | apply keep_foldl | apply keep_foldl2 | apply keep_foldl3 | (fail_if_no_progress refine keep_mk rfl rfl rfl rfl rfl ?_) | refine keep_free rfl rfl rfl rfl rfl ?_)) | dsimp only | split)
theorem opXorW_keep (g : Eng) (rd : BitVec 4) (rs : BitVec 4) (rt : BitVec 4) (x4 : State) (h4 : Keep k x4) :
    Keep k (opXorW g rd rs rt x4) := by
  unfold opXorW
  repeat' (first | (with_reducible assumption) | (intro _) | (with_reducible (first | apply slotA_keep)) | (with_reducible (first | apply keep_ite | apply keep_ite2 | apply keep_ite3 | apply keep_ite1 | apply keep_foldl | apply keep_foldl2 | apply keep_foldl3 | (fail_if_no_progress refine keep_mk rfl rfl rfl rfl rfl ?_) | refine keep_free rfl rfl rfl rfl rfl ?_)) | dsimp only | split)
theorem opAndnW_keep (g : Eng) (rd : BitVec 4) (rs : BitVec 4) (rt : BitVec 4) (x4 : State) (h4 : Keep k x4) :
    Keep k (opAndnW g rd rs rt x4) := by
  unfold opAndnW
  repeat' (first | (with_reducible assumption) | (intro _) | (with_reducible (first | apply slotA_keep)) | (with_reducible (first | apply keep_ite | apply keep_ite2 | apply keep_ite3 | apply keep_ite1 | apply keep_foldl | apply keep_foldl2 | apply keep_foldl3 | (fail_if_no_progress refine keep_mk rfl rfl rfl rfl rfl ?_) | refine keep_free rfl rfl rfl rfl rfl ?_)) | dsimp only | split)
theorem opShlW_keep (g : Eng) (rd : BitVec 4) (rs : BitVec 4) (sh : BitVec 6) (x4 : State) (h4 : Keep k x4) :
    Keep k (opShlW g rd rs sh x4) := by
  unfold opShlW
  repeat' (first | (with_reducible assumption) | (intro _) | (with_reducible (first | apply slotA_keep)) | (with_reducible (first | apply keep_ite | apply keep_ite2 | apply keep_ite3 | apply keep_ite1 | apply keep_foldl | apply keep_foldl2 | apply keep_foldl3 | (fail_if_no_progress refine keep_mk rfl rfl rfl rfl rfl ?_) | refine keep_free rfl rfl rfl rfl rfl ?_)) | dsimp only | split)
theorem opShrW_keep (g : Eng) (rd : BitVec 4) (rs : BitVec 4) (sh : BitVec 6) (x4 : State) (h4 : Keep k x4) :
    Keep k (opShrW g rd rs sh x4) := by
  unfold opShrW
  repeat' (first | (with_reducible assumption) | (intro _) | (with_reducible (first | apply slotA_keep)) | (with_reducible (first | apply keep_ite | apply keep_ite2 | apply keep_ite3 | apply keep_ite1 | apply keep_foldl | apply keep_foldl2 | apply keep_foldl3 | (fail_if_no_progress refine keep_mk rfl rfl rfl rfl rfl ?_) | refine keep_free rfl rfl rfl rfl rfl ?_)) | dsimp only | split)
theorem opSraW_keep (g : Eng) (rd : BitVec 4) (rs : BitVec 4) (sh : BitVec 6) (x4 : State) (h4 : Keep k x4) :
    Keep k (opSraW g rd rs sh x4) := by
  unfold opSraW
  repeat' (first | (with_reducible assumption) | (intro _) | (with_reducible (first | apply slotA_keep)) | (with_reducible (first | apply keep_ite | apply keep_ite2 | apply keep_ite3 | apply keep_ite1 | apply keep_foldl | apply keep_foldl2 | apply keep_foldl3 | (fail_if_no_progress refine keep_mk rfl rfl rfl rfl rfl ?_) | refine keep_free rfl rfl rfl rfl rfl ?_)) | dsimp only | split)
theorem opSraH_keep (g : Eng) (rd : BitVec 4) (rs : BitVec 4) (sh : BitVec 6) (x4 : State) (h4 : Keep k x4) :
    Keep k (opSraH g rd rs sh x4) := by
  unfold opSraH
  repeat' (first | (with_reducible assumption) | (intro _) | (with_reducible (first | apply slotA_keep)) | (with_reducible (first | apply keep_ite | apply keep_ite2 | apply keep_ite3 | apply keep_ite1 | apply keep_foldl | apply keep_foldl2 | apply keep_foldl3 | (fail_if_no_progress refine keep_mk rfl rfl rfl rfl rfl ?_) | refine keep_free rfl rfl rfl rfl rfl ?_)) | dsimp only | split)
theorem opMovX_keep (g : Eng) (rd : BitVec 4) (rs : BitVec 4) (x3 : State) (h3 : Keep k x3) :
    Keep k (opMovX g rd rs x3) := by
  unfold opMovX
  repeat' (first | (with_reducible assumption) | (intro _) | (with_reducible (first | apply slotA_keep)) | (with_reducible (first | apply keep_ite | apply keep_ite2 | apply keep_ite3 | apply keep_ite1 | apply keep_foldl | apply keep_foldl2 | apply keep_foldl3 | (fail_if_no_progress refine keep_mk rfl rfl rfl rfl rfl ?_) | refine keep_free rfl rfl rfl rfl rfl ?_)) | dsimp only | split)
theorem opMvl_keep (g : Eng) (rd : BitVec 4) (imm : BitVec 16) (x3 : State) (h3 : Keep k x3) :
    Keep k (opMvl g rd imm x3) := by
  unfold opMvl
  repeat' (first | (with_reducible assumption) | (intro _) | (with_reducible (first | apply slotA_keep)) | (with_reducible (first | apply keep_ite | apply keep_ite2 | apply keep_ite3 | apply keep_ite1 | apply keep_foldl | apply keep_foldl2 | apply keep_foldl3 | (fail_if_no_progress refine keep_mk rfl rfl rfl rfl rfl ?_) | refine keep_free rfl rfl rfl rfl rfl ?_)) | dsimp only | split)
theorem opMvh_keep (g : Eng) (rd : BitVec 4) (imm : BitVec 16) (x3 : State) (h3 : Keep k x3) :
    Keep k (opMvh g rd imm x3) := by
  unfold opMvh
  repeat' (first | (with_reducible assumption) | (intro _) | (with_reducible (first | apply slotA_keep)) | (with_reducible (first | apply keep_ite | apply keep_ite2 | apply keep_ite3 | apply keep_ite1 | apply keep_foldl | apply keep_foldl2 | apply keep_foldl3 | (fail_if_no_progress refine keep_mk rfl rfl rfl rfl rfl ?_) | refine keep_free rfl rfl rfl rfl rfl ?_)) | dsimp only | split)
theorem opConj_keep (g : Eng) (rd : BitVec 4) (rs : BitVec 4) (x3 : State) (h3 : Keep k x3) :
    Keep k (opConj g rd rs x3) := by
  unfold opConj
  repeat' (first | (with_reducible assumption) | (intro _) | (with_reducible (first | apply slotA_keep)) | (with_reducible (first | apply keep_ite | apply keep_ite2 | apply keep_ite3 | apply keep_ite1 | apply keep_foldl | apply keep_foldl2 | apply keep_foldl3 | (fail_if_no_progress refine keep_mk rfl rfl rfl rfl rfl ?_) | refine keep_free rfl rfl rfl rfl rfl ?_)) | dsimp only | split)
theorem opMulj_keep (g : Eng) (rd : BitVec 4) (rs : BitVec 4) (x3 : State) (h3 : Keep k x3) :
    Keep k (opMulj g rd rs x3) := by
  unfold opMulj
  repeat' (first | (with_reducible assumption) | (intro _) | (with_reducible (first | apply slotA_keep)) | (with_reducible (first | apply keep_ite | apply keep_ite2 | apply keep_ite3 | apply keep_ite1 | apply keep_foldl | apply keep_foldl2 | apply keep_foldl3 | (fail_if_no_progress refine keep_mk rfl rfl rfl rfl rfl ?_) | refine keep_free rfl rfl rfl rfl rfl ?_)) | dsimp only | split)
theorem opPackH_keep (g : Eng) (rd : BitVec 4) (rs : BitVec 4) (rt : BitVec 4) (x4 : State) (h4 : Keep k x4) :
    Keep k (opPackH g rd rs rt x4) := by
  unfold opPackH
  repeat' (first | (with_reducible assumption) | (intro _) | (with_reducible (first | apply slotA_keep)) | (with_reducible (first | apply keep_ite | apply keep_ite2 | apply keep_ite3 | apply keep_ite1 | apply keep_foldl | apply keep_foldl2 | apply keep_foldl3 | (fail_if_no_progress refine keep_mk rfl rfl rfl rfl rfl ?_) | refine keep_free rfl rfl rfl rfl rfl ?_)) | dsimp only | split)
theorem opRdst_keep (g : Eng) (rd : BitVec 4) (x2 : State) (h2 : Keep k x2) :
    Keep k (opRdst g rd x2) := by
  unfold opRdst
  repeat' (first | (with_reducible assumption) | (intro _) | (with_reducible (first | apply slotA_keep)) | (with_reducible (first | apply keep_ite | apply keep_ite2 | apply keep_ite3 | apply keep_ite1 | apply keep_foldl | apply keep_foldl2 | apply keep_foldl3 | (fail_if_no_progress refine keep_mk rfl rfl rfl rfl rfl ?_) | refine keep_free rfl rfl rfl rfl rfl ?_)) | dsimp only | split)
theorem opWrst_keep (g : Eng) (rs : BitVec 4) (x2 : State) (h2 : Keep k x2) :
    Keep k (opWrst g rs x2) := by
  unfold opWrst
  repeat' (first | (with_reducible assumption) | (intro _) | (with_reducible (first | apply slotA_keep)) | (with_reducible (first | apply keep_ite | apply keep_ite2 | apply keep_ite3 | apply keep_ite1 | apply keep_foldl | apply keep_foldl2 | apply keep_foldl3 | (fail_if_no_progress refine keep_mk rfl rfl rfl rfl rfl ?_) | refine keep_free rfl rfl rfl rfl rfl ?_)) | dsimp only | split)
theorem opAccClr_keep (g : Eng) (ad : BitVec 2) (x2 : State) (h2 : Keep k x2) :
    Keep k (opAccClr g ad x2) := by
  unfold opAccClr
  repeat' (first | (with_reducible assumption) | (intro _) | (with_reducible (first | apply slotA_keep)) | (with_reducible (first | apply keep_ite | apply keep_ite2 | apply keep_ite3 | apply keep_ite1 | apply keep_foldl | apply keep_foldl2 | apply keep_foldl3 | (fail_if_no_progress refine keep_mk rfl rfl rfl rfl rfl ?_) | refine keep_free rfl rfl rfl rfl rfl ?_)) | dsimp only | split)
theorem opAccSet_keep (g : Eng) (ad : BitVec 2) (rs : BitVec 4) (sh : BitVec 6) (x4 : State) (h4 : Keep k x4) :
    Keep k (opAccSet g ad rs sh x4) := by
  unfold opAccSet
  repeat' (first | (with_reducible assumption) | (intro _) | (with_reducible (first | apply slotA_keep)) | (with_reducible (first | apply keep_ite | apply keep_ite2 | apply keep_ite3 | apply keep_ite1 | apply keep_foldl | apply keep_foldl2 | apply keep_foldl3 | (fail_if_no_progress refine keep_mk rfl rfl rfl rfl rfl ?_) | refine keep_free rfl rfl rfl rfl rfl ?_)) | dsimp only | split)
theorem opAccAdd_keep (g : Eng) (ad : BitVec 2) (sa : BitVec 2) (ta : BitVec 2) (x4 : State) (h4 : Keep k x4) :
    Keep k (opAccAdd g ad sa ta x4) := by
  unfold opAccAdd
  repeat' (first | (with_reducible assumption) | (intro _) | (with_reducible (first | apply slotA_keep)) | (with_reducible (first | apply keep_ite | apply keep_ite2 | apply keep_ite3 | apply keep_ite1 | apply keep_foldl | apply keep_foldl2 | apply keep_foldl3 | (fail_if_no_progress refine keep_mk rfl rfl rfl rfl rfl ?_) | refine keep_free rfl rfl rfl rfl rfl ?_)) | dsimp only | split)
theorem opAccSub_keep (g : Eng) (ad : BitVec 2) (sa : BitVec 2) (ta : BitVec 2) (x4 : State) (h4 : Keep k x4) :
    Keep k (opAccSub g ad sa ta x4) := by
  unfold opAccSub
  repeat' (first | (with_reducible assumption) | (intro _) | (with_reducible (first | apply slotA_keep)) | (with_reducible (first | apply keep_ite | apply keep_ite2 | apply keep_ite3 | apply keep_ite1 | apply keep_foldl | apply keep_foldl2 | apply keep_foldl3 | (fail_if_no_progress refine keep_mk rfl rfl rfl rfl rfl ?_) | refine keep_free rfl rfl rfl rfl rfl ?_)) | dsimp only | split)
theorem opMvfa_keep (g : Eng) (rd : BitVec 4) (sa : BitVec 2) (c : Bool) (h : Bool) (x5 : State) (h5 : Keep k x5) :
    Keep k (opMvfa g rd sa c h x5) := by
  unfold opMvfa
  repeat' (first | (with_reducible assumption) | (intro _) | (with_reducible (first | apply slotA_keep)) | (with_reducible (first | apply keep_ite | apply keep_ite2 | apply keep_ite3 | apply keep_ite1 | apply keep_foldl | apply keep_foldl2 | apply keep_foldl3 | (fail_if_no_progress refine keep_mk rfl rfl rfl rfl rfl ?_) | refine keep_free rfl rfl rfl rfl rfl ?_)) | dsimp only | split)
theorem opMvta_keep (g : Eng) (ad : BitVec 2) (rs : BitVec 4) (c : Bool) (h : Bool) (x5 : State) (h5 : Keep k x5) :
    Keep k (opMvta g ad rs c h x5) := by
  unfold opMvta
  repeat' (first | (with_reducible assumption) | (intro _) | (with_reducible (first | apply slotA_keep)) | (with_reducible (first | apply keep_ite | apply keep_ite2 | apply keep_ite3 | apply keep_ite1 | apply keep_foldl | apply keep_foldl2 | apply keep_foldl3 | (fail_if_no_progress refine keep_mk rfl rfl rfl rfl rfl ?_) | refine keep_free rfl rfl rfl rfl rfl ?_)) | dsimp only | split)
theorem opExt_keep (g : Eng) (rd : BitVec 4) (sa : BitVec 2) (sh : BitVec 6) (x4 : State) (h4 : Keep k x4) :
    Keep k (opExt g rd sa sh x4) := by
  unfold opExt
  repeat' (first | (with_reducible assumption) | (intro _) | (with_reducible (first | apply slotA_keep)) | (with_reducible (first | apply keep_ite | apply keep_ite2 | apply keep_ite3 | apply keep_ite1 | apply keep_foldl | apply keep_foldl2 | apply keep_foldl3 | (fail_if_no_progress refine keep_mk rfl rfl rfl rfl rfl ?_) | refine keep_free rfl rfl rfl rfl rfl ?_)) | dsimp only | split)
theorem opExtr_keep (g : Eng) (rd : BitVec 4) (sa : BitVec 2) (c : Bool) (sh : BitVec 6) (x5 : State) (h5 : Keep k x5) :
    Keep k (opExtr g rd sa c sh x5) := by
  unfold opExtr
  repeat' (first | (with_reducible assumption) | (intro _) | (with_reducible (first | apply slotA_keep)) | (with_reducible (first | apply keep_ite | apply keep_ite2 | apply keep_ite3 | apply keep_ite1 | apply keep_foldl | apply keep_foldl2 | apply keep_foldl3 | (fail_if_no_progress refine keep_mk rfl rfl rfl rfl rfl ?_) | refine keep_free rfl rfl rfl rfl rfl ?_)) | dsimp only | split)
theorem opNorm_keep (g : Eng) (ad : BitVec 2) (rt : BitVec 4) (x3 : State) (h3 : Keep k x3) :
    Keep k (opNorm g ad rt x3) := by
  unfold opNorm
  repeat' (first | (with_reducible assumption) | (intro _) | (with_reducible (first | apply slotA_keep)) | (with_reducible (first | apply keep_ite | apply keep_ite2 | apply keep_ite3 | apply keep_ite1 | apply keep_foldl | apply keep_foldl2 | apply keep_foldl3 | (fail_if_no_progress refine keep_mk rfl rfl rfl rfl rfl ?_) | refine keep_free rfl rfl rfl rfl rfl ?_)) | dsimp only | split)
theorem opAshift_keep (g : Eng) (ad : BitVec 2) (rs : BitVec 4) (x3 : State) (h3 : Keep k x3) :
    Keep k (opAshift g ad rs x3) := by
  unfold opAshift
  repeat' (first | (with_reducible assumption) | (intro _) | (with_reducible (first | apply slotA_keep)) | (with_reducible (first | apply keep_ite | apply keep_ite2 | apply keep_ite3 | apply keep_ite1 | apply keep_foldl | apply keep_foldl2 | apply keep_foldl3 | (fail_if_no_progress refine keep_mk rfl rfl rfl rfl rfl ?_) | refine keep_free rfl rfl rfl rfl rfl ?_)) | dsimp only | split)
theorem opExpx_keep (g : Eng) (rd : BitVec 4) (rs : BitVec 4) (c : Bool) (x4 : State) (h4 : Keep k x4) :
    Keep k (opExpx g rd rs c x4) := by
  unfold opExpx
  repeat' (first | (with_reducible assumption) | (intro _) | (with_reducible (first | apply slotA_keep)) | (with_reducible (first | apply keep_ite | apply keep_ite2 | apply keep_ite3 | apply keep_ite1 | apply keep_foldl | apply keep_foldl2 | apply keep_foldl3 | (fail_if_no_progress refine keep_mk rfl rfl rfl rfl rfl ?_) | refine keep_free rfl rfl rfl rfl rfl ?_)) | dsimp only | split)
theorem opBfscan_keep (g : Eng) (rs : BitVec 4) (c : Bool) (x3 : State) (h3 : Keep k x3) :
    Keep k (opBfscan g rs c x3) := by
  unfold opBfscan
  repeat' (first | (with_reducible assumption) | (intro _) | (with_reducible (first | apply slotA_keep)) | (with_reducible (first | apply keep_ite | apply keep_ite2 | apply keep_ite3 | apply keep_ite1 | apply keep_foldl | apply keep_foldl2 | apply keep_foldl3 | (fail_if_no_progress refine keep_mk rfl rfl rfl rfl rfl ?_) | refine keep_free rfl rfl rfl rfl rfl ?_)) | dsimp only | split)
theorem opBfpack_keep (g : Eng) (rd : BitVec 4) (sa : BitVec 2) (x3 : State) (h3 : Keep k x3) :
    Keep k (opBfpack g rd sa x3) := by
  unfold opBfpack
  repeat' (first | (with_reducible assumption) | (intro _) | (with_reducible (first | apply slotA_keep)) | (with_reducible (first | apply keep_ite | apply keep_ite2 | apply keep_ite3 | apply keep_ite1 | apply keep_foldl | apply keep_foldl2 | apply keep_foldl3 | (fail_if_no_progress refine keep_mk rfl rfl rfl rfl rfl ?_) | refine keep_free rfl rfl rfl rfl rfl ?_)) | dsimp only | split)
theorem opBfcls_keep (g : Eng) (x1 : State) (h1 : Keep k x1) :
    Keep k (opBfcls g x1) := by
  unfold opBfcls
  repeat' (first | (with_reducible assumption) | (intro _) | (with_reducible (first | apply slotA_keep)) | (with_reducible (first | apply keep_ite | apply keep_ite2 | apply keep_ite3 | apply keep_ite1 | apply keep_foldl | apply keep_foldl2 | apply keep_foldl3 | (fail_if_no_progress refine keep_mk rfl rfl rfl rfl rfl ?_) | refine keep_free rfl rfl rfl rfl rfl ?_)) | dsimp only | split)
theorem opBfxa_keep (g : Eng) (s : State) (h1 : Keep k s) :
    Keep k (opBfxa g s) := by
  unfold opBfxa
  repeat' (first | (with_reducible assumption) | (intro _) | (with_reducible (first | apply slotA_keep)) | (with_reducible (first | apply keep_ite | apply keep_ite2 | apply keep_ite3 | apply keep_ite1 | apply keep_foldl | apply keep_foldl2 | apply keep_foldl3 | (fail_if_no_progress refine keep_mk rfl rfl rfl rfl rfl ?_) | refine keep_free rfl rfl rfl rfl rfl ?_)) | dsimp only | split)
theorem opCmac_keep (g : Eng) (ad : BitVec 2) (rs : BitVec 4) (rt : BitVec 4) (x4 : State) (h4 : Keep k x4) :
    Keep k (opCmac g ad rs rt x4) := by
  unfold opCmac
  repeat' (first | (with_reducible assumption) | (intro _) | (with_reducible (first | apply slotA_keep)) | (with_reducible (first | apply keep_ite | apply keep_ite2 | apply keep_ite3 | apply keep_ite1 | apply keep_foldl | apply keep_foldl2 | apply keep_foldl3 | (fail_if_no_progress refine keep_mk rfl rfl rfl rfl rfl ?_) | refine keep_free rfl rfl rfl rfl rfl ?_)) | dsimp only | split)
theorem opCmsc_keep (g : Eng) (ad : BitVec 2) (rs : BitVec 4) (rt : BitVec 4) (x4 : State) (h4 : Keep k x4) :
    Keep k (opCmsc g ad rs rt x4) := by
  unfold opCmsc
  repeat' (first | (with_reducible assumption) | (intro _) | (with_reducible (first | apply slotA_keep)) | (with_reducible (first | apply keep_ite | apply keep_ite2 | apply keep_ite3 | apply keep_ite1 | apply keep_foldl | apply keep_foldl2 | apply keep_foldl3 | (fail_if_no_progress refine keep_mk rfl rfl rfl rfl rfl ?_) | refine keep_free rfl rfl rfl rfl rfl ?_)) | dsimp only | split)
theorem opCmacc_keep (g : Eng) (ad : BitVec 2) (rs : BitVec 4) (rt : BitVec 4) (x4 : State) (h4 : Keep k x4) :
    Keep k (opCmacc g ad rs rt x4) := by
  unfold opCmacc
  repeat' (first | (with_reducible assumption) | (intro _) | (with_reducible (first | apply slotA_keep)) | (with_reducible (first | apply keep_ite | apply keep_ite2 | apply keep_ite3 | apply keep_ite1 | apply keep_foldl | apply keep_foldl2 | apply keep_foldl3 | (fail_if_no_progress refine keep_mk rfl rfl rfl rfl rfl ?_) | refine keep_free rfl rfl rfl rfl rfl ?_)) | dsimp only | split)
theorem opCmscc_keep (g : Eng) (ad : BitVec 2) (rs : BitVec 4) (rt : BitVec 4) (x4 : State) (h4 : Keep k x4) :
    Keep k (opCmscc g ad rs rt x4) := by
  unfold opCmscc
  repeat' (first | (with_reducible assumption) | (intro _) | (with_reducible (first | apply slotA_keep)) | (with_reducible (first | apply keep_ite | apply keep_ite2 | apply keep_ite3 | apply keep_ite1 | apply keep_foldl | apply keep_foldl2 | apply keep_foldl3 | (fail_if_no_progress refine keep_mk rfl rfl rfl rfl rfl ?_) | refine keep_free rfl rfl rfl rfl rfl ?_)) | dsimp only | split)
theorem opCmul_keep (g : Eng) (ad : BitVec 2) (rs : BitVec 4) (rt : BitVec 4) (x4 : State) (h4 : Keep k x4) :
    Keep k (opCmul g ad rs rt x4) := by
  unfold opCmul
  repeat' (first | (with_reducible assumption) | (intro _) | (with_reducible (first | apply slotA_keep)) | (with_reducible (first | apply keep_ite | apply keep_ite2 | apply keep_ite3 | apply keep_ite1 | apply keep_foldl | apply keep_foldl2 | apply keep_foldl3 | (fail_if_no_progress refine keep_mk rfl rfl rfl rfl rfl ?_) | refine keep_free rfl rfl rfl rfl rfl ?_)) | dsimp only | split)
theorem opCmulc_keep (g : Eng) (ad : BitVec 2) (rs : BitVec 4) (rt : BitVec 4) (x4 : State) (h4 : Keep k x4) :
    Keep k (opCmulc g ad rs rt x4) := by
  unfold opCmulc
  repeat' (first | (with_reducible assumption) | (intro _) | (with_reducible (first | apply slotA_keep)) | (with_reducible (first | apply keep_ite | apply keep_ite2 | apply keep_ite3 | apply keep_ite1 | apply keep_foldl | apply keep_foldl2 | apply keep_foldl3 | (fail_if_no_progress refine keep_mk rfl rfl rfl rfl rfl ?_) | refine keep_free rfl rfl rfl rfl rfl ?_)) | dsimp only | split)
theorem opRmac_keep (g : Eng) (ad : BitVec 2) (rs : BitVec 4) (rt : BitVec 4) (x4 : State) (h4 : Keep k x4) :
    Keep k (opRmac g ad rs rt x4) := by
  unfold opRmac
  repeat' (first | (with_reducible assumption) | (intro _) | (with_reducible (first | apply slotA_keep)) | (with_reducible (first | apply keep_ite | apply keep_ite2 | apply keep_ite3 | apply keep_ite1 | apply keep_foldl | apply keep_foldl2 | apply keep_foldl3 | (fail_if_no_progress refine keep_mk rfl rfl rfl rfl rfl ?_) | refine keep_free rfl rfl rfl rfl rfl ?_)) | dsimp only | split)
theorem opRmsc_keep (g : Eng) (ad : BitVec 2) (rs : BitVec 4) (rt : BitVec 4) (x4 : State) (h4 : Keep k x4) :
    Keep k (opRmsc g ad rs rt x4) := by
  unfold opRmsc
  repeat' (first | (with_reducible assumption) | (intro _) | (with_reducible (first | apply slotA_keep)) | (with_reducible (first | apply keep_ite | apply keep_ite2 | apply keep_ite3 | apply keep_ite1 | apply keep_foldl | apply keep_foldl2 | apply keep_foldl3 | (fail_if_no_progress refine keep_mk rfl rfl rfl rfl rfl ?_) | refine keep_free rfl rfl rfl rfl rfl ?_)) | dsimp only | split)
theorem opRmul_keep (g : Eng) (ad : BitVec 2) (rs : BitVec 4) (rt : BitVec 4) (x4 : State) (h4 : Keep k x4) :
    Keep k (opRmul g ad rs rt x4) := by
  unfold opRmul
  repeat' (first | (with_reducible assumption) | (intro _) | (with_reducible (first | apply slotA_keep)) | (with_reducible (first | apply keep_ite | apply keep_ite2 | apply keep_ite3 | apply keep_ite1 | apply keep_foldl | apply keep_foldl2 | apply keep_foldl3 | (fail_if_no_progress refine keep_mk rfl rfl rfl rfl rfl ?_) | refine keep_free rfl rfl rfl rfl rfl ?_)) | dsimp only | split)
theorem opMulW_keep (g : Eng) (rd : BitVec 4) (rs : BitVec 4) (rt : BitVec 4) (x4 : State) (h4 : Keep k x4) :
    Keep k (opMulW g rd rs rt x4) := by
  unfold opMulW
  repeat' (first | (with_reducible assumption) | (intro _) | (with_reducible (first | apply slotA_keep)) | (with_reducible (first | apply keep_ite | apply keep_ite2 | apply keep_ite3 | apply keep_ite1 | apply keep_foldl | apply keep_foldl2 | apply keep_foldl3 | (fail_if_no_progress refine keep_mk rfl rfl rfl rfl rfl ?_) | refine keep_free rfl rfl rfl rfl rfl ?_)) | dsimp only | split)

end Sys2Proof.Machine
end

