-- ==== Sys2Proof/Laws/KeepEngineB.lean ====
section
/-! SUPPORT. The operations of Machine/EngineB.lean keep the queue, the counts that only rise, and `Inv`. -/

namespace Sys2Proof.Machine

set_option linter.unusedTactic false
set_option linter.unreachableTactic false
set_option linter.unusedVariables false

variable {k : KeepAt}

theorem opSlotBNop_keep (g : Eng) (x1 : State) (h1 : Keep k x1) :
    Keep k (opSlotBNop g x1) := by
  unfold opSlotBNop
  repeat' (first | (with_reducible assumption) | (intro _) | (with_reducible (first | apply slotB_keep)) | (with_reducible (first | apply keep_ite | apply keep_ite2 | apply keep_ite3 | apply keep_ite1 | apply keep_foldl | apply keep_foldl2 | apply keep_foldl3 | (fail_if_no_progress refine keep_mk rfl rfl rfl rfl rfl ?_) | refine keep_free rfl rfl rfl rfl rfl ?_)) | dsimp only | split)
theorem opLd16Re_keep (g : Eng) (rd : BitVec 6) (ai : BitVec 3) (mode : BitVec 2) (md : BitVec 15) (x5 : State) (h5 : Keep k x5) :
    Keep k (opLd16Re g rd ai mode md x5) := by
  unfold opLd16Re
  repeat' (first | (with_reducible assumption) | (intro _) | (with_reducible (first | apply slotB_keep)) | (with_reducible (first | apply keep_ite | apply keep_ite2 | apply keep_ite3 | apply keep_ite1 | apply keep_foldl | apply keep_foldl2 | apply keep_foldl3 | (fail_if_no_progress refine keep_mk rfl rfl rfl rfl rfl ?_) | refine keep_free rfl rfl rfl rfl rfl ?_)) | dsimp only | split)
theorem opLd16Im_keep (g : Eng) (rd : BitVec 6) (ai : BitVec 3) (mode : BitVec 2) (md : BitVec 15) (x5 : State) (h5 : Keep k x5) :
    Keep k (opLd16Im g rd ai mode md x5) := by
  unfold opLd16Im
  repeat' (first | (with_reducible assumption) | (intro _) | (with_reducible (first | apply slotB_keep)) | (with_reducible (first | apply keep_ite | apply keep_ite2 | apply keep_ite3 | apply keep_ite1 | apply keep_foldl | apply keep_foldl2 | apply keep_foldl3 | (fail_if_no_progress refine keep_mk rfl rfl rfl rfl rfl ?_) | refine keep_free rfl rfl rfl rfl rfl ?_)) | dsimp only | split)
theorem opLd16s_keep (g : Eng) (rd : BitVec 6) (ai : BitVec 3) (mode : BitVec 2) (md : BitVec 15) (x5 : State) (h5 : Keep k x5) :
    Keep k (opLd16s g rd ai mode md x5) := by
  unfold opLd16s
  repeat' (first | (with_reducible assumption) | (intro _) | (with_reducible (first | apply slotB_keep)) | (with_reducible (first | apply keep_ite | apply keep_ite2 | apply keep_ite3 | apply keep_ite1 | apply keep_foldl | apply keep_foldl2 | apply keep_foldl3 | (fail_if_no_progress refine keep_mk rfl rfl rfl rfl rfl ?_) | refine keep_free rfl rfl rfl rfl rfl ?_)) | dsimp only | split)
theorem opLd32_keep (g : Eng) (rd : BitVec 6) (ai : BitVec 3) (mode : BitVec 2) (md : BitVec 15) (x5 : State) (h5 : Keep k x5) :
    Keep k (opLd32 g rd ai mode md x5) := by
  unfold opLd32
  repeat' (first | (with_reducible assumption) | (intro _) | (with_reducible (first | apply slotB_keep)) | (with_reducible (first | apply keep_ite | apply keep_ite2 | apply keep_ite3 | apply keep_ite1 | apply keep_foldl | apply keep_foldl2 | apply keep_foldl3 | (fail_if_no_progress refine keep_mk rfl rfl rfl rfl rfl ?_) | refine keep_free rfl rfl rfl rfl rfl ?_)) | dsimp only | split)
theorem opLd64_keep (g : Eng) (rd : BitVec 6) (ai : BitVec 3) (mode : BitVec 2) (md : BitVec 15) (x5 : State) (h5 : Keep k x5) :
    Keep k (opLd64 g rd ai mode md x5) := by
  unfold opLd64
  repeat' (first | (with_reducible assumption) | (intro _) | (with_reducible (first | apply slotB_keep)) | (with_reducible (first | apply keep_ite | apply keep_ite2 | apply keep_ite3 | apply keep_ite1 | apply keep_foldl | apply keep_foldl2 | apply keep_foldl3 | (fail_if_no_progress refine keep_mk rfl rfl rfl rfl rfl ?_) | refine keep_free rfl rfl rfl rfl rfl ?_)) | dsimp only | split)
theorem opSt16Re_keep (g : Eng) (rs : BitVec 6) (ai : BitVec 3) (mode : BitVec 2) (md : BitVec 15) (x5 : State) (h5 : Keep k x5) :
    Keep k (opSt16Re g rs ai mode md x5) := by
  unfold opSt16Re
  repeat' (first | (with_reducible assumption) | (intro _) | (with_reducible (first | apply slotB_keep)) | (with_reducible (first | apply keep_ite | apply keep_ite2 | apply keep_ite3 | apply keep_ite1 | apply keep_foldl | apply keep_foldl2 | apply keep_foldl3 | (fail_if_no_progress refine keep_mk rfl rfl rfl rfl rfl ?_) | refine keep_free rfl rfl rfl rfl rfl ?_)) | dsimp only | split)
theorem opSt16Im_keep (g : Eng) (rs : BitVec 6) (ai : BitVec 3) (mode : BitVec 2) (md : BitVec 15) (x5 : State) (h5 : Keep k x5) :
    Keep k (opSt16Im g rs ai mode md x5) := by
  unfold opSt16Im
  repeat' (first | (with_reducible assumption) | (intro _) | (with_reducible (first | apply slotB_keep)) | (with_reducible (first | apply keep_ite | apply keep_ite2 | apply keep_ite3 | apply keep_ite1 | apply keep_foldl | apply keep_foldl2 | apply keep_foldl3 | (fail_if_no_progress refine keep_mk rfl rfl rfl rfl rfl ?_) | refine keep_free rfl rfl rfl rfl rfl ?_)) | dsimp only | split)
theorem opSt32_keep (g : Eng) (rs : BitVec 6) (ai : BitVec 3) (mode : BitVec 2) (md : BitVec 15) (x5 : State) (h5 : Keep k x5) :
    Keep k (opSt32 g rs ai mode md x5) := by
  unfold opSt32
  repeat' (first | (with_reducible assumption) | (intro _) | (with_reducible (first | apply slotB_keep)) | (with_reducible (first | apply keep_ite | apply keep_ite2 | apply keep_ite3 | apply keep_ite1 | apply keep_foldl | apply keep_foldl2 | apply keep_foldl3 | (fail_if_no_progress refine keep_mk rfl rfl rfl rfl rfl ?_) | refine keep_free rfl rfl rfl rfl rfl ?_)) | dsimp only | split)
theorem opSt64_keep (g : Eng) (rs : BitVec 6) (ai : BitVec 3) (mode : BitVec 2) (md : BitVec 15) (x5 : State) (h5 : Keep k x5) :
    Keep k (opSt64 g rs ai mode md x5) := by
  unfold opSt64
  repeat' (first | (with_reducible assumption) | (intro _) | (with_reducible (first | apply slotB_keep)) | (with_reducible (first | apply keep_ite | apply keep_ite2 | apply keep_ite3 | apply keep_ite1 | apply keep_foldl | apply keep_foldl2 | apply keep_foldl3 | (fail_if_no_progress refine keep_mk rfl rfl rfl rfl rfl ?_) | refine keep_free rfl rfl rfl rfl rfl ?_)) | dsimp only | split)
theorem opUpd_keep (g : Eng) (ai : BitVec 3) (mode : BitVec 2) (md : BitVec 15) (x4 : State) (h4 : Keep k x4) :
    Keep k (opUpd g ai mode md x4) := by
  unfold opUpd
  repeat' (first | (with_reducible assumption) | (intro _) | (with_reducible (first | apply slotB_keep)) | (with_reducible (first | apply keep_ite | apply keep_ite2 | apply keep_ite3 | apply keep_ite1 | apply keep_foldl | apply keep_foldl2 | apply keep_foldl3 | (fail_if_no_progress refine keep_mk rfl rfl rfl rfl rfl ?_) | refine keep_free rfl rfl rfl rfl rfl ?_)) | dsimp only | split)
theorem opMovi_keep (g : Eng) (rd : BitVec 6) (imm : BitVec 20) (x3 : State) (h3 : Keep k x3) :
    Keep k (opMovi g rd imm x3) := by
  unfold opMovi
  repeat' (first | (with_reducible assumption) | (intro _) | (with_reducible (first | apply slotB_keep)) | (with_reducible (first | apply keep_ite | apply keep_ite2 | apply keep_ite3 | apply keep_ite1 | apply keep_foldl | apply keep_foldl2 | apply keep_foldl3 | (fail_if_no_progress refine keep_mk rfl rfl rfl rfl rfl ?_) | refine keep_free rfl rfl rfl rfl rfl ?_)) | dsimp only | split)
theorem opMov_keep (g : Eng) (rd : BitVec 6) (rs : BitVec 6) (x3 : State) (h3 : Keep k x3) :
    Keep k (opMov g rd rs x3) := by
  unfold opMov
  repeat' (first | (with_reducible assumption) | (intro _) | (with_reducible (first | apply slotB_keep)) | (with_reducible (first | apply keep_ite | apply keep_ite2 | apply keep_ite3 | apply keep_ite1 | apply keep_foldl | apply keep_foldl2 | apply keep_foldl3 | (fail_if_no_progress refine keep_mk rfl rfl rfl rfl rfl ?_) | refine keep_free rfl rfl rfl rfl rfl ?_)) | dsimp only | split)
theorem opStset_keep (g : Eng) (mask : BitVec 12) (x2 : State) (h2 : Keep k x2) :
    Keep k (opStset g mask x2) := by
  unfold opStset
  repeat' (first | (with_reducible assumption) | (intro _) | (with_reducible (first | apply slotB_keep)) | (with_reducible (first | apply keep_ite | apply keep_ite2 | apply keep_ite3 | apply keep_ite1 | apply keep_foldl | apply keep_foldl2 | apply keep_foldl3 | (fail_if_no_progress refine keep_mk rfl rfl rfl rfl rfl ?_) | refine keep_free rfl rfl rfl rfl rfl ?_)) | dsimp only | split)
theorem opStclr_keep (g : Eng) (mask : BitVec 12) (x2 : State) (h2 : Keep k x2) :
    Keep k (opStclr g mask x2) := by
  unfold opStclr
  repeat' (first | (with_reducible assumption) | (intro _) | (with_reducible (first | apply slotB_keep)) | (with_reducible (first | apply keep_ite | apply keep_ite2 | apply keep_ite3 | apply keep_ite1 | apply keep_foldl | apply keep_foldl2 | apply keep_foldl3 | (fail_if_no_progress refine keep_mk rfl rfl rfl rfl rfl ?_) | refine keep_free rfl rfl rfl rfl rfl ?_)) | dsimp only | split)
theorem opBCc_keep (g : Eng) (cond : BitVec 4) (target : BitVec 10) (x3 : State) (h3 : Keep k x3) :
    Keep k (opBCc g cond target x3) := by
  unfold opBCc
  repeat' (first | (with_reducible assumption) | (intro _) | (with_reducible (first | apply slotCT_keep)) | (with_reducible (first | apply keep_ite | apply keep_ite2 | apply keep_ite3 | apply keep_ite1 | apply keep_foldl | apply keep_foldl2 | apply keep_foldl3 | (fail_if_no_progress refine keep_mk rfl rfl rfl rfl rfl ?_) | refine keep_free rfl rfl rfl rfl rfl ?_)) | dsimp only | split)
theorem opLoop_keep (g : Eng) (target : BitVec 10) (x2 : State) (h2 : Keep k x2) :
    Keep k (opLoop g target x2) := by
  unfold opLoop
  repeat' (first | (with_reducible assumption) | (intro _) | (with_reducible (first | apply slotCT_keep)) | (with_reducible (first | apply keep_ite | apply keep_ite2 | apply keep_ite3 | apply keep_ite1 | apply keep_foldl | apply keep_foldl2 | apply keep_foldl3 | (fail_if_no_progress refine keep_mk rfl rfl rfl rfl rfl ?_) | refine keep_free rfl rfl rfl rfl rfl ?_)) | dsimp only | split)
theorem opBl_keep (g : Eng) (rd : BitVec 6) (target : BitVec 10) (x3 : State) (h3 : Keep k x3) :
    Keep k (opBl g rd target x3) := by
  unfold opBl
  repeat' (first | (with_reducible assumption) | (intro _) | (with_reducible (first | apply slotCT_keep)) | (with_reducible (first | apply keep_ite | apply keep_ite2 | apply keep_ite3 | apply keep_ite1 | apply keep_foldl | apply keep_foldl2 | apply keep_foldl3 | (fail_if_no_progress refine keep_mk rfl rfl rfl rfl rfl ?_) | refine keep_free rfl rfl rfl rfl rfl ?_)) | dsimp only | split)
theorem opBrr_keep (g : Eng) (rs : BitVec 6) (x2 : State) (h2 : Keep k x2) :
    Keep k (opBrr g rs x2) := by
  unfold opBrr
  repeat' (first | (with_reducible assumption) | (intro _) | (with_reducible (first | apply slotCT_keep)) | (with_reducible (first | apply keep_ite | apply keep_ite2 | apply keep_ite3 | apply keep_ite1 | apply keep_foldl | apply keep_foldl2 | apply keep_foldl3 | (fail_if_no_progress refine keep_mk rfl rfl rfl rfl rfl ?_) | refine keep_free rfl rfl rfl rfl rfl ?_)) | dsimp only | split)
theorem opReti_keep (g : Eng) (x1 : State) (h1 : Keep k x1) :
    Keep k (opReti g x1) := by
  unfold opReti
  repeat' (first | (with_reducible assumption) | (intro _) | (with_reducible (first | apply slotCT_keep)) | (with_reducible (first | apply keep_ite | apply keep_ite2 | apply keep_ite3 | apply keep_ite1 | apply keep_foldl | apply keep_foldl2 | apply keep_foldl3 | (fail_if_no_progress refine keep_mk rfl rfl rfl rfl rfl ?_) | refine keep_free rfl rfl rfl rfl rfl ?_)) | dsimp only | split)
theorem opRpt_keep (g : Eng) (csrc : Bool) (cnt : BitVec 12) (x3 : State) (h3 : Keep k x3) :
    Keep k (opRpt g csrc cnt x3) := by
  unfold opRpt
  repeat' (first | (with_reducible assumption) | (intro _) | (with_reducible (first | apply slotCT_keep)) | (with_reducible (first | apply keep_ite | apply keep_ite2 | apply keep_ite3 | apply keep_ite1 | apply keep_foldl | apply keep_foldl2 | apply keep_foldl3 | (fail_if_no_progress refine keep_mk rfl rfl rfl rfl rfl ?_) | refine keep_free rfl rfl rfl rfl rfl ?_)) | dsimp only | split)
theorem opCommit_keep (g : Eng) (x1 : State) (h1 : Keep k x1) :
    Keep k (opCommit g x1) := by
  unfold opCommit
  repeat' (first | (with_reducible assumption) | (intro _) | (with_reducible (first | apply slotB_keep)) | (with_reducible (first | apply keep_ite | apply keep_ite2 | apply keep_ite3 | apply keep_ite1 | apply keep_foldl | apply keep_foldl2 | apply keep_foldl3 | (fail_if_no_progress refine keep_mk rfl rfl rfl rfl rfl ?_) | refine keep_free rfl rfl rfl rfl rfl ?_)) | dsimp only | split)
theorem opDone_keep (g : Eng) (x1 : State) (h1 : Keep k x1) :
    Keep k (opDone g x1) := by
  unfold opDone
  repeat' (first | (with_reducible assumption) | (intro _) | (with_reducible (first | apply slotCT_keep)) | (with_reducible (first | apply keep_ite | apply keep_ite2 | apply keep_ite3 | apply keep_ite1 | apply keep_foldl | apply keep_foldl2 | apply keep_foldl3 | (fail_if_no_progress refine keep_mk rfl rfl rfl rfl rfl ?_) | refine keep_free rfl rfl rfl rfl rfl ?_)) | dsimp only | split)

end Sys2Proof.Machine
end

