-- ==== Sys2Proof/Laws/KeepEngineEv.lean ====
section
/-! SUPPORT. The operations of Machine/EngineEv.lean keep the queue, the counts that only rise, and `Inv`. -/

namespace Sys2Proof.Machine

set_option linter.unusedTactic false
set_option linter.unreachableTactic false
set_option linter.unusedVariables false

variable {k : KeepAt}

theorem fetchCorrect_keep (s : State) (n : ℕ) (pc : ℕ) (h0 : Keep k s) :
    Keep k (fetchCorrect s n pc) := by
  unfold fetchCorrect
  repeat' (first | (with_reducible assumption) | (intro _) | (with_reducible (first | apply engUpd_keep | apply engRecord_keep | apply finc_keep)) | (with_reducible (first | apply keep_ite | apply keep_ite2 | apply keep_ite3 | apply keep_ite1 | apply keep_foldl | apply keep_foldl2 | apply keep_foldl3 | (fail_if_no_progress refine keep_mk rfl rfl rfl rfl rfl ?_) | refine keep_free rfl rfl rfl rfl rfl ?_)) | dsimp only | split)
theorem opPmDbe_keep (n : ℕ) (s : State) (h1 : Keep k s) :
    Keep k (opPmDbe n s) := by
  unfold opPmDbe
  repeat' (first | (with_reducible assumption) | (intro _) | (with_reducible (first | apply fetchCorrect_keep | apply engRecord_keep | apply finc_keep | apply engFault_keep)) | (with_reducible (first | apply keep_ite | apply keep_ite2 | apply keep_ite3 | apply keep_ite1 | apply keep_foldl | apply keep_foldl2 | apply keep_foldl3 | (fail_if_no_progress refine keep_mk rfl rfl rfl rfl rfl ?_) | refine keep_free rfl rfl rfl rfl rfl ?_)) | dsimp only | split)
theorem chk_keep {w m : Word} {f0 f : State → State} (hf : chk w m f0 = some f) (h0 : ∀ s, Keep k s → Keep k (f0 s)) :
    ∀ s, Keep k s → Keep k (f s) := by
  unfold chk at hf
  split at hf
  · cases hf
    exact h0
  · cases hf
theorem decodeA_keep {g : Eng} {w : Word} {f : State → State} (hf : decodeA g w = some f) : ∀ s, Keep k s → Keep k (f s) := by
  unfold decodeA at hf
  split at hf <;> first | cases hf | (refine chk_keep hf ?_; intro s h; with_reducible (first | (apply opAccAdd_keep; assumption) | (apply opAccClr_keep; assumption) | (apply opAccSet_keep; assumption) | (apply opAccSub_keep; assumption) | (apply opAddH_keep; assumption) | (apply opAddW_keep; assumption) | (apply opAddsH_keep; assumption) | (apply opAndW_keep; assumption) | (apply opAndnW_keep; assumption) | (apply opAshift_keep; assumption) | (apply opBfcls_keep; assumption) | (apply opBfpack_keep; assumption) | (apply opBfscan_keep; assumption) | (apply opBfxa_keep; assumption) | (apply opCmac_keep; assumption) | (apply opCmacc_keep; assumption) | (apply opCmpW_keep; assumption) | (apply opCmsc_keep; assumption) | (apply opCmscc_keep; assumption) | (apply opCmul_keep; assumption) | (apply opCmulc_keep; assumption) | (apply opConj_keep; assumption) | (apply opExpx_keep; assumption) | (apply opExt_keep; assumption) | (apply opExtr_keep; assumption) | (apply opMovX_keep; assumption) | (apply opMulW_keep; assumption) | (apply opMulj_keep; assumption) | (apply opMvfa_keep; assumption) | (apply opMvh_keep; assumption) | (apply opMvl_keep; assumption) | (apply opMvta_keep; assumption) | (apply opNorm_keep; assumption) | (apply opOrW_keep; assumption) | (apply opPackH_keep; assumption) | (apply opRdst_keep; assumption) | (apply opRmac_keep; assumption) | (apply opRmsc_keep; assumption) | (apply opRmul_keep; assumption) | (apply opShlW_keep; assumption) | (apply opShrW_keep; assumption) | (apply opSlotANop_keep; assumption) | (apply opSraH_keep; assumption) | (apply opSraW_keep; assumption) | (apply opSubH_keep; assumption) | (apply opSubW_keep; assumption) | (apply opSubsH_keep; assumption) | (apply opWrst_keep; assumption) | (apply opXorW_keep; assumption)))
theorem some_keep {f0 f : State → State} (hf : some f0 = some f) (h0 : ∀ s, Keep k s → Keep k (f0 s)) : ∀ s, Keep k s → Keep k (f s) := by
  cases hf
  exact h0
theorem decodeB_keep {g : Eng} {w : Word} {f : State → State} (hf : decodeB g w = some f) : ∀ s, Keep k s → Keep k (f s) := by
  unfold decodeB at hf
  split at hf <;> first | (refine some_keep hf ?_; intro s h; with_reducible (first | (apply opBCc_keep; assumption) | (apply opBl_keep; assumption) | (apply opBrr_keep; assumption) | (apply opCommit_keep; assumption) | (apply opDone_keep; assumption) | (apply opLd16Im_keep; assumption) | (apply opLd16Re_keep; assumption) | (apply opLd16s_keep; assumption) | (apply opLd32_keep; assumption) | (apply opLd64_keep; assumption) | (apply opLoop_keep; assumption) | (apply opMov_keep; assumption) | (apply opMovi_keep; assumption) | (apply opReti_keep; assumption) | (apply opRpt_keep; assumption) | (apply opSlotBNop_keep; assumption) | (apply opSt16Im_keep; assumption) | (apply opSt16Re_keep; assumption) | (apply opSt32_keep; assumption) | (apply opSt64_keep; assumption) | (apply opStclr_keep; assumption) | (apply opStset_keep; assumption) | (apply opUpd_keep; assumption))) | (refine chk_keep hf ?_; intro s h; with_reducible (first | (apply opBCc_keep; assumption) | (apply opBl_keep; assumption) | (apply opBrr_keep; assumption) | (apply opCommit_keep; assumption) | (apply opDone_keep; assumption) | (apply opLd16Im_keep; assumption) | (apply opLd16Re_keep; assumption) | (apply opLd16s_keep; assumption) | (apply opLd32_keep; assumption) | (apply opLd64_keep; assumption) | (apply opLoop_keep; assumption) | (apply opMov_keep; assumption) | (apply opMovi_keep; assumption) | (apply opReti_keep; assumption) | (apply opRpt_keep; assumption) | (apply opSlotBNop_keep; assumption) | (apply opSt16Im_keep; assumption) | (apply opSt16Re_keep; assumption) | (apply opSt32_keep; assumption) | (apply opSt64_keep; assumption) | (apply opStclr_keep; assumption) | (apply opStset_keep; assumption) | (apply opUpd_keep; assumption))) | cases hf
theorem issueBundle_keep (g : Eng) (b : BitVec 64) (s : State) (h2 : Keep k s) :
    Keep k (issueBundle g b s) := by
  unfold issueBundle
  split
  · rename_i fa fb ha hb
    exact decodeB_keep hb _ (decodeA_keep ha _ h2)
  · exact illegalBundle_keep _ _ h2
theorem opIllegalOp_keep (g : Eng) (b : BitVec 64) (s : State) (h2 : Keep k s) :
    Keep k (opIllegalOp g b s) := by
  unfold opIllegalOp
  repeat' (first | (with_reducible assumption) | (intro _) | (with_reducible (first | apply issueBundle_keep)) | (with_reducible (first | apply keep_ite | apply keep_ite2 | apply keep_ite3 | apply keep_ite1 | apply keep_foldl | apply keep_foldl2 | apply keep_foldl3 | (fail_if_no_progress refine keep_mk rfl rfl rfl rfl rfl ?_) | refine keep_free rfl rfl rfl rfl rfl ?_)) | dsimp only | split)
theorem opDmWriteback_keep (n : ℕ) (s : State) (h1 : Keep k s) :
    Keep k (opDmWriteback n s) := by
  unfold opDmWriteback
  repeat' (first | (with_reducible assumption) | (intro _) | (with_reducible (first | apply engUpd_keep)) | (with_reducible (first | apply keep_ite | apply keep_ite2 | apply keep_ite3 | apply keep_ite1 | apply keep_foldl | apply keep_foldl2 | apply keep_foldl3 | (fail_if_no_progress refine keep_mk rfl rfl rfl rfl rfl ?_) | refine keep_free rfl rfl rfl rfl rfl ?_)) | dsimp only | split)
theorem opTimerFire_keep (n : ℕ) (s : State) (h1 : Keep k s) :
    Keep k (opTimerFire n s) := by
  unfold opTimerFire
  repeat' (first | (with_reducible assumption) | (intro _) | (with_reducible (first | apply engUpd_keep)) | (with_reducible (first | apply keep_ite | apply keep_ite2 | apply keep_ite3 | apply keep_ite1 | apply keep_foldl | apply keep_foldl2 | apply keep_foldl3 | (fail_if_no_progress refine keep_mk rfl rfl rfl rfl rfl ?_) | refine keep_free rfl rfl rfl rfl rfl ?_)) | dsimp only | split)
theorem opInterruptAccept_keep (n : ℕ) (s : State) (h1 : Keep k s) :
    Keep k (opInterruptAccept n s) := by
  unfold opInterruptAccept
  repeat' (first | (with_reducible assumption) | (intro _) | (with_reducible (first | apply engUpd_keep)) | (with_reducible (first | apply keep_ite | apply keep_ite2 | apply keep_ite3 | apply keep_ite1 | apply keep_foldl | apply keep_foldl2 | apply keep_foldl3 | (fail_if_no_progress refine keep_mk rfl rfl rfl rfl rfl ?_) | refine keep_free rfl rfl rfl rfl rfl ?_)) | dsimp only | split)
theorem opSharedStoreArrive_keep (n : ℕ) (src : ℕ) (s : State) (h2 : Keep k s) :
    Keep k (opSharedStoreArrive n src s) := by
  unfold opSharedStoreArrive
  repeat' (first | (with_reducible assumption) | (intro _) | (with_reducible (first | apply engUpd_keep)) | (with_reducible (first | apply keep_ite | apply keep_ite2 | apply keep_ite3 | apply keep_ite1 | apply keep_foldl | apply keep_foldl2 | apply keep_foldl3 | (fail_if_no_progress refine keep_mk rfl rfl rfl rfl rfl ?_) | refine keep_free rfl rfl rfl rfl rfl ?_)) | dsimp only | split)
theorem opEngineRawAccess_keep (n : ℕ) (s : State) (h1 : Keep k s) :
    Keep k (opEngineRawAccess n s) := by
  unfold opEngineRawAccess
  repeat' (first | (with_reducible assumption) | (intro _) | (with_reducible (first | apply fflag_keep | apply engUpd_keep | apply fset_keep)) | (with_reducible (first | apply keep_ite | apply keep_ite2 | apply keep_ite3 | apply keep_ite1 | apply keep_foldl | apply keep_foldl2 | apply keep_foldl3 | (fail_if_no_progress refine keep_mk rfl rfl rfl rfl rfl ?_) | refine keep_free rfl rfl rfl rfl rfl ?_)) | dsimp only | split)
theorem opEngineRawTimeout_keep (n : ℕ) (s : State) (h1 : Keep k s) :
    Keep k (opEngineRawTimeout n s) := by
  unfold opEngineRawTimeout
  repeat' (first | (with_reducible assumption) | (intro _) | (with_reducible (first | apply fflag_keep)) | (with_reducible (first | apply keep_ite | apply keep_ite2 | apply keep_ite3 | apply keep_ite1 | apply keep_foldl | apply keep_foldl2 | apply keep_foldl3 | (fail_if_no_progress refine keep_mk rfl rfl rfl rfl rfl ?_) | refine keep_free rfl rfl rfl rfl rfl ?_)) | dsimp only | split)
theorem actEngRawGo_keep (n : ℕ) (s : State) (h1 : Keep k s) :
    Keep k (actEngRawGo n s) := by
  unfold actEngRawGo
  repeat' (first | (with_reducible assumption) | (intro _) | (with_reducible (first | apply fflag_keep)) | (with_reducible (first | apply keep_ite | apply keep_ite2 | apply keep_ite3 | apply keep_ite1 | apply keep_foldl | apply keep_foldl2 | apply keep_foldl3 | (fail_if_no_progress refine keep_mk rfl rfl rfl rfl rfl ?_) | refine keep_free rfl rfl rfl rfl rfl ?_)) | dsimp only | split)
theorem actEngErrClr_keep (n : ℕ) (s : State) (h1 : Keep k s) :
    Keep k (actEngErrClr n s) := by
  unfold actEngErrClr
  repeat' (first | (with_reducible assumption) | (intro _) | (with_reducible (first | apply csrWipe_keep)) | (with_reducible (first | apply keep_ite | apply keep_ite2 | apply keep_ite3 | apply keep_ite1 | apply keep_foldl | apply keep_foldl2 | apply keep_foldl3 | (fail_if_no_progress refine keep_mk rfl rfl rfl rfl rfl ?_) | refine keep_free rfl rfl rfl rfl rfl ?_)) | dsimp only | split)
theorem actSchedClr_keep (n : ℕ) (s : State) (h1 : Keep k s) :
    Keep k (actSchedClr n s) := by
  unfold actSchedClr
  repeat' (first | (with_reducible assumption) | (intro _) | (with_reducible (first | apply csrWipe_keep)) | (with_reducible (first | apply keep_ite | apply keep_ite2 | apply keep_ite3 | apply keep_ite1 | apply keep_foldl | apply keep_foldl2 | apply keep_foldl3 | (fail_if_no_progress refine keep_mk rfl rfl rfl rfl rfl ?_) | refine keep_free rfl rfl rfl rfl rfl ?_)) | dsimp only | split)
theorem engineCycle_keep (g : Eng) (s : State) (h1 : Keep k s) :
    Keep k (engineCycle g s) := by
  unfold engineCycle
  repeat' (first | (with_reducible assumption) | (intro _) | (with_reducible (first | apply opInterruptAccept_keep | apply opPmDbe_keep | apply issueBundle_keep | apply fetchCorrect_keep | apply retire_keep)) | (with_reducible (first | apply keep_ite | apply keep_ite2 | apply keep_ite3 | apply keep_ite1 | apply keep_foldl | apply keep_foldl2 | apply keep_foldl3 | (fail_if_no_progress refine keep_mk rfl rfl rfl rfl rfl ?_) | refine keep_free rfl rfl rfl rfl rfl ?_)) | dsimp only | split)
theorem inboxArrive_keep (s : State) (n : ℕ) (m : Msg) (h0 : Keep k s) :
    Keep k (inboxArrive s n m).2 := by
  unfold inboxArrive
  repeat' (first | (with_reducible assumption) | (intro _) | (with_reducible (first | apply finc_keep | apply engSet_keep)) | (with_reducible (first | apply keep_ite | apply keep_ite2 | apply keep_ite3 | apply keep_ite1 | apply keep_foldl | apply keep_foldl2 | apply keep_foldl3 | (fail_if_no_progress refine keep_mk rfl rfl rfl rfl rfl ?_) | refine keep_free rfl rfl rfl rfl rfl ?_)) | dsimp only | split)
theorem doorbell_keep (s : State) (n : ℕ) (h0 : Keep k s) :
    Keep k (doorbell s n) := by
  unfold doorbell
  repeat' (first | (with_reducible assumption) | (intro _) | (with_reducible (first | apply engUpd_keep)) | (with_reducible (first | apply keep_ite | apply keep_ite2 | apply keep_ite3 | apply keep_ite1 | apply keep_foldl | apply keep_foldl2 | apply keep_foldl3 | (fail_if_no_progress refine keep_mk rfl rfl rfl rfl rfl ?_) | refine keep_free rfl rfl rfl rfl rfl ?_)) | dsimp only | split)
theorem beginRun_keep (s : State) (n : ℕ) (cnt : ℕ) (budget : ℕ) (h0 : Keep k s) :
    Keep k (beginRun s n cnt budget) := by
  unfold beginRun
  repeat' (first | (with_reducible assumption) | (intro _) | (with_reducible (first | apply finc_keep | apply engUpd_keep)) | (with_reducible (first | apply keep_ite | apply keep_ite2 | apply keep_ite3 | apply keep_ite1 | apply keep_foldl | apply keep_foldl2 | apply keep_foldl3 | (fail_if_no_progress refine keep_mk rfl rfl rfl rfl rfl ?_) | refine keep_free rfl rfl rfl rfl rfl ?_)) | dsimp only | split)
theorem engTick_keep (s : State) (n : ℕ) (cnt : ℕ) (h0 : Keep k s) :
    Keep k (engTick s n cnt) := by
  unfold engTick
  repeat' (first | (with_reducible assumption) | (intro _) | (with_reducible (first | apply engUpd_keep | apply haltRun_keep | apply beginRun_keep)) | (with_reducible (first | apply keep_ite | apply keep_ite2 | apply keep_ite3 | apply keep_ite1 | apply keep_foldl | apply keep_foldl2 | apply keep_foldl3 | (fail_if_no_progress refine keep_mk rfl rfl rfl rfl rfl ?_) | refine keep_free rfl rfl rfl rfl rfl ?_)) | dsimp only | split)
theorem eisTick_keep (s : State) (cnt : ℕ) (e : ℕ) (h0 : Keep k s) :
    Keep k (eisTick s cnt e) := by
  unfold eisTick
  repeat' (first | (with_reducible assumption) | (intro _) | (with_reducible (first | apply fset_keep | apply engTick_keep)) | (with_reducible (first | apply keep_ite | apply keep_ite2 | apply keep_ite3 | apply keep_ite1 | apply keep_foldl | apply keep_foldl2 | apply keep_foldl3 | (fail_if_no_progress refine keep_mk rfl rfl rfl rfl rfl ?_) | refine keep_free rfl rfl rfl rfl rfl ?_)) | dsimp only | split)

end Sys2Proof.Machine
end

