-- ==== Sys2Proof/Laws/KeepTiming.lean ====
section
/-! SUPPORT. The operations of Machine/Timing.lean keep the queue, the counts that only rise, and `Inv`. -/

namespace Sys2Proof.Machine

set_option linter.unusedTactic false
set_option linter.unreachableTactic false
set_option linter.unusedVariables false

variable {k : KeepAt}

theorem opTick_keep (s : State) (h0 : Keep k s) :
    Keep k (opTick s) := by
  unfold opTick
  repeat' (first | (with_reducible assumption) | (intro _) | (with_reducible (first | apply eisTick_keep)) | (with_reducible (first | apply keep_ite | apply keep_ite2 | apply keep_ite3 | apply keep_ite1 | apply keep_foldl | apply keep_foldl2 | apply keep_foldl3 | (fail_if_no_progress refine keep_mk rfl rfl rfl rfl rfl ?_) | refine keep_free rfl rfl rfl rfl rfl ?_)) | dsimp only | split)
theorem ppsRise_keep (s : State) (h0 : Keep k s) :
    Keep k (ppsRise s) := by
  unfold ppsRise
  repeat' (first | (with_reducible assumption) | (intro _) | (with_reducible (first | apply keep_ite | apply keep_ite2 | apply keep_ite3 | apply keep_ite1 | apply keep_foldl | apply keep_foldl2 | apply keep_foldl3 | (fail_if_no_progress refine keep_mk rfl rfl rfl rfl rfl ?_) | refine keep_free rfl rfl rfl rfl rfl ?_)) | dsimp only | split)
theorem ppsFall_keep (s : State) (h0 : Keep k s) :
    Keep k (ppsFall s) := by
  unfold ppsFall
  repeat' (first | (with_reducible assumption) | (intro _) | (with_reducible (first | apply keep_ite | apply keep_ite2 | apply keep_ite3 | apply keep_ite1 | apply keep_foldl | apply keep_foldl2 | apply keep_foldl3 | (fail_if_no_progress refine keep_mk rfl rfl rfl rfl rfl ?_) | refine keep_free rfl rfl rfl rfl rfl ?_)) | dsimp only | split)
theorem ppsCycle_keep (t : TimSt) (s : State) (h1 : Keep k s) :
    Keep k (ppsCycle t s) := by
  unfold ppsCycle
  repeat' (first | (with_reducible assumption) | (intro _) | (with_reducible (first | apply ppsRise_keep | apply ppsFall_keep)) | (with_reducible (first | apply keep_ite | apply keep_ite2 | apply keep_ite3 | apply keep_ite1 | apply keep_foldl | apply keep_foldl2 | apply keep_foldl3 | (fail_if_no_progress refine keep_mk rfl rfl rfl rfl rfl ?_) | refine keep_free rfl rfl rfl rfl rfl ?_)) | dsimp only | split)
theorem opTimeStep_keep (s : State) (h0 : Keep k s) :
    Keep k (opTimeStep s) := by
  unfold opTimeStep
  repeat' (first | (with_reducible assumption) | (intro _) | (with_reducible (first | apply fflag_keep | apply ppsRise_keep)) | (with_reducible (first | apply keep_ite | apply keep_ite2 | apply keep_ite3 | apply keep_ite1 | apply keep_foldl | apply keep_foldl2 | apply keep_foldl3 | (fail_if_no_progress refine keep_mk rfl rfl rfl rfl rfl ?_) | refine keep_free rfl rfl rfl rfl rfl ?_)) | dsimp only | split)
theorem actSetGo_keep (s : State) (h0 : Keep k s) :
    Keep k (actSetGo s) := by
  unfold actSetGo
  repeat' (first | (with_reducible assumption) | (intro _) | (with_reducible (first | apply fflag_keep)) | (with_reducible (first | apply keep_ite | apply keep_ite2 | apply keep_ite3 | apply keep_ite1 | apply keep_foldl | apply keep_foldl2 | apply keep_foldl3 | (fail_if_no_progress refine keep_mk rfl rfl rfl rfl rfl ?_) | refine keep_free rfl rfl rfl rfl rfl ?_)) | dsimp only | split)
theorem latchTime_keep (s : State) (h0 : Keep k s) :
    Keep k (latchTime s) := by
  unfold latchTime
  repeat' (first | (with_reducible assumption) | (intro _) | (with_reducible (first | apply fset_keep)) | (with_reducible (first | apply keep_ite | apply keep_ite2 | apply keep_ite3 | apply keep_ite1 | apply keep_foldl | apply keep_foldl2 | apply keep_foldl3 | (fail_if_no_progress refine keep_mk rfl rfl rfl rfl rfl ?_) | refine keep_free rfl rfl rfl rfl rfl ?_)) | dsimp only | split)
theorem opTickLoss_keep (e : ℕ) (s : State) (h1 : Keep k s) :
    Keep k (opTickLoss e s) := by
  unfold opTickLoss
  repeat' (first | (with_reducible assumption) | (intro _) | (with_reducible (first | apply fflag_keep | apply haltRun_keep)) | (with_reducible (first | apply keep_ite | apply keep_ite2 | apply keep_ite3 | apply keep_ite1 | apply keep_foldl | apply keep_foldl2 | apply keep_foldl3 | (fail_if_no_progress refine keep_mk rfl rfl rfl rfl rfl ?_) | refine keep_free rfl rfl rfl rfl rfl ?_)) | dsimp only | split)
theorem opFrameInEdge_keep (s : State) (h0 : Keep k s) :
    Keep k (opFrameInEdge s) := by
  unfold opFrameInEdge
  repeat' (first | (with_reducible assumption) | (intro _) | (with_reducible (first | apply fset_keep | apply fflag_keep)) | (with_reducible (first | apply keep_ite | apply keep_ite2 | apply keep_ite3 | apply keep_ite1 | apply keep_foldl | apply keep_foldl2 | apply keep_foldl3 | (fail_if_no_progress refine keep_mk rfl rfl rfl rfl rfl ?_) | refine keep_free rfl rfl rfl rfl rfl ?_)) | dsimp only | split)
theorem opPpsInEdge_keep (s : State) (h0 : Keep k s) :
    Keep k (opPpsInEdge s) := by
  unfold opPpsInEdge
  repeat' (first | (with_reducible assumption) | (intro _) | (with_reducible (first | apply fset_keep | apply fflag_keep)) | (with_reducible (first | apply keep_ite | apply keep_ite2 | apply keep_ite3 | apply keep_ite1 | apply keep_foldl | apply keep_foldl2 | apply keep_foldl3 | (fail_if_no_progress refine keep_mk rfl rfl rfl rfl rfl ?_) | refine keep_free rfl rfl rfl rfl rfl ?_)) | dsimp only | split)
theorem opFrameLoss_keep (s : State) (h0 : Keep k s) :
    Keep k (opFrameLoss s) := by
  unfold opFrameLoss
  repeat' (first | (with_reducible assumption) | (intro _) | (with_reducible (first | apply fflag_keep)) | (with_reducible (first | apply keep_ite | apply keep_ite2 | apply keep_ite3 | apply keep_ite1 | apply keep_foldl | apply keep_foldl2 | apply keep_foldl3 | (fail_if_no_progress refine keep_mk rfl rfl rfl rfl rfl ?_) | refine keep_free rfl rfl rfl rfl rfl ?_)) | dsimp only | split)
theorem opPpsLoss_keep (s : State) (h0 : Keep k s) :
    Keep k (opPpsLoss s) := by
  unfold opPpsLoss
  repeat' (first | (with_reducible assumption) | (intro _) | (with_reducible (first | apply fflag_keep)) | (with_reducible (first | apply keep_ite | apply keep_ite2 | apply keep_ite3 | apply keep_ite1 | apply keep_foldl | apply keep_foldl2 | apply keep_foldl3 | (fail_if_no_progress refine keep_mk rfl rfl rfl rfl rfl ?_) | refine keep_free rfl rfl rfl rfl rfl ?_)) | dsimp only | split)
theorem opPpsOutRise_keep (s : State) (h0 : Keep k s) :
    Keep k (opPpsOutRise s) := by
  unfold opPpsOutRise
  repeat' (first | (with_reducible assumption) | (intro _) | (with_reducible (first | apply ppsRise_keep)) | (with_reducible (first | apply keep_ite | apply keep_ite2 | apply keep_ite3 | apply keep_ite1 | apply keep_foldl | apply keep_foldl2 | apply keep_foldl3 | (fail_if_no_progress refine keep_mk rfl rfl rfl rfl rfl ?_) | refine keep_free rfl rfl rfl rfl rfl ?_)) | dsimp only | split)
theorem opPpsOutFall_keep (s : State) (h0 : Keep k s) :
    Keep k (opPpsOutFall s) := by
  unfold opPpsOutFall
  repeat' (first | (with_reducible assumption) | (intro _) | (with_reducible (first | apply ppsFall_keep)) | (with_reducible (first | apply keep_ite | apply keep_ite2 | apply keep_ite3 | apply keep_ite1 | apply keep_foldl | apply keep_foldl2 | apply keep_foldl3 | (fail_if_no_progress refine keep_mk rfl rfl rfl rfl rfl ?_) | refine keep_free rfl rfl rfl rfl rfl ?_)) | dsimp only | split)
theorem opEclkLock_keep (e : ℕ) (s : State) (h1 : Keep k s) :
    Keep k (opEclkLock e s) := by
  unfold opEclkLock
  repeat' (first | (with_reducible assumption) | (intro _) | (with_reducible (first | apply fflag_keep)) | (with_reducible (first | apply keep_ite | apply keep_ite2 | apply keep_ite3 | apply keep_ite1 | apply keep_foldl | apply keep_foldl2 | apply keep_foldl3 | (fail_if_no_progress refine keep_mk rfl rfl rfl rfl rfl ?_) | refine keep_free rfl rfl rfl rfl rfl ?_)) | dsimp only | split)

end Sys2Proof.Machine
end

