-- ==== Sys2Proof/Laws/KeepFabric.lean ====
section
/-! SUPPORT. The operations of Machine/Fabric.lean keep the queue, the counts that only rise, and `Inv`. -/

namespace Sys2Proof.Machine

set_option linter.unusedTactic false
set_option linter.unreachableTactic false
set_option linter.unusedVariables false

variable {k : KeepAt}

theorem frameSet_keep (s : State) (k0 : ℕ) (x : Frame) (h0 : Keep k s) :
    Keep k (frameSet s k0 x) := by
  unfold frameSet
  repeat' (first | (with_reducible assumption) | (intro _) | (with_reducible (first | apply keep_ite | apply keep_ite2 | apply keep_ite3 | apply keep_ite1 | apply keep_foldl | apply keep_foldl2 | apply keep_foldl3 | (fail_if_no_progress refine keep_mk rfl rfl rfl rfl rfl ?_) | refine keep_free rfl rfl rfl rfl rfl ?_)) | dsimp only | split)
theorem frameWrite_keep (s : State) (k0 : ℕ) (x : Frame) (h0 : Keep k s) :
    Keep k (frameWrite s k0 x) := by
  unfold frameWrite
  repeat' (first | (with_reducible assumption) | (intro _) | (with_reducible (first | apply frameSet_keep)) | (with_reducible (first | apply keep_ite | apply keep_ite2 | apply keep_ite3 | apply keep_ite1 | apply keep_foldl | apply keep_foldl2 | apply keep_foldl3 | (fail_if_no_progress refine keep_mk rfl rfl rfl rfl rfl ?_) | refine keep_free rfl rfl rfl rfl rfl ?_)) | dsimp only | split)
theorem ffPut_keep (s : State) (n : ℕ) (t : ℕ) (K : ℕ) (f : ℕ) (q : Bool) (h0 : Keep k s) :
    Keep k (ffPut s n t K f q) := by
  unfold ffPut
  repeat' (first | (with_reducible assumption) | (intro _) | (with_reducible (first | apply keep_ite | apply keep_ite2 | apply keep_ite3 | apply keep_ite1 | apply keep_foldl | apply keep_foldl2 | apply keep_foldl3 | (fail_if_no_progress refine keep_mk rfl rfl rfl rfl rfl ?_) | refine keep_free rfl rfl rfl rfl rfl ?_)) | dsimp only | split)
theorem ffLoad_keep (s : State) (n : ℕ) (h0 : Keep k s) :
    Keep k (ffLoad s n) := by
  unfold ffLoad
  repeat' (first | (with_reducible assumption) | (intro _) | (with_reducible (first | apply ffPut_keep)) | (with_reducible (first | apply keep_ite | apply keep_ite2 | apply keep_ite3 | apply keep_ite1 | apply keep_foldl | apply keep_foldl2 | apply keep_foldl3 | (fail_if_no_progress refine keep_mk rfl rfl rfl rfl rfl ?_) | refine keep_free rfl rfl rfl rfl rfl ?_)) | dsimp only | split)

end Sys2Proof.Machine
end

