-- ==== Sys2Proof/Laws/KeepAlarm.lean ====
section
/-! SUPPORT. The operations of Machine/Alarm.lean keep the queue, the counts that only rise, and `Inv`. -/

namespace Sys2Proof.Machine

set_option linter.unusedTactic false
set_option linter.unreachableTactic false
set_option linter.unusedVariables false

variable {k : KeepAt}

theorem msiSignal_keep (s : State) (fn : ℕ) (v : ℕ) (h0 : Keep k s) :
    Keep k (msiSignal s fn v) := by
  unfold msiSignal
  repeat' (first | (with_reducible assumption) | (intro _) | (with_reducible (first | apply fnUpd_keep)) | (with_reducible (first | apply keep_ite | apply keep_ite2 | apply keep_ite3 | apply keep_ite1 | apply keep_foldl | apply keep_foldl2 | apply keep_foldl3 | (fail_if_no_progress refine keep_mk rfl rfl rfl rfl rfl ?_) | refine keep_free rfl rfl rfl rfl rfl ?_)) | dsimp only | split)
theorem msiPart_keep (s : State) (p : ℕ) (v : ℕ) (h0 : Keep k s) :
    Keep k (msiPart s p v) := by
  unfold msiPart
  repeat' (first | (with_reducible assumption) | (intro _) | (with_reducible (first | apply msiSignal_keep)) | (with_reducible (first | apply keep_ite | apply keep_ite2 | apply keep_ite3 | apply keep_ite1 | apply keep_foldl | apply keep_foldl2 | apply keep_foldl3 | (fail_if_no_progress refine keep_mk rfl rfl rfl rfl rfl ?_) | refine keep_free rfl rfl rfl rfl rfl ?_)) | dsimp only | split)
theorem alarmMsi_keep (s : State) (a : Alarm) (h0 : Keep k s) :
    Keep k (alarmMsi s a) := by
  unfold alarmMsi
  repeat' (first | (with_reducible assumption) | (intro _) | (with_reducible (first | apply msiPart_keep)) | (with_reducible (first | apply keep_ite | apply keep_ite2 | apply keep_ite3 | apply keep_ite1 | apply keep_foldl | apply keep_foldl2 | apply keep_foldl3 | (fail_if_no_progress refine keep_mk rfl rfl rfl rfl rfl ?_) | refine keep_free rfl rfl rfl rfl rfl ?_)) | dsimp only | split)
theorem alarm_keep (s : State) (cls : ℕ) (cause : ℕ) (part : ℕ) (loc : List Byte) (h0 : Keep k s) :
    Keep k (alarm s cls cause part loc) := by
  unfold alarm
  repeat' (first | (with_reducible assumption) | (intro _) | (with_reducible (first | apply alarmMsi_keep)) | (with_reducible (first | apply keep_ite | apply keep_ite2 | apply keep_ite3 | apply keep_ite1 | apply keep_foldl | apply keep_foldl2 | apply keep_foldl3 | (fail_if_no_progress refine keep_mk rfl rfl rfl rfl rfl ?_) | refine keep_free rfl rfl rfl rfl rfl ?_)) | dsimp only | split)
theorem alarmHw_keep (s : State) (cause : ℕ) (loc : List ℕ) (h0 : Keep k s) :
    Keep k (alarmHw s cause loc) := by
  unfold alarmHw
  repeat' (first | (with_reducible assumption) | (intro _) | (with_reducible (first | apply alarm_keep)) | (with_reducible (first | apply keep_ite | apply keep_ite2 | apply keep_ite3 | apply keep_ite1 | apply keep_foldl | apply keep_foldl2 | apply keep_foldl3 | (fail_if_no_progress refine keep_mk rfl rfl rfl rfl rfl ?_) | refine keep_free rfl rfl rfl rfl rfl ?_)) | dsimp only | split)
theorem alarmLink_keep (s : State) (cause : ℕ) (q : ℕ) (lane : ℕ) (h0 : Keep k s) :
    Keep k (alarmLink s cause q lane) := by
  unfold alarmLink
  repeat' (first | (with_reducible assumption) | (intro _) | (with_reducible (first | apply alarm_keep)) | (with_reducible (first | apply keep_ite | apply keep_ite2 | apply keep_ite3 | apply keep_ite1 | apply keep_foldl | apply keep_foldl2 | apply keep_foldl3 | (fail_if_no_progress refine keep_mk rfl rfl rfl rfl rfl ?_) | refine keep_free rfl rfl rfl rfl rfl ?_)) | dsimp only | split)
theorem alarmPower_keep (s : State) (cause : ℕ) (loc : ℕ) (h0 : Keep k s) :
    Keep k (alarmPower s cause loc) := by
  unfold alarmPower
  repeat' (first | (with_reducible assumption) | (intro _) | (with_reducible (first | apply alarm_keep)) | (with_reducible (first | apply keep_ite | apply keep_ite2 | apply keep_ite3 | apply keep_ite1 | apply keep_foldl | apply keep_foldl2 | apply keep_foldl3 | (fail_if_no_progress refine keep_mk rfl rfl rfl rfl rfl ?_) | refine keep_free rfl rfl rfl rfl rfl ?_)) | dsimp only | split)
theorem alarmCfg_keep (s : State) (cause : ℕ) (frame : ℕ) (code : ℕ) (die : ℕ) (h0 : Keep k s) :
    Keep k (alarmCfg s cause frame code die) := by
  unfold alarmCfg
  repeat' (first | (with_reducible assumption) | (intro _) | (with_reducible (first | apply alarm_keep)) | (with_reducible (first | apply keep_ite | apply keep_ite2 | apply keep_ite3 | apply keep_ite1 | apply keep_foldl | apply keep_foldl2 | apply keep_foldl3 | (fail_if_no_progress refine keep_mk rfl rfl rfl rfl rfl ?_) | refine keep_free rfl rfl rfl rfl rfl ?_)) | dsimp only | split)
theorem alarmPowerMinute_keep (s : State) (cause : ℕ) (loc : ℕ) (h0 : Keep k s) :
    Keep k (alarmPowerMinute s cause loc) := by
  unfold alarmPowerMinute
  repeat' (first | (with_reducible assumption) | (intro _) | (with_reducible (first | apply alarmPower_keep)) | (with_reducible (first | apply keep_ite | apply keep_ite2 | apply keep_ite3 | apply keep_ite1 | apply keep_foldl | apply keep_foldl2 | apply keep_foldl3 | (fail_if_no_progress refine keep_mk rfl rfl rfl rfl rfl ?_) | refine keep_free rfl rfl rfl rfl rfl ?_)) | dsimp only | split)
theorem flashRecord_keep (s : State) (r : JRec) (h0 : Keep k s) :
    Keep k (flashRecord s r) := by
  unfold flashRecord
  repeat' (first | (with_reducible assumption) | (intro _) | (with_reducible (first | apply keep_ite | apply keep_ite2 | apply keep_ite3 | apply keep_ite1 | apply keep_foldl | apply keep_foldl2 | apply keep_foldl3 | (fail_if_no_progress refine keep_mk rfl rfl rfl rfl rfl ?_) | refine keep_free rfl rfl rfl rfl rfl ?_)) | dsimp only | split)
theorem journal_keep (s : State) (code : ℕ) (result : ℕ) (arg : ℕ) (detail : ℕ) (h0 : Keep k s) :
    Keep k (journal s code result arg detail) := by
  unfold journal
  repeat' (first | (with_reducible assumption) | (intro _) | (with_reducible (first | apply flashRecord_keep)) | (with_reducible (first | apply keep_ite | apply keep_ite2 | apply keep_ite3 | apply keep_ite1 | apply keep_foldl | apply keep_foldl2 | apply keep_foldl3 | (fail_if_no_progress refine keep_mk rfl rfl rfl rfl rfl ?_) | refine keep_free rfl rfl rfl rfl rfl ?_)) | dsimp only | split)
theorem journalFlush_keep (s : State) (h0 : Keep k s) :
    Keep k (journalFlush s) := by
  unfold journalFlush
  repeat' (first | (with_reducible assumption) | (intro _) | (with_reducible (first | apply flashRecord_keep)) | (with_reducible (first | apply keep_ite | apply keep_ite2 | apply keep_ite3 | apply keep_ite1 | apply keep_foldl | apply keep_foldl2 | apply keep_foldl3 | (fail_if_no_progress refine keep_mk rfl rfl rfl rfl rfl ?_) | refine keep_free rfl rfl rfl rfl rfl ?_)) | dsimp only | split)
theorem journalMend_keep (s : State) (h0 : Keep k s) :
    Keep k (journalMend s) := by
  unfold journalMend
  repeat' (first | (with_reducible assumption) | (intro _) | (with_reducible (first | apply keep_ite | apply keep_ite2 | apply keep_ite3 | apply keep_ite1 | apply keep_foldl | apply keep_foldl2 | apply keep_foldl3 | (fail_if_no_progress refine keep_mk rfl rfl rfl rfl rfl ?_) | refine keep_free rfl rfl rfl rfl rfl ?_)) | dsimp only | split)
theorem jEvent_keep (s : State) (code : ℕ) (arg : ℕ) (detail : ℕ) (h0 : Keep k s) :
    Keep k (jEvent s code arg detail) := by
  unfold jEvent
  repeat' (first | (with_reducible assumption) | (intro _) | (with_reducible (first | apply journal_keep)) | (with_reducible (first | apply keep_ite | apply keep_ite2 | apply keep_ite3 | apply keep_ite1 | apply keep_foldl | apply keep_foldl2 | apply keep_foldl3 | (fail_if_no_progress refine keep_mk rfl rfl rfl rfl rfl ?_) | refine keep_free rfl rfl rfl rfl rfl ?_)) | dsimp only | split)

end Sys2Proof.Machine
end

