-- ==== Sys2Proof/Laws/KeepRail.lean ====
section
/-! SUPPORT. The operations of Machine/Rail.lean keep the queue, the counts that only rise, and `Inv`. -/

namespace Sys2Proof.Machine

set_option linter.unusedTactic false
set_option linter.unreachableTactic false
set_option linter.unusedVariables false

variable {k : KeepAt}

theorem pwrUpd_keep (s : State) (f : PowerSt → PowerSt) (h0 : Keep k s) :
    Keep k (pwrUpd s f) := by
  unfold pwrUpd
  repeat' (first | (with_reducible assumption) | (intro _) | (with_reducible (first | apply keep_ite | apply keep_ite2 | apply keep_ite3 | apply keep_ite1 | apply keep_foldl | apply keep_foldl2 | apply keep_foldl3 | (fail_if_no_progress refine keep_mk rfl rfl rfl rfl rfl ?_) | refine keep_free rfl rfl rfl rfl rfl ?_)) | dsimp only | split)
theorem railUpd_keep (s : State) (r : ℕ) (f : RailSt → RailSt) (h0 : Keep k s) :
    Keep k (railUpd s r f) := by
  unfold railUpd
  repeat' (first | (with_reducible assumption) | (intro _) | (with_reducible (first | apply pwrUpd_keep)) | (with_reducible (first | apply keep_ite | apply keep_ite2 | apply keep_ite3 | apply keep_ite1 | apply keep_foldl | apply keep_foldl2 | apply keep_foldl3 | (fail_if_no_progress refine keep_mk rfl rfl rfl rfl rfl ?_) | refine keep_free rfl rfl rfl rfl rfl ?_)) | dsimp only | split)
theorem showBounds_keep (s : State) (h0 : Keep k s) :
    Keep k (showBounds s) := by
  unfold showBounds
  repeat' (first | (with_reducible assumption) | (intro _) | (with_reducible (first | apply fset_keep)) | (with_reducible (first | apply keep_ite | apply keep_ite2 | apply keep_ite3 | apply keep_ite1 | apply keep_foldl | apply keep_foldl2 | apply keep_foldl3 | (fail_if_no_progress refine keep_mk rfl rfl rfl rfl rfl ?_) | refine keep_free rfl rfl rfl rfl rfl ?_)) | dsimp only | split)
theorem railTarget_keep (s : State) (r : ℕ) (v : ℕ) (h0 : Keep k s) :
    Keep k (railTarget s r v) := by
  unfold railTarget
  repeat' (first | (with_reducible assumption) | (intro _) | (with_reducible (first | apply railUpd_keep)) | (with_reducible (first | apply keep_ite | apply keep_ite2 | apply keep_ite3 | apply keep_ite1 | apply keep_foldl | apply keep_foldl2 | apply keep_foldl3 | (fail_if_no_progress refine keep_mk rfl rfl rfl rfl rfl ?_) | refine keep_free rfl rfl rfl rfl rfl ?_)) | dsimp only | split)
theorem freezeRail_keep (s : State) (r : ℕ) (cause : ℕ) (h0 : Keep k s) :
    Keep k (freezeRail s r cause) := by
  unfold freezeRail
  repeat' (first | (with_reducible assumption) | (intro _) | (with_reducible (first | apply fflag_keep | apply railUpd_keep | apply jEvent_keep | apply alarmPower_keep)) | (with_reducible (first | apply keep_ite | apply keep_ite2 | apply keep_ite3 | apply keep_ite1 | apply keep_foldl | apply keep_foldl2 | apply keep_foldl3 | (fail_if_no_progress refine keep_mk rfl rfl rfl rfl rfl ?_) | refine keep_free rfl rfl rfl rfl rfl ?_)) | dsimp only | split)
theorem opAvsAck_keep (r : ℕ) (s : State) (h1 : Keep k s) :
    Keep k (opAvsAck r s) := by
  unfold opAvsAck
  repeat' (first | (with_reducible assumption) | (intro _) | (with_reducible (first | apply railUpd_keep | apply fset_keep)) | (with_reducible (first | apply keep_ite | apply keep_ite2 | apply keep_ite3 | apply keep_ite1 | apply keep_foldl | apply keep_foldl2 | apply keep_foldl3 | (fail_if_no_progress refine keep_mk rfl rfl rfl rfl rfl ?_) | refine keep_free rfl rfl rfl rfl rfl ?_)) | dsimp only | split)
theorem opAvsTimeout_keep (r : ℕ) (s : State) (h1 : Keep k s) :
    Keep k (opAvsTimeout r s) := by
  unfold opAvsTimeout
  repeat' (first | (with_reducible assumption) | (intro _) | (with_reducible (first | apply finc_keep | apply railUpd_keep | apply freezeRail_keep)) | (with_reducible (first | apply keep_ite | apply keep_ite2 | apply keep_ite3 | apply keep_ite1 | apply keep_foldl | apply keep_foldl2 | apply keep_foldl3 | (fail_if_no_progress refine keep_mk rfl rfl rfl rfl rfl ?_) | refine keep_free rfl rfl rfl rfl rfl ?_)) | dsimp only | split)
theorem opRailDeviation_keep (r : ℕ) (s : State) (h1 : Keep k s) :
    Keep k (opRailDeviation r s) := by
  unfold opRailDeviation
  repeat' (first | (with_reducible assumption) | (intro _) | (with_reducible (first | apply alarmPower_keep | apply freezeRail_keep)) | (with_reducible (first | apply keep_ite | apply keep_ite2 | apply keep_ite3 | apply keep_ite1 | apply keep_foldl | apply keep_foldl2 | apply keep_foldl3 | (fail_if_no_progress refine keep_mk rfl rfl rfl rfl rfl ?_) | refine keep_free rfl rfl rfl rfl rfl ?_)) | dsimp only | split)
theorem exhaustionResponse_keep (s : State) (d : ℕ) (h0 : Keep k s) :
    Keep k (exhaustionResponse s d) := by
  unfold exhaustionResponse
  repeat' (first | (with_reducible assumption) | (intro _) | (with_reducible (first | apply alarmPowerMinute_keep | apply railUpd_keep | apply railTarget_keep)) | (with_reducible (first | apply keep_ite | apply keep_ite2 | apply keep_ite3 | apply keep_ite1 | apply keep_foldl | apply keep_foldl2 | apply keep_foldl3 | (fail_if_no_progress refine keep_mk rfl rfl rfl rfl rfl ?_) | refine keep_free rfl rfl rfl rfl rfl ?_)) | dsimp only | split)
theorem applyBounds_keep (s : State) (h0 : Keep k s) :
    Keep k (applyBounds s) := by
  unfold applyBounds
  repeat' (first | (with_reducible assumption) | (intro _) | (with_reducible (first | apply showBounds_keep | apply pwrUpd_keep | apply partUpd_keep)) | (with_reducible (first | apply keep_ite | apply keep_ite2 | apply keep_ite3 | apply keep_ite1 | apply keep_foldl | apply keep_foldl2 | apply keep_foldl3 | (fail_if_no_progress refine keep_mk rfl rfl rfl rfl rfl ?_) | refine keep_free rfl rfl rfl rfl rfl ?_)) | dsimp only | split)
theorem applyPolicy_keep (s : State) (h0 : Keep k s) :
    Keep k (applyPolicy s) := by
  unfold applyPolicy
  repeat' (first | (with_reducible assumption) | (intro _) | (with_reducible (first | apply fset_keep | apply pwrUpd_keep | apply railTarget_keep)) | (with_reducible (first | apply keep_ite | apply keep_ite2 | apply keep_ite3 | apply keep_ite1 | apply keep_foldl | apply keep_foldl2 | apply keep_foldl3 | (fail_if_no_progress refine keep_mk rfl rfl rfl rfl rfl ?_) | refine keep_free rfl rfl rfl rfl rfl ?_)) | dsimp only | split)
theorem policyEval_keep (r : ℕ) (x : LoopReport) (s : State) (h2 : Keep k s) :
    Keep k (policyEval r x s) := by
  unfold policyEval
  repeat' (first | (with_reducible assumption) | (intro _) | (with_reducible (first | apply applyPolicy_keep | apply applyBounds_keep | apply railUpd_keep | apply railTarget_keep | apply fflag_keep)) | (with_reducible (first | apply keep_ite | apply keep_ite2 | apply keep_ite3 | apply keep_ite1 | apply keep_foldl | apply keep_foldl2 | apply keep_foldl3 | (fail_if_no_progress refine keep_mk rfl rfl rfl rfl rfl ?_) | refine keep_free rfl rfl rfl rfl rfl ?_)) | dsimp only | split)
theorem opPolicyLoop_keep (r : ℕ) (x : LoopReport) (s : State) (h2 : Keep k s) :
    Keep k (opPolicyLoop r x s) := by
  unfold opPolicyLoop
  repeat' (first | (with_reducible assumption) | (intro _) | (with_reducible (first | apply policyEval_keep)) | (with_reducible (first | apply keep_ite | apply keep_ite2 | apply keep_ite3 | apply keep_ite1 | apply keep_foldl | apply keep_foldl2 | apply keep_foldl3 | (fail_if_no_progress refine keep_mk rfl rfl rfl rfl rfl ?_) | refine keep_free rfl rfl rfl rfl rfl ?_)) | dsimp only | split)
theorem opAgingSample_keep (r : ℕ) (ppm : ℕ) (s : State) (h2 : Keep k s) :
    Keep k (opAgingSample r ppm s) := by
  unfold opAgingSample
  repeat' (first | (with_reducible assumption) | (intro _) | (with_reducible (first | apply fset_keep)) | (with_reducible (first | apply keep_ite | apply keep_ite2 | apply keep_ite3 | apply keep_ite1 | apply keep_foldl | apply keep_foldl2 | apply keep_foldl3 | (fail_if_no_progress refine keep_mk rfl rfl rfl rfl rfl ?_) | refine keep_free rfl rfl rfl rfl rfl ?_)) | dsimp only | split)
theorem secAdd_keep (s : State) (r : ℕ) (f : SecVals → SecVals) (h0 : Keep k s) :
    Keep k (secAdd s r f) := by
  unfold secAdd
  repeat' (first | (with_reducible assumption) | (intro _) | (with_reducible (first | apply railUpd_keep)) | (with_reducible (first | apply keep_ite | apply keep_ite2 | apply keep_ite3 | apply keep_ite1 | apply keep_foldl | apply keep_foldl2 | apply keep_foldl3 | (fail_if_no_progress refine keep_mk rfl rfl rfl rfl rfl ?_) | refine keep_free rfl rfl rfl rfl rfl ?_)) | dsimp only | split)
theorem opSensorSample_keep (x : Sensor) (s : State) (h1 : Keep k s) :
    Keep k (opSensorSample x s) := by
  unfold opSensorSample
  repeat' (first | (with_reducible assumption) | (intro _) | (with_reducible (first | apply secAdd_keep | apply pwrUpd_keep | apply fset_keep | apply railUpd_keep)) | (with_reducible (first | apply keep_ite | apply keep_ite2 | apply keep_ite3 | apply keep_ite1 | apply keep_foldl | apply keep_foldl2 | apply keep_foldl3 | (fail_if_no_progress refine keep_mk rfl rfl rfl rfl rfl ?_) | refine keep_free rfl rfl rfl rfl rfl ?_)) | dsimp only | split)
theorem opTjAlarm_keep (sensor : ℕ) (s : State) (h1 : Keep k s) :
    Keep k (opTjAlarm sensor s) := by
  unfold opTjAlarm
  repeat' (first | (with_reducible assumption) | (intro _) | (with_reducible (first | apply alarmPowerMinute_keep)) | (with_reducible (first | apply keep_ite | apply keep_ite2 | apply keep_ite3 | apply keep_ite1 | apply keep_foldl | apply keep_foldl2 | apply keep_foldl3 | (fail_if_no_progress refine keep_mk rfl rfl rfl rfl rfl ?_) | refine keep_free rfl rfl rfl rfl rfl ?_)) | dsimp only | split)
theorem sleepRails_keep (s : State) (h0 : Keep k s) :
    Keep k (sleepRails s) := by
  unfold sleepRails
  repeat' (first | (with_reducible assumption) | (intro _) | (with_reducible (first | apply railTarget_keep)) | (with_reducible (first | apply keep_ite | apply keep_ite2 | apply keep_ite3 | apply keep_ite1 | apply keep_foldl | apply keep_foldl2 | apply keep_foldl3 | (fail_if_no_progress refine keep_mk rfl rfl rfl rfl rfl ?_) | refine keep_free rfl rfl rfl rfl rfl ?_)) | dsimp only | split)

end Sys2Proof.Machine
end

