-- ==== Sys2Proof/Laws/KeepClock.lean ====
section
/-! SUPPORT. The operations of Machine/Clock.lean keep the queue, the counts that only rise, and `Inv`. -/

namespace Sys2Proof.Machine

set_option linter.unusedTactic false
set_option linter.unreachableTactic false
set_option linter.unusedVariables false

variable {k : KeepAt}

theorem generatorWrite_keep (s : State) (n : ℕ) (v : Word) (h0 : Keep k s) :
    Keep k (generatorWrite s n v) := by
  unfold generatorWrite
  repeat' (first | (with_reducible assumption) | (intro _) | (with_reducible (first | apply fflag_keep | apply fset_keep)) | (with_reducible (first | apply keep_ite | apply keep_ite2 | apply keep_ite3 | apply keep_ite1 | apply keep_foldl | apply keep_foldl2 | apply keep_foldl3 | (fail_if_no_progress refine keep_mk rfl rfl rfl rfl rfl ?_) | refine keep_free rfl rfl rfl rfl rfl ?_)) | dsimp only | split)
theorem opGeneratorLock_keep (n : ℕ) (s : State) (h1 : Keep k s) :
    Keep k (opGeneratorLock n s) := by
  unfold opGeneratorLock
  repeat' (first | (with_reducible assumption) | (intro _) | (with_reducible (first | apply fflag_keep)) | (with_reducible (first | apply keep_ite | apply keep_ite2 | apply keep_ite3 | apply keep_ite1 | apply keep_foldl | apply keep_foldl2 | apply keep_foldl3 | (fail_if_no_progress refine keep_mk rfl rfl rfl rfl rfl ?_) | refine keep_free rfl rfl rfl rfl rfl ?_)) | dsimp only | split)
theorem startSwitch_keep (s : State) (n : ℕ) (x : ℕ) (src : ℕ) (div : ℕ) (h0 : Keep k s) :
    Keep k (startSwitch s n x src div) := by
  unfold startSwitch
  repeat' (first | (with_reducible assumption) | (intro _) | (with_reducible (first | apply fset_keep | apply fsetBit_keep | apply islUpd_keep)) | (with_reducible (first | apply keep_ite | apply keep_ite2 | apply keep_ite3 | apply keep_ite1 | apply keep_foldl | apply keep_foldl2 | apply keep_foldl3 | (fail_if_no_progress refine keep_mk rfl rfl rfl rfl rfl ?_) | refine keep_free rfl rfl rfl rfl rfl ?_)) | dsimp only | split)
theorem swRetarget_keep (s : State) (n : ℕ) (x : ℕ) (v : Word) (h0 : Keep k s) :
    Keep k (swRetarget s n x v) := by
  unfold swRetarget
  repeat' (first | (with_reducible assumption) | (intro _) | (with_reducible (first | apply fset_keep | apply fsetBit_keep | apply islUpd_keep)) | (with_reducible (first | apply keep_ite | apply keep_ite2 | apply keep_ite3 | apply keep_ite1 | apply keep_foldl | apply keep_foldl2 | apply keep_foldl3 | (fail_if_no_progress refine keep_mk rfl rfl rfl rfl rfl ?_) | refine keep_free rfl rfl rfl rfl rfl ?_)) | dsimp only | split)
theorem swGate_keep (s : State) (n : ℕ) (x : ℕ) (h0 : Keep k s) :
    Keep k (swGate s n x) := by
  unfold swGate
  repeat' (first | (with_reducible assumption) | (intro _) | (with_reducible (first | apply islUpd_keep | apply swRetarget_keep)) | (with_reducible (first | apply keep_ite | apply keep_ite2 | apply keep_ite3 | apply keep_ite1 | apply keep_foldl | apply keep_foldl2 | apply keep_foldl3 | (fail_if_no_progress refine keep_mk rfl rfl rfl rfl rfl ?_) | refine keep_free rfl rfl rfl rfl rfl ?_)) | dsimp only | split)
theorem swFinish_keep (s : State) (n : ℕ) (x : ℕ) (t : TreeSt) (h0 : Keep k s) :
    Keep k (swFinish s n x t) := by
  unfold swFinish
  repeat' (first | (with_reducible assumption) | (intro _) | (with_reducible (first | apply fsetBit_keep | apply islUpd_keep | apply startSwitch_keep)) | (with_reducible (first | apply keep_ite | apply keep_ite2 | apply keep_ite3 | apply keep_ite1 | apply keep_foldl | apply keep_foldl2 | apply keep_foldl3 | (fail_if_no_progress refine keep_mk rfl rfl rfl rfl rfl ?_) | refine keep_free rfl rfl rfl rfl rfl ?_)) | dsimp only | split)
theorem treeWrite_keep (s : State) (n : ℕ) (x : ℕ) (v : Word) (h0 : Keep k s) :
    Keep k (treeWrite s n x v) := by
  unfold treeWrite
  repeat' (first | (with_reducible assumption) | (intro _) | (with_reducible (first | apply fflag_keep | apply fset_keep | apply swRetarget_keep | apply fsetBit_keep | apply islUpd_keep | apply startSwitch_keep)) | (with_reducible (first | apply keep_ite | apply keep_ite2 | apply keep_ite3 | apply keep_ite1 | apply keep_foldl | apply keep_foldl2 | apply keep_foldl3 | (fail_if_no_progress refine keep_mk rfl rfl rfl rfl rfl ?_) | refine keep_free rfl rfl rfl rfl rfl ?_)) | dsimp only | split)
theorem opSwitchComplete_keep (n : ℕ) (x : ℕ) (s : State) (h2 : Keep k s) :
    Keep k (opSwitchComplete n x s) := by
  unfold opSwitchComplete
  repeat' (first | (with_reducible assumption) | (intro _) | (with_reducible (first | apply swFinish_keep)) | (with_reducible (first | apply keep_ite | apply keep_ite2 | apply keep_ite3 | apply keep_ite1 | apply keep_foldl | apply keep_foldl2 | apply keep_foldl3 | (fail_if_no_progress refine keep_mk rfl rfl rfl rfl rfl ?_) | refine keep_free rfl rfl rfl rfl rfl ?_)) | dsimp only | split)
theorem opSwitchForce_keep (n : ℕ) (x : ℕ) (s : State) (h2 : Keep k s) :
    Keep k (opSwitchForce n x s) := by
  unfold opSwitchForce
  repeat' (first | (with_reducible assumption) | (intro _) | (with_reducible (first | apply swGate_keep | apply fsetBit_keep)) | (with_reducible (first | apply keep_ite | apply keep_ite2 | apply keep_ite3 | apply keep_ite1 | apply keep_foldl | apply keep_foldl2 | apply keep_foldl3 | (fail_if_no_progress refine keep_mk rfl rfl rfl rfl rfl ?_) | refine keep_free rfl rfl rfl rfl rfl ?_)) | dsimp only | split)
theorem setRelRun_keep (s : State) (c : ClkDom) (v : ℕ) (h0 : Keep k s) :
    Keep k (setRelRun s c v) := by
  unfold setRelRun
  repeat' (first | (with_reducible assumption) | (intro _) | (with_reducible (first | apply islUpd_keep | apply eisUpd_keep)) | (with_reducible (first | apply keep_ite | apply keep_ite2 | apply keep_ite3 | apply keep_ite1 | apply keep_foldl | apply keep_foldl2 | apply keep_foldl3 | (fail_if_no_progress refine keep_mk rfl rfl rfl rfl rfl ?_) | refine keep_free rfl rfl rfl rfl rfl ?_)) | dsimp only | split)
theorem setPend_keep (s : State) (c : ClkDom) (v : ℕ) (drop : Bool) (h0 : Keep k s) :
    Keep k (setPend s c v drop) := by
  unfold setPend
  repeat' (first | (with_reducible assumption) | (intro _) | (with_reducible (first | apply islUpd_keep)) | (with_reducible (first | apply keep_ite | apply keep_ite2 | apply keep_ite3 | apply keep_ite1 | apply keep_foldl | apply keep_foldl2 | apply keep_foldl3 | (fail_if_no_progress refine keep_mk rfl rfl rfl rfl rfl ?_) | refine keep_free rfl rfl rfl rfl rfl ?_)) | dsimp only | split)
theorem marginFresh_keep (s : State) (b : ℕ) (h0 : Keep k s) :
    Keep k (marginFresh s b) := by
  unfold marginFresh
  repeat' (first | (with_reducible assumption) | (intro _) | (with_reducible (first | apply keep_ite | apply keep_ite2 | apply keep_ite3 | apply keep_ite1 | apply keep_foldl | apply keep_foldl2 | apply keep_foldl3 | (fail_if_no_progress refine keep_mk rfl rfl rfl rfl rfl ?_) | refine keep_free rfl rfl rfl rfl rfl ?_)) | dsimp only | split)
theorem periodEnd_keep (s : State) (c : ClkDom) (slack : ℕ) (h0 : Keep k s) :
    Keep k (periodEnd s c slack) := by
  unfold periodEnd
  repeat' (first | (with_reducible assumption) | (intro _) | (with_reducible (first | apply marginFresh_keep | apply fset2_keep | apply fset_keep | apply finc_keep | apply setPend_keep)) | (with_reducible (first | apply keep_ite | apply keep_ite2 | apply keep_ite3 | apply keep_ite1 | apply keep_foldl | apply keep_foldl2 | apply keep_foldl3 | (fail_if_no_progress refine keep_mk rfl rfl rfl rfl rfl ?_) | refine keep_free rfl rfl rfl rfl rfl ?_)) | dsimp only | split)
theorem reportSlack_keep (s : State) (c : ClkDom) (slack : ℕ) (h0 : Keep k s) :
    Keep k (reportSlack s c slack).2 := by
  unfold reportSlack
  repeat' (first | (with_reducible assumption) | (intro _) | (with_reducible (first | apply islUpd_keep)) | (with_reducible (first | apply keep_ite | apply keep_ite2 | apply keep_ite3 | apply keep_ite1 | apply keep_foldl | apply keep_foldl2 | apply keep_foldl3 | (fail_if_no_progress refine keep_mk rfl rfl rfl rfl rfl ?_) | refine keep_free rfl rfl rfl rfl rfl ?_)) | dsimp only | split)
theorem periodLow_keep (s : State) (c : ClkDom) (slack : ℕ) (h0 : Keep k s) :
    Keep k (periodLow s c slack) := by
  unfold periodLow
  repeat' (first | (with_reducible assumption) | (intro _) | (with_reducible (first | apply setRelRun_keep | apply periodEnd_keep | apply exhaustionResponse_keep | apply finc_keep | apply fflag_keep | apply setPend_keep | apply fset_keep)) | (with_reducible (first | apply keep_ite | apply keep_ite2 | apply keep_ite3 | apply keep_ite1 | apply keep_foldl | apply keep_foldl2 | apply keep_foldl3 | (fail_if_no_progress refine keep_mk rfl rfl rfl rfl rfl ?_) | refine keep_free rfl rfl rfl rfl rfl ?_)) | dsimp only | split)
theorem periodHigh_keep (s : State) (c : ClkDom) (slack : ℕ) (h0 : Keep k s) :
    Keep k (periodHigh s c slack) := by
  unfold periodHigh
  repeat' (first | (with_reducible assumption) | (intro _) | (with_reducible (first | apply periodEnd_keep | apply setRelRun_keep | apply setPend_keep | apply fset_keep)) | (with_reducible (first | apply keep_ite | apply keep_ite2 | apply keep_ite3 | apply keep_ite1 | apply keep_foldl | apply keep_foldl2 | apply keep_foldl3 | (fail_if_no_progress refine keep_mk rfl rfl rfl rfl rfl ?_) | refine keep_free rfl rfl rfl rfl rfl ?_)) | dsimp only | split)
theorem stretchReport_keep (s : State) (c : ClkDom) (slack : ℕ) (h0 : Keep k s) :
    Keep k (stretchReport s c slack) := by
  unfold stretchReport
  repeat' (first | (with_reducible assumption) | (intro _) | (with_reducible (first | apply reportSlack_keep | apply periodLow_keep | apply periodHigh_keep)) | (with_reducible (first | apply keep_ite | apply keep_ite2 | apply keep_ite3 | apply keep_ite1 | apply keep_foldl | apply keep_foldl2 | apply keep_foldl3 | (fail_if_no_progress refine keep_mk rfl rfl rfl rfl rfl ?_) | refine keep_free rfl rfl rfl rfl rfl ?_)) | dsimp only | split)
theorem opStretchRequest_keep (c : ClkDom) (slack : ℕ) (s : State) (h2 : Keep k s) :
    Keep k (opStretchRequest c slack s) := by
  unfold opStretchRequest
  repeat' (first | (with_reducible assumption) | (intro _) | (with_reducible (first | apply stretchReport_keep)) | (with_reducible (first | apply keep_ite | apply keep_ite2 | apply keep_ite3 | apply keep_ite1 | apply keep_foldl | apply keep_foldl2 | apply keep_foldl3 | (fail_if_no_progress refine keep_mk rfl rfl rfl rfl rfl ?_) | refine keep_free rfl rfl rfl rfl rfl ?_)) | dsimp only | split)
theorem opStretchRelease_keep (c : ClkDom) (slack : ℕ) (s : State) (h2 : Keep k s) :
    Keep k (opStretchRelease c slack s) := by
  unfold opStretchRelease
  repeat' (first | (with_reducible assumption) | (intro _) | (with_reducible (first | apply stretchReport_keep)) | (with_reducible (first | apply keep_ite | apply keep_ite2 | apply keep_ite3 | apply keep_ite1 | apply keep_foldl | apply keep_foldl2 | apply keep_foldl3 | (fail_if_no_progress refine keep_mk rfl rfl rfl rfl rfl ?_) | refine keep_free rfl rfl rfl rfl rfl ?_)) | dsimp only | split)
theorem actMarginClr_keep (b : ℕ) (s : State) (h1 : Keep k s) :
    Keep k (actMarginClr b s) := by
  unfold actMarginClr
  repeat' (first | (with_reducible assumption) | (intro _) | (with_reducible (first | apply fwipe_keep)) | (with_reducible (first | apply keep_ite | apply keep_ite2 | apply keep_ite3 | apply keep_ite1 | apply keep_foldl | apply keep_foldl2 | apply keep_foldl3 | (fail_if_no_progress refine keep_mk rfl rfl rfl rfl rfl ?_) | refine keep_free rfl rfl rfl rfl rfl ?_)) | dsimp only | split)
theorem hitchSet_keep (s : State) (k0 : ℕ) (h : HitchSt) (h0 : Keep k s) :
    Keep k (hitchSet s k0 h) := by
  unfold hitchSet
  repeat' (first | (with_reducible assumption) | (intro _) | (with_reducible (first | apply keep_ite | apply keep_ite2 | apply keep_ite3 | apply keep_ite1 | apply keep_foldl | apply keep_foldl2 | apply keep_foldl3 | (fail_if_no_progress refine keep_mk rfl rfl rfl rfl rfl ?_) | refine keep_free rfl rfl rfl rfl rfl ?_)) | dsimp only | split)
theorem opHitchWrite_keep (n : ℕ) (e : ℕ) (k0 : ℕ) (data : BitVec 36) (s : State) (h4 : Keep k s) :
    Keep k (opHitchWrite n e k0 data s) := by
  unfold opHitchWrite
  repeat' (first | (with_reducible assumption) | (intro _) | (with_reducible (first | apply hitchSet_keep)) | (with_reducible (first | apply keep_ite | apply keep_ite2 | apply keep_ite3 | apply keep_ite1 | apply keep_foldl | apply keep_foldl2 | apply keep_foldl3 | (fail_if_no_progress refine keep_mk rfl rfl rfl rfl rfl ?_) | refine keep_free rfl rfl rfl rfl rfl ?_)) | dsimp only | split)
theorem opHitchArrive_keep (n : ℕ) (e : ℕ) (k0 : ℕ) (s : State) (h3 : Keep k s) :
    Keep k (opHitchArrive n e k0 s) := by
  unfold opHitchArrive
  repeat' (first | (with_reducible assumption) | (intro _) | (with_reducible (first | apply hitchSet_keep)) | (with_reducible (first | apply keep_ite | apply keep_ite2 | apply keep_ite3 | apply keep_ite1 | apply keep_foldl | apply keep_foldl2 | apply keep_foldl3 | (fail_if_no_progress refine keep_mk rfl rfl rfl rfl rfl ?_) | refine keep_free rfl rfl rfl rfl rfl ?_)) | dsimp only | split)
theorem opHitchTake_keep (n : ℕ) (e : ℕ) (k0 : ℕ) (s : State) (h3 : Keep k s) :
    Keep k (opHitchTake n e k0 s) := by
  unfold opHitchTake
  repeat' (first | (with_reducible assumption) | (intro _) | (with_reducible (first | apply answerBytes_keep | apply hitchSet_keep)) | (with_reducible (first | apply keep_ite | apply keep_ite2 | apply keep_ite3 | apply keep_ite1 | apply keep_foldl | apply keep_foldl2 | apply keep_foldl3 | (fail_if_no_progress refine keep_mk rfl rfl rfl rfl rfl ?_) | refine keep_free rfl rfl rfl rfl rfl ?_)) | dsimp only | split)
theorem opHitchSlotFree_keep (n : ℕ) (e : ℕ) (k0 : ℕ) (s : State) (h3 : Keep k s) :
    Keep k (opHitchSlotFree n e k0 s) := by
  unfold opHitchSlotFree
  repeat' (first | (with_reducible assumption) | (intro _) | (with_reducible (first | apply hitchSet_keep)) | (with_reducible (first | apply keep_ite | apply keep_ite2 | apply keep_ite3 | apply keep_ite1 | apply keep_foldl | apply keep_foldl2 | apply keep_foldl3 | (fail_if_no_progress refine keep_mk rfl rfl rfl rfl rfl ?_) | refine keep_free rfl rfl rfl rfl rfl ?_)) | dsimp only | split)
theorem dropOutgoing_keep (s : State) (n : ℕ) (h0 : Keep k s) :
    Keep k (dropOutgoing s n) := by
  unfold dropOutgoing
  repeat' (first | (with_reducible assumption) | (intro _) | (with_reducible (first | apply keep_ite | apply keep_ite2 | apply keep_ite3 | apply keep_ite1 | apply keep_foldl | apply keep_foldl2 | apply keep_foldl3 | (fail_if_no_progress refine keep_mk rfl rfl rfl rfl rfl ?_) | refine keep_free rfl rfl rfl rfl rfl ?_)) | dsimp only | split)
theorem addDrop_keep (s : State) (n : ℕ) (e : ℕ) (c : ℕ) (h0 : Keep k s) :
    Keep k (addDrop s n e c) := by
  unfold addDrop
  repeat' (first | (with_reducible assumption) | (intro _) | (with_reducible (first | apply fset_keep)) | (with_reducible (first | apply keep_ite | apply keep_ite2 | apply keep_ite3 | apply keep_ite1 | apply keep_foldl | apply keep_foldl2 | apply keep_foldl3 | (fail_if_no_progress refine keep_mk rfl rfl rfl rfl rfl ?_) | refine keep_free rfl rfl rfl rfl rfl ?_)) | dsimp only | split)
theorem emptyIncoming_keep (s : State) (m : ℕ) (h0 : Keep k s) :
    Keep k (emptyIncoming s m) := by
  unfold emptyIncoming
  repeat' (first | (with_reducible assumption) | (intro _) | (with_reducible (first | apply hitchSet_keep | apply addDrop_keep)) | (with_reducible (first | apply keep_ite | apply keep_ite2 | apply keep_ite3 | apply keep_ite1 | apply keep_foldl | apply keep_foldl2 | apply keep_foldl3 | (fail_if_no_progress refine keep_mk rfl rfl rfl rfl rfl ?_) | refine keep_free rfl rfl rfl rfl rfl ?_)) | dsimp only | split)

end Sys2Proof.Machine
end

