-- ==== Sys2Proof/Laws/KeepBram.lean ====
section
/-! SUPPORT. The operations of Machine/Bram.lean keep the queue, the counts that only rise, and `Inv`. -/

namespace Sys2Proof.Machine

set_option linter.unusedTactic false
set_option linter.unreachableTactic false
set_option linter.unusedVariables false

variable {k : KeepAt}

theorem bramError_keep (s : State) (i : ℕ) (n : ℕ) (row : ℕ) (kind : ℕ) (scrub : Bool) (h0 : Keep k s) :
    Keep k (bramError s i n row kind scrub) := by
  unfold bramError
  repeat' (first | (with_reducible assumption) | (intro _) | (with_reducible (first | apply finc_keep | apply fset_keep | apply fflag_keep)) | (with_reducible (first | apply keep_ite | apply keep_ite2 | apply keep_ite3 | apply keep_ite1 | apply keep_foldl | apply keep_foldl2 | apply keep_foldl3 | (fail_if_no_progress refine keep_mk rfl rfl rfl rfl rfl ?_) | refine keep_free rfl rfl rfl rfl rfl ?_)) | dsimp only | split)
theorem portPresent_keep (s : State) (isl : ℕ) (n : ℕ) (blk : ℕ) (portB : Bool) (dor : Bool) (rst : Bool) (collide : Bool) (count : Bool) (row : ℕ) (rd : Option PortOut) (h0 : Keep k s) :
    Keep k (portPresent s isl n blk portB dor rst collide count row rd) := by
  unfold portPresent
  repeat' (first | (with_reducible assumption) | (intro _) | (with_reducible (first | apply bramSet_keep | apply bramError_keep)) | (with_reducible (first | apply keep_ite | apply keep_ite2 | apply keep_ite3 | apply keep_ite1 | apply keep_foldl | apply keep_foldl2 | apply keep_foldl3 | (fail_if_no_progress refine keep_mk rfl rfl rfl rfl rfl ?_) | refine keep_free rfl rfl rfl rfl rfl ?_)) | dsimp only | split)
theorem bramTdp_keep (s : State) (isl : ℕ) (n : ℕ) (c : BramCfg) (pa : Option BramIn) (pb : Option BramIn) (cnt : Bool × Bool) (h0 : Keep k s) :
    Keep k (bramTdp s isl n c pa pb cnt) := by
  unfold bramTdp
  repeat' (first | (with_reducible assumption) | (intro _) | (with_reducible (first | apply bramSet_keep | apply portPresent_keep)) | (with_reducible (first | apply keep_ite | apply keep_ite2 | apply keep_ite3 | apply keep_ite1 | apply keep_foldl | apply keep_foldl2 | apply keep_foldl3 | (fail_if_no_progress refine keep_mk rfl rfl rfl rfl rfl ?_) | refine keep_free rfl rfl rfl rfl rfl ?_)) | dsimp only | split)
theorem bramSdpWrite_keep (s : State) (isl : ℕ) (n : ℕ) (c : BramCfg) (a : BramIn) (b : BramIn) (h0 : Keep k s) :
    Keep k (bramSdpWrite s isl n c a b) := by
  unfold bramSdpWrite
  repeat' (first | (with_reducible assumption) | (intro _) | (with_reducible (first | apply bramSet_keep | apply finc_keep)) | (with_reducible (first | apply keep_ite | apply keep_ite2 | apply keep_ite3 | apply keep_ite1 | apply keep_foldl | apply keep_foldl2 | apply keep_foldl3 | (fail_if_no_progress refine keep_mk rfl rfl rfl rfl rfl ?_) | refine keep_free rfl rfl rfl rfl rfl ?_)) | dsimp only | split)
theorem bramSdpRead_keep (s0 : State) (s : State) (isl : ℕ) (n : ℕ) (c : BramCfg) (b : BramIn) (collide : Bool) (count : Bool) (h0 : Keep k s0) (h1 : Keep k s) :
    Keep k (bramSdpRead s0 s isl n c b collide count) := by
  unfold bramSdpRead
  repeat' (first | (with_reducible assumption) | (intro _) | (with_reducible (first | apply bramSet_keep | apply bramError_keep)) | (with_reducible (first | apply keep_ite | apply keep_ite2 | apply keep_ite3 | apply keep_ite1 | apply keep_foldl | apply keep_foldl2 | apply keep_foldl3 | (fail_if_no_progress refine keep_mk rfl rfl rfl rfl rfl ?_) | refine keep_free rfl rfl rfl rfl rfl ?_)) | dsimp only | split)
theorem bweEnd_keep (s : State) (isl : ℕ) (n : ℕ) (h0 : Keep k s) :
    Keep k (bweEnd s isl n) := by
  unfold bweEnd
  repeat' (first | (with_reducible assumption) | (intro _) | (with_reducible (first | apply bramSet_keep)) | (with_reducible (first | apply keep_ite | apply keep_ite2 | apply keep_ite3 | apply keep_ite1 | apply keep_foldl | apply keep_foldl2 | apply keep_foldl3 | (fail_if_no_progress refine keep_mk rfl rfl rfl rfl rfl ?_) | refine keep_free rfl rfl rfl rfl rfl ?_)) | dsimp only | split)
theorem bramAccess_keep (isl : ℕ) (n : ℕ) (a : Option BramIn) (bd : BramIn) (b : Option BramIn) (cnt : Bool × Bool) (s : State) (h6 : Keep k s) :
    Keep k (bramAccess isl n a bd b cnt s) := by
  unfold bramAccess
  repeat' (first | (with_reducible assumption) | (intro _) | (with_reducible (first | apply bramSdpWrite_keep | apply bweEnd_keep | apply bramSdpRead_keep | apply bramTdp_keep)) | (with_reducible (first | apply keep_ite | apply keep_ite2 | apply keep_ite3 | apply keep_ite1 | apply keep_foldl | apply keep_foldl2 | apply keep_foldl3 | (fail_if_no_progress refine keep_mk rfl rfl rfl rfl rfl ?_) | refine keep_free rfl rfl rfl rfl rfl ?_)) | dsimp only | split)
theorem opBramPortAccess_keep (isl : ℕ) (n : ℕ) (a : Option BramIn) (b : Option BramIn) (s : State) (h4 : Keep k s) :
    Keep k (opBramPortAccess isl n a b s) := by
  unfold opBramPortAccess
  repeat' (first | (with_reducible assumption) | (intro _) | (with_reducible (first | apply bramAccess_keep)) | (with_reducible (first | apply keep_ite | apply keep_ite2 | apply keep_ite3 | apply keep_ite1 | apply keep_foldl | apply keep_foldl2 | apply keep_foldl3 | (fail_if_no_progress refine keep_mk rfl rfl rfl rfl rfl ?_) | refine keep_free rfl rfl rfl rfl rfl ?_)) | dsimp only | split)
theorem bramRowsPut_keep (s : State) (p : ℕ × ℕ) (l : List (BitVec 36)) (h0 : Keep k s) :
    Keep k (bramRowsPut s p l) := by
  unfold bramRowsPut
  repeat' (first | (with_reducible assumption) | (intro _) | (with_reducible (first | apply bramSet_keep)) | (with_reducible (first | apply keep_ite | apply keep_ite2 | apply keep_ite3 | apply keep_ite1 | apply keep_foldl | apply keep_foldl2 | apply keep_foldl3 | (fail_if_no_progress refine keep_mk rfl rfl rfl rfl rfl ?_) | refine keep_free rfl rfl rfl rfl rfl ?_)) | dsimp only | split)
theorem bramKeep_keep (s0 : State) (s : State) (isl : ℕ) (n : ℕ) (t : ℕ) (portB : Bool) (x : BramIn) (bd : BramIn) (h0 : Keep k s0) (h1 : Keep k s) :
    Keep k (bramKeep s0 s isl n t portB x bd) := by
  unfold bramKeep
  repeat' (first | (with_reducible assumption) | (intro _) | (with_reducible (first | apply keep_ite | apply keep_ite2 | apply keep_ite3 | apply keep_ite1 | apply keep_foldl | apply keep_foldl2 | apply keep_foldl3 | (fail_if_no_progress refine keep_mk rfl rfl rfl rfl rfl ?_) | refine keep_free rfl rfl rfl rfl rfl ?_)) | dsimp only | split)
theorem bramEdges_keep (isl : ℕ) (n : ℕ) (t : ℕ) (a : Option BramIn) (b : Option BramIn) (bd : BramIn) (s : State) (h6 : Keep k s) :
    Keep k (bramEdges isl n t a b bd s) := by
  unfold bramEdges
  repeat' (first | (with_reducible assumption) | (intro _) | (with_reducible (first | apply bramRowsPut_keep | apply bramSet_keep | apply bramKeep_keep | apply bramAccess_keep)) | (with_reducible (first | apply keep_ite | apply keep_ite2 | apply keep_ite3 | apply keep_ite1 | apply keep_foldl | apply keep_foldl2 | apply keep_foldl3 | (fail_if_no_progress refine keep_mk rfl rfl rfl rfl rfl ?_) | refine keep_free rfl rfl rfl rfl rfl ?_)) | dsimp only | split)
theorem lapCheck_keep (s : State) (isl : ℕ) (h0 : Keep k s) :
    Keep k (lapCheck s isl) := by
  unfold lapCheck
  repeat' (first | (with_reducible assumption) | (intro _) | (with_reducible (first | apply fset_keep | apply islUpd_keep | apply bramSet_keep)) | (with_reducible (first | apply keep_ite | apply keep_ite2 | apply keep_ite3 | apply keep_ite1 | apply keep_foldl | apply keep_foldl2 | apply keep_foldl3 | (fail_if_no_progress refine keep_mk rfl rfl rfl rfl rfl ?_) | refine keep_free rfl rfl rfl rfl rfl ?_)) | dsimp only | split)
theorem opBramScrubStep_keep (isl : ℕ) (n : ℕ) (s : State) (h2 : Keep k s) :
    Keep k (opBramScrubStep isl n s) := by
  unfold opBramScrubStep
  repeat' (first | (with_reducible assumption) | (intro _) | (with_reducible (first | apply bramError_keep | apply bramSet_keep | apply lapCheck_keep)) | (with_reducible (first | apply keep_ite | apply keep_ite2 | apply keep_ite3 | apply keep_ite1 | apply keep_foldl | apply keep_foldl2 | apply keep_foldl3 | (fail_if_no_progress refine keep_mk rfl rfl rfl rfl rfl ?_) | refine keep_free rfl rfl rfl rfl rfl ?_)) | dsimp only | split)
theorem opBramScrubWriteback_keep (isl : ℕ) (n : ℕ) (s : State) (h2 : Keep k s) :
    Keep k (opBramScrubWriteback isl n s) := by
  unfold opBramScrubWriteback
  repeat' (first | (with_reducible assumption) | (intro _) | (with_reducible (first | apply bramSet_keep)) | (with_reducible (first | apply keep_ite | apply keep_ite2 | apply keep_ite3 | apply keep_ite1 | apply keep_foldl | apply keep_foldl2 | apply keep_foldl3 | (fail_if_no_progress refine keep_mk rfl rfl rfl rfl rfl ?_) | refine keep_free rfl rfl rfl rfl rfl ?_)) | dsimp only | split)
theorem opBramScrubSkip_keep (isl : ℕ) (n : ℕ) (s : State) (h2 : Keep k s) :
    Keep k (opBramScrubSkip isl n s) := by
  unfold opBramScrubSkip
  repeat' (first | (with_reducible assumption) | (intro _) | (with_reducible (first | apply lapCheck_keep | apply finc_keep | apply bramSet_keep)) | (with_reducible (first | apply keep_ite | apply keep_ite2 | apply keep_ite3 | apply keep_ite1 | apply keep_foldl | apply keep_foldl2 | apply keep_foldl3 | (fail_if_no_progress refine keep_mk rfl rfl rfl rfl rfl ?_) | refine keep_free rfl rfl rfl rfl rfl ?_)) | dsimp only | split)
theorem actBramRawGo_keep (isl : ℕ) (s : State) (h1 : Keep k s) :
    Keep k (actBramRawGo isl s) := by
  unfold actBramRawGo
  repeat' (first | (with_reducible assumption) | (intro _) | (with_reducible (first | apply fflag_keep)) | (with_reducible (first | apply keep_ite | apply keep_ite2 | apply keep_ite3 | apply keep_ite1 | apply keep_foldl | apply keep_foldl2 | apply keep_foldl3 | (fail_if_no_progress refine keep_mk rfl rfl rfl rfl rfl ?_) | refine keep_free rfl rfl rfl rfl rfl ?_)) | dsimp only | split)
theorem opBramRawAccess_keep (isl : ℕ) (s : State) (h1 : Keep k s) :
    Keep k (opBramRawAccess isl s) := by
  unfold opBramRawAccess
  repeat' (first | (with_reducible assumption) | (intro _) | (with_reducible (first | apply fflag_keep | apply bramSet_keep | apply fset_keep)) | (with_reducible (first | apply keep_ite | apply keep_ite2 | apply keep_ite3 | apply keep_ite1 | apply keep_foldl | apply keep_foldl2 | apply keep_foldl3 | (fail_if_no_progress refine keep_mk rfl rfl rfl rfl rfl ?_) | refine keep_free rfl rfl rfl rfl rfl ?_)) | dsimp only | split)
theorem opBramRawTimeout_keep (isl : ℕ) (s : State) (h1 : Keep k s) :
    Keep k (opBramRawTimeout isl s) := by
  unfold opBramRawTimeout
  repeat' (first | (with_reducible assumption) | (intro _) | (with_reducible (first | apply fflag_keep)) | (with_reducible (first | apply keep_ite | apply keep_ite2 | apply keep_ite3 | apply keep_ite1 | apply keep_foldl | apply keep_foldl2 | apply keep_foldl3 | (fail_if_no_progress refine keep_mk rfl rfl rfl rfl rfl ?_) | refine keep_free rfl rfl rfl rfl rfl ?_)) | dsimp only | split)
theorem actMemClr_keep (isl : ℕ) (s : State) (h1 : Keep k s) :
    Keep k (actMemClr isl s) := by
  unfold actMemClr
  repeat' (first | (with_reducible assumption) | (intro _) | (with_reducible (first | apply csrWipe_keep)) | (with_reducible (first | apply keep_ite | apply keep_ite2 | apply keep_ite3 | apply keep_ite1 | apply keep_foldl | apply keep_foldl2 | apply keep_foldl3 | (fail_if_no_progress refine keep_mk rfl rfl rfl rfl rfl ?_) | refine keep_free rfl rfl rfl rfl rfl ?_)) | dsimp only | split)
theorem bramLoadInit_keep (s : State) (isl : ℕ) (h0 : Keep k s) :
    Keep k (bramLoadInit s isl) := by
  unfold bramLoadInit
  repeat' (first | (with_reducible assumption) | (intro _) | (with_reducible (first | apply bramSet_keep)) | (with_reducible (first | apply keep_ite | apply keep_ite2 | apply keep_ite3 | apply keep_ite1 | apply keep_foldl | apply keep_foldl2 | apply keep_foldl3 | (fail_if_no_progress refine keep_mk rfl rfl rfl rfl rfl ?_) | refine keep_free rfl rfl rfl rfl rfl ?_)) | dsimp only | split)
theorem bramLose_keep (s : State) (isl : ℕ) (h0 : Keep k s) :
    Keep k (bramLose s isl) := by
  unfold bramLose
  repeat' (first | (with_reducible assumption) | (intro _) | (with_reducible (first | apply keep_ite | apply keep_ite2 | apply keep_ite3 | apply keep_ite1 | apply keep_foldl | apply keep_foldl2 | apply keep_foldl3 | (fail_if_no_progress refine keep_mk rfl rfl rfl rfl rfl ?_) | refine keep_free rfl rfl rfl rfl rfl ?_)) | dsimp only | split)

end Sys2Proof.Machine
end

