-- ==== Sys2Proof/Laws/KeepDdr.lean ====
section
/-! SUPPORT. The operations of Machine/Ddr.lean keep the queue, the counts that only rise, and `Inv`. -/

namespace Sys2Proof.Machine

set_option linter.unusedTactic false
set_option linter.unreachableTactic false
set_option linter.unusedVariables false

variable {k : KeepAt}

theorem mcRecord_keep (s : State) (n : ℕ) (line : ℕ) (o : LineOut) (patrol : Bool) (h0 : Keep k s) :
    Keep k (mcRecord s n line o patrol) := by
  unfold mcRecord
  repeat' (first | (with_reducible assumption) | (intro _) | (with_reducible (first | apply finc_keep | apply fset_keep | apply fflag_keep)) | (with_reducible (first | apply keep_ite | apply keep_ite2 | apply keep_ite3 | apply keep_ite1 | apply keep_foldl | apply keep_foldl2 | apply keep_foldl3 | (fail_if_no_progress refine keep_mk rfl rfl rfl rfl rfl ?_) | refine keep_free rfl rfl rfl rfl rfl ?_)) | dsimp only | split)
theorem mcExit_keep (s : State) (n : ℕ) (h0 : Keep k s) :
    Keep k (mcExit s n) := by
  unfold mcExit
  repeat' (first | (with_reducible assumption) | (intro _) | (with_reducible (first | apply fset_keep | apply mcUpd_keep)) | (with_reducible (first | apply keep_ite | apply keep_ite2 | apply keep_ite3 | apply keep_ite1 | apply keep_foldl | apply keep_foldl2 | apply keep_foldl3 | (fail_if_no_progress refine keep_mk rfl rfl rfl rfl rfl ?_) | refine keep_free rfl rfl rfl rfl rfl ?_)) | dsimp only | split)
theorem mcLoad_keep (s : State) (n : ℕ) (line : ℕ) (h0 : Keep k s) :
    Keep k (mcLoad s n line).2.2 := by
  unfold mcLoad
  repeat' (first | (with_reducible assumption) | (intro _) | (with_reducible (first | apply mcExit_keep | apply finc_keep | apply mcRecord_keep | apply mcUpd_keep)) | (with_reducible (first | apply keep_ite | apply keep_ite2 | apply keep_ite3 | apply keep_ite1 | apply keep_foldl | apply keep_foldl2 | apply keep_foldl3 | (fail_if_no_progress refine keep_mk rfl rfl rfl rfl rfl ?_) | refine keep_free rfl rfl rfl rfl rfl ?_)) | dsimp only | split)
theorem mcOver_keep (s : State) (n : ℕ) (line : ℕ) (h0 : Keep k s) :
    Keep k (mcOver s n line) := by
  unfold mcOver
  repeat' (first | (with_reducible assumption) | (intro _) | (with_reducible (first | apply mcUpd_keep)) | (with_reducible (first | apply keep_ite | apply keep_ite2 | apply keep_ite3 | apply keep_ite1 | apply keep_foldl | apply keep_foldl2 | apply keep_foldl3 | (fail_if_no_progress refine keep_mk rfl rfl rfl rfl rfl ?_) | refine keep_free rfl rfl rfl rfl rfl ?_)) | dsimp only | split)
theorem mcAnswer_keep (s : State) (n : ℕ) (a : MAns) (h0 : Keep k s) :
    Keep k (mcAnswer s n a) := by
  unfold mcAnswer
  repeat' (first | (with_reducible assumption) | (intro _) | (with_reducible (first | apply mcUpd_keep)) | (with_reducible (first | apply keep_ite | apply keep_ite2 | apply keep_ite3 | apply keep_ite1 | apply keep_foldl | apply keep_foldl2 | apply keep_foldl3 | (fail_if_no_progress refine keep_mk rfl rfl rfl rfl rfl ?_) | refine keep_free rfl rfl rfl rfl rfl ?_)) | dsimp only | split)
theorem mcReadIn_keep (n : ℕ) (r : McReq) (s : State) (h2 : Keep k s) :
    Keep k (mcReadIn n r s) := by
  unfold mcReadIn
  repeat' (first | (with_reducible assumption) | (intro _) | (with_reducible (first | apply mcAnswer_keep | apply finc_keep | apply mcUpd_keep)) | (with_reducible (first | apply keep_ite | apply keep_ite2 | apply keep_ite3 | apply keep_ite1 | apply keep_foldl | apply keep_foldl2 | apply keep_foldl3 | (fail_if_no_progress refine keep_mk rfl rfl rfl rfl rfl ?_) | refine keep_free rfl rfl rfl rfl rfl ?_)) | dsimp only | split)
theorem mcWriteIn_keep (n : ℕ) (r : McReq) (s : State) (h2 : Keep k s) :
    Keep k (mcWriteIn n r s) := by
  unfold mcWriteIn
  repeat' (first | (with_reducible assumption) | (intro _) | (with_reducible (first | apply mcUpd_keep | apply mcOver_keep | apply mcAnswer_keep)) | (with_reducible (first | apply keep_ite | apply keep_ite2 | apply keep_ite3 | apply keep_ite1 | apply keep_foldl | apply keep_foldl2 | apply keep_foldl3 | (fail_if_no_progress refine keep_mk rfl rfl rfl rfl rfl ?_) | refine keep_free rfl rfl rfl rfl rfl ?_)) | dsimp only | split)
theorem opMcRequest_keep (n : ℕ) (r : McReq) (s : State) (h2 : Keep k s) :
    Keep k (opMcRequest n r s) := by
  unfold opMcRequest
  repeat' (first | (with_reducible assumption) | (intro _) | (with_reducible (first | apply answer_keep | apply mcAnswer_keep | apply mcExit_keep | apply mcWriteIn_keep | apply mcReadIn_keep)) | (with_reducible (first | apply keep_ite | apply keep_ite2 | apply keep_ite3 | apply keep_ite1 | apply keep_foldl | apply keep_foldl2 | apply keep_foldl3 | (fail_if_no_progress refine keep_mk rfl rfl rfl rfl rfl ?_) | refine keep_free rfl rfl rfl rfl rfl ?_)) | dsimp only | split)
theorem phyApply_keep (s : State) (n : ℕ) (h0 : Keep k s) :
    Keep k (phyApply s n) := by
  unfold phyApply
  repeat' (first | (with_reducible assumption) | (intro _) | (with_reducible (first | apply writeFields_keep | apply mcUpd_keep)) | (with_reducible (first | apply keep_ite | apply keep_ite2 | apply keep_ite3 | apply keep_ite1 | apply keep_foldl | apply keep_foldl2 | apply keep_foldl3 | (fail_if_no_progress refine keep_mk rfl rfl rfl rfl rfl ?_) | refine keep_free rfl rfl rfl rfl rfl ?_)) | dsimp only | split)
theorem mcRefresh_keep (s : State) (n : ℕ) (r : ℕ) (h0 : Keep k s) :
    Keep k (mcRefresh s n r) := by
  unfold mcRefresh
  repeat' (first | (with_reducible assumption) | (intro _) | (with_reducible (first | apply phyApply_keep | apply fset_keep | apply mcUpd_keep)) | (with_reducible (first | apply keep_ite | apply keep_ite2 | apply keep_ite3 | apply keep_ite1 | apply keep_foldl | apply keep_foldl2 | apply keep_foldl3 | (fail_if_no_progress refine keep_mk rfl rfl rfl rfl rfl ?_) | refine keep_free rfl rfl rfl rfl rfl ?_)) | dsimp only | split)
theorem rankClose_keep (s : State) (n : ℕ) (r : ℕ) (h0 : Keep k s) :
    Keep k (rankClose s n r) := by
  unfold rankClose
  repeat' (first | (with_reducible assumption) | (intro _) | (with_reducible (first | apply mcUpd_keep)) | (with_reducible (first | apply keep_ite | apply keep_ite2 | apply keep_ite3 | apply keep_ite1 | apply keep_foldl | apply keep_foldl2 | apply keep_foldl3 | (fail_if_no_progress refine keep_mk rfl rfl rfl rfl rfl ?_) | refine keep_free rfl rfl rfl rfl rfl ?_)) | dsimp only | split)
theorem opRefreshDue_keep (n : ℕ) (r : ℕ) (s : State) (h2 : Keep k s) :
    Keep k (opRefreshDue n r s) := by
  unfold opRefreshDue
  repeat' (first | (with_reducible assumption) | (intro _) | (with_reducible (first | apply fset_keep | apply finc_keep | apply mcUpd_keep)) | (with_reducible (first | apply keep_ite | apply keep_ite2 | apply keep_ite3 | apply keep_ite1 | apply keep_foldl | apply keep_foldl2 | apply keep_foldl3 | (fail_if_no_progress refine keep_mk rfl rfl rfl rfl rfl ?_) | refine keep_free rfl rfl rfl rfl rfl ?_)) | dsimp only | split)
theorem issueRead_keep (s : State) (n : ℕ) (line : ℕ) (h0 : Keep k s) :
    Keep k (issueRead s n line) := by
  unfold issueRead
  repeat' (first | (with_reducible assumption) | (intro _) | (with_reducible (first | apply mcUpd_keep)) | (with_reducible (first | apply keep_ite | apply keep_ite2 | apply keep_ite3 | apply keep_ite1 | apply keep_foldl | apply keep_foldl2 | apply keep_foldl3 | (fail_if_no_progress refine keep_mk rfl rfl rfl rfl rfl ?_) | refine keep_free rfl rfl rfl rfl rfl ?_)) | dsimp only | split)
theorem issueWrite_keep (s : State) (n : ℕ) (line : ℕ) (h0 : Keep k s) :
    Keep k (issueWrite s n line) := by
  unfold issueWrite
  repeat' (first | (with_reducible assumption) | (intro _) | (with_reducible (first | apply mcUpd_keep | apply mcAnswer_keep | apply dramSet_keep | apply mcRecord_keep)) | (with_reducible (first | apply keep_ite | apply keep_ite2 | apply keep_ite3 | apply keep_ite1 | apply keep_foldl | apply keep_foldl2 | apply keep_foldl3 | (fail_if_no_progress refine keep_mk rfl rfl rfl rfl rfl ?_) | refine keep_free rfl rfl rfl rfl rfl ?_)) | dsimp only | split)
theorem readsBefore_keep (s : State) (n : ℕ) (line : ℕ) (h0 : Keep k s) :
    Keep k (readsBefore s n line) := by
  unfold readsBefore
  repeat' (first | (with_reducible assumption) | (intro _) | (with_reducible (first | apply issueWrite_keep | apply issueRead_keep)) | (with_reducible (first | apply keep_ite | apply keep_ite2 | apply keep_ite3 | apply keep_ite1 | apply keep_foldl | apply keep_foldl2 | apply keep_foldl3 | (fail_if_no_progress refine keep_mk rfl rfl rfl rfl rfl ?_) | refine keep_free rfl rfl rfl rfl rfl ?_)) | dsimp only | split)
theorem mcStore_keep (s : State) (n : ℕ) (line : ℕ) (d : BitVec 512) (h0 : Keep k s) :
    Keep k (mcStore s n line d) := by
  unfold mcStore
  repeat' (first | (with_reducible assumption) | (intro _) | (with_reducible (first | apply mcExit_keep | apply readsBefore_keep | apply mcOver_keep | apply mcUpd_keep | apply dramSet_keep)) | (with_reducible (first | apply keep_ite | apply keep_ite2 | apply keep_ite3 | apply keep_ite1 | apply keep_foldl | apply keep_foldl2 | apply keep_foldl3 | (fail_if_no_progress refine keep_mk rfl rfl rfl rfl rfl ?_) | refine keep_free rfl rfl rfl rfl rfl ?_)) | dsimp only | split)
theorem serve_keep (s : State) (n : ℕ) (c : Cand) (h0 : Keep k s) :
    Keep k (serve s n c) := by
  unfold serve
  repeat' (first | (with_reducible assumption) | (intro _) | (with_reducible (first | apply issueWrite_keep | apply issueRead_keep | apply mcUpd_keep)) | (with_reducible (first | apply keep_ite | apply keep_ite2 | apply keep_ite3 | apply keep_ite1 | apply keep_foldl | apply keep_foldl2 | apply keep_foldl3 | (fail_if_no_progress refine keep_mk rfl rfl rfl rfl rfl ?_) | refine keep_free rfl rfl rfl rfl rfl ?_)) | dsimp only | split)
theorem catchUp_keep (s : State) (n : ℕ) (h0 : Keep k s) :
    Keep k (catchUp s n) := by
  unfold catchUp
  repeat' (first | (with_reducible assumption) | (intro _) | (with_reducible (first | apply rankClose_keep | apply mcRefresh_keep)) | (with_reducible (first | apply keep_ite | apply keep_ite2 | apply keep_ite3 | apply keep_ite1 | apply keep_foldl | apply keep_foldl2 | apply keep_foldl3 | (fail_if_no_progress refine keep_mk rfl rfl rfl rfl rfl ?_) | refine keep_free rfl rfl rfl rfl rfl ?_)) | dsimp only | split)
theorem idleCommand_keep (s : State) (n : ℕ) (h0 : Keep k s) :
    Keep k (idleCommand s n) := by
  unfold idleCommand
  repeat' (first | (with_reducible assumption) | (intro _) | (with_reducible (first | apply mcUpd_keep | apply dramSet_keep)) | (with_reducible (first | apply keep_ite | apply keep_ite2 | apply keep_ite3 | apply keep_ite1 | apply keep_foldl | apply keep_foldl2 | apply keep_foldl3 | (fail_if_no_progress refine keep_mk rfl rfl rfl rfl rfl ?_) | refine keep_free rfl rfl rfl rfl rfl ?_)) | dsimp only | split)
theorem opMcCommand_keep (n : ℕ) (s : State) (h1 : Keep k s) :
    Keep k (opMcCommand n s) := by
  unfold opMcCommand
  repeat' (first | (with_reducible assumption) | (intro _) | (with_reducible (first | apply rankClose_keep | apply mcRefresh_keep | apply mcUpd_keep | apply catchUp_keep | apply serve_keep | apply idleCommand_keep)) | (with_reducible (first | apply keep_ite | apply keep_ite2 | apply keep_ite3 | apply keep_ite1 | apply keep_foldl | apply keep_foldl2 | apply keep_foldl3 | (fail_if_no_progress refine keep_mk rfl rfl rfl rfl rfl ?_) | refine keep_free rfl rfl rfl rfl rfl ?_)) | dsimp only | split)
theorem opMcReadData_keep (n : ℕ) (s : State) (h1 : Keep k s) :
    Keep k (opMcReadData n s) := by
  unfold opMcReadData
  repeat' (first | (with_reducible assumption) | (intro _) | (with_reducible (first | apply mcUpd_keep | apply mcRecord_keep | apply mcAnswer_keep)) | (with_reducible (first | apply keep_ite | apply keep_ite2 | apply keep_ite3 | apply keep_ite1 | apply keep_foldl | apply keep_foldl2 | apply keep_foldl3 | (fail_if_no_progress refine keep_mk rfl rfl rfl rfl rfl ?_) | refine keep_free rfl rfl rfl rfl rfl ?_)) | dsimp only | split)
theorem opRowClose_keep (n : ℕ) (bank : ℕ) (s : State) (h2 : Keep k s) :
    Keep k (opRowClose n bank s) := by
  unfold opRowClose
  repeat' (first | (with_reducible assumption) | (intro _) | (with_reducible (first | apply mcUpd_keep)) | (with_reducible (first | apply keep_ite | apply keep_ite2 | apply keep_ite3 | apply keep_ite1 | apply keep_foldl | apply keep_foldl2 | apply keep_foldl3 | (fail_if_no_progress refine keep_mk rfl rfl rfl rfl rfl ?_) | refine keep_free rfl rfl rfl rfl rfl ?_)) | dsimp only | split)
theorem opMr4Poll_keep (n : ℕ) (r : ℕ) (v : ℕ) (s : State) (h3 : Keep k s) :
    Keep k (opMr4Poll n r v s) := by
  unfold opMr4Poll
  repeat' (first | (with_reducible assumption) | (intro _) | (with_reducible (first | apply mcUpd_keep)) | (with_reducible (first | apply keep_ite | apply keep_ite2 | apply keep_ite3 | apply keep_ite1 | apply keep_foldl | apply keep_foldl2 | apply keep_foldl3 | (fail_if_no_progress refine keep_mk rfl rfl rfl rfl rfl ?_) | refine keep_free rfl rfl rfl rfl rfl ?_)) | dsimp only | split)
theorem opZqCal_keep (n : ℕ) (s : State) (h1 : Keep k s) :
    Keep k (opZqCal n s) := by
  unfold opZqCal
  repeat' (first | (with_reducible assumption) | (intro _) | (with_reducible (first | apply mcUpd_keep)) | (with_reducible (first | apply keep_ite | apply keep_ite2 | apply keep_ite3 | apply keep_ite1 | apply keep_foldl | apply keep_foldl2 | apply keep_foldl3 | (fail_if_no_progress refine keep_mk rfl rfl rfl rfl rfl ?_) | refine keep_free rfl rfl rfl rfl rfl ?_)) | dsimp only | split)
theorem srEnter_keep (s : State) (n : ℕ) (h0 : Keep k s) :
    Keep k (srEnter s n) := by
  unfold srEnter
  repeat' (first | (with_reducible assumption) | (intro _) | (with_reducible (first | apply dramSet_keep | apply mcRefresh_keep | apply mcUpd_keep | apply finc_keep | apply fset_keep)) | (with_reducible (first | apply keep_ite | apply keep_ite2 | apply keep_ite3 | apply keep_ite1 | apply keep_foldl | apply keep_foldl2 | apply keep_foldl3 | (fail_if_no_progress refine keep_mk rfl rfl rfl rfl rfl ?_) | refine keep_free rfl rfl rfl rfl rfl ?_)) | dsimp only | split)
theorem opSrEntry_keep (n : ℕ) (meet : Option McReq) (s : State) (h2 : Keep k s) :
    Keep k (opSrEntry n meet s) := by
  unfold opSrEntry
  repeat' (first | (with_reducible assumption) | (intro _) | (with_reducible (first | apply opMcRequest_keep | apply finc_keep | apply srEnter_keep)) | (with_reducible (first | apply keep_ite | apply keep_ite2 | apply keep_ite3 | apply keep_ite1 | apply keep_foldl | apply keep_foldl2 | apply keep_foldl3 | (fail_if_no_progress refine keep_mk rfl rfl rfl rfl rfl ?_) | refine keep_free rfl rfl rfl rfl rfl ?_)) | dsimp only | split)
theorem mcFlush_keep (s : State) (n : ℕ) (h0 : Keep k s) :
    Keep k (mcFlush s n) := by
  unfold mcFlush
  repeat' (first | (with_reducible assumption) | (intro _) | (with_reducible (first | apply readsBefore_keep | apply issueWrite_keep | apply opMcReadData_keep)) | (with_reducible (first | apply keep_ite | apply keep_ite2 | apply keep_ite3 | apply keep_ite1 | apply keep_foldl | apply keep_foldl2 | apply keep_foldl3 | (fail_if_no_progress refine keep_mk rfl rfl rfl rfl rfl ?_) | refine keep_free rfl rfl rfl rfl rfl ?_)) | dsimp only | split)
theorem mcStandby_keep (s : State) (n : ℕ) (h0 : Keep k s) :
    Keep k (mcStandby s n) := by
  unfold mcStandby
  repeat' (first | (with_reducible assumption) | (intro _) | (with_reducible (first | apply mcFlush_keep | apply mcUpd_keep | apply srEnter_keep)) | (with_reducible (first | apply keep_ite | apply keep_ite2 | apply keep_ite3 | apply keep_ite1 | apply keep_foldl | apply keep_foldl2 | apply keep_foldl3 | (fail_if_no_progress refine keep_mk rfl rfl rfl rfl rfl ?_) | refine keep_free rfl rfl rfl rfl rfl ?_)) | dsimp only | split)
theorem mcUnstandby_keep (s : State) (n : ℕ) (h0 : Keep k s) :
    Keep k (mcUnstandby s n) := by
  unfold mcUnstandby
  repeat' (first | (with_reducible assumption) | (intro _) | (with_reducible (first | apply mcExit_keep | apply mcUpd_keep)) | (with_reducible (first | apply keep_ite | apply keep_ite2 | apply keep_ite3 | apply keep_ite1 | apply keep_foldl | apply keep_foldl2 | apply keep_foldl3 | (fail_if_no_progress refine keep_mk rfl rfl rfl rfl rfl ?_) | refine keep_free rfl rfl rfl rfl rfl ?_)) | dsimp only | split)
theorem lapEnd_keep (s : State) (n : ℕ) (h0 : Keep k s) :
    Keep k (lapEnd s n) := by
  unfold lapEnd
  repeat' (first | (with_reducible assumption) | (intro _) | (with_reducible (first | apply mcUpd_keep | apply fset_keep)) | (with_reducible (first | apply keep_ite | apply keep_ite2 | apply keep_ite3 | apply keep_ite1 | apply keep_foldl | apply keep_foldl2 | apply keep_foldl3 | (fail_if_no_progress refine keep_mk rfl rfl rfl rfl rfl ?_) | refine keep_free rfl rfl rfl rfl rfl ?_)) | dsimp only | split)
theorem patrolRead_keep (n : ℕ) (s : State) (h1 : Keep k s) :
    Keep k (patrolRead n s).2 := by
  unfold patrolRead
  repeat' (first | (with_reducible assumption) | (intro _) | (with_reducible (first | apply lapEnd_keep | apply mcRecord_keep | apply dramSet_keep | apply fset_keep)) | (with_reducible (first | apply keep_ite | apply keep_ite2 | apply keep_ite3 | apply keep_ite1 | apply keep_foldl | apply keep_foldl2 | apply keep_foldl3 | (fail_if_no_progress refine keep_mk rfl rfl rfl rfl rfl ?_) | refine keep_free rfl rfl rfl rfl rfl ?_)) | dsimp only | split)
theorem actTrnGo_keep (n : ℕ) (s : State) (h1 : Keep k s) :
    Keep k (actTrnGo n s) := by
  unfold actTrnGo
  repeat' (first | (with_reducible assumption) | (intro _) | (with_reducible (first | apply fflag_keep)) | (with_reducible (first | apply keep_ite | apply keep_ite2 | apply keep_ite3 | apply keep_ite1 | apply keep_foldl | apply keep_foldl2 | apply keep_foldl3 | (fail_if_no_progress refine keep_mk rfl rfl rfl rfl rfl ?_) | refine keep_free rfl rfl rfl rfl rfl ?_)) | dsimp only | split)
theorem goReject_keep (s : State) (n : ℕ) (h0 : Keep k s) :
    Keep k (goReject s n) := by
  unfold goReject
  repeat' (first | (with_reducible assumption) | (intro _) | (with_reducible (first | apply fflag_keep)) | (with_reducible (first | apply keep_ite | apply keep_ite2 | apply keep_ite3 | apply keep_ite1 | apply keep_foldl | apply keep_foldl2 | apply keep_foldl3 | (fail_if_no_progress refine keep_mk rfl rfl rfl rfl rfl ?_) | refine keep_free rfl rfl rfl rfl rfl ?_)) | dsimp only | split)
theorem twf_foldl_tset {α β : Type} [DecidableEq α] (d : α) (f : β → Nat) (g : β → α) (l : List β) {t : Tab α} (h : twf d t = true) :
    twf d (l.foldl (fun t p => tset d t (f p) (g p)) t) = true := by
  induction l generalizing t with
  | nil => exact h
  | cons p l ih => exact ih (twf_tset _ _ _ h)
theorem dramRehash_keep (s : State) (n : ℕ) (h0 : Keep k s) :
    Keep k (dramRehash s n) := by
  have h : twf ({} : DLine) s.dram = true := h0.2.2.2.1
  refine ⟨h0.1, h0.2.1, h0.2.2.1, ?_, h0.2.2.2.2⟩
  unfold Memory.wf dramRehash
  exact twf_foldl_tset ({} : DLine) (fun p : Nat × DLine => n * 2 ^ 30 + hashLine s n (p.1 % 2 ^ 30)) Prod.snd _ (twf_filter _ h)
theorem trnWrites_keep (s : State) (n : ℕ) (x : ℕ) (h0 : Keep k s) :
    Keep k (trnWrites s n x) := by
  unfold trnWrites
  repeat' (first | (with_reducible assumption) | (intro _) | (with_reducible (first | apply dramSet_keep)) | (with_reducible (first | apply keep_ite | apply keep_ite2 | apply keep_ite3 | apply keep_ite1 | apply keep_foldl | apply keep_foldl2 | apply keep_foldl3 | (fail_if_no_progress refine keep_mk rfl rfl rfl rfl rfl ?_) | refine keep_free rfl rfl rfl rfl rfl ?_)) | dsimp only | split)
theorem capture_keep (s : State) (n : ℕ) (x : ℕ) (beats : List (BitVec 40)) (h0 : Keep k s) :
    Keep k (capture s n x beats) := by
  unfold capture
  repeat' (first | (with_reducible assumption) | (intro _) | (with_reducible (first | apply fset_keep)) | (with_reducible (first | apply keep_ite | apply keep_ite2 | apply keep_ite3 | apply keep_ite1 | apply keep_foldl | apply keep_foldl2 | apply keep_foldl3 | (fail_if_no_progress refine keep_mk rfl rfl rfl rfl rfl ?_) | refine keep_free rfl rfl rfl rfl rfl ?_)) | dsimp only | split)
theorem trnError_keep (s : State) (n : ℕ) (x : ℕ) (k0 : ℕ) (b : ℕ) (lane : ℕ) (h0 : Keep k s) :
    Keep k (trnError s n x k0 b lane) := by
  unfold trnError
  repeat' (first | (with_reducible assumption) | (intro _) | (with_reducible (first | apply finc_keep | apply fflag_keep | apply fset_keep)) | (with_reducible (first | apply keep_ite | apply keep_ite2 | apply keep_ite3 | apply keep_ite1 | apply keep_foldl | apply keep_foldl2 | apply keep_foldl3 | (fail_if_no_progress refine keep_mk rfl rfl rfl rfl rfl ?_) | refine keep_free rfl rfl rfl rfl rfl ?_)) | dsimp only | split)
theorem trnCompare_keep (n : ℕ) (subs : List ℕ) (flips : List Flip) (s : State) (p : DLine × ℕ) (h3 : Keep k s) :
    Keep k (trnCompare n subs flips s p) := by
  unfold trnCompare
  repeat' (first | (with_reducible assumption) | (intro _) | (with_reducible (first | apply trnError_keep)) | (with_reducible (first | apply keep_ite | apply keep_ite2 | apply keep_ite3 | apply keep_ite1 | apply keep_foldl | apply keep_foldl2 | apply keep_foldl3 | (fail_if_no_progress refine keep_mk rfl rfl rfl rfl rfl ?_) | refine keep_free rfl rfl rfl rfl rfl ?_)) | dsimp only | split)
theorem opTrnDone_keep (n : ℕ) (flips : List Flip) (s : State) (h2 : Keep k s) :
    Keep k (opTrnDone n flips s) := by
  unfold opTrnDone
  repeat' (first | (with_reducible assumption) | (intro _) | (with_reducible (first | apply trnWrites_keep | apply trnCompare_keep | apply capture_keep | apply fflag_keep)) | (with_reducible (first | apply keep_ite | apply keep_ite2 | apply keep_ite3 | apply keep_ite1 | apply keep_foldl | apply keep_foldl2 | apply keep_foldl3 | (fail_if_no_progress refine keep_mk rfl rfl rfl rfl rfl ?_) | refine keep_free rfl rfl rfl rfl rfl ?_)) | dsimp only | split)
theorem opMrAccessDone_keep (n : ℕ) (cap : List (BitVec 40)) (s : State) (h2 : Keep k s) :
    Keep k (opMrAccessDone n cap s) := by
  unfold opMrAccessDone
  repeat' (first | (with_reducible assumption) | (intro _) | (with_reducible (first | apply mcUpd_keep | apply capture_keep)) | (with_reducible (first | apply keep_ite | apply keep_ite2 | apply keep_ite3 | apply keep_ite1 | apply keep_foldl | apply keep_foldl2 | apply keep_foldl3 | (fail_if_no_progress refine keep_mk rfl rfl rfl rfl rfl ?_) | refine keep_free rfl rfl rfl rfl rfl ?_)) | dsimp only | split)
theorem actRunGo_keep (n : ℕ) (s : State) (h1 : Keep k s) :
    Keep k (actRunGo n s) := by
  unfold actRunGo
  repeat' (first | (with_reducible assumption) | (intro _) | (with_reducible (first | apply mcUpd_keep | apply fset_keep)) | (with_reducible (first | apply keep_ite | apply keep_ite2 | apply keep_ite3 | apply keep_ite1 | apply keep_foldl | apply keep_foldl2 | apply keep_foldl3 | (fail_if_no_progress refine keep_mk rfl rfl rfl rfl rfl ?_) | refine keep_free rfl rfl rfl rfl rfl ?_)) | dsimp only | split)
theorem rateSet_keep (s : State) (n : ℕ) (r : RateRec) (h0 : Keep k s) :
    Keep k (rateSet s n r) := by
  unfold rateSet
  repeat' (first | (with_reducible assumption) | (intro _) | (with_reducible (first | apply keep_ite | apply keep_ite2 | apply keep_ite3 | apply keep_ite1 | apply keep_foldl | apply keep_foldl2 | apply keep_foldl3 | (fail_if_no_progress refine keep_mk rfl rfl rfl rfl rfl ?_) | refine keep_free rfl rfl rfl rfl rfl ?_)) | dsimp only | split)
theorem rateLower_keep (s : State) (n : ℕ) (h0 : Keep k s) :
    Keep k (rateLower s n) := by
  unfold rateLower
  repeat' (first | (with_reducible assumption) | (intro _) | (with_reducible (first | apply rateSet_keep)) | (with_reducible (first | apply keep_ite | apply keep_ite2 | apply keep_ite3 | apply keep_ite1 | apply keep_foldl | apply keep_foldl2 | apply keep_foldl3 | (fail_if_no_progress refine keep_mk rfl rfl rfl rfl rfl ?_) | refine keep_free rfl rfl rfl rfl rfl ?_)) | dsimp only | split)
theorem mcDisable_keep (s : State) (n : ℕ) (cause : ℕ) (step : ℕ) (event : Bool) (h0 : Keep k s) :
    Keep k (mcDisable s n cause step event) := by
  unfold mcDisable
  repeat' (first | (with_reducible assumption) | (intro _) | (with_reducible (first | apply fset_keep | apply alarmHw_keep | apply mcUpd_keep | apply jEvent_keep)) | (with_reducible (first | apply keep_ite | apply keep_ite2 | apply keep_ite3 | apply keep_ite1 | apply keep_foldl | apply keep_foldl2 | apply keep_foldl3 | (fail_if_no_progress refine keep_mk rfl rfl rfl rfl rfl ?_) | refine keep_free rfl rfl rfl rfl rfl ?_)) | dsimp only | split)
theorem actDisableGo_keep (n : ℕ) (dmc : Bool) (step : ℕ) (s : State) (h3 : Keep k s) :
    Keep k (actDisableGo n dmc step s) := by
  unfold actDisableGo
  repeat' (first | (with_reducible assumption) | (intro _) | (with_reducible (first | apply mcDisable_keep | apply rateLower_keep)) | (with_reducible (first | apply keep_ite | apply keep_ite2 | apply keep_ite3 | apply keep_ite1 | apply keep_foldl | apply keep_foldl2 | apply keep_foldl3 | (fail_if_no_progress refine keep_mk rfl rfl rfl rfl rfl ?_) | refine keep_free rfl rfl rfl rfl rfl ?_)) | dsimp only | split)
theorem opTrainingTimeLimit_keep (n : ℕ) (step : ℕ) (s : State) (h2 : Keep k s) :
    Keep k (opTrainingTimeLimit n step s) := by
  unfold opTrainingTimeLimit
  repeat' (first | (with_reducible assumption) | (intro _) | (with_reducible (first | apply mcDisable_keep | apply rateLower_keep)) | (with_reducible (first | apply keep_ite | apply keep_ite2 | apply keep_ite3 | apply keep_ite1 | apply keep_foldl | apply keep_foldl2 | apply keep_foldl3 | (fail_if_no_progress refine keep_mk rfl rfl rfl rfl rfl ?_) | refine keep_free rfl rfl rfl rfl rfl ?_)) | dsimp only | split)
theorem actMcErrClr_keep (n : ℕ) (s : State) (h1 : Keep k s) :
    Keep k (actMcErrClr n s) := by
  unfold actMcErrClr
  repeat' (first | (with_reducible assumption) | (intro _) | (with_reducible (first | apply fwipe_keep | apply csrWipe_keep)) | (with_reducible (first | apply keep_ite | apply keep_ite2 | apply keep_ite3 | apply keep_ite1 | apply keep_foldl | apply keep_foldl2 | apply keep_foldl3 | (fail_if_no_progress refine keep_mk rfl rfl rfl rfl rfl ?_) | refine keep_free rfl rfl rfl rfl rfl ?_)) | dsimp only | split)

end Sys2Proof.Machine
end

