-- ==== Sys2Proof/Laws/KeepNet.lean ====
section
/-! SUPPORT. The operations of Machine/Net.lean keep the queue, the counts that only rise, and `Inv`. -/

namespace Sys2Proof.Machine

set_option linter.unusedTactic false
set_option linter.unreachableTactic false
set_option linter.unusedVariables false

variable {k : KeepAt}

theorem respond_keep (s : State) (p : Packet) (r : Resp) (data : List Byte) (h0 : Keep k s) :
    Keep k (respond s p r data) := by
  unfold respond
  repeat' (first | (with_reducible assumption) | (intro _) | (with_reducible (first | apply keep_ite | apply keep_ite2 | apply keep_ite3 | apply keep_ite1 | apply keep_foldl | apply keep_foldl2 | apply keep_foldl3 | (fail_if_no_progress refine keep_mk rfl rfl rfl rfl rfl ?_) | refine keep_free rfl rfl rfl rfl rfl ?_)) | dsimp only | split)
theorem respondPart_keep (s : State) (p : Packet) (h0 : Keep k s) :
    Keep k (respondPart s p) := by
  unfold respondPart
  repeat' (first | (with_reducible assumption) | (intro _) | (with_reducible (first | apply respond_keep | apply finc_keep)) | (with_reducible (first | apply keep_ite | apply keep_ite2 | apply keep_ite3 | apply keep_ite1 | apply keep_foldl | apply keep_foldl2 | apply keep_foldl3 | (fail_if_no_progress refine keep_mk rfl rfl rfl rfl rfl ?_) | refine keep_free rfl rfl rfl rfl rfl ?_)) | dsimp only | split)
theorem injectNow_keep (s : State) (p : Packet) (h0 : Keep k s) :
    Keep k (injectNow s p).2 := by
  unfold injectNow
  repeat' (first | (with_reducible assumption) | (intro _) | (with_reducible (first | apply nicUpd_keep)) | (with_reducible (first | apply keep_ite | apply keep_ite2 | apply keep_ite3 | apply keep_ite1 | apply keep_foldl | apply keep_foldl2 | apply keep_foldl3 | (fail_if_no_progress refine keep_mk rfl rfl rfl rfl rfl ?_) | refine keep_free rfl rfl rfl rfl rfl ?_)) | dsimp only | split)
theorem takeNet_keep {s t : State} {p : Packet} (hf : takeNet s p = some t) (h : Keep k s) : Keep k t := by
  unfold takeNet at hf
  split at hf
  · cases hf
  · split at hf
    · split at hf
      · cases hf
        with_reducible refine keep_mk rfl rfl rfl rfl rfl ?_
        exact h
      · split at hf
        · cases hf
        · cases hf
          exact h
    · cases hf
      exact h
theorem inject_keep (s : State) (p : Packet) (h0 : Keep k s) :
    Keep k (inject s p).2 := by
  unfold inject
  repeat' (first | (with_reducible assumption) | (intro _) | (with_reducible (first | apply answer_keep | apply injectNow_keep)) | (with_reducible (first | apply keep_ite | apply keep_ite2 | apply keep_ite3 | apply keep_ite1 | apply keep_foldl | apply keep_foldl2 | apply keep_foldl3 | (fail_if_no_progress refine keep_mk rfl rfl rfl rfl rfl ?_) | refine keep_free rfl rfl rfl rfl rfl ?_)) | dsimp only | split)
theorem opPacketInject_keep (p : Packet) (s : State) (h1 : Keep k s) :
    Keep k (opPacketInject p s) := by
  unfold opPacketInject
  repeat' (first | (with_reducible assumption) | (intro _) | (with_reducible (first | apply inject_keep)) | (with_reducible (first | apply keep_ite | apply keep_ite2 | apply keep_ite3 | apply keep_ite1 | apply keep_foldl | apply keep_foldl2 | apply keep_foldl3 | (fail_if_no_progress refine keep_mk rfl rfl rfl rfl rfl ?_) | refine keep_free rfl rfl rfl rfl rfl ?_)) | dsimp only | split)
theorem nicReset_keep (s : State) (node : ℕ) (h0 : Keep k s) :
    Keep k (nicReset s node) := by
  unfold nicReset
  repeat' (first | (with_reducible assumption) | (intro _) | (with_reducible (first | apply nicUpd_keep)) | (with_reducible (first | apply keep_ite | apply keep_ite2 | apply keep_ite3 | apply keep_ite1 | apply keep_foldl | apply keep_foldl2 | apply keep_foldl3 | (fail_if_no_progress refine keep_mk rfl rfl rfl rfl rfl ?_) | refine keep_free rfl rfl rfl rfl rfl ?_)) | dsimp only | split)
theorem lateRsp_keep (s : State) (node : ℕ) (h0 : Keep k s) :
    Keep k (lateRsp s node) := by
  unfold lateRsp
  repeat' (first | (with_reducible assumption) | (intro _) | (with_reducible (first | apply finc_keep)) | (with_reducible (first | apply keep_ite | apply keep_ite2 | apply keep_ite3 | apply keep_ite1 | apply keep_foldl | apply keep_foldl2 | apply keep_foldl3 | (fail_if_no_progress refine keep_mk rfl rfl rfl rfl rfl ?_) | refine keep_free rfl rfl rfl rfl rfl ?_)) | dsimp only | split)
theorem deliver_keep (s : State) (p : Packet) (h0 : Keep k s) :
    Keep k (deliver s p) := by
  unfold deliver
  repeat' (first | (with_reducible assumption) | (intro _) | (with_reducible (first | apply nicUpd_keep | apply finc_keep | apply lateRsp_keep)) | (with_reducible (first | apply keep_ite | apply keep_ite2 | apply keep_ite3 | apply keep_ite1 | apply keep_foldl | apply keep_foldl2 | apply keep_foldl3 | (fail_if_no_progress refine keep_mk rfl rfl rfl rfl rfl ?_) | refine keep_free rfl rfl rfl rfl rfl ?_)) | dsimp only | split)
theorem opResponseArrive_keep (p : Packet) (s : State) (h1 : Keep k s) :
    Keep k (opResponseArrive p s) := by
  unfold opResponseArrive
  repeat' (first | (with_reducible assumption) | (intro _) | (with_reducible (first | apply lateRsp_keep | apply deliver_keep)) | (exact takeNet_keep (by with_reducible assumption) (by with_reducible assumption)) | (with_reducible (first | apply keep_ite | apply keep_ite2 | apply keep_ite3 | apply keep_ite1 | apply keep_foldl | apply keep_foldl2 | apply keep_foldl3 | (fail_if_no_progress refine keep_mk rfl rfl rfl rfl rfl ?_) | refine keep_free rfl rfl rfl rfl rfl ?_)) | dsimp only | split)
theorem pcieSeen_keep (s : State) (c : ℕ) (k0 : ℕ) (r : Resp) (h0 : Keep k s) :
    Keep k (pcieSeen s c k0 r).2 := by
  unfold pcieSeen
  repeat' (first | (with_reducible assumption) | (intro _) | (with_reducible (first | apply finc_keep)) | (with_reducible (first | apply keep_ite | apply keep_ite2 | apply keep_ite3 | apply keep_ite1 | apply keep_foldl | apply keep_foldl2 | apply keep_foldl3 | (fail_if_no_progress refine keep_mk rfl rfl rfl rfl rfl ?_) | refine keep_free rfl rfl rfl rfl rfl ?_)) | dsimp only | split)
theorem opResponseTake_keep (node : ℕ) (id : ℕ) (s : State) (h2 : Keep k s) :
    Keep k (opResponseTake node id s) := by
  unfold opResponseTake
  repeat' (first | (with_reducible assumption) | (intro _) | (with_reducible (first | apply nicUpd_keep | apply pcieSeen_keep | apply answerBytes_keep)) | (with_reducible (first | apply keep_ite | apply keep_ite2 | apply keep_ite3 | apply keep_ite1 | apply keep_foldl | apply keep_foldl2 | apply keep_foldl3 | (fail_if_no_progress refine keep_mk rfl rfl rfl rfl rfl ?_) | refine keep_free rfl rfl rfl rfl rfl ?_)) | dsimp only | split)
theorem opRspTimeout_keep (node : ℕ) (id : ℕ) (s : State) (h2 : Keep k s) :
    Keep k (opRspTimeout node id s) := by
  unfold opRspTimeout
  repeat' (first | (with_reducible assumption) | (intro _) | (with_reducible (first | apply finc_keep | apply nicUpd_keep | apply answer_keep)) | (with_reducible (first | apply keep_ite | apply keep_ite2 | apply keep_ite3 | apply keep_ite1 | apply keep_foldl | apply keep_foldl2 | apply keep_foldl3 | (fail_if_no_progress refine keep_mk rfl rfl rfl rfl rfl ?_) | refine keep_free rfl rfl rfl rfl rfl ?_)) | dsimp only | split)
theorem opRsvReturn_keep (node : ℕ) (id : ℕ) (s : State) (h2 : Keep k s) :
    Keep k (opRsvReturn node id s) := by
  unfold opRsvReturn
  repeat' (first | (with_reducible assumption) | (intro _) | (with_reducible (first | apply nicUpd_keep)) | (with_reducible (first | apply keep_ite | apply keep_ite2 | apply keep_ite3 | apply keep_ite1 | apply keep_foldl | apply keep_foldl2 | apply keep_foldl3 | (fail_if_no_progress refine keep_mk rfl rfl rfl rfl rfl ?_) | refine keep_free rfl rfl rfl rfl rfl ?_)) | dsimp only | split)
theorem opStagedDrain_keep (n : ℕ) (s : State) (h1 : Keep k s) :
    Keep k (opStagedDrain n s) := by
  unfold opStagedDrain
  repeat' (first | (with_reducible assumption) | (intro _) | (with_reducible (first | apply engUpd_keep | apply inject_keep | apply finc_keep)) | (with_reducible (first | apply keep_ite | apply keep_ite2 | apply keep_ite3 | apply keep_ite1 | apply keep_foldl | apply keep_foldl2 | apply keep_foldl3 | (fail_if_no_progress refine keep_mk rfl rfl rfl rfl rfl ?_) | refine keep_free rfl rfl rfl rfl rfl ?_)) | dsimp only | split)

end Sys2Proof.Machine
end

