-- ==== Sys2Proof/Laws/KeepMemSec.lean ====
section
/-! SUPPORT. The operations of Machine/MemSec.lean keep the queue, the counts that only rise, and `Inv`. -/

namespace Sys2Proof.Machine

set_option linter.unusedTactic false
set_option linter.unreachableTactic false
set_option linter.unusedVariables false

variable {k : KeepAt}

theorem secAlarm_keep (s : State) (cause : ℕ) (part : ℕ) (addr : ℕ) (h0 : Keep k s) :
    Keep k (secAlarm s cause part addr) := by
  unfold secAlarm
  repeat' (first | (with_reducible assumption) | (intro _) | (with_reducible (first | apply fset_keep | apply fflag_keep | apply alarm_keep | apply finc_keep | apply secUpd_keep | apply partUpd_keep)) | (with_reducible (first | apply keep_ite | apply keep_ite2 | apply keep_ite3 | apply keep_ite1 | apply keep_foldl | apply keep_foldl2 | apply keep_foldl3 | (fail_if_no_progress refine keep_mk rfl rfl rfl rfl rfl ?_) | refine keep_free rfl rfl rfl rfl rfl ?_)) | dsimp only | split)
theorem lineLoad_keep (s : State) (ln : ℕ) (h0 : Keep k s) :
    Keep k (lineLoad s ln).2.2 := by
  unfold lineLoad
  repeat' (first | (with_reducible assumption) | (intro _) | (with_reducible (first | apply mcLoad_keep)) | (with_reducible (first | apply keep_ite | apply keep_ite2 | apply keep_ite3 | apply keep_ite1 | apply keep_foldl | apply keep_foldl2 | apply keep_foldl3 | (fail_if_no_progress refine keep_mk rfl rfl rfl rfl rfl ?_) | refine keep_free rfl rfl rfl rfl rfl ?_)) | dsimp only | split)
theorem lineStore_keep (s : State) (ln : ℕ) (d : BitVec 512) (h0 : Keep k s) :
    Keep k (lineStore s ln d) := by
  unfold lineStore
  repeat' (first | (with_reducible assumption) | (intro _) | (with_reducible (first | apply mcStore_keep)) | (with_reducible (first | apply keep_ite | apply keep_ite2 | apply keep_ite3 | apply keep_ite1 | apply keep_foldl | apply keep_foldl2 | apply keep_foldl3 | (fail_if_no_progress refine keep_mk rfl rfl rfl rfl rfl ?_) | refine keep_free rfl rfl rfl rfl rfl ?_)) | dsimp only | split)
theorem tagLoad_keep (s : State) (a : ℕ) (h0 : Keep k s) :
    Keep k (tagLoad s a).2.2 := by
  unfold tagLoad
  repeat' (first | (with_reducible assumption) | (intro _) | (with_reducible (first | apply lineLoad_keep)) | (with_reducible (first | apply keep_ite | apply keep_ite2 | apply keep_ite3 | apply keep_ite1 | apply keep_foldl | apply keep_foldl2 | apply keep_foldl3 | (fail_if_no_progress refine keep_mk rfl rfl rfl rfl rfl ?_) | refine keep_free rfl rfl rfl rfl rfl ?_)) | dsimp only | split)
theorem tagStore_keep (s : State) (a : ℕ) (t : BitVec 64) (h0 : Keep k s) :
    Keep k (tagStore s a t).2 := by
  unfold tagStore
  repeat' (first | (with_reducible assumption) | (intro _) | (with_reducible (first | apply lineLoad_keep | apply lineStore_keep)) | (with_reducible (first | apply keep_ite | apply keep_ite2 | apply keep_ite3 | apply keep_ite1 | apply keep_foldl | apply keep_foldl2 | apply keep_foldl3 | (fail_if_no_progress refine keep_mk rfl rfl rfl rfl rfl ?_) | refine keep_free rfl rfl rfl rfl rfl ?_)) | dsimp only | split)
theorem tagPut_keep (s : State) (a : ℕ) (t : BitVec 64) (h0 : Keep k s) :
    Keep k (tagPut s a t) := by
  unfold tagPut
  repeat' (first | (with_reducible assumption) | (intro _) | (with_reducible (first | apply lineLoad_keep | apply lineStore_keep)) | (with_reducible (first | apply keep_ite | apply keep_ite2 | apply keep_ite3 | apply keep_ite1 | apply keep_foldl | apply keep_foldl2 | apply keep_foldl3 | (fail_if_no_progress refine keep_mk rfl rfl rfl rfl rfl ?_) | refine keep_free rfl rfl rfl rfl rfl ?_)) | dsimp only | split)
theorem psClear_keep (s : State) (j : ℕ) (h0 : Keep k s) :
    Keep k (psClear s j) := by
  unfold psClear
  repeat' (first | (with_reducible assumption) | (intro _) | (with_reducible (first | apply freset_keep)) | (with_reducible (first | apply keep_ite | apply keep_ite2 | apply keep_ite3 | apply keep_ite1 | apply keep_foldl | apply keep_foldl2 | apply keep_foldl3 | (fail_if_no_progress refine keep_mk rfl rfl rfl rfl rfl ?_) | refine keep_free rfl rfl rfl rfl rfl ?_)) | dsimp only | split)
theorem psSet_keep (s : State) (j : ℕ) (k0 : ℕ) (i : ℕ) (h0 : Keep k s) :
    Keep k (psSet s j k0 i) := by
  unfold psSet
  repeat' (first | (with_reducible assumption) | (intro _) | (with_reducible (first | apply fflag_keep | apply fset_keep)) | (with_reducible (first | apply keep_ite | apply keep_ite2 | apply keep_ite3 | apply keep_ite1 | apply keep_foldl | apply keep_foldl2 | apply keep_foldl3 | (fail_if_no_progress refine keep_mk rfl rfl rfl rfl rfl ?_) | refine keep_free rfl rfl rfl rfl rfl ?_)) | dsimp only | split)
theorem psRemove_keep (s : State) (k0 : ℕ) (i : ℕ) (h0 : Keep k s) :
    Keep k (psRemove s k0 i) := by
  unfold psRemove
  repeat' (first | (with_reducible assumption) | (intro _) | (with_reducible (first | apply psClear_keep)) | (with_reducible (first | apply keep_ite | apply keep_ite2 | apply keep_ite3 | apply keep_ite1 | apply keep_foldl | apply keep_foldl2 | apply keep_foldl3 | (fail_if_no_progress refine keep_mk rfl rfl rfl rfl rfl ?_) | refine keep_free rfl rfl rfl rfl rfl ?_)) | dsimp only | split)
theorem cachePut_keep (s : State) (k0 : ℕ) (i : ℕ) (c : Option CacheEnt) (h0 : Keep k s) :
    Keep k (cachePut s k0 i c) := by
  unfold cachePut
  repeat' (first | (with_reducible assumption) | (intro _) | (with_reducible (first | apply secUpd_keep)) | (with_reducible (first | apply keep_ite | apply keep_ite2 | apply keep_ite3 | apply keep_ite1 | apply keep_foldl | apply keep_foldl2 | apply keep_foldl3 | (fail_if_no_progress refine keep_mk rfl rfl rfl rfl rfl ?_) | refine keep_free rfl rfl rfl rfl rfl ?_)) | dsimp only | split)
theorem cacheDrop_keep (s : State) (k0 : ℕ) (i : ℕ) (h0 : Keep k s) :
    Keep k (cacheDrop s k0 i) := by
  unfold cacheDrop
  repeat' (first | (with_reducible assumption) | (intro _) | (with_reducible (first | apply secUpd_keep)) | (with_reducible (first | apply keep_ite | apply keep_ite2 | apply keep_ite3 | apply keep_ite1 | apply keep_foldl | apply keep_foldl2 | apply keep_foldl3 | (fail_if_no_progress refine keep_mk rfl rfl rfl rfl rfl ?_) | refine keep_free rfl rfl rfl rfl rfl ?_)) | dsimp only | split)
theorem poisonSpan_keep (s : State) (k0 : ℕ) (i : ℕ) (cause : ℕ) (addr : ℕ) (h0 : Keep k s) :
    Keep k (poisonSpan s k0 i cause addr) := by
  unfold poisonSpan
  with_reducible refine keep_ite ?_ ?_
  · intro _
    exact cacheDrop_keep _ _ _ (secAlarm_keep _ _ _ _ h0)
  · intro _
    have h1 := cacheDrop_keep (secAlarm s cause 0x1F addr) k0 i (secAlarm_keep _ cause 0x1F addr h0)
    generalize cacheDrop (secAlarm s cause 0x1F addr) k0 i = t at h1
    dsimp only
    split
    · exact psSet_keep _ _ _ _ (psRemove_keep _ _ _ h1)
    · exact secAlarm_keep _ _ _ _ (fflag_keep _ _ _ _ (psRemove_keep _ _ _ h1))
theorem setFloor_keep (s : State) (lo : Fld) (hi : Fld) (v : ℕ) (h0 : Keep k s) :
    Keep k (setFloor s lo hi v) := by
  unfold setFloor
  repeat' (first | (with_reducible assumption) | (intro _) | (with_reducible (first | apply fset_keep)) | (with_reducible (first | apply keep_ite | apply keep_ite2 | apply keep_ite3 | apply keep_ite1 | apply keep_foldl | apply keep_foldl2 | apply keep_foldl3 | (fail_if_no_progress refine keep_mk rfl rfl rfl rfl rfl ?_) | refine keep_free rfl rfl rfl rfl rfl ?_)) | dsimp only | split)
theorem parentSet_keep (s : State) (k0 : ℕ) (i : ℕ) (e : Bool) (ctr : ℕ) (h0 : Keep k s) :
    Keep k (parentSet s k0 i e ctr) := by
  unfold parentSet
  repeat' (first | (with_reducible assumption) | (intro _) | (with_reducible (first | apply secUpd_keep | apply cachePut_keep)) | (with_reducible (first | apply keep_ite | apply keep_ite2 | apply keep_ite3 | apply keep_ite1 | apply keep_foldl | apply keep_foldl2 | apply keep_foldl3 | (fail_if_no_progress refine keep_mk rfl rfl rfl rfl rfl ?_) | refine keep_free rfl rfl rfl rfl rfl ?_)) | dsimp only | split)
theorem cacheUse_keep (s : State) (k0 : ℕ) (i : ℕ) (c : CacheEnt) (h0 : Keep k s) :
    Keep k (cacheUse s k0 i c).2.2 := by
  unfold cacheUse
  repeat' (first | (with_reducible assumption) | (intro _) | (with_reducible (first | apply faddSat_keep | apply finc_keep | apply poisonSpan_keep | apply cachePut_keep)) | (with_reducible (first | apply keep_ite | apply keep_ite2 | apply keep_ite3 | apply keep_ite1 | apply keep_foldl | apply keep_foldl2 | apply keep_foldl3 | (fail_if_no_progress refine keep_mk rfl rfl rfl rfl rfl ?_) | refine keep_free rfl rfl rfl rfl rfl ?_)) | dsimp only | split)
theorem loadEnt_keep (s : State) (k0 : ℕ) (i : ℕ) (e : Bool) (ctr : ℕ) (h0 : Keep k s) :
    Keep k (loadEnt s k0 i e ctr).2 := by
  unfold loadEnt
  repeat' (first | (with_reducible assumption) | (intro _) | (with_reducible (first | apply lineLoad_keep | apply tagLoad_keep | apply poisonSpan_keep | apply finc_keep)) | (with_reducible (first | apply keep_ite | apply keep_ite2 | apply keep_ite3 | apply keep_ite1 | apply keep_foldl | apply keep_foldl2 | apply keep_foldl3 | (fail_if_no_progress refine keep_mk rfl rfl rfl rfl rfl ?_) | refine keep_free rfl rfl rfl rfl rfl ?_)) | dsimp only | split)
theorem parentUse_keep (s : State) (k0 : ℕ) (i : ℕ) (h0 : Keep k s) :
    Keep k (parentUse s k0 i) := by
  unfold parentUse
  repeat' (first | (with_reducible assumption) | (intro _) | (with_reducible (first | apply cacheUse_keep | apply loadEnt_keep | apply cachePut_keep)) | (with_reducible (first | apply keep_ite | apply keep_ite2 | apply keep_ite3 | apply keep_ite1 | apply keep_foldl | apply keep_foldl2 | apply keep_foldl3 | (fail_if_no_progress refine keep_mk rfl rfl rfl rfl rfl ?_) | refine keep_free rfl rfl rfl rfl rfl ?_)) | dsimp only | split)
theorem writeBack_keep (s : State) (k0 : ℕ) (i : ℕ) (h0 : Keep k s) :
    Keep k (writeBack s k0 i) := by
  unfold writeBack
  repeat' (first | (with_reducible assumption) | (intro _) | (with_reducible (first | apply parentUse_keep | apply cacheUse_keep | apply poisonSpan_keep | apply cachePut_keep | apply parentSet_keep | apply setFloor_keep | apply lineStore_keep | apply tagStore_keep | apply finc_keep)) | (with_reducible (first | apply keep_ite | apply keep_ite2 | apply keep_ite3 | apply keep_ite1 | apply keep_foldl | apply keep_foldl2 | apply keep_foldl3 | (fail_if_no_progress refine keep_mk rfl rfl rfl rfl rfl ?_) | refine keep_free rfl rfl rfl rfl rfl ?_)) | dsimp only | split)
theorem evict_keep (s : State) (keep : ℕ) (h0 : Keep k s) :
    Keep k (evict s keep) := by
  unfold evict
  repeat' (first | (with_reducible assumption) | (intro _) | (with_reducible (first | apply cachePut_keep | apply writeBack_keep)) | (with_reducible (first | apply keep_ite | apply keep_ite2 | apply keep_ite3 | apply keep_ite1 | apply keep_foldl | apply keep_foldl2 | apply keep_foldl3 | (fail_if_no_progress refine keep_mk rfl rfl rfl rfl rfl ?_) | refine keep_free rfl rfl rfl rfl rfl ?_)) | dsimp only | split)
theorem fillEnt_keep (s : State) (k0 : ℕ) (i : ℕ) (e : Bool) (ctr : ℕ) (h0 : Keep k s) :
    Keep k (fillEnt s k0 i e ctr).2 := by
  unfold fillEnt
  repeat' (first | (with_reducible assumption) | (intro _) | (with_reducible (first | apply loadEnt_keep | apply evict_keep | apply cachePut_keep)) | (with_reducible (first | apply keep_ite | apply keep_ite2 | apply keep_ite3 | apply keep_ite1 | apply keep_foldl | apply keep_foldl2 | apply keep_foldl3 | (fail_if_no_progress refine keep_mk rfl rfl rfl rfl rfl ?_) | refine keep_free rfl rfl rfl rfl rfl ?_)) | dsimp only | split)
theorem fetch_keep (x0 : ℕ) (x1 : State) (x2 : ℕ) (x3 : ℕ) (h1 : Keep k x1) :
    Keep k (fetch x0 x1 x2 x3).2 := by
  induction x0 generalizing x1 x2 x3 with
  | zero => exact h1
  | succ n ih =>
    have hp : ∀ s : State, Keep k s → Keep k (if x2 = winDepth s then (some (0 : BitVec 512), s) else fetch n s (x2 + 1) (x3 / 8)).2 := by
      intro s hs
      split
      · exact hs
      · exact ih _ _ _ hs
    have hv : ∀ s : State, Keep k s → Keep k (match (if x2 = winDepth s then (some (0 : BitVec 512), s) else fetch n s (x2 + 1) (x3 / 8)).1 with
        | none => ((none : Option (BitVec 512)), (if x2 = winDepth s then (some (0 : BitVec 512), s) else fetch n s (x2 + 1) (x3 / 8)).2)
        | some _ => match parentGet (if x2 = winDepth s then (some (0 : BitVec 512), s) else fetch n s (x2 + 1) (x3 / 8)).2 x2 x3 with
          | none => (none, (if x2 = winDepth s then (some (0 : BitVec 512), s) else fetch n s (x2 + 1) (x3 / 8)).2)
          | some (e, ctr) => fillEnt (if x2 = winDepth s then (some (0 : BitVec 512), s) else fetch n s (x2 + 1) (x3 / 8)).2 x2 x3 e ctr).2 := by
      intro s hs
      have h := hp s hs
      generalize (if x2 = winDepth s then (some (0 : BitVec 512), s) else fetch n s (x2 + 1) (x3 / 8)) = u at h
      split
      · exact h
      · split
        · exact h
        · exact fillEnt_keep _ _ _ _ _ h
    unfold fetch
    dsimp only
    split
    · exact hv _ h1
    · have hc := cacheUse_keep x1 x2 x3 ‹CacheEnt› h1
      split
      · exact hv _ hc
      · exact hc
theorem fetchEnt_keep (s : State) (k0 : ℕ) (i : ℕ) (h0 : Keep k s) :
    Keep k (fetchEnt s k0 i).2 := by
  unfold fetchEnt
  repeat' (first | (with_reducible assumption) | (intro _) | (with_reducible (first | apply fetch_keep)) | (with_reducible (first | apply keep_ite | apply keep_ite2 | apply keep_ite3 | apply keep_ite1 | apply keep_foldl | apply keep_foldl2 | apply keep_foldl3 | (fail_if_no_progress refine keep_mk rfl rfl rfl rfl rfl ?_) | refine keep_free rfl rfl rfl rfl rfl ?_)) | dsimp only | split)
theorem blockOf_keep (s : State) (p : ℕ) (h0 : Keep k s) :
    Keep k (blockOf s p).2 := by
  unfold blockOf
  repeat' (first | (with_reducible assumption) | (intro _) | (with_reducible (first | apply fetchEnt_keep)) | (with_reducible (first | apply keep_ite | apply keep_ite2 | apply keep_ite3 | apply keep_ite1 | apply keep_foldl | apply keep_foldl2 | apply keep_foldl3 | (fail_if_no_progress refine keep_mk rfl rfl rfl rfl rfl ?_) | refine keep_free rfl rfl rfl rfl rfl ?_)) | dsimp only | split)
theorem blockPut_keep (s : State) (p : ℕ) (d : BitVec 512) (h0 : Keep k s) :
    Keep k (blockPut s p d) := by
  unfold blockPut
  repeat' (first | (with_reducible assumption) | (intro _) | (with_reducible (first | apply cachePut_keep)) | (with_reducible (first | apply keep_ite | apply keep_ite2 | apply keep_ite3 | apply keep_ite1 | apply keep_foldl | apply keep_foldl2 | apply keep_foldl3 | (fail_if_no_progress refine keep_mk rfl rfl rfl rfl rfl ?_) | refine keep_free rfl rfl rfl rfl rfl ?_)) | dsimp only | split)
theorem emptyEnt_keep (s : State) (k0 : ℕ) (i : ℕ) (h0 : Keep k s) :
    Keep k (emptyEnt s k0 i) := by
  unfold emptyEnt
  repeat' (first | (with_reducible assumption) | (intro _) | (with_reducible (first | apply fetchEnt_keep | apply poisonSpan_keep | apply cacheDrop_keep | apply setFloor_keep | apply parentSet_keep)) | (with_reducible (first | apply keep_ite | apply keep_ite2 | apply keep_ite3 | apply keep_ite1 | apply keep_foldl | apply keep_foldl2 | apply keep_foldl3 | (fail_if_no_progress refine keep_mk rfl rfl rfl rfl rfl ?_) | refine keep_free rfl rfl rfl rfl rfl ?_)) | dsimp only | split)
theorem winDecide_keep (s : State) (ln : ℕ) (blk : BitVec 512) (h0 : Keep k s) :
    Keep k (winDecide s ln blk).2.2 := by
  unfold winDecide
  repeat' (first | (with_reducible assumption) | (intro _) | (with_reducible (first | apply lineLoad_keep | apply tagLoad_keep)) | (with_reducible (first | apply keep_ite | apply keep_ite2 | apply keep_ite3 | apply keep_ite1 | apply keep_foldl | apply keep_foldl2 | apply keep_foldl3 | (fail_if_no_progress refine keep_mk rfl rfl rfl rfl rfl ?_) | refine keep_free rfl rfl rfl rfl rfl ?_)) | dsimp only | split)
theorem readLine_keep (s : State) (ln : ℕ) (h0 : Keep k s) :
    Keep k (readLine s ln).2 := by
  unfold readLine
  repeat' (first | (with_reducible assumption) | (intro _) | (with_reducible (first | apply blockOf_keep | apply winDecide_keep | apply finc_keep | apply lineLoad_keep)) | (with_reducible (first | apply keep_ite | apply keep_ite2 | apply keep_ite3 | apply keep_ite1 | apply keep_foldl | apply keep_foldl2 | apply keep_foldl3 | (fail_if_no_progress refine keep_mk rfl rfl rfl rfl rfl ?_) | refine keep_free rfl rfl rfl rfl rfl ?_)) | dsimp only | split)
theorem putSealed_keep (s : State) (ln : ℕ) (ks : KeySet) (minor : ℕ) (d : BitVec 512) (h0 : Keep k s) :
    Keep k (putSealed s ln ks minor d).2 := by
  unfold putSealed
  repeat' (first | (with_reducible assumption) | (intro _) | (with_reducible (first | apply tagStore_keep | apply lineStore_keep)) | (with_reducible (first | apply keep_ite | apply keep_ite2 | apply keep_ite3 | apply keep_ite1 | apply keep_foldl | apply keep_foldl2 | apply keep_foldl3 | (fail_if_no_progress refine keep_mk rfl rfl rfl rfl rfl ?_) | refine keep_free rfl rfl rfl rfl rfl ?_)) | dsimp only | split)
theorem writeLine_keep (s : State) (ln : ℕ) (d : BitVec 512) (h0 : Keep k s) :
    Keep k (writeLine s ln d).2 := by
  unfold writeLine
  repeat' (first | (with_reducible assumption) | (intro _) | (with_reducible (first | apply blockOf_keep | apply setFloor_keep | apply blockPut_keep | apply putSealed_keep | apply lineStore_keep)) | (with_reducible (first | apply keep_ite | apply keep_ite2 | apply keep_ite3 | apply keep_ite1 | apply keep_foldl | apply keep_foldl2 | apply keep_foldl3 | (fail_if_no_progress refine keep_mk rfl rfl rfl rfl rfl ?_) | refine keep_free rfl rfl rfl rfl rfl ?_)) | dsimp only | split)
theorem poisonLine_keep (s : State) (ln : ℕ) (h0 : Keep k s) :
    Keep k (poisonLine s ln) := by
  unfold poisonLine
  repeat' (first | (with_reducible assumption) | (intro _) | (with_reducible (first | apply blockOf_keep | apply lineLoad_keep | apply finc_keep | apply tagStore_keep)) | (with_reducible (first | apply keep_ite | apply keep_ite2 | apply keep_ite3 | apply keep_ite1 | apply keep_foldl | apply keep_foldl2 | apply keep_foldl3 | (fail_if_no_progress refine keep_mk rfl rfl rfl rfl rfl ?_) | refine keep_free rfl rfl rfl rfl rfl ?_)) | dsimp only | split)
theorem readLines_keep (part : ℕ) (init : Bool) (x2 : List ℕ) (x3 : State) (h3 : Keep k x3) :
    Keep k (readLines part init x2 x3).2 := by
  induction x2 generalizing x3 with
  | nil => exact h3
  | cons ln t ih =>
    unfold readLines
    dsimp only
    have hr : Keep k (if init = true then readLine x3 ln else (LineRd.never, x3)).2 := by
      split
      · exact readLine_keep _ _ h3
      · exact h3
    generalize (if init = true then readLine x3 ln else (LineRd.never, x3)) = r at hr
    apply ih
    split
    · exact secAlarm_keep _ _ _ _ hr
    · exact hr
theorem serveRead_keep (p : Packet) (init : Bool) (s : State) (h2 : Keep k s) :
    Keep k (serveRead p init s) := by
  unfold serveRead
  repeat' (first | (with_reducible assumption) | (intro _) | (with_reducible (first | apply readLines_keep | apply respond_keep)) | (with_reducible (first | apply keep_ite | apply keep_ite2 | apply keep_ite3 | apply keep_ite1 | apply keep_foldl | apply keep_foldl2 | apply keep_foldl3 | (fail_if_no_progress refine keep_mk rfl rfl rfl rfl rfl ?_) | refine keep_free rfl rfl rfl rfl rfl ?_)) | dsimp only | split)
theorem tagShut_keep {s t : State} {ln : Nat} (hf : tagShut s ln = some t) (h : Keep k s) : Keep k t := by
  unfold tagShut at hf
  dsimp only at hf
  repeat' split at hf
  all_goals first | contradiction | (cases hf; exact finc_keep _ _ _ (lineLoad_keep _ _ h)) | cases hf
theorem prepLine_keep (part : ℕ) (w : LineReq) (s : State) (h2 : Keep k s) :
    Keep k (prepLine part w s).2.2 := by
  unfold prepLine
  repeat' (first | (with_reducible assumption) | (intro _) | (with_reducible (first | apply hr | apply blockOf_keep | apply readLine_keep | apply poisonLine_keep | apply secAlarm_keep)) | (with_reducible (first | apply keep_ite3)) | dsimp only | split | refine tagShut_keep (by assumption) ?_)
theorem prepLines_keep (part : ℕ) (x1 : List LineReq) (x2 : State) (h2 : Keep k x2) :
    Keep k (prepLines part x1 x2).2.2 := by
  induction x1 generalizing x2 with
  | nil => exact h2
  | cons w t ih =>
    unfold prepLines
    exact ih _ (prepLine_keep _ _ _ h2)
theorem writeLines_keep (l : List (ℕ × BitVec 512)) (s : State) (h1 : Keep k s) :
    Keep k (writeLines l s) := by
  unfold writeLines
  repeat' (first | (with_reducible assumption) | (intro _) | (with_reducible (first | apply writeLine_keep)) | (with_reducible (first | apply keep_ite | apply keep_ite2 | apply keep_ite3 | apply keep_ite1 | apply keep_foldl | apply keep_foldl2 | apply keep_foldl3 | (fail_if_no_progress refine keep_mk rfl rfl rfl rfl rfl ?_) | refine keep_free rfl rfl rfl rfl rfl ?_)) | dsimp only | split)
theorem granUse_keep (s : State) (g : ℕ) (h0 : Keep k s) :
    Keep k (granUse s g).2 := by
  unfold granUse
  repeat' (first | (with_reducible assumption) | (intro _) | (with_reducible (first | apply secAlarm_keep | apply finc_keep | apply granSet_keep)) | (with_reducible (first | apply keep_ite | apply keep_ite2 | apply keep_ite3 | apply keep_ite1 | apply keep_foldl | apply keep_foldl2 | apply keep_foldl3 | (fail_if_no_progress refine keep_mk rfl rfl rfl rfl rfl ?_) | refine keep_free rfl rfl rfl rfl rfl ?_)) | dsimp only | split)
theorem fillHold_keep (s : State) (g : ℕ) (p : Packet) (h0 : Keep k s) :
    Keep k (fillHold s g p) := by
  unfold fillHold
  repeat' (first | (with_reducible assumption) | (intro _) | (with_reducible (first | apply secUpd_keep)) | (with_reducible (first | apply keep_ite | apply keep_ite2 | apply keep_ite3 | apply keep_ite1 | apply keep_foldl | apply keep_foldl2 | apply keep_foldl3 | (fail_if_no_progress refine keep_mk rfl rfl rfl rfl rfl ?_) | refine keep_free rfl rfl rfl rfl rfl ?_)) | dsimp only | split)
theorem rekeyHold_keep (s : State) (pg : ℕ) (p : Packet) (h0 : Keep k s) :
    Keep k (rekeyHold s pg p) := by
  unfold rekeyHold
  repeat' (first | (with_reducible assumption) | (intro _) | (with_reducible (first | apply secUpd_keep)) | (with_reducible (first | apply keep_ite | apply keep_ite2 | apply keep_ite3 | apply keep_ite1 | apply keep_foldl | apply keep_foldl2 | apply keep_foldl3 | (fail_if_no_progress refine keep_mk rfl rfl rfl rfl rfl ?_) | refine keep_free rfl rfl rfl rfl rfl ?_)) | dsimp only | split)
theorem serveWrite_keep (p : Packet) (x : Gran) (s : State) (h2 : Keep k s) :
    Keep k (serveWrite p x s) := by
  unfold serveWrite
  repeat' (first | (with_reducible assumption) | (intro _) | (with_reducible (first | apply fillHold_keep | apply prepLines_keep | apply respond_keep | apply rekeyHold_keep | apply writeLines_keep)) | (with_reducible (first | apply keep_ite | apply keep_ite2 | apply keep_ite3 | apply keep_ite1 | apply keep_foldl | apply keep_foldl2 | apply keep_foldl3 | (fail_if_no_progress refine keep_mk rfl rfl rfl rfl rfl ?_) | refine keep_free rfl rfl rfl rfl rfl ?_)) | dsimp only | split)
theorem memLines_keep (p : Packet) (s : State) (h1 : Keep k s) :
    Keep k (memLines p s) := by
  unfold memLines
  repeat' (first | (with_reducible assumption) | (intro _) | (with_reducible (first | apply respond_keep | apply secUpd_keep | apply fillHold_keep | apply rekeyHold_keep | apply serveRead_keep | apply serveWrite_keep)) | (with_reducible (first | apply keep_ite | apply keep_ite2 | apply keep_ite3 | apply keep_ite1 | apply keep_foldl | apply keep_foldl2 | apply keep_foldl3 | (fail_if_no_progress refine keep_mk rfl rfl rfl rfl rfl ?_) | refine keep_free rfl rfl rfl rfl rfl ?_)) | dsimp only | split)
theorem memRequest_keep (p : Packet) (s : State) (h1 : Keep k s) :
    Keep k (memRequest p s) := by
  unfold memRequest
  repeat' (first | (with_reducible assumption) | (intro _) | (with_reducible (first | apply respond_keep | apply granUse_keep | apply memLines_keep)) | (with_reducible (first | apply keep_ite | apply keep_ite2 | apply keep_ite3 | apply keep_ite1 | apply keep_foldl | apply keep_foldl2 | apply keep_foldl3 | (fail_if_no_progress refine keep_mk rfl rfl rfl rfl rfl ?_) | refine keep_free rfl rfl rfl rfl rfl ?_)) | dsimp only | split)
theorem serveHeld_keep (l : List Packet) (s : State) (h1 : Keep k s) :
    Keep k (serveHeld l s) := by
  unfold serveHeld
  repeat' (first | (with_reducible assumption) | (intro _) | (with_reducible (first | apply memLines_keep)) | (with_reducible (first | apply keep_ite | apply keep_ite2 | apply keep_ite3 | apply keep_ite1 | apply keep_foldl | apply keep_foldl2 | apply keep_foldl3 | (fail_if_no_progress refine keep_mk rfl rfl rfl rfl rfl ?_) | refine keep_free rfl rfl rfl rfl rfl ?_)) | dsimp only | split)
theorem granApply_keep (w : GranWrite) (s : State) (h1 : Keep k s) :
    Keep k (granApply w s) := by
  unfold granApply
  repeat' (first | (with_reducible assumption) | (intro _) | (with_reducible (first | apply granSet_keep)) | (with_reducible (first | apply keep_ite | apply keep_ite2 | apply keep_ite3 | apply keep_ite1 | apply keep_foldl | apply keep_foldl2 | apply keep_foldl3 | (fail_if_no_progress refine keep_mk rfl rfl rfl rfl rfl ?_) | refine keep_free rfl rfl rfl rfl rfl ?_)) | dsimp only | split)
theorem granWrite_keep (w : GranWrite) (s : State) (h1 : Keep k s) :
    Keep k (granWrite w s) := by
  unfold granWrite
  repeat' (first | (with_reducible assumption) | (intro _) | (with_reducible (first | apply secUpd_keep | apply granApply_keep)) | (with_reducible (first | apply keep_ite | apply keep_ite2 | apply keep_ite3 | apply keep_ite1 | apply keep_foldl | apply keep_foldl2 | apply keep_foldl3 | (fail_if_no_progress refine keep_mk rfl rfl rfl rfl rfl ?_) | refine keep_free rfl rfl rfl rfl rfl ?_)) | dsimp only | split)
theorem granDue_keep (s : State) (h0 : Keep k s) :
    Keep k (granDue s) := by
  unfold granDue
  repeat' (first | (with_reducible assumption) | (intro _) | (with_reducible (first | apply granWrite_keep | apply secUpd_keep)) | (with_reducible (first | apply keep_ite | apply keep_ite2 | apply keep_ite3 | apply keep_ite1 | apply keep_foldl | apply keep_foldl2 | apply keep_foldl3 | (fail_if_no_progress refine keep_mk rfl rfl rfl rfl rfl ?_) | refine keep_free rfl rfl rfl rfl rfl ?_)) | dsimp only | split)
theorem zeroLines_keep (s : State) (g : ℕ) (h0 : Keep k s) :
    Keep k (zeroLines s g) := by
  unfold zeroLines
  repeat' (first | (with_reducible assumption) | (intro _) | (with_reducible (first | apply lineStore_keep)) | (with_reducible (first | apply keep_ite | apply keep_ite2 | apply keep_ite3 | apply keep_ite1 | apply keep_foldl | apply keep_foldl2 | apply keep_foldl3 | (fail_if_no_progress refine keep_mk rfl rfl rfl rfl rfl ?_) | refine keep_free rfl rfl rfl rfl rfl ?_)) | dsimp only | split)
theorem opZeroFillDone_keep (g : ℕ) (s : State) (h1 : Keep k s) :
    Keep k (opZeroFillDone g s) := by
  unfold opZeroFillDone
  repeat' (first | (with_reducible assumption) | (intro _) | (with_reducible (first | apply secUpd_keep | apply emptyEnt_keep | apply zeroLines_keep | apply granSet_keep | apply granDue_keep | apply serveHeld_keep | apply finc_keep)) | (with_reducible (first | apply keep_ite | apply keep_ite2 | apply keep_ite3 | apply keep_ite1 | apply keep_foldl | apply keep_foldl2 | apply keep_foldl3 | (fail_if_no_progress refine keep_mk rfl rfl rfl rfl rfl ?_) | refine keep_free rfl rfl rfl rfl rfl ?_)) | dsimp only | split)
theorem rekeyLine_keep (old : BitVec 512) (major : ℕ) (trig : List (ℕ × BitVec 512)) (ln : ℕ) (s : State) (h4 : Keep k s) :
    Keep k (rekeyLine old major trig ln s).2 := by
  unfold rekeyLine
  repeat' (first | (with_reducible assumption) | (intro _) | (with_reducible (first | apply winDecide_keep | apply secAlarm_keep | apply finc_keep)) | (with_reducible (first | apply keep_ite | apply keep_ite2 | apply keep_ite3 | apply keep_ite1 | apply keep_foldl | apply keep_foldl2 | apply keep_foldl3 | (fail_if_no_progress refine keep_mk rfl rfl rfl rfl rfl ?_) | refine keep_free rfl rfl rfl rfl rfl ?_)) | dsimp only | split)
theorem rekeyDecide_keep (old : BitVec 512) (major : ℕ) (trig : List (ℕ × BitVec 512)) (x3 : List ℕ) (x4 : State) (h4 : Keep k x4) :
    Keep k (rekeyDecide old major trig x3 x4).2 := by
  induction x3 generalizing x4 with
  | nil => exact h4
  | cons ln t ih =>
    unfold rekeyDecide
    exact ih _ (rekeyLine_keep _ _ _ _ _ h4)
theorem rekeyPage_keep (pn : ℕ) (trig : List (ℕ × BitVec 512)) (s : State) (h2 : Keep k s) :
    Keep k (rekeyPage pn trig s) := by
  unfold rekeyPage
  repeat' (first | (with_reducible assumption) | (intro _) | (with_reducible (first | apply blockOf_keep | apply setFloor_keep | apply rekeyDecide_keep | apply tagPut_keep | apply lineStore_keep | apply finc_keep | apply writeBack_keep | apply blockPut_keep)) | (with_reducible (first | apply keep_ite | apply keep_ite2 | apply keep_ite3 | apply keep_ite1 | apply keep_foldl | apply keep_foldl2 | apply keep_foldl3 | (fail_if_no_progress refine keep_mk rfl rfl rfl rfl rfl ?_) | refine keep_free rfl rfl rfl rfl rfl ?_)) | dsimp only | split)
theorem opRekeyDone_keep (pn : ℕ) (s : State) (h1 : Keep k s) :
    Keep k (opRekeyDone pn s) := by
  unfold opRekeyDone
  repeat' (first | (with_reducible assumption) | (intro _) | (with_reducible (first | apply secUpd_keep | apply prepLines_keep | apply granDue_keep | apply serveHeld_keep | apply respond_keep | apply blockOf_keep | apply rekeyPage_keep | apply writeLines_keep)) | (with_reducible (first | apply keep_ite | apply keep_ite2 | apply keep_ite3 | apply keep_ite1 | apply keep_foldl | apply keep_foldl2 | apply keep_foldl3 | (fail_if_no_progress refine keep_mk rfl rfl rfl rfl rfl ?_) | refine keep_free rfl rfl rfl rfl rfl ?_)) | dsimp only | split)
theorem resetSpan_keep (k0 : ℕ) (i : ℕ) (s : State) (h2 : Keep k s) :
    Keep k (resetSpan k0 i s) := by
  unfold resetSpan
  repeat' (first | (with_reducible assumption) | (intro _) | (with_reducible (first | apply emptyEnt_keep | apply psClear_keep | apply fflag_keep | apply psRemove_keep)) | (with_reducible (first | apply keep_ite | apply keep_ite2 | apply keep_ite3 | apply keep_ite1 | apply keep_foldl | apply keep_foldl2 | apply keep_foldl3 | (fail_if_no_progress refine keep_mk rfl rfl rfl rfl rfl ?_) | refine keep_free rfl rfl rfl rfl rfl ?_)) | dsimp only | split)
theorem opSubtreeResetDone_keep (s : State) (h0 : Keep k s) :
    Keep k (opSubtreeResetDone s) := by
  unfold opSubtreeResetDone
  repeat' (first | (with_reducible assumption) | (intro _) | (with_reducible (first | apply granDue_keep | apply serveHeld_keep | apply resetSpan_keep | apply secUpd_keep)) | (with_reducible (first | apply keep_ite | apply keep_ite2 | apply keep_ite3 | apply keep_ite1 | apply keep_foldl | apply keep_foldl2 | apply keep_foldl3 | (fail_if_no_progress refine keep_mk rfl rfl rfl rfl rfl ?_) | refine keep_free rfl rfl rfl rfl rfl ?_)) | dsimp only | split)
theorem opGtRestore_keep (g : ℕ) (s : State) (h1 : Keep k s) :
    Keep k (opGtRestore g s) := by
  unfold opGtRestore
  repeat' (first | (with_reducible assumption) | (intro _) | (with_reducible (first | apply granWrite_keep)) | (with_reducible (first | apply keep_ite | apply keep_ite2 | apply keep_ite3 | apply keep_ite1 | apply keep_foldl | apply keep_foldl2 | apply keep_foldl3 | (fail_if_no_progress refine keep_mk rfl rfl rfl rfl rfl ?_) | refine keep_free rfl rfl rfl rfl rfl ?_)) | dsimp only | split)
theorem zeroize_keep (s : State) (g : ℕ) (h0 : Keep k s) :
    Keep k (zeroize s g) := by
  unfold zeroize
  repeat' (first | (with_reducible assumption) | (intro _) | (with_reducible (first | apply granWrite_keep)) | (with_reducible (first | apply keep_ite | apply keep_ite2 | apply keep_ite3 | apply keep_ite1 | apply keep_foldl | apply keep_foldl2 | apply keep_foldl3 | (fail_if_no_progress refine keep_mk rfl rfl rfl rfl rfl ?_) | refine keep_free rfl rfl rfl rfl rfl ?_)) | dsimp only | split)
theorem opPatrolStep_keep (n : ℕ) (s : State) (h1 : Keep k s) :
    Keep k (opPatrolStep n s) := by
  unfold opPatrolStep
  repeat' (first | (with_reducible assumption) | (intro _) | (with_reducible (first | apply patrolRead_keep | apply granUse_keep | apply poisonSpan_keep | apply finc_keep)) | (with_reducible (first | apply keep_ite | apply keep_ite2 | apply keep_ite3 | apply keep_ite1 | apply keep_foldl | apply keep_foldl2 | apply keep_foldl3 | (fail_if_no_progress refine keep_mk rfl rfl rfl rfl rfl ?_) | refine keep_free rfl rfl rfl rfl rfl ?_)) | dsimp only | split)
theorem markMeta_keep (s : State) (h0 : Keep k s) :
    Keep k (markMeta s) := by
  unfold markMeta
  repeat' (first | (with_reducible assumption) | (intro _) | (with_reducible (first | apply secUpd_keep)) | (with_reducible (first | apply keep_ite | apply keep_ite2 | apply keep_ite3 | apply keep_ite1 | apply keep_foldl | apply keep_foldl2 | apply keep_foldl3 | (fail_if_no_progress refine keep_mk rfl rfl rfl rfl rfl ?_) | refine keep_free rfl rfl rfl rfl rfl ?_)) | dsimp only | split)
theorem winWrite_keep (v : Word) (s : State) (h1 : Keep k s) :
    Keep k (winWrite v s) := by
  unfold winWrite
  repeat' (first | (with_reducible assumption) | (intro _) | (with_reducible (first | apply fflag_keep | apply fset_keep | apply markMeta_keep)) | (with_reducible (first | apply keep_ite | apply keep_ite2 | apply keep_ite3 | apply keep_ite1 | apply keep_foldl | apply keep_foldl2 | apply keep_foldl3 | (fail_if_no_progress refine keep_mk rfl rfl rfl rfl rfl ?_) | refine keep_free rfl rfl rfl rfl rfl ?_)) | dsimp only | split)
theorem actSecClr_keep (s : State) (h0 : Keep k s) :
    Keep k (actSecClr s) := by
  unfold actSecClr
  repeat' (first | (with_reducible assumption) | (intro _) | (with_reducible (first | apply csrWipe_keep)) | (with_reducible (first | apply keep_ite | apply keep_ite2 | apply keep_ite3 | apply keep_ite1 | apply keep_foldl | apply keep_foldl2 | apply keep_foldl3 | (fail_if_no_progress refine keep_mk rfl rfl rfl rfl rfl ?_) | refine keep_free rfl rfl rfl rfl rfl ?_)) | dsimp only | split)
theorem actSecCntClr_keep (mask : ℕ) (s : State) (h1 : Keep k s) :
    Keep k (actSecCntClr mask s) := by
  unfold actSecCntClr
  repeat' (first | (with_reducible assumption) | (intro _) | (with_reducible (first | apply fclr_keep)) | (with_reducible (first | apply keep_ite | apply keep_ite2 | apply keep_ite3 | apply keep_ite1 | apply keep_foldl | apply keep_foldl2 | apply keep_foldl3 | (fail_if_no_progress refine keep_mk rfl rfl rfl rfl rfl ?_) | refine keep_free rfl rfl rfl rfl rfl ?_)) | dsimp only | split)

end Sys2Proof.Machine
end

