-- ==== Sys2Proof/Laws/KeepIsland.lean ====
section
/-! SUPPORT. The operations of Machine/Island.lean keep the queue, the counts that only rise, and `Inv`. -/

namespace Sys2Proof.Machine

set_option linter.unusedTactic false
set_option linter.unreachableTactic false
set_option linter.unusedVariables false

variable {k : KeepAt}

theorem setIslState_keep (s : State) (n : ℕ) (v : ℕ) (h0 : Keep k s) :
    Keep k (setIslState s n v) := by
  unfold setIslState
  repeat' (first | (with_reducible assumption) | (intro _) | (with_reducible (first | apply fset_keep)) | (with_reducible (first | apply keep_ite | apply keep_ite2 | apply keep_ite3 | apply keep_ite1 | apply keep_foldl | apply keep_foldl2 | apply keep_foldl3 | (fail_if_no_progress refine keep_mk rfl rfl rfl rfl rfl ?_) | refine keep_free rfl rfl rfl rfl rfl ?_)) | dsimp only | split)
theorem showHeld_keep (s : State) (n : ℕ) (h0 : Keep k s) :
    Keep k (showHeld s n) := by
  unfold showHeld
  repeat' (first | (with_reducible assumption) | (intro _) | (with_reducible (first | apply fset_keep)) | (with_reducible (first | apply keep_ite | apply keep_ite2 | apply keep_ite3 | apply keep_ite1 | apply keep_foldl | apply keep_foldl2 | apply keep_foldl3 | (fail_if_no_progress refine keep_mk rfl rfl rfl rfl rfl ?_) | refine keep_free rfl rfl rfl rfl rfl ?_)) | dsimp only | split)
theorem rqiDeliver_keep (n : ℕ) (p : Packet) (s : State) (h2 : Keep k s) :
    Keep k (rqiDeliver n p s) := by
  unfold rqiDeliver
  repeat' (first | (with_reducible assumption) | (intro _) | (with_reducible (first | apply respond_keep | apply finc_keep | apply nocUpd_keep)) | (with_reducible (first | apply keep_ite | apply keep_ite2 | apply keep_ite3 | apply keep_ite1 | apply keep_foldl | apply keep_foldl2 | apply keep_foldl3 | (fail_if_no_progress refine keep_mk rfl rfl rfl rfl rfl ?_) | refine keep_free rfl rfl rfl rfl rfl ?_)) | dsimp only | split)
theorem opIslandResponse_keep (n : ℕ) (resp : ℕ) (data : List Byte) (s : State) (h3 : Keep k s) :
    Keep k (opIslandResponse n resp data s) := by
  unfold opIslandResponse
  repeat' (first | (with_reducible assumption) | (intro _) | (with_reducible (first | apply nocUpd_keep | apply respond_keep)) | (with_reducible (first | apply keep_ite | apply keep_ite2 | apply keep_ite3 | apply keep_ite1 | apply keep_foldl | apply keep_foldl2 | apply keep_foldl3 | (fail_if_no_progress refine keep_mk rfl rfl rfl rfl rfl ?_) | refine keep_free rfl rfl rfl rfl rfl ?_)) | dsimp only | split)
theorem islEnterHold_keep (s : State) (n : ℕ) (h0 : Keep k s) :
    Keep k (islEnterHold s n) := by
  unfold islEnterHold
  repeat' (first | (with_reducible assumption) | (intro _) | (with_reducible (first | apply emptyIncoming_keep | apply freset_keep | apply islUpd_keep)) | (with_reducible (first | apply keep_ite | apply keep_ite2 | apply keep_ite3 | apply keep_ite1 | apply keep_foldl | apply keep_foldl2 | apply keep_foldl3 | (fail_if_no_progress refine keep_mk rfl rfl rfl rfl rfl ?_) | refine keep_free rfl rfl rfl rfl rfl ?_)) | dsimp only | split)
theorem islIsolate_keep (s : State) (n : ℕ) (h0 : Keep k s) :
    Keep k (islIsolate s n) := by
  unfold islIsolate
  repeat' (first | (with_reducible assumption) | (intro _) | (with_reducible (first | apply nicReset_keep | apply islEnterHold_keep | apply setIslState_keep | apply nocUpd_keep)) | (with_reducible (first | apply keep_ite | apply keep_ite2 | apply keep_ite3 | apply keep_ite1 | apply keep_foldl | apply keep_foldl2 | apply keep_foldl3 | (fail_if_no_progress refine keep_mk rfl rfl rfl rfl rfl ?_) | refine keep_free rfl rfl rfl rfl rfl ?_)) | dsimp only | split)
theorem islLoadRegs_keep (s : State) (n : ℕ) (h0 : Keep k s) :
    Keep k (islLoadRegs s n) := by
  unfold islLoadRegs
  repeat' (first | (with_reducible assumption) | (intro _) | (with_reducible (first | apply csrClear_keep | apply fset_keep | apply fflag_keep)) | (with_reducible (first | apply keep_ite | apply keep_ite2 | apply keep_ite3 | apply keep_ite1 | apply keep_foldl | apply keep_foldl2 | apply keep_foldl3 | (fail_if_no_progress refine keep_mk rfl rfl rfl rfl rfl ?_) | refine keep_free rfl rfl rfl rfl rfl ?_)) | dsimp only | split)
theorem islRelease_keep (s : State) (n : ℕ) (h0 : Keep k s) :
    Keep k (islRelease s n) := by
  unfold islRelease
  repeat' (first | (with_reducible assumption) | (intro _) | (with_reducible (first | apply ffLoad_keep | apply islLoadRegs_keep | apply bramLoadInit_keep | apply bramSet_keep | apply islUpd_keep | apply nocUpd_keep | apply setIslState_keep | apply showHeld_keep | apply rqiDeliver_keep)) | (with_reducible (first | apply keep_ite | apply keep_ite2 | apply keep_ite3 | apply keep_ite1 | apply keep_foldl | apply keep_foldl2 | apply keep_foldl3 | (fail_if_no_progress refine keep_mk rfl rfl rfl rfl rfl ?_) | refine keep_free rfl rfl rfl rfl rfl ?_)) | dsimp only | split)
theorem wakeHeld_keep (s : State) (n : ℕ) (h0 : Keep k s) :
    Keep k (wakeHeld s n) := by
  unfold wakeHeld
  repeat' (first | (with_reducible assumption) | (intro _) | (with_reducible (first | apply nocUpd_keep | apply setIslState_keep | apply islUpd_keep | apply showHeld_keep | apply respond_keep)) | (with_reducible (first | apply keep_ite | apply keep_ite2 | apply keep_ite3 | apply keep_ite1 | apply keep_foldl | apply keep_foldl2 | apply keep_foldl3 | (fail_if_no_progress refine keep_mk rfl rfl rfl rfl rfl ?_) | refine keep_free rfl rfl rfl rfl rfl ?_)) | dsimp only | split)
theorem opStagedRelease_keep (s : State) (h0 : Keep k s) :
    Keep k (opStagedRelease s) := by
  unfold opStagedRelease
  repeat' (first | (with_reducible assumption) | (intro _) | (with_reducible (first | apply wakeHeld_keep | apply islRelease_keep)) | (with_reducible (first | apply keep_ite | apply keep_ite2 | apply keep_ite3 | apply keep_ite1 | apply keep_foldl | apply keep_foldl2 | apply keep_foldl3 | (fail_if_no_progress refine keep_mk rfl rfl rfl rfl rfl ?_) | refine keep_free rfl rfl rfl rfl rfl ?_)) | dsimp only | split)
theorem drainStart_keep (s : State) (n : ℕ) (kind : ℕ) (device : Bool) (h0 : Keep k s) :
    Keep k (drainStart s n kind device) := by
  unfold drainStart
  repeat' (first | (with_reducible assumption) | (intro _) | (with_reducible (first | apply nocUpd_keep | apply setIslState_keep)) | (with_reducible (first | apply keep_ite | apply keep_ite2 | apply keep_ite3 | apply keep_ite1 | apply keep_foldl | apply keep_foldl2 | apply keep_foldl3 | (fail_if_no_progress refine keep_mk rfl rfl rfl rfl rfl ?_) | refine keep_free rfl rfl rfl rfl rfl ?_)) | dsimp only | split)
theorem opDrainEnd_keep (n : ℕ) (s : State) (h1 : Keep k s) :
    Keep k (opDrainEnd n s) := by
  unfold opDrainEnd
  repeat' (first | (with_reducible assumption) | (intro _) | (with_reducible (first | apply islIsolate_keep)) | (with_reducible (first | apply keep_ite | apply keep_ite2 | apply keep_ite3 | apply keep_ite1 | apply keep_foldl | apply keep_foldl2 | apply keep_foldl3 | (fail_if_no_progress refine keep_mk rfl rfl rfl rfl rfl ?_) | refine keep_free rfl rfl rfl rfl rfl ?_)) | dsimp only | split)
theorem answerPending_keep (s : State) (n : ℕ) (h0 : Keep k s) :
    Keep k (answerPending s n) := by
  unfold answerPending
  repeat' (first | (with_reducible assumption) | (intro _) | (with_reducible (first | apply respond_keep)) | (with_reducible (first | apply keep_ite | apply keep_ite2 | apply keep_ite3 | apply keep_ite1 | apply keep_foldl | apply keep_foldl2 | apply keep_foldl3 | (fail_if_no_progress refine keep_mk rfl rfl rfl rfl rfl ?_) | refine keep_free rfl rfl rfl rfl rfl ?_)) | dsimp only | split)
theorem opDrainTimeout_keep (n : ℕ) (s : State) (h1 : Keep k s) :
    Keep k (opDrainTimeout n s) := by
  unfold opDrainTimeout
  repeat' (first | (with_reducible assumption) | (intro _) | (with_reducible (first | apply islIsolate_keep | apply answerPending_keep)) | (with_reducible (first | apply keep_ite | apply keep_ite2 | apply keep_ite3 | apply keep_ite1 | apply keep_foldl | apply keep_foldl2 | apply keep_foldl3 | (fail_if_no_progress refine keep_mk rfl rfl rfl rfl rfl ?_) | refine keep_free rfl rfl rfl rfl rfl ?_)) | dsimp only | split)
theorem wakeStart_keep (s : State) (n : ℕ) (h0 : Keep k s) :
    Keep k (wakeStart s n) := by
  unfold wakeStart
  repeat' (first | (with_reducible assumption) | (intro _) | (with_reducible (first | apply fflag_keep | apply islUpd_keep | apply setIslState_keep)) | (with_reducible (first | apply keep_ite | apply keep_ite2 | apply keep_ite3 | apply keep_ite1 | apply keep_foldl | apply keep_foldl2 | apply keep_foldl3 | (fail_if_no_progress refine keep_mk rfl rfl rfl rfl rfl ?_) | refine keep_free rfl rfl rfl rfl rfl ?_)) | dsimp only | split)
theorem wakeByPacket_keep (s : State) (n : ℕ) (h0 : Keep k s) :
    Keep k (wakeByPacket s n) := by
  unfold wakeByPacket
  repeat' (first | (with_reducible assumption) | (intro _) | (with_reducible (first | apply finc_keep | apply wakeStart_keep)) | (with_reducible (first | apply keep_ite | apply keep_ite2 | apply keep_ite3 | apply keep_ite1 | apply keep_foldl | apply keep_foldl2 | apply keep_foldl3 | (fail_if_no_progress refine keep_mk rfl rfl rfl rfl rfl ?_) | refine keep_free rfl rfl rfl rfl rfl ?_)) | dsimp only | split)
theorem islPowerOff_keep (s : State) (n : ℕ) (state : ℕ) (h0 : Keep k s) :
    Keep k (islPowerOff s n state) := by
  unfold islPowerOff
  repeat' (first | (with_reducible assumption) | (intro _) | (with_reducible (first | apply dropOutgoing_keep | apply bramLose_keep | apply nocUpd_keep | apply setIslState_keep)) | (with_reducible (first | apply keep_ite | apply keep_ite2 | apply keep_ite3 | apply keep_ite1 | apply keep_foldl | apply keep_foldl2 | apply keep_foldl3 | (fail_if_no_progress refine keep_mk rfl rfl rfl rfl rfl ?_) | refine keep_free rfl rfl rfl rfl rfl ?_)) | dsimp only | split)
theorem opIslandOff_keep (n : ℕ) (s : State) (h1 : Keep k s) :
    Keep k (opIslandOff n s) := by
  unfold opIslandOff
  repeat' (first | (with_reducible assumption) | (intro _) | (with_reducible (first | apply islPowerOff_keep | apply wakeByPacket_keep)) | (with_reducible (first | apply keep_ite | apply keep_ite2 | apply keep_ite3 | apply keep_ite1 | apply keep_foldl | apply keep_foldl2 | apply keep_foldl3 | (fail_if_no_progress refine keep_mk rfl rfl rfl rfl rfl ?_) | refine keep_free rfl rfl rfl rfl rfl ?_)) | dsimp only | split)
theorem opWakeFail_keep (n : ℕ) (s : State) (h1 : Keep k s) :
    Keep k (opWakeFail n s) := by
  unfold opWakeFail
  repeat' (first | (with_reducible assumption) | (intro _) | (with_reducible (first | apply respond_keep | apply nocUpd_keep | apply setIslState_keep | apply finc_keep | apply showHeld_keep | apply islUpd_keep)) | (with_reducible (first | apply keep_ite | apply keep_ite2 | apply keep_ite3 | apply keep_ite1 | apply keep_foldl | apply keep_foldl2 | apply keep_foldl3 | (fail_if_no_progress refine keep_mk rfl rfl rfl rfl rfl ?_) | refine keep_free rfl rfl rfl rfl rfl ?_)) | dsimp only | split)
theorem holdPacket_keep (n : ℕ) (p : Packet) (s : State) (h2 : Keep k s) :
    Keep k (holdPacket n p s).2 := by
  unfold holdPacket
  repeat' (first | (with_reducible assumption) | (intro _) | (with_reducible (first | apply respond_keep | apply finc_keep | apply showHeld_keep | apply nocUpd_keep)) | (with_reducible (first | apply keep_ite | apply keep_ite2 | apply keep_ite3 | apply keep_ite1 | apply keep_foldl | apply keep_foldl2 | apply keep_foldl3 | (fail_if_no_progress refine keep_mk rfl rfl rfl rfl rfl ?_) | refine keep_free rfl rfl rfl rfl rfl ?_)) | dsimp only | split)
theorem islArrive_keep (n : ℕ) (p : Packet) (s : State) (h2 : Keep k s) :
    Keep k (islArrive n p s) := by
  unfold islArrive
  repeat' (first | (with_reducible assumption) | (intro _) | (with_reducible (first | apply respond_keep | apply rqiDeliver_keep | apply holdPacket_keep | apply wakeByPacket_keep)) | (with_reducible (first | apply keep_ite | apply keep_ite2 | apply keep_ite3 | apply keep_ite1 | apply keep_foldl | apply keep_foldl2 | apply keep_foldl3 | (fail_if_no_progress refine keep_mk rfl rfl rfl rfl rfl ?_) | refine keep_free rfl rfl rfl rfl rfl ?_)) | dsimp only | split)

end Sys2Proof.Machine
end

