-- ==== Sys2Proof/Laws/KeepNoc.lean ====
section
/-! SUPPORT. The operations of Machine/Noc.lean keep the queue, the counts that only rise, and `Inv`. -/

namespace Sys2Proof.Machine

set_option linter.unusedTactic false
set_option linter.unreachableTactic false
set_option linter.unusedVariables false

variable {k : KeepAt}

theorem engMsg_keep (e : ℕ) (p : Packet) (s : State) (h2 : Keep k s) :
    Keep k (engMsg e p s) := by
  unfold engMsg
  repeat' (first | (with_reducible assumption) | (intro _) | (with_reducible (first | apply respondPart_keep | apply respond_keep | apply inboxArrive_keep)) | (with_reducible (first | apply keep_ite | apply keep_ite2 | apply keep_ite3 | apply keep_ite1 | apply keep_foldl | apply keep_foldl2 | apply keep_foldl3 | (fail_if_no_progress refine keep_mk rfl rfl rfl rfl rfl ?_) | refine keep_free rfl rfl rfl rfl rfl ?_)) | dsimp only | split)
theorem atTarget_keep (p : Packet) (s : State) (h1 : Keep k s) :
    Keep k (atTarget p s) := by
  unfold atTarget
  repeat' (first | (with_reducible assumption) | (intro _) | (with_reducible (first | apply respond_keep | apply respondPart_keep | apply islArrive_keep | apply engMsg_keep | apply memRequest_keep)) | (with_reducible (first | apply keep_ite | apply keep_ite2 | apply keep_ite3 | apply keep_ite1 | apply keep_foldl | apply keep_foldl2 | apply keep_foldl3 | (fail_if_no_progress refine keep_mk rfl rfl rfl rfl rfl ?_) | refine keep_free rfl rfl rfl rfl rfl ?_)) | dsimp only | split)
theorem arrive_keep (op : BitVec 6) (p : Packet) (s : State) (h2 : Keep k s) :
    Keep k (arrive op p s) := by
  unfold arrive
  repeat' (first | (with_reducible assumption) | (intro _) | (with_reducible (first | apply atTarget_keep)) | (exact takeNet_keep (by with_reducible assumption) (by with_reducible assumption)) | (with_reducible (first | apply keep_ite | apply keep_ite2 | apply keep_ite3 | apply keep_ite1 | apply keep_foldl | apply keep_foldl2 | apply keep_foldl3 | (fail_if_no_progress refine keep_mk rfl rfl rfl rfl rfl ?_) | refine keep_free rfl rfl rfl rfl rfl ?_)) | dsimp only | split)
theorem opEvtArrive_keep (p : Packet) (s : State) (h1 : Keep k s) :
    Keep k (opEvtArrive p s) := by
  unfold opEvtArrive
  repeat' (first | (with_reducible assumption) | (intro _) | (with_reducible (first | apply respondPart_keep | apply doorbell_keep)) | (exact takeNet_keep (by with_reducible assumption) (by with_reducible assumption)) | (with_reducible (first | apply keep_ite | apply keep_ite2 | apply keep_ite3 | apply keep_ite1 | apply keep_foldl | apply keep_foldl2 | apply keep_foldl3 | (fail_if_no_progress refine keep_mk rfl rfl rfl rfl rfl ?_) | refine keep_free rfl rfl rfl rfl rfl ?_)) | dsimp only | split)
theorem tickArrive_keep (p : Packet) (s : State) (h1 : Keep k s) :
    Keep k (tickArrive p s) := by
  unfold tickArrive
  repeat' (first | (with_reducible assumption) | (intro _) | (with_reducible (first | apply respondPart_keep | apply eisTick_keep)) | (exact takeNet_keep (by with_reducible assumption) (by with_reducible assumption)) | (with_reducible (first | apply keep_ite | apply keep_ite2 | apply keep_ite3 | apply keep_ite1 | apply keep_foldl | apply keep_foldl2 | apply keep_foldl3 | (fail_if_no_progress refine keep_mk rfl rfl rfl rfl rfl ?_) | refine keep_free rfl rfl rfl rfl rfl ?_)) | dsimp only | split)
theorem actNocClr_keep (d : ℕ) (s : State) (h1 : Keep k s) :
    Keep k (actNocClr d s) := by
  unfold actNocClr
  repeat' (first | (with_reducible assumption) | (intro _) | (with_reducible (first | apply fwipe_keep | apply csrWipe_keep)) | (with_reducible (first | apply keep_ite | apply keep_ite2 | apply keep_ite3 | apply keep_ite1 | apply keep_foldl | apply keep_foldl2 | apply keep_foldl3 | (fail_if_no_progress refine keep_mk rfl rfl rfl rfl rfl ?_) | refine keep_free rfl rfl rfl rfl rfl ?_)) | dsimp only | split)

end Sys2Proof.Machine
end

