-- ==== Sys2Proof/Laws/KeepLanes.lean ====
section
/-! SUPPORT. The operations of Machine/Lanes.lean keep the queue, the counts that only rise, and `Inv`. -/

namespace Sys2Proof.Machine

set_option linter.unusedTactic false
set_option linter.unreachableTactic false
set_option linter.unusedVariables false

variable {k : KeepAt}

theorem ungroup_keep (s : State) (n : ℕ) (h0 : Keep k s) :
    Keep k (ungroup s n) := by
  unfold ungroup
  repeat' (first | (with_reducible assumption) | (intro _) | (with_reducible (first | apply fset_keep | apply fflag_keep)) | (with_reducible (first | apply keep_ite | apply keep_ite2 | apply keep_ite3 | apply keep_ite1 | apply keep_foldl | apply keep_foldl2 | apply keep_foldl3 | (fail_if_no_progress refine keep_mk rfl rfl rfl rfl rfl ?_) | refine keep_free rfl rfl rfl rfl rfl ?_)) | dsimp only | split)
theorem setMode_keep (s : State) (n : ℕ) (m : ℕ) (h0 : Keep k s) :
    Keep k (setMode s n m) := by
  unfold setMode
  repeat' (first | (with_reducible assumption) | (intro _) | (with_reducible (first | apply fset_keep | apply ungroup_keep | apply fflag_keep)) | (with_reducible (first | apply keep_ite | apply keep_ite2 | apply keep_ite3 | apply keep_ite1 | apply keep_foldl | apply keep_foldl2 | apply keep_foldl3 | (fail_if_no_progress refine keep_mk rfl rfl rfl rfl rfl ?_) | refine keep_free rfl rfl rfl rfl rfl ?_)) | dsimp only | split)
theorem setLink_keep (s : State) (n : ℕ) (st : ℕ) (p : ℕ) (h0 : Keep k s) :
    Keep k (setLink s n st p) := by
  unfold setLink
  repeat' (first | (with_reducible assumption) | (intro _) | (with_reducible (first | apply fset_keep)) | (with_reducible (first | apply keep_ite | apply keep_ite2 | apply keep_ite3 | apply keep_ite1 | apply keep_foldl | apply keep_foldl2 | apply keep_foldl3 | (fail_if_no_progress refine keep_mk rfl rfl rfl rfl rfl ?_) | refine keep_free rfl rfl rfl rfl rfl ?_)) | dsimp only | split)
theorem laneAttempt_keep (s : State) (n : ℕ) (h0 : Keep k s) :
    Keep k (laneAttempt s n) := by
  unfold laneAttempt
  repeat' (first | (with_reducible assumption) | (intro _) | (with_reducible (first | apply laneUpd_keep | apply fset_keep | apply setLink_keep)) | (with_reducible (first | apply keep_ite | apply keep_ite2 | apply keep_ite3 | apply keep_ite1 | apply keep_foldl | apply keep_foldl2 | apply keep_foldl3 | (fail_if_no_progress refine keep_mk rfl rfl rfl rfl rfl ?_) | refine keep_free rfl rfl rfl rfl rfl ?_)) | dsimp only | split)
theorem laneQuiet_keep (s : State) (n : ℕ) (h0 : Keep k s) :
    Keep k (laneQuiet s n) := by
  unfold laneQuiet
  repeat' (first | (with_reducible assumption) | (intro _) | (with_reducible (first | apply fflag_keep)) | (with_reducible (first | apply keep_ite | apply keep_ite2 | apply keep_ite3 | apply keep_ite1 | apply keep_foldl | apply keep_foldl2 | apply keep_foldl3 | (fail_if_no_progress refine keep_mk rfl rfl rfl rfl rfl ?_) | refine keep_free rfl rfl rfl rfl rfl ?_)) | dsimp only | split)
theorem laneWaits_keep (s : State) (n : ℕ) (h0 : Keep k s) :
    Keep k (laneWaits s n) := by
  unfold laneWaits
  repeat' (first | (with_reducible assumption) | (intro _) | (with_reducible (first | apply laneUpd_keep | apply fset_keep)) | (with_reducible (first | apply keep_ite | apply keep_ite2 | apply keep_ite3 | apply keep_ite1 | apply keep_foldl | apply keep_foldl2 | apply keep_foldl3 | (fail_if_no_progress refine keep_mk rfl rfl rfl rfl rfl ?_) | refine keep_free rfl rfl rfl rfl rfl ?_)) | dsimp only | split)
theorem laneAbandon_keep (s : State) (n : ℕ) (cause : ℕ) (h0 : Keep k s) :
    Keep k (laneAbandon s n cause) := by
  unfold laneAbandon
  repeat' (first | (with_reducible assumption) | (intro _) | (with_reducible (first | apply laneQuiet_keep | apply fflag_keep | apply finc_keep | apply fset_keep | apply setLink_keep | apply laneWaits_keep)) | (with_reducible (first | apply keep_ite | apply keep_ite2 | apply keep_ite3 | apply keep_ite1 | apply keep_foldl | apply keep_foldl2 | apply keep_foldl3 | (fail_if_no_progress refine keep_mk rfl rfl rfl rfl rfl ?_) | refine keep_free rfl rfl rfl rfl rfl ?_)) | dsimp only | split)
theorem laneFail_keep (s : State) (n : ℕ) (cause : ℕ) (h0 : Keep k s) :
    Keep k (laneFail s n cause) := by
  unfold laneFail
  repeat' (first | (with_reducible assumption) | (intro _) | (with_reducible (first | apply finc_keep | apply laneQuiet_keep | apply alarmLink_keep | apply fset_keep | apply setLink_keep | apply laneWaits_keep)) | (with_reducible (first | apply keep_ite | apply keep_ite2 | apply keep_ite3 | apply keep_ite1 | apply keep_foldl | apply keep_foldl2 | apply keep_foldl3 | (fail_if_no_progress refine keep_mk rfl rfl rfl rfl rfl ?_) | refine keep_free rfl rfl rfl rfl rfl ?_)) | dsimp only | split)
theorem laneEndTest_keep (s : State) (n : ℕ) (h0 : Keep k s) :
    Keep k (laneEndTest s n) := by
  unfold laneEndTest
  repeat' (first | (with_reducible assumption) | (intro _) | (with_reducible (first | apply laneUpd_keep | apply fset_keep)) | (with_reducible (first | apply keep_ite | apply keep_ite2 | apply keep_ite3 | apply keep_ite1 | apply keep_foldl | apply keep_foldl2 | apply keep_foldl3 | (fail_if_no_progress refine keep_mk rfl rfl rfl rfl rfl ?_) | refine keep_free rfl rfl rfl rfl rfl ?_)) | dsimp only | split)
theorem laneDown_keep (s : State) (n : ℕ) (st : ℕ) (h0 : Keep k s) :
    Keep k (laneDown s n st) := by
  unfold laneDown
  repeat' (first | (with_reducible assumption) | (intro _) | (with_reducible (first | apply laneEndTest_keep | apply laneQuiet_keep | apply fset_keep | apply setLink_keep | apply laneUpd_keep)) | (with_reducible (first | apply keep_ite | apply keep_ite2 | apply keep_ite3 | apply keep_ite1 | apply keep_foldl | apply keep_foldl2 | apply keep_foldl3 | (fail_if_no_progress refine keep_mk rfl rfl rfl rfl rfl ?_) | refine keep_free rfl rfl rfl rfl rfl ?_)) | dsimp only | split)
theorem laneDisable_keep (s : State) (n : ℕ) (h0 : Keep k s) :
    Keep k (laneDisable s n) := by
  unfold laneDisable
  repeat' (first | (with_reducible assumption) | (intro _) | (with_reducible (first | apply ungroup_keep | apply laneDown_keep | apply laneUpd_keep)) | (with_reducible (first | apply keep_ite | apply keep_ite2 | apply keep_ite3 | apply keep_ite1 | apply keep_foldl | apply keep_foldl2 | apply keep_foldl3 | (fail_if_no_progress refine keep_mk rfl rfl rfl rfl rfl ?_) | refine keep_free rfl rfl rfl rfl rfl ?_)) | dsimp only | split)
theorem laneRestart_keep (s : State) (n : ℕ) (h0 : Keep k s) :
    Keep k (laneRestart s n) := by
  unfold laneRestart
  repeat' (first | (with_reducible assumption) | (intro _) | (with_reducible (first | apply laneAttempt_keep | apply fset_keep)) | (with_reducible (first | apply keep_ite | apply keep_ite2 | apply keep_ite3 | apply keep_ite1 | apply keep_foldl | apply keep_foldl2 | apply keep_foldl3 | (fail_if_no_progress refine keep_mk rfl rfl rfl rfl rfl ?_) | refine keep_free rfl rfl rfl rfl rfl ?_)) | dsimp only | split)
theorem laneLeaveTest_keep (s : State) (n : ℕ) (h0 : Keep k s) :
    Keep k (laneLeaveTest s n) := by
  unfold laneLeaveTest
  repeat' (first | (with_reducible assumption) | (intro _) | (with_reducible (first | apply laneEndTest_keep | apply laneRestart_keep | apply laneDown_keep)) | (with_reducible (first | apply keep_ite | apply keep_ite2 | apply keep_ite3 | apply keep_ite1 | apply keep_foldl | apply keep_foldl2 | apply keep_foldl3 | (fail_if_no_progress refine keep_mk rfl rfl rfl rfl rfl ?_) | refine keep_free rfl rfl rfl rfl rfl ?_)) | dsimp only | split)
theorem trainTaps_keep (s : State) (n : ℕ) (h0 : Keep k s) :
    Keep k (trainTaps s n) := by
  unfold trainTaps
  repeat' (first | (with_reducible assumption) | (intro _) | (with_reducible (first | apply freeWord_keep | apply fset_keep)) | (with_reducible (first | apply keep_ite | apply keep_ite2 | apply keep_ite3 | apply keep_ite1 | apply keep_foldl | apply keep_foldl2 | apply keep_foldl3 | (fail_if_no_progress refine keep_mk rfl rfl rfl rfl rfl ?_) | refine keep_free rfl rfl rfl rfl rfl ?_)) | dsimp only | split)
theorem opAnComplete_keep (n : ℕ) (m : ℕ) (s : State) (h2 : Keep k s) :
    Keep k (opAnComplete n m s) := by
  unfold opAnComplete
  repeat' (first | (with_reducible assumption) | (intro _) | (with_reducible (first | apply fflag_keep | apply setMode_keep | apply setLink_keep)) | (with_reducible (first | apply keep_ite | apply keep_ite2 | apply keep_ite3 | apply keep_ite1 | apply keep_foldl | apply keep_foldl2 | apply keep_foldl3 | (fail_if_no_progress refine keep_mk rfl rfl rfl rfl rfl ?_) | refine keep_free rfl rfl rfl rfl rfl ?_)) | dsimp only | split)
theorem opTrainComplete_keep (n : ℕ) (s : State) (h1 : Keep k s) :
    Keep k (opTrainComplete n s) := by
  unfold opTrainComplete
  repeat' (first | (with_reducible assumption) | (intro _) | (with_reducible (first | apply fflag_keep | apply setLink_keep | apply trainTaps_keep)) | (with_reducible (first | apply keep_ite | apply keep_ite2 | apply keep_ite3 | apply keep_ite1 | apply keep_foldl | apply keep_foldl2 | apply keep_foldl3 | (fail_if_no_progress refine keep_mk rfl rfl rfl rfl rfl ?_) | refine keep_free rfl rfl rfl rfl rfl ?_)) | dsimp only | split)
theorem opAcquireLock_keep (n : ℕ) (s : State) (h1 : Keep k s) :
    Keep k (opAcquireLock n s) := by
  unfold opAcquireLock
  repeat' (first | (with_reducible assumption) | (intro _) | (with_reducible (first | apply setLink_keep | apply fflag_keep)) | (with_reducible (first | apply keep_ite | apply keep_ite2 | apply keep_ite3 | apply keep_ite1 | apply keep_foldl | apply keep_foldl2 | apply keep_foldl3 | (fail_if_no_progress refine keep_mk rfl rfl rfl rfl rfl ?_) | refine keep_free rfl rfl rfl rfl rfl ?_)) | dsimp only | split)
theorem opTrainWaitTimeout_keep (n : ℕ) (locked : Bool) (s : State) (h2 : Keep k s) :
    Keep k (opTrainWaitTimeout n locked s) := by
  unfold opTrainWaitTimeout
  repeat' (first | (with_reducible assumption) | (intro _) | (with_reducible (first | apply laneFail_keep | apply laneAbandon_keep)) | (with_reducible (first | apply keep_ite | apply keep_ite2 | apply keep_ite3 | apply keep_ite1 | apply keep_foldl | apply keep_foldl2 | apply keep_foldl3 | (fail_if_no_progress refine keep_mk rfl rfl rfl rfl rfl ?_) | refine keep_free rfl rfl rfl rfl rfl ?_)) | dsimp only | split)
theorem opAcquireTimeout_keep (n : ℕ) (signal : Bool) (s : State) (h2 : Keep k s) :
    Keep k (opAcquireTimeout n signal s) := by
  unfold opAcquireTimeout
  repeat' (first | (with_reducible assumption) | (intro _) | (with_reducible (first | apply laneFail_keep | apply fflag_keep | apply laneAbandon_keep)) | (with_reducible (first | apply keep_ite | apply keep_ite2 | apply keep_ite3 | apply keep_ite1 | apply keep_foldl | apply keep_foldl2 | apply keep_foldl3 | (fail_if_no_progress refine keep_mk rfl rfl rfl rfl rfl ?_) | refine keep_free rfl rfl rfl rfl rfl ?_)) | dsimp only | split)
theorem opSignalLoss_keep (n : ℕ) (s : State) (h1 : Keep k s) :
    Keep k (opSignalLoss n s) := by
  unfold opSignalLoss
  repeat' (first | (with_reducible assumption) | (intro _) | (with_reducible (first | apply fflag_keep | apply laneAbandon_keep)) | (with_reducible (first | apply keep_ite | apply keep_ite2 | apply keep_ite3 | apply keep_ite1 | apply keep_foldl | apply keep_foldl2 | apply keep_foldl3 | (fail_if_no_progress refine keep_mk rfl rfl rfl rfl rfl ?_) | refine keep_free rfl rfl rfl rfl rfl ?_)) | dsimp only | split)
theorem laneUp_keep (s : State) (n : ℕ) (h0 : Keep k s) :
    Keep k (laneUp s n) := by
  unfold laneUp
  repeat' (first | (with_reducible assumption) | (intro _) | (with_reducible (first | apply fset_keep | apply finc_keep | apply freeWord_keep | apply setLink_keep)) | (with_reducible (first | apply keep_ite | apply keep_ite2 | apply keep_ite3 | apply keep_ite1 | apply keep_foldl | apply keep_foldl2 | apply keep_foldl3 | (fail_if_no_progress refine keep_mk rfl rfl rfl rfl rfl ?_) | refine keep_free rfl rfl rfl rfl rfl ?_)) | dsimp only | split)
theorem opValidateWindow_keep (n : ℕ) (locked : Bool) (clean : Bool) (s : State) (h3 : Keep k s) :
    Keep k (opValidateWindow n locked clean s) := by
  unfold opValidateWindow
  repeat' (first | (with_reducible assumption) | (intro _) | (with_reducible (first | apply fflag_keep | apply laneUp_keep | apply laneFail_keep)) | (with_reducible (first | apply keep_ite | apply keep_ite2 | apply keep_ite3 | apply keep_ite1 | apply keep_foldl | apply keep_foldl2 | apply keep_foldl3 | (fail_if_no_progress refine keep_mk rfl rfl rfl rfl rfl ?_) | refine keep_free rfl rfl rfl rfl rfl ?_)) | dsimp only | split)
theorem opLinkDown_keep (n : ℕ) (s : State) (h1 : Keep k s) :
    Keep k (opLinkDown n s) := by
  unfold opLinkDown
  repeat' (first | (with_reducible assumption) | (intro _) | (with_reducible (first | apply fset_keep | apply finc_keep | apply laneRestart_keep | apply laneUpd_keep | apply laneQuiet_keep)) | (with_reducible (first | apply keep_ite | apply keep_ite2 | apply keep_ite3 | apply keep_ite1 | apply keep_foldl | apply keep_foldl2 | apply keep_foldl3 | (fail_if_no_progress refine keep_mk rfl rfl rfl rfl rfl ?_) | refine keep_free rfl rfl rfl rfl rfl ?_)) | dsimp only | split)
theorem opBackoffExpire_keep (n : ℕ) (s : State) (h1 : Keep k s) :
    Keep k (opBackoffExpire n s) := by
  unfold opBackoffExpire
  repeat' (first | (with_reducible assumption) | (intro _) | (with_reducible (first | apply laneAttempt_keep)) | (with_reducible (first | apply keep_ite | apply keep_ite2 | apply keep_ite3 | apply keep_ite1 | apply keep_foldl | apply keep_foldl2 | apply keep_foldl3 | (fail_if_no_progress refine keep_mk rfl rfl rfl rfl rfl ?_) | refine keep_free rfl rfl rfl rfl rfl ?_)) | dsimp only | split)
theorem opSignalDetectRise_keep (n : ℕ) (s : State) (h1 : Keep k s) :
    Keep k (opSignalDetectRise n s) := by
  unfold opSignalDetectRise
  repeat' (first | (with_reducible assumption) | (intro _) | (with_reducible (first | apply fflag_keep | apply laneAttempt_keep)) | (with_reducible (first | apply keep_ite | apply keep_ite2 | apply keep_ite3 | apply keep_ite1 | apply keep_foldl | apply keep_foldl2 | apply keep_foldl3 | (fail_if_no_progress refine keep_mk rfl rfl rfl rfl rfl ?_) | refine keep_free rfl rfl rfl rfl rfl ?_)) | dsimp only | split)
theorem quadAttempts_keep (s : State) (q : ℕ) (h0 : Keep k s) :
    Keep k (quadAttempts s q) := by
  unfold quadAttempts
  repeat' (first | (with_reducible assumption) | (intro _) | (with_reducible (first | apply laneAttempt_keep)) | (with_reducible (first | apply keep_ite | apply keep_ite2 | apply keep_ite3 | apply keep_ite1 | apply keep_foldl | apply keep_foldl2 | apply keep_foldl3 | (fail_if_no_progress refine keep_mk rfl rfl rfl rfl rfl ?_) | refine keep_free rfl rfl rfl rfl rfl ?_)) | dsimp only | split)
theorem quadStart_keep (s : State) (q : ℕ) (h0 : Keep k s) :
    Keep k (quadStart s q) := by
  unfold quadStart
  repeat' (first | (with_reducible assumption) | (intro _) | (with_reducible (first | apply fset_keep | apply fflag_keep | apply quadUpd_keep | apply freeWord_keep)) | (with_reducible (first | apply keep_ite | apply keep_ite2 | apply keep_ite3 | apply keep_ite1 | apply keep_foldl | apply keep_foldl2 | apply keep_foldl3 | (fail_if_no_progress refine keep_mk rfl rfl rfl rfl rfl ?_) | refine keep_free rfl rfl rfl rfl rfl ?_)) | dsimp only | split)
theorem quadOff_keep (s : State) (q : ℕ) (st : ℕ) (h0 : Keep k s) :
    Keep k (quadOff s q st) := by
  unfold quadOff
  repeat' (first | (with_reducible assumption) | (intro _) | (with_reducible (first | apply laneDown_keep | apply fset_keep | apply fflag_keep | apply nicReset_keep | apply quadUpd_keep)) | (with_reducible (first | apply keep_ite | apply keep_ite2 | apply keep_ite3 | apply keep_ite1 | apply keep_foldl | apply keep_foldl2 | apply keep_foldl3 | (fail_if_no_progress refine keep_mk rfl rfl rfl rfl rfl ?_) | refine keep_free rfl rfl rfl rfl rfl ?_)) | dsimp only | split)
theorem quadWake_keep (s : State) (q : ℕ) (h0 : Keep k s) :
    Keep k (quadWake s q) := by
  unfold quadWake
  repeat' (first | (with_reducible assumption) | (intro _) | (with_reducible (first | apply quadStart_keep | apply laneRestart_keep)) | (with_reducible (first | apply keep_ite | apply keep_ite2 | apply keep_ite3 | apply keep_ite1 | apply keep_foldl | apply keep_foldl2 | apply keep_foldl3 | (fail_if_no_progress refine keep_mk rfl rfl rfl rfl rfl ?_) | refine keep_free rfl rfl rfl rfl rfl ?_)) | dsimp only | split)
theorem opMcuReload_keep (q : ℕ) (hashOk : Bool) (s : State) (h2 : Keep k s) :
    Keep k (opMcuReload q hashOk s) := by
  unfold opMcuReload
  repeat' (first | (with_reducible assumption) | (intro _) | (with_reducible (first | apply laneDown_keep | apply fset_keep | apply alarmLink_keep | apply quadAttempts_keep | apply jEvent_keep | apply fflag_keep)) | (with_reducible (first | apply keep_ite | apply keep_ite2 | apply keep_ite3 | apply keep_ite1 | apply keep_foldl | apply keep_foldl2 | apply keep_foldl3 | (fail_if_no_progress refine keep_mk rfl rfl rfl rfl rfl ?_) | refine keep_free rfl rfl rfl rfl rfl ?_)) | dsimp only | split)
theorem opRefclkOkChange_keep (q : ℕ) (ok : Bool) (s : State) (h2 : Keep k s) :
    Keep k (opRefclkOkChange q ok s) := by
  unfold opRefclkOkChange
  repeat' (first | (with_reducible assumption) | (intro _) | (with_reducible (first | apply fflag_keep | apply freeWord_keep | apply quadAttempts_keep | apply fset_keep | apply laneDown_keep)) | (with_reducible (first | apply keep_ite | apply keep_ite2 | apply keep_ite3 | apply keep_ite1 | apply keep_foldl | apply keep_foldl2 | apply keep_foldl3 | (fail_if_no_progress refine keep_mk rfl rfl rfl rfl rfl ?_) | refine keep_free rfl rfl rfl rfl rfl ?_)) | dsimp only | split)
theorem opCtleAdapt_keep (n : ℕ) (peak : ℕ) (converged : Bool) (s : State) (h3 : Keep k s) :
    Keep k (opCtleAdapt n peak converged s) := by
  unfold opCtleAdapt
  repeat' (first | (with_reducible assumption) | (intro _) | (with_reducible (first | apply fflag_keep | apply fset_keep)) | (with_reducible (first | apply keep_ite | apply keep_ite2 | apply keep_ite3 | apply keep_ite1 | apply keep_foldl | apply keep_foldl2 | apply keep_foldl3 | (fail_if_no_progress refine keep_mk rfl rfl rfl rfl rfl ?_) | refine keep_free rfl rfl rfl rfl rfl ?_)) | dsimp only | split)
theorem opRecentre_keep (n : ℕ) (eyeH : ℕ) (eyeV : ℕ) (s : State) (h3 : Keep k s) :
    Keep k (opRecentre n eyeH eyeV s) := by
  unfold opRecentre
  repeat' (first | (with_reducible assumption) | (intro _) | (with_reducible (first | apply fset_keep | apply laneUpd_keep | apply alarmLink_keep)) | (with_reducible (first | apply keep_ite | apply keep_ite2 | apply keep_ite3 | apply keep_ite1 | apply keep_foldl | apply keep_foldl2 | apply keep_foldl3 | (fail_if_no_progress refine keep_mk rfl rfl rfl rfl rfl ?_) | refine keep_free rfl rfl rfl rfl rfl ?_)) | dsimp only | split)
theorem addChkErr_keep (s : State) (n : ℕ) (k0 : ℕ) (h0 : Keep k s) :
    Keep k (addChkErr s n k0) := by
  unfold addChkErr
  repeat' (first | (with_reducible assumption) | (intro _) | (with_reducible (first | apply fset_keep)) | (with_reducible (first | apply keep_ite | apply keep_ite2 | apply keep_ite3 | apply keep_ite1 | apply keep_foldl | apply keep_foldl2 | apply keep_foldl3 | (fail_if_no_progress refine keep_mk rfl rfl rfl rfl rfl ?_) | refine keep_free rfl rfl rfl rfl rfl ?_)) | dsimp only | split)
theorem invertBits_keep (s : State) (n : ℕ) (k0 : ℕ) (h0 : Keep k s) :
    Keep k (invertBits s n k0) := by
  unfold invertBits
  repeat' (first | (with_reducible assumption) | (intro _) | (with_reducible (first | apply laneUpd_keep | apply addChkErr_keep)) | (with_reducible (first | apply keep_ite | apply keep_ite2 | apply keep_ite3 | apply keep_ite1 | apply keep_foldl | apply keep_foldl2 | apply keep_foldl3 | (fail_if_no_progress refine keep_mk rfl rfl rfl rfl rfl ?_) | refine keep_free rfl rfl rfl rfl rfl ?_)) | dsimp only | split)
theorem actInjGo_keep (n : ℕ) (s : State) (h1 : Keep k s) :
    Keep k (actInjGo n s) := by
  unfold actInjGo
  repeat' (first | (with_reducible assumption) | (intro _) | (with_reducible (first | apply invertBits_keep | apply laneUpd_keep)) | (with_reducible (first | apply keep_ite | apply keep_ite2 | apply keep_ite3 | apply keep_ite1 | apply keep_foldl | apply keep_foldl2 | apply keep_foldl3 | (fail_if_no_progress refine keep_mk rfl rfl rfl rfl rfl ?_) | refine keep_free rfl rfl rfl rfl rfl ?_)) | dsimp only | split)
theorem opInjectRateFire_keep (n : ℕ) (s : State) (h1 : Keep k s) :
    Keep k (opInjectRateFire n s) := by
  unfold opInjectRateFire
  repeat' (first | (with_reducible assumption) | (intro _) | (with_reducible (first | apply invertBits_keep)) | (with_reducible (first | apply keep_ite | apply keep_ite2 | apply keep_ite3 | apply keep_ite1 | apply keep_foldl | apply keep_foldl2 | apply keep_foldl3 | (fail_if_no_progress refine keep_mk rfl rfl rfl rfl rfl ?_) | refine keep_free rfl rfl rfl rfl rfl ?_)) | dsimp only | split)
theorem actLaneClr_keep (n : ℕ) (s : State) (h1 : Keep k s) :
    Keep k (actLaneClr n s) := by
  unfold actLaneClr
  repeat' (first | (with_reducible assumption) | (intro _) | (with_reducible (first | apply csrWipe_keep)) | (with_reducible (first | apply keep_ite | apply keep_ite2 | apply keep_ite3 | apply keep_ite1 | apply keep_foldl | apply keep_foldl2 | apply keep_foldl3 | (fail_if_no_progress refine keep_mk rfl rfl rfl rfl rfl ?_) | refine keep_free rfl rfl rfl rfl rfl ?_)) | dsimp only | split)
theorem addChkBits_keep (s : State) (n : ℕ) (k0 : ℕ) (h0 : Keep k s) :
    Keep k (addChkBits s n k0) := by
  unfold addChkBits
  repeat' (first | (with_reducible assumption) | (intro _) | (with_reducible (first | apply fset_keep)) | (with_reducible (first | apply keep_ite | apply keep_ite2 | apply keep_ite3 | apply keep_ite1 | apply keep_foldl | apply keep_foldl2 | apply keep_foldl3 | (fail_if_no_progress refine keep_mk rfl rfl rfl rfl rfl ?_) | refine keep_free rfl rfl rfl rfl rfl ?_)) | dsimp only | split)
theorem testResult_keep (s : State) (n : ℕ) (h0 : Keep k s) :
    Keep k (testResult s n) := by
  unfold testResult
  repeat' (first | (with_reducible assumption) | (intro _) | (with_reducible (first | apply freeWord_keep | apply addChkBits_keep | apply fflag_keep | apply fset_keep | apply addChkErr_keep)) | (with_reducible (first | apply keep_ite | apply keep_ite2 | apply keep_ite3 | apply keep_ite1 | apply keep_foldl | apply keep_foldl2 | apply keep_foldl3 | (fail_if_no_progress refine keep_mk rfl rfl rfl rfl rfl ?_) | refine keep_free rfl rfl rfl rfl rfl ?_)) | dsimp only | split)
theorem presentWord_keep (n : ℕ) (w : BitVec 512 × BitVec 16) (ts : Option ℕ) (s : State) (h3 : Keep k s) :
    Keep k (presentWord n w ts s) := by
  unfold presentWord
  repeat' (first | (with_reducible assumption) | (intro _) | (with_reducible (first | apply finc_keep | apply laneUpd_keep)) | (with_reducible (first | apply keep_ite | apply keep_ite2 | apply keep_ite3 | apply keep_ite1 | apply keep_foldl | apply keep_foldl2 | apply keep_foldl3 | (fail_if_no_progress refine keep_mk rfl rfl rfl rfl rfl ?_) | refine keep_free rfl rfl rfl rfl rfl ?_)) | dsimp only | split)
theorem opTxWord_keep (n : ℕ) (data : BitVec 512) (hdr : BitVec 16) (tsreq : Bool) (s : State) (h4 : Keep k s) :
    Keep k (opTxWord n data hdr tsreq s) := by
  unfold opTxWord
  repeat' (first | (with_reducible assumption) | (intro _) | (with_reducible (first | apply presentWord_keep | apply laneUpd_keep)) | (with_reducible (first | apply keep_ite | apply keep_ite2 | apply keep_ite3 | apply keep_ite1 | apply keep_foldl | apply keep_foldl2 | apply keep_foldl3 | (fail_if_no_progress refine keep_mk rfl rfl rfl rfl rfl ?_) | refine keep_free rfl rfl rfl rfl rfl ?_)) | dsimp only | split)
theorem fecCount_keep (s : State) (n : ℕ) (h0 : Keep k s) :
    Keep k (fecCount s n) := by
  unfold fecCount
  repeat' (first | (with_reducible assumption) | (intro _) | (with_reducible (first | apply freeWord_keep | apply faddSat_keep)) | (with_reducible (first | apply keep_ite | apply keep_ite2 | apply keep_ite3 | apply keep_ite1 | apply keep_foldl | apply keep_foldl2 | apply keep_foldl3 | (fail_if_no_progress refine keep_mk rfl rfl rfl rfl rfl ?_) | refine keep_free rfl rfl rfl rfl rfl ?_)) | dsimp only | split)
theorem opRxWord_keep (n : ℕ) (data : BitVec 512) (hdr : BitVec 16) (startSeen : Bool) (s : State) (h4 : Keep k s) :
    Keep k (opRxWord n data hdr startSeen s) := by
  unfold opRxWord
  repeat' (first | (with_reducible assumption) | (intro _) | (with_reducible (first | apply presentWord_keep | apply fecCount_keep | apply laneUpd_keep)) | (with_reducible (first | apply keep_ite | apply keep_ite2 | apply keep_ite3 | apply keep_ite1 | apply keep_foldl | apply keep_foldl2 | apply keep_foldl3 | (fail_if_no_progress refine keep_mk rfl rfl rfl rfl rfl ?_) | refine keep_free rfl rfl rfl rfl rfl ?_)) | dsimp only | split)
theorem opTxTimestamp_keep (n : ℕ) (s : State) (h1 : Keep k s) :
    Keep k (opTxTimestamp n s) := by
  unfold opTxTimestamp
  repeat' (first | (with_reducible assumption) | (intro _) | (with_reducible (first | apply laneUpd_keep)) | (with_reducible (first | apply keep_ite | apply keep_ite2 | apply keep_ite3 | apply keep_ite1 | apply keep_foldl | apply keep_foldl2 | apply keep_foldl3 | (fail_if_no_progress refine keep_mk rfl rfl rfl rfl rfl ?_) | refine keep_free rfl rfl rfl rfl rfl ?_)) | dsimp only | split)
theorem laneEdge_keep (s : State) (n : ℕ) (h0 : Keep k s) :
    Keep k (laneEdge s n) := by
  unfold laneEdge
  repeat' (first | (with_reducible assumption) | (intro _) | (with_reducible (first | apply opTxTimestamp_keep | apply laneUpd_keep)) | (with_reducible (first | apply keep_ite | apply keep_ite2 | apply keep_ite3 | apply keep_ite1 | apply keep_foldl | apply keep_foldl2 | apply keep_foldl3 | (fail_if_no_progress refine keep_mk rfl rfl rfl rfl rfl ?_) | refine keep_free rfl rfl rfl rfl rfl ?_)) | dsimp only | split)
theorem laneLine_keep (s : State) (n : ℕ) (h0 : Keep k s) :
    Keep k (laneLine s n) := by
  unfold laneLine
  repeat' (first | (with_reducible assumption) | (intro _) | (with_reducible (first | apply laneUpd_keep | apply faddSat_keep)) | (with_reducible (first | apply keep_ite | apply keep_ite2 | apply keep_ite3 | apply keep_ite1 | apply keep_foldl | apply keep_foldl2 | apply keep_foldl3 | (fail_if_no_progress refine keep_mk rfl rfl rfl rfl rfl ?_) | refine keep_free rfl rfl rfl rfl rfl ?_)) | dsimp only | split)
theorem injBits_keep (s : State) (n : ℕ) (k0 : ℕ) (h0 : Keep k s) :
    Keep k (injBits s n k0) := by
  unfold injBits
  repeat' (first | (with_reducible assumption) | (intro _) | (with_reducible (first | apply laneUpd_keep | apply invertBits_keep)) | (with_reducible (first | apply keep_ite | apply keep_ite2 | apply keep_ite3 | apply keep_ite1 | apply keep_foldl | apply keep_foldl2 | apply keep_foldl3 | (fail_if_no_progress refine keep_mk rfl rfl rfl rfl rfl ?_) | refine keep_free rfl rfl rfl rfl rfl ?_)) | dsimp only | split)
theorem chkSees_keep (s : State) (n : ℕ) (k0 : ℕ) (h0 : Keep k s) :
    Keep k (chkSees s n k0) := by
  unfold chkSees
  repeat' (first | (with_reducible assumption) | (intro _) | (with_reducible (first | apply addChkBits_keep | apply fflag_keep | apply laneUpd_keep | apply freeWord_keep | apply addChkErr_keep)) | (with_reducible (first | apply keep_ite | apply keep_ite2 | apply keep_ite3 | apply keep_ite1 | apply keep_foldl | apply keep_foldl2 | apply keep_foldl3 | (fail_if_no_progress refine keep_mk rfl rfl rfl rfl rfl ?_) | refine keep_free rfl rfl rfl rfl rfl ?_)) | dsimp only | split)
theorem laneBits_keep (s : State) (n : ℕ) (h0 : Keep k s) :
    Keep k (laneBits s n) := by
  unfold laneBits
  repeat' (first | (with_reducible assumption) | (intro _) | (with_reducible (first | apply injBits_keep | apply laneUpd_keep | apply chkSees_keep)) | (with_reducible (first | apply keep_ite | apply keep_ite2 | apply keep_ite3 | apply keep_ite1 | apply keep_foldl | apply keep_foldl2 | apply keep_foldl3 | (fail_if_no_progress refine keep_mk rfl rfl rfl rfl rfl ?_) | refine keep_free rfl rfl rfl rfl rfl ?_)) | dsimp only | split)
theorem laneWaitCycle_keep (s : State) (n : ℕ) (h0 : Keep k s) :
    Keep k (laneWaitCycle s n) := by
  unfold laneWaitCycle
  repeat' (first | (with_reducible assumption) | (intro _) | (with_reducible (first | apply laneAttempt_keep | apply fset_keep)) | (with_reducible (first | apply keep_ite | apply keep_ite2 | apply keep_ite3 | apply keep_ite1 | apply keep_foldl | apply keep_foldl2 | apply keep_foldl3 | (fail_if_no_progress refine keep_mk rfl rfl rfl rfl rfl ?_) | refine keep_free rfl rfl rfl rfl rfl ?_)) | dsimp only | split)
theorem opTimeMarker_keep (q : ℕ) (s : State) (h1 : Keep k s) :
    Keep k (opTimeMarker q s) := by
  unfold opTimeMarker
  repeat' (first | (with_reducible assumption) | (intro _) | (with_reducible (first | apply fflag_keep | apply quadUpd_keep)) | (with_reducible (first | apply keep_ite | apply keep_ite2 | apply keep_ite3 | apply keep_ite1 | apply keep_foldl | apply keep_foldl2 | apply keep_foldl3 | (fail_if_no_progress refine keep_mk rfl rfl rfl rfl rfl ?_) | refine keep_free rfl rfl rfl rfl rfl ?_)) | dsimp only | split)
theorem opTsUnsync_keep (q : ℕ) (s : State) (h1 : Keep k s) :
    Keep k (opTsUnsync q s) := by
  unfold opTsUnsync
  repeat' (first | (with_reducible assumption) | (intro _) | (with_reducible (first | apply fflag_keep)) | (with_reducible (first | apply keep_ite | apply keep_ite2 | apply keep_ite3 | apply keep_ite1 | apply keep_foldl | apply keep_foldl2 | apply keep_foldl3 | (fail_if_no_progress refine keep_mk rfl rfl rfl rfl rfl ?_) | refine keep_free rfl rfl rfl rfl rfl ?_)) | dsimp only | split)
theorem markers_keep (s : State) (h0 : Keep k s) :
    Keep k (markers s) := by
  unfold markers
  repeat' (first | (with_reducible assumption) | (intro _) | (with_reducible (first | apply opTimeMarker_keep | apply opTsUnsync_keep)) | (with_reducible (first | apply keep_ite | apply keep_ite2 | apply keep_ite3 | apply keep_ite1 | apply keep_foldl | apply keep_foldl2 | apply keep_foldl3 | (fail_if_no_progress refine keep_mk rfl rfl rfl rfl rfl ?_) | refine keep_free rfl rfl rfl rfl rfl ?_)) | dsimp only | split)

end Sys2Proof.Machine
end

