-- ==== Sys2Proof/Laws/KeepMailbox.lean ====
section
/-! SUPPORT. The operations of Machine/Mailbox.lean keep the queue, the counts that only rise, and `Inv`. -/

namespace Sys2Proof.Machine

set_option linter.unusedTactic false
set_option linter.unreachableTactic false
set_option linter.unusedVariables false

variable {k : KeepAt}

theorem mbBegin_keep (s : State) (r : MbReq) (op : ℕ) (h0 : Keep k s) :
    Keep k (mbBegin s r op) := by
  unfold mbBegin
  repeat' (first | (with_reducible assumption) | (intro _) | (with_reducible (first | apply mbUpd_keep)) | (with_reducible (first | apply keep_ite | apply keep_ite2 | apply keep_ite3 | apply keep_ite1 | apply keep_foldl | apply keep_foldl2 | apply keep_foldl3 | (fail_if_no_progress refine keep_mk rfl rfl rfl rfl rfl ?_) | refine keep_free rfl rfl rfl rfl rfl ?_)) | dsimp only | split)
theorem mbFinish_keep (s : State) (n : ℕ) (code : ℕ) (det : Word) (payload : List Byte) (h0 : Keep k s) :
    Keep k (mbFinish s n code det payload) := by
  unfold mbFinish
  repeat' (first | (with_reducible assumption) | (intro _) | (with_reducible (first | apply mbUpd_keep | apply msiSignal_keep)) | (with_reducible (first | apply keep_ite | apply keep_ite2 | apply keep_ite3 | apply keep_ite1 | apply keep_foldl | apply keep_foldl2 | apply keep_foldl3 | (fail_if_no_progress refine keep_mk rfl rfl rfl rfl rfl ?_) | refine keep_free rfl rfl rfl rfl rfl ?_)) | dsimp only | split)
theorem endSessions_keep (s : State) (f : Session → Bool) (h0 : Keep k s) :
    Keep k (endSessions s f) := by
  unfold endSessions
  repeat' (first | (with_reducible assumption) | (intro _) | (with_reducible (first | apply keep_ite | apply keep_ite2 | apply keep_ite3 | apply keep_ite1 | apply keep_foldl | apply keep_foldl2 | apply keep_foldl3 | (fail_if_no_progress refine keep_mk rfl rfl rfl rfl rfl ?_) | refine keep_free rfl rfl rfl rfl rfl ?_)) | dsimp only | split)

end Sys2Proof.Machine
end

