-- ==== Sys2Proof/Laws/KeepPart.lean ====
section
/-! SUPPORT. The operations of Machine/Part.lean keep the queue, the counts that only rise, and `Inv`. -/

namespace Sys2Proof.Machine

set_option linter.unusedTactic false
set_option linter.unreachableTactic false
set_option linter.unusedVariables false

variable {k : KeepAt}

theorem clearReconf_keep (s : State) (n : ℕ) (h0 : Keep k s) :
    Keep k (clearReconf s n) := by
  unfold clearReconf
  repeat' (first | (with_reducible assumption) | (intro _) | (with_reducible (first | apply dropOutgoing_keep)) | (with_reducible (first | apply keep_ite | apply keep_ite2 | apply keep_ite3 | apply keep_ite1 | apply keep_foldl | apply keep_foldl2 | apply keep_foldl3 | (fail_if_no_progress refine keep_mk rfl rfl rfl rfl rfl ?_) | refine keep_free rfl rfl rfl rfl rfl ?_)) | dsimp only | split)
theorem regionFail_keep (s : State) (n : ℕ) (h0 : Keep k s) :
    Keep k (regionFail s n) := by
  unfold regionFail
  repeat' (first | (with_reducible assumption) | (intro _) | (with_reducible (first | apply islIsolate_keep | apply answerPending_keep | apply clearReconf_keep | apply islUpd_keep | apply nocUpd_keep)) | (with_reducible (first | apply keep_ite | apply keep_ite2 | apply keep_ite3 | apply keep_ite1 | apply keep_foldl | apply keep_foldl2 | apply keep_foldl3 | (fail_if_no_progress refine keep_mk rfl rfl rfl rfl rfl ?_) | refine keep_free rfl rfl rfl rfl rfl ?_)) | dsimp only | split)
theorem partialDone_keep (s : State) (l : LoadSt) (h0 : Keep k s) :
    Keep k (partialDone s l) := by
  unfold partialDone
  repeat' (first | (with_reducible assumption) | (intro _) | (with_reducible (first | apply mbFinish_keep | apply islUpd_keep)) | (with_reducible (first | apply keep_ite | apply keep_ite2 | apply keep_ite3 | apply keep_ite1 | apply keep_foldl | apply keep_foldl2 | apply keep_foldl3 | (fail_if_no_progress refine keep_mk rfl rfl rfl rfl rfl ?_) | refine keep_free rfl rfl rfl rfl rfl ?_)) | dsimp only | split)
theorem selWrite_keep (s : State) (f : SelCopy → SelCopy) (h0 : Keep k s) :
    Keep k (selWrite s f) := by
  unfold selWrite
  repeat' (first | (with_reducible assumption) | (intro _) | (with_reducible (first | apply keep_ite | apply keep_ite2 | apply keep_ite3 | apply keep_ite1 | apply keep_foldl | apply keep_foldl2 | apply keep_foldl3 | (fail_if_no_progress refine keep_mk rfl rfl rfl rfl rfl ?_) | refine keep_free rfl rfl rfl rfl rfl ?_)) | dsimp only | split)
theorem setMarker_keep (s : State) (k0 : ℕ) (b : Bool) (h0 : Keep k s) :
    Keep k (setMarker s k0 b) := by
  unfold setMarker
  repeat' (first | (with_reducible assumption) | (intro _) | (with_reducible (first | apply selWrite_keep)) | (with_reducible (first | apply keep_ite | apply keep_ite2 | apply keep_ite3 | apply keep_ite1 | apply keep_foldl | apply keep_foldl2 | apply keep_foldl3 | (fail_if_no_progress refine keep_mk rfl rfl rfl rfl rfl ?_) | refine keep_free rfl rfl rfl rfl rfl ?_)) | dsimp only | split)
theorem flashWrite_keep (s : State) (k0 : ℕ) (o : ℕ) (bs : List Byte) (h0 : Keep k s) :
    Keep k (flashWrite s k0 o bs) := by
  unfold flashWrite
  repeat' (first | (with_reducible assumption) | (intro _) | (with_reducible (first | apply keep_ite | apply keep_ite2 | apply keep_ite3 | apply keep_ite1 | apply keep_foldl | apply keep_foldl2 | apply keep_foldl3 | (fail_if_no_progress refine keep_mk rfl rfl rfl rfl rfl ?_) | refine keep_free rfl rfl rfl rfl rfl ?_)) | dsimp only | split)
theorem stageStop_keep (s : State) (n : ℕ) (h0 : Keep k s) :
    Keep k (stageStop s n) := by
  unfold stageStop
  repeat' (first | (with_reducible assumption) | (intro _) | (with_reducible (first | apply freeWord_keep | apply flashWrite_keep)) | (with_reducible (first | apply keep_ite | apply keep_ite2 | apply keep_ite3 | apply keep_ite1 | apply keep_foldl | apply keep_foldl2 | apply keep_foldl3 | (fail_if_no_progress refine keep_mk rfl rfl rfl rfl rfl ?_) | refine keep_free rfl rfl rfl rfl rfl ?_)) | dsimp only | split)
theorem loadDropped_keep (s : State) (n : ℕ) (h0 : Keep k s) :
    Keep k (loadDropped s n) := by
  unfold loadDropped
  repeat' (first | (with_reducible assumption) | (intro _) | (with_reducible (first | apply engUpd_keep | apply setEngState_keep)) | (with_reducible (first | apply keep_ite | apply keep_ite2 | apply keep_ite3 | apply keep_ite1 | apply keep_foldl | apply keep_foldl2 | apply keep_foldl3 | (fail_if_no_progress refine keep_mk rfl rfl rfl rfl rfl ?_) | refine keep_free rfl rfl rfl rfl rfl ?_)) | dsimp only | split)
theorem stopEffect_keep (s : State) (n : ℕ) (h0 : Keep k s) :
    Keep k (stopEffect s n).2 := by
  unfold stopEffect
  repeat' (first | (with_reducible assumption) | (intro _) | (with_reducible (first | apply regionFail_keep | apply loadDropped_keep | apply testResult_keep | apply laneLeaveTest_keep | apply stageStop_keep)) | (with_reducible (first | apply keep_ite | apply keep_ite2 | apply keep_ite3 | apply keep_ite1 | apply keep_foldl | apply keep_foldl2 | apply keep_foldl3 | (fail_if_no_progress refine keep_mk rfl rfl rfl rfl rfl ?_) | refine keep_free rfl rfl rfl rfl rfl ?_)) | dsimp only | split)
theorem stopCommand_keep (s : State) (n : ℕ) (code : ℕ) (det : Word) (h0 : Keep k s) :
    Keep k (stopCommand s n code det) := by
  unfold stopCommand
  repeat' (first | (with_reducible assumption) | (intro _) | (with_reducible (first | apply stopEffect_keep | apply mbFinish_keep)) | (with_reducible (first | apply keep_ite | apply keep_ite2 | apply keep_ite3 | apply keep_ite1 | apply keep_foldl | apply keep_foldl2 | apply keep_foldl3 | (fail_if_no_progress refine keep_mk rfl rfl rfl rfl rfl ?_) | refine keep_free rfl rfl rfl rfl rfl ?_)) | dsimp only | split)
theorem islClamp_keep (s : State) (n : ℕ) (h0 : Keep k s) :
    Keep k (islClamp s n) := by
  unfold islClamp
  repeat' (first | (with_reducible assumption) | (intro _) | (with_reducible (first | apply nocUpd_keep | apply nicReset_keep | apply islEnterHold_keep)) | (with_reducible (first | apply keep_ite | apply keep_ite2 | apply keep_ite3 | apply keep_ite1 | apply keep_foldl | apply keep_foldl2 | apply keep_foldl3 | (fail_if_no_progress refine keep_mk rfl rfl rfl rfl rfl ?_) | refine keep_free rfl rfl rfl rfl rfl ?_)) | dsimp only | split)
theorem eisClamp_keep (s : State) (e : ℕ) (cause : ℕ) (h0 : Keep k s) :
    Keep k (eisClamp s e cause) := by
  unfold eisClamp
  repeat' (first | (with_reducible assumption) | (intro _) | (with_reducible (first | apply haltRun_keep | apply nicReset_keep | apply eisUpd_keep)) | (with_reducible (first | apply keep_ite | apply keep_ite2 | apply keep_ite3 | apply keep_ite1 | apply keep_foldl | apply keep_foldl2 | apply keep_foldl3 | (fail_if_no_progress refine keep_mk rfl rfl rfl rfl rfl ?_) | refine keep_free rfl rfl rfl rfl rfl ?_)) | dsimp only | split)
theorem quadClamp_keep (s : State) (q : ℕ) (cause : ℕ) (h0 : Keep k s) :
    Keep k (quadClamp s q cause) := by
  unfold quadClamp
  repeat' (first | (with_reducible assumption) | (intro _) | (with_reducible (first | apply fset_keep | apply laneDisable_keep | apply nicReset_keep)) | (with_reducible (first | apply keep_ite | apply keep_ite2 | apply keep_ite3 | apply keep_ite1 | apply keep_foldl | apply keep_foldl2 | apply keep_foldl3 | (fail_if_no_progress refine keep_mk rfl rfl rfl rfl rfl ?_) | refine keep_free rfl rfl rfl rfl rfl ?_)) | dsimp only | split)
theorem releaseMet_keep (s : State) (n : ℕ) (h0 : Keep k s) :
    Keep k (releaseMet s n) := by
  unfold releaseMet
  repeat' (first | (with_reducible assumption) | (intro _) | (with_reducible (first | apply partialDone_keep | apply islRelease_keep)) | (with_reducible (first | apply keep_ite | apply keep_ite2 | apply keep_ite3 | apply keep_ite1 | apply keep_foldl | apply keep_foldl2 | apply keep_foldl3 | (fail_if_no_progress refine keep_mk rfl rfl rfl rfl rfl ?_) | refine keep_free rfl rfl rfl rfl rfl ?_)) | dsimp only | split)
theorem stopPart_keep (s : State) (p : ℕ) (cause : ℕ) (h0 : Keep k s) :
    Keep k (stopPart s p cause) := by
  unfold stopPart
  repeat' (first | (with_reducible assumption) | (intro _) | (with_reducible (first | apply partUpd_keep | apply releaseMet_keep | apply stopCommand_keep | apply islClamp_keep | apply eisClamp_keep | apply quadClamp_keep | apply msiPart_keep | apply showBounds_keep)) | (with_reducible (first | apply keep_ite | apply keep_ite2 | apply keep_ite3 | apply keep_ite1 | apply keep_foldl | apply keep_foldl2 | apply keep_foldl3 | (fail_if_no_progress refine keep_mk rfl rfl rfl rfl rfl ?_) | refine keep_free rfl rfl rfl rfl rfl ?_)) | dsimp only | split)
theorem eisRegs_keep (s : State) (e : ℕ) (h0 : Keep k s) :
    Keep k (eisRegs s e) := by
  unfold eisRegs
  repeat' (first | (with_reducible assumption) | (intro _) | (with_reducible (first | apply csrClear_keep | apply fset_keep)) | (with_reducible (first | apply keep_ite | apply keep_ite2 | apply keep_ite3 | apply keep_ite1 | apply keep_foldl | apply keep_foldl2 | apply keep_foldl3 | (fail_if_no_progress refine keep_mk rfl rfl rfl rfl rfl ?_) | refine keep_free rfl rfl rfl rfl rfl ?_)) | dsimp only | split)
theorem eisRelease_keep (s : State) (e : ℕ) (h0 : Keep k s) :
    Keep k (eisRelease s e) := by
  unfold eisRelease
  repeat' (first | (with_reducible assumption) | (intro _) | (with_reducible (first | apply eisRegs_keep | apply eisUpd_keep)) | (with_reducible (first | apply keep_ite | apply keep_ite2 | apply keep_ite3 | apply keep_ite1 | apply keep_foldl | apply keep_foldl2 | apply keep_foldl3 | (fail_if_no_progress refine keep_mk rfl rfl rfl rfl rfl ?_) | refine keep_free rfl rfl rfl rfl rfl ?_)) | dsimp only | split)
theorem partServe_keep (s : State) (p : ℕ) (h0 : Keep k s) :
    Keep k (partServe s p) := by
  unfold partServe
  repeat' (first | (with_reducible assumption) | (intro _) | (with_reducible (first | apply islUpd_keep | apply eisRelease_keep)) | (with_reducible (first | apply keep_ite | apply keep_ite2 | apply keep_ite3 | apply keep_ite1 | apply keep_foldl | apply keep_foldl2 | apply keep_foldl3 | (fail_if_no_progress refine keep_mk rfl rfl rfl rfl rfl ?_) | refine keep_free rfl rfl rfl rfl rfl ?_)) | dsimp only | split)
theorem restartPart_keep (s : State) (p : ℕ) (h0 : Keep k s) :
    Keep k (restartPart s p) := by
  unfold restartPart
  repeat' (first | (with_reducible assumption) | (intro _) | (with_reducible (first | apply partUpd_keep | apply fset_keep | apply msiPart_keep | apply showBounds_keep | apply partServe_keep)) | (with_reducible (first | apply keep_ite | apply keep_ite2 | apply keep_ite3 | apply keep_ite1 | apply keep_foldl | apply keep_foldl2 | apply keep_foldl3 | (fail_if_no_progress refine keep_mk rfl rfl rfl rfl rfl ?_) | refine keep_free rfl rfl rfl rfl rfl ?_)) | dsimp only | split)
theorem opEscalationZeroizeDone_keep (p : ℕ) (s : State) (h1 : Keep k s) :
    Keep k (opEscalationZeroizeDone p s) := by
  unfold opEscalationZeroizeDone
  repeat' (first | (with_reducible assumption) | (intro _) | (with_reducible (first | apply secUpd_keep | apply stopPart_keep | apply zeroize_keep)) | (with_reducible (first | apply keep_ite | apply keep_ite2 | apply keep_ite3 | apply keep_ite1 | apply keep_foldl | apply keep_foldl2 | apply keep_foldl3 | (fail_if_no_progress refine keep_mk rfl rfl rfl rfl rfl ?_) | refine keep_free rfl rfl rfl rfl rfl ?_)) | dsimp only | split)
theorem assignRange_keep (s : State) (g : ℕ) (c : ℕ) (owner : ℕ) (locked : Bool) (h0 : Keep k s) :
    Keep k (assignRange s g c owner locked) := by
  unfold assignRange
  repeat' (first | (with_reducible assumption) | (intro _) | (with_reducible (first | apply granWrite_keep)) | (with_reducible (first | apply keep_ite | apply keep_ite2 | apply keep_ite3 | apply keep_ite1 | apply keep_foldl | apply keep_foldl2 | apply keep_foldl3 | (fail_if_no_progress refine keep_mk rfl rfl rfl rfl rfl ?_) | refine keep_free rfl rfl rfl rfl rfl ?_)) | dsimp only | split)
theorem prelockPart_keep (s : State) (p : ℕ) (h0 : Keep k s) :
    Keep k (prelockPart s p) := by
  unfold prelockPart
  repeat' (first | (with_reducible assumption) | (intro _) | (with_reducible (first | apply assignRange_keep | apply jEvent_keep)) | (with_reducible (first | apply keep_ite | apply keep_ite2 | apply keep_ite3 | apply keep_ite1 | apply keep_foldl | apply keep_foldl2 | apply keep_foldl3 | (fail_if_no_progress refine keep_mk rfl rfl rfl rfl rfl ?_) | refine keep_free rfl rfl rfl rfl rfl ?_)) | dsimp only | split)
theorem showAutoSr_keep (s : State) (h0 : Keep k s) :
    Keep k (showAutoSr s) := by
  unfold showAutoSr
  repeat' (first | (with_reducible assumption) | (intro _) | (with_reducible (first | apply fflag_keep)) | (with_reducible (first | apply keep_ite | apply keep_ite2 | apply keep_ite3 | apply keep_ite1 | apply keep_foldl | apply keep_foldl2 | apply keep_foldl3 | (fail_if_no_progress refine keep_mk rfl rfl rfl rfl rfl ?_) | refine keep_free rfl rfl rfl rfl rfl ?_)) | dsimp only | split)
theorem lockPlan_keep (s : State) (h0 : Keep k s) :
    Keep k (lockPlan s) := by
  unfold lockPlan
  repeat' (first | (with_reducible assumption) | (intro _) | (with_reducible (first | apply fflag_keep | apply prelockPart_keep | apply partUpd_keep | apply msiPart_keep | apply partServe_keep | apply showAutoSr_keep | apply showBounds_keep)) | (with_reducible (first | apply keep_ite | apply keep_ite2 | apply keep_ite3 | apply keep_ite1 | apply keep_foldl | apply keep_foldl2 | apply keep_foldl3 | (fail_if_no_progress refine keep_mk rfl rfl rfl rfl rfl ?_) | refine keep_free rfl rfl rfl rfl rfl ?_)) | dsimp only | split)
theorem fenceNet_keep (s : State) (d : ℕ) (h0 : Keep k s) :
    Keep k (fenceNet s d) := by
  unfold fenceNet
  repeat' (first | (with_reducible assumption) | (intro _) | (with_reducible (first | apply respondPart_keep | apply respond_keep)) | (with_reducible (first | apply keep_ite | apply keep_ite2 | apply keep_ite3 | apply keep_ite1 | apply keep_foldl | apply keep_foldl2 | apply keep_foldl3 | (fail_if_no_progress refine keep_mk rfl rfl rfl rfl rfl ?_) | refine keep_free rfl rfl rfl rfl rfl ?_)) | dsimp only | split)
theorem fenceDie_keep (s : State) (d : ℕ) (h0 : Keep k s) :
    Keep k (fenceDie s d) := by
  unfold fenceDie
  repeat' (first | (with_reducible assumption) | (intro _) | (with_reducible (first | apply fsetBit_keep | apply fflag_keep | apply jEvent_keep | apply alarmHw_keep | apply stopCommand_keep | apply stopPart_keep | apply fenceNet_keep)) | (with_reducible (first | apply keep_ite | apply keep_ite2 | apply keep_ite3 | apply keep_ite1 | apply keep_foldl | apply keep_foldl2 | apply keep_foldl3 | (fail_if_no_progress refine keep_mk rfl rfl rfl rfl rfl ?_) | refine keep_free rfl rfl rfl rfl rfl ?_)) | dsimp only | split)
theorem opDieSelfFence_keep (d : ℕ) (s : State) (h1 : Keep k s) :
    Keep k (opDieSelfFence d s) := by
  unfold opDieSelfFence
  repeat' (first | (with_reducible assumption) | (intro _) | (with_reducible (first | apply islEnterHold_keep | apply eisClamp_keep | apply laneDisable_keep)) | (with_reducible (first | apply keep_ite | apply keep_ite2 | apply keep_ite3 | apply keep_ite1 | apply keep_foldl | apply keep_foldl2 | apply keep_foldl3 | (fail_if_no_progress refine keep_mk rfl rfl rfl rfl rfl ?_) | refine keep_free rfl rfl rfl rfl rfl ?_)) | dsimp only | split)

end Sys2Proof.Machine
end

