-- ==== Sys2Proof/Laws/KeepHawser.lean ====
section
/-! SUPPORT. The operations of Machine/Hawser.lean keep the queue, the counts that only rise, and `Inv`. -/

namespace Sys2Proof.Machine

set_option linter.unusedTactic false
set_option linter.unreachableTactic false
set_option linter.unusedVariables false

variable {k : KeepAt}

theorem setBadData_keep (s : State) (h : ℕ) (w : ℕ) (h0 : Keep k s) :
    Keep k (setBadData s h w) := by
  unfold setBadData
  repeat' (first | (with_reducible assumption) | (intro _) | (with_reducible (first | apply fsetBit_keep)) | (with_reducible (first | apply keep_ite | apply keep_ite2 | apply keep_ite3 | apply keep_ite1 | apply keep_foldl | apply keep_foldl2 | apply keep_foldl3 | (fail_if_no_progress refine keep_mk rfl rfl rfl rfl rfl ?_) | refine keep_free rfl rfl rfl rfl rfl ?_)) | dsimp only | split)
theorem showSpares_keep (s : State) (h : ℕ) (h0 : Keep k s) :
    Keep k (showSpares s h) := by
  unfold showSpares
  repeat' (first | (with_reducible assumption) | (intro _) | (with_reducible (first | apply fflag_keep | apply fset_keep)) | (with_reducible (first | apply keep_ite | apply keep_ite2 | apply keep_ite3 | apply keep_ite1 | apply keep_foldl | apply keep_foldl2 | apply keep_foldl3 | (fail_if_no_progress refine keep_mk rfl rfl rfl rfl rfl ?_) | refine keep_free rfl rfl rfl rfl rfl ?_)) | dsimp only | split)
theorem assignSpares_keep (s : State) (h : ℕ) (ws : List ℕ) (h0 : Keep k s) :
    Keep k (assignSpares s h ws) := by
  unfold assignSpares
  repeat' (first | (with_reducible assumption) | (intro _) | (with_reducible (first | apply fset_keep | apply fflag_keep | apply showSpares_keep)) | (with_reducible (first | apply keep_ite | apply keep_ite2 | apply keep_ite3 | apply keep_ite1 | apply keep_foldl | apply keep_foldl2 | apply keep_foldl3 | (fail_if_no_progress refine keep_mk rfl rfl rfl rfl rfl ?_) | refine keep_free rfl rfl rfl rfl rfl ?_)) | dsimp only | split)
theorem selectState_keep (s : State) (h : ℕ) (h0 : Keep k s) :
    Keep k (selectState s h) := by
  unfold selectState
  repeat' (first | (with_reducible assumption) | (intro _) | (with_reducible (first | apply fset_keep | apply fflag_keep | apply showSpares_keep | apply assignSpares_keep)) | (with_reducible (first | apply keep_ite | apply keep_ite2 | apply keep_ite3 | apply keep_ite1 | apply keep_foldl | apply keep_foldl2 | apply keep_foldl3 | (fail_if_no_progress refine keep_mk rfl rfl rfl rfl rfl ?_) | refine keep_free rfl rfl rfl rfl rfl ?_)) | dsimp only | split)
theorem mapRows_keep (s : State) (base : ℕ) (h0 : Keep k s) :
    Keep k (mapRows s base) := by
  unfold mapRows
  repeat' (first | (with_reducible assumption) | (intro _) | (with_reducible (first | apply fset_keep)) | (with_reducible (first | apply keep_ite | apply keep_ite2 | apply keep_ite3 | apply keep_ite1 | apply keep_foldl | apply keep_foldl2 | apply keep_foldl3 | (fail_if_no_progress refine keep_mk rfl rfl rfl rfl rfl ?_) | refine keep_free rfl rfl rfl rfl rfl ?_)) | dsimp only | split)
theorem recordWire_keep (s : State) (h : ℕ) (w : ℕ) (h0 : Keep k s) :
    Keep k (recordWire s h w) := by
  unfold recordWire
  repeat' (first | (with_reducible assumption) | (intro _) | (with_reducible (first | apply keep_ite | apply keep_ite2 | apply keep_ite3 | apply keep_ite1 | apply keep_foldl | apply keep_foldl2 | apply keep_foldl3 | (fail_if_no_progress refine keep_mk rfl rfl rfl rfl rfl ?_) | refine keep_free rfl rfl rfl rfl rfl ?_)) | dsimp only | split)
theorem swapPacket_keep (s : State) (p : Packet) (q : Packet) (h0 : Keep k s) :
    Keep k (swapPacket s p q) := by
  unfold swapPacket
  repeat' (first | (with_reducible assumption) | (intro _) | (with_reducible (first | apply keep_ite | apply keep_ite2 | apply keep_ite3 | apply keep_ite1 | apply keep_foldl | apply keep_foldl2 | apply keep_foldl3 | (fail_if_no_progress refine keep_mk rfl rfl rfl rfl rfl ?_) | refine keep_free rfl rfl rfl rfl rfl ?_)) | dsimp only | split)
theorem packetsBack_keep (s : State) (h : ℕ) (h0 : Keep k s) :
    Keep k (packetsBack s h) := by
  unfold packetsBack
  repeat' (first | (with_reducible assumption) | (intro _) | (with_reducible (first | apply swapPacket_keep)) | (with_reducible (first | apply keep_ite | apply keep_ite2 | apply keep_ite3 | apply keep_ite1 | apply keep_foldl | apply keep_foldl2 | apply keep_foldl3 | (fail_if_no_progress refine keep_mk rfl rfl rfl rfl rfl ?_) | refine keep_free rfl rfl rfl rfl rfl ?_)) | dsimp only | split)
theorem packetCross_keep (h : ℕ) (p : Packet) (s : State) (h2 : Keep k s) :
    Keep k (packetCross h p s) := by
  unfold packetCross
  repeat' (first | (with_reducible assumption) | (intro _) | (with_reducible (first | apply swapPacket_keep)) | (with_reducible (first | apply keep_ite | apply keep_ite2 | apply keep_ite3 | apply keep_ite1 | apply keep_foldl | apply keep_foldl2 | apply keep_foldl3 | (fail_if_no_progress refine keep_mk rfl rfl rfl rfl rfl ?_) | refine keep_free rfl rfl rfl rfl rfl ?_)) | dsimp only | split)
theorem retireHw_keep (s : State) (h : ℕ) (w : ℕ) (h0 : Keep k s) :
    Keep k (retireHw s h w) := by
  unfold retireHw
  repeat' (first | (with_reducible assumption) | (intro _) | (with_reducible (first | apply packetCross_keep | apply packetsBack_keep | apply fset_keep | apply fflag_keep | apply hwUpd_keep | apply mapRows_keep | apply jEvent_keep | apply alarmHw_keep | apply fenceDie_keep)) | (with_reducible (first | apply keep_ite | apply keep_ite2 | apply keep_ite3 | apply keep_ite1 | apply keep_foldl | apply keep_foldl2 | apply keep_foldl3 | (fail_if_no_progress refine keep_mk rfl rfl rfl rfl rfl ?_) | refine keep_free rfl rfl rfl rfl rfl ?_)) | dsimp only | split)
theorem startChange_keep (s : State) (h : ℕ) (c : HwChange) (h0 : Keep k s) :
    Keep k (startChange s h c) := by
  unfold startChange
  repeat' (first | (with_reducible assumption) | (intro _) | (with_reducible (first | apply fflag_keep | apply hwUpd_keep)) | (with_reducible (first | apply keep_ite | apply keep_ite2 | apply keep_ite3 | apply keep_ite1 | apply keep_foldl | apply keep_foldl2 | apply keep_foldl3 | (fail_if_no_progress refine keep_mk rfl rfl rfl rfl rfl ?_) | refine keep_free rfl rfl rfl rfl rfl ?_)) | dsimp only | split)
theorem repairData_keep (s : State) (h : ℕ) (w : ℕ) (h0 : Keep k s) :
    Keep k (repairData s h w) := by
  unfold repairData
  repeat' (first | (with_reducible assumption) | (intro _) | (with_reducible (first | apply startChange_keep | apply retireHw_keep)) | (with_reducible (first | apply keep_ite | apply keep_ite2 | apply keep_ite3 | apply keep_ite1 | apply keep_foldl | apply keep_foldl2 | apply keep_foldl3 | (fail_if_no_progress refine keep_mk rfl rfl rfl rfl rfl ?_) | refine keep_free rfl rfl rfl rfl rfl ?_)) | dsimp only | split)
theorem recordFail_keep (s : State) (h : ℕ) (w : ℕ) (h0 : Keep k s) :
    Keep k (recordFail s h w) := by
  unfold recordFail
  repeat' (first | (with_reducible assumption) | (intro _) | (with_reducible (first | apply recordWire_keep | apply setBadData_keep | apply showSpares_keep | apply fsetBit_keep | apply fflag_keep)) | (with_reducible (first | apply keep_ite | apply keep_ite2 | apply keep_ite3 | apply keep_ite1 | apply keep_foldl | apply keep_foldl2 | apply keep_foldl3 | (fail_if_no_progress refine keep_mk rfl rfl rfl rfl rfl ?_) | refine keep_free rfl rfl rfl rfl rfl ?_)) | dsimp only | split)
theorem failNow_keep (s : State) (h : ℕ) (w : ℕ) (h0 : Keep k s) :
    Keep k (failNow s h w) := by
  unfold failNow
  repeat' (first | (with_reducible assumption) | (intro _) | (with_reducible (first | apply recordFail_keep | apply repairData_keep | apply retireHw_keep | apply startChange_keep | apply fflag_keep)) | (with_reducible (first | apply keep_ite | apply keep_ite2 | apply keep_ite3 | apply keep_ite1 | apply keep_foldl | apply keep_foldl2 | apply keep_foldl3 | (fail_if_no_progress refine keep_mk rfl rfl rfl rfl rfl ?_) | refine keep_free rfl rfl rfl rfl rfl ?_)) | dsimp only | split)
theorem wireFails_keep (s : State) (h : ℕ) (w : ℕ) (h0 : Keep k s) :
    Keep k (wireFails s h w) := by
  unfold wireFails
  repeat' (first | (with_reducible assumption) | (intro _) | (with_reducible (first | apply recordFail_keep | apply hwUpd_keep | apply failNow_keep)) | (with_reducible (first | apply keep_ite | apply keep_ite2 | apply keep_ite3 | apply keep_ite1 | apply keep_foldl | apply keep_foldl2 | apply keep_foldl3 | (fail_if_no_progress refine keep_mk rfl rfl rfl rfl rfl ?_) | refine keep_free rfl rfl rfl rfl rfl ?_)) | dsimp only | split)
theorem wiresFail_keep (s : State) (h : ℕ) (ws : List ℕ) (h0 : Keep k s) :
    Keep k (wiresFail s h ws) := by
  unfold wiresFail
  repeat' (first | (with_reducible assumption) | (intro _) | (with_reducible (first | apply wireFails_keep)) | (with_reducible (first | apply keep_ite | apply keep_ite2 | apply keep_ite3 | apply keep_ite1 | apply keep_foldl | apply keep_foldl2 | apply keep_foldl3 | (fail_if_no_progress refine keep_mk rfl rfl rfl rfl rfl ?_) | refine keep_free rfl rfl rfl rfl rfl ?_)) | dsimp only | split)
theorem drainQueue_keep (x0 : ℕ) (x1 : ℕ) (x2 : State) (h2 : Keep k x2) :
    Keep k (drainQueue x0 x1 x2) := by
  induction x0 generalizing x2 with
  | zero => exact h2
  | succ n ih =>
    unfold drainQueue
    repeat' (first | (with_reducible assumption) | (intro _) | (with_reducible (first | apply ih | apply failNow_keep | apply hwUpd_keep | apply keep_ite)) | dsimp only | split)
theorem finishChange_keep (s : State) (h : ℕ) (c : HwChange) (h0 : Keep k s) :
    Keep k (finishChange s h c) := by
  unfold finishChange
  repeat' (first | (with_reducible assumption) | (intro _) | (with_reducible (first | apply fflag_keep | apply hwUpd_keep | apply fset_keep | apply jEvent_keep | apply showSpares_keep | apply finc_keep | apply mapRows_keep | apply assignSpares_keep | apply drainQueue_keep)) | (with_reducible (first | apply keep_ite | apply keep_ite2 | apply keep_ite3 | apply keep_ite1 | apply keep_foldl | apply keep_foldl2 | apply keep_foldl3 | (fail_if_no_progress refine keep_mk rfl rfl rfl rfl rfl ?_) | refine keep_free rfl rfl rfl rfl rfl ?_)) | dsimp only | split)
theorem nextStage_keep (s : State) (h : ℕ) (stage : ℕ) (h0 : Keep k s) :
    Keep k (nextStage s h stage) := by
  unfold nextStage
  repeat' (first | (with_reducible assumption) | (intro _) | (with_reducible (first | apply hwUpd_keep)) | (with_reducible (first | apply keep_ite | apply keep_ite2 | apply keep_ite3 | apply keep_ite1 | apply keep_foldl | apply keep_foldl2 | apply keep_foldl3 | (fail_if_no_progress refine keep_mk rfl rfl rfl rfl rfl ?_) | refine keep_free rfl rfl rfl rfl rfl ?_)) | dsimp only | split)
theorem opRepairStage_keep (h : ℕ) (stage : ℕ) (s : State) (h2 : Keep k s) :
    Keep k (opRepairStage h stage s) := by
  unfold opRepairStage
  repeat' (first | (with_reducible assumption) | (intro _) | (with_reducible (first | apply finishChange_keep | apply nextStage_keep)) | (with_reducible (first | apply keep_ite | apply keep_ite2 | apply keep_ite3 | apply keep_ite1 | apply keep_foldl | apply keep_foldl2 | apply keep_foldl3 | (fail_if_no_progress refine keep_mk rfl rfl rfl rfl rfl ?_) | refine keep_free rfl rfl rfl rfl rfl ?_)) | dsimp only | split)
theorem wireError_keep (h : ℕ) (s : State) (w : ℕ) (h1 : Keep k s) :
    Keep k (wireError h s w) := by
  unfold wireError
  repeat' (first | (with_reducible assumption) | (intro _) | (with_reducible (first | apply finc_keep)) | (with_reducible (first | apply keep_ite | apply keep_ite2 | apply keep_ite3 | apply keep_ite1 | apply keep_foldl | apply keep_foldl2 | apply keep_foldl3 | (fail_if_no_progress refine keep_mk rfl rfl rfl rfl rfl ?_) | refine keep_free rfl rfl rfl rfl rfl ?_)) | dsimp only | split)
theorem wireErrors_keep (s : State) (h : ℕ) (ws : List ℕ) (h0 : Keep k s) :
    Keep k (wireErrors s h ws) := by
  unfold wireErrors
  repeat' (first | (with_reducible assumption) | (intro _) | (with_reducible (first | apply wireError_keep | apply wiresFail_keep)) | (with_reducible (first | apply keep_ite | apply keep_ite2 | apply keep_ite3 | apply keep_ite1 | apply keep_foldl | apply keep_foldl2 | apply keep_foldl3 | (fail_if_no_progress refine keep_mk rfl rfl rfl rfl rfl ?_) | refine keep_free rfl rfl rfl rfl rfl ?_)) | dsimp only | split)
theorem blockFails_keep (s : State) (h : ℕ) (b : List Byte) (h0 : Keep k s) :
    Keep k (blockFails s h b) := by
  unfold blockFails
  repeat' (first | (with_reducible assumption) | (intro _) | (with_reducible (first | apply finc_keep | apply hwUpd_keep | apply retireHw_keep | apply wireErrors_keep)) | (with_reducible (first | apply keep_ite | apply keep_ite2 | apply keep_ite3 | apply keep_ite1 | apply keep_foldl | apply keep_foldl2 | apply keep_foldl3 | (fail_if_no_progress refine keep_mk rfl rfl rfl rfl rfl ?_) | refine keep_free rfl rfl rfl rfl rfl ?_)) | dsimp only | split)
theorem flitDelivered_keep (h : ℕ) (s : State) (f : List Byte × Bool) (h1 : Keep k s) :
    Keep k (flitDelivered h s f) := by
  unfold flitDelivered
  repeat' (first | (with_reducible assumption) | (intro _) | (with_reducible (first | apply faddSat_keep | apply finc_keep | apply hwUpd_keep | apply packetCross_keep)) | (with_reducible (first | apply keep_ite | apply keep_ite2 | apply keep_ite3 | apply keep_ite1 | apply keep_foldl | apply keep_foldl2 | apply keep_foldl3 | (fail_if_no_progress refine keep_mk rfl rfl rfl rfl rfl ?_) | refine keep_free rfl rfl rfl rfl rfl ?_)) | dsimp only | split)
theorem blockPasses_keep (s : State) (h : ℕ) (b : List Byte) (r : List (List Byte × Bool) × List Byte) (h0 : Keep k s) :
    Keep k (blockPasses s h b r) := by
  unfold blockPasses
  repeat' (first | (with_reducible assumption) | (intro _) | (with_reducible (first | apply hwUpd_keep | apply answerBytes_keep | apply flitDelivered_keep | apply wireErrors_keep | apply nextStage_keep)) | (with_reducible (first | apply keep_ite | apply keep_ite2 | apply keep_ite3 | apply keep_ite1 | apply keep_foldl | apply keep_foldl2 | apply keep_foldl3 | (fail_if_no_progress refine keep_mk rfl rfl rfl rfl rfl ?_) | refine keep_free rfl rfl rfl rfl rfl ?_)) | dsimp only | split)
theorem blockReceived_keep (h : ℕ) (b : List Byte) (expected : Bool) (s : State) (h3 : Keep k s) :
    Keep k (blockReceived h b expected s) := by
  unfold blockReceived
  repeat' (first | (with_reducible assumption) | (intro _) | (with_reducible (first | apply finc_keep | apply blockFails_keep | apply blockPasses_keep)) | (with_reducible (first | apply keep_ite | apply keep_ite2 | apply keep_ite3 | apply keep_ite1 | apply keep_foldl | apply keep_foldl2 | apply keep_foldl3 | (fail_if_no_progress refine keep_mk rfl rfl rfl rfl rfl ?_) | refine keep_free rfl rfl rfl rfl rfl ?_)) | dsimp only | split)
theorem opHawserBlock_keep (h : ℕ) (b : List Byte) (s : State) (h2 : Keep k s) :
    Keep k (opHawserBlock h b s) := by
  unfold opHawserBlock
  repeat' (first | (with_reducible assumption) | (intro _) | (with_reducible (first | apply hwUpd_keep | apply blockReceived_keep)) | (with_reducible (first | apply keep_ite | apply keep_ite2 | apply keep_ite3 | apply keep_ite1 | apply keep_foldl | apply keep_foldl2 | apply keep_foldl3 | (fail_if_no_progress refine keep_mk rfl rfl rfl rfl rfl ?_) | refine keep_free rfl rfl rfl rfl rfl ?_)) | dsimp only | split)
theorem opHawserAck_keep (h : ℕ) (seq : ℕ) (s : State) (h2 : Keep k s) :
    Keep k (opHawserAck h seq s) := by
  unfold opHawserAck
  repeat' (first | (with_reducible assumption) | (intro _) | (with_reducible (first | apply hwUpd_keep)) | (with_reducible (first | apply keep_ite | apply keep_ite2 | apply keep_ite3 | apply keep_ite1 | apply keep_foldl | apply keep_foldl2 | apply keep_foldl3 | (fail_if_no_progress refine keep_mk rfl rfl rfl rfl rfl ?_) | refine keep_free rfl rfl rfl rfl rfl ?_)) | dsimp only | split)
theorem opHawserNak_keep (h : ℕ) (seq : ℕ) (s : State) (h2 : Keep k s) :
    Keep k (opHawserNak h seq s) := by
  unfold opHawserNak
  repeat' (first | (with_reducible assumption) | (intro _) | (with_reducible (first | apply hwUpd_keep | apply faddSat_keep)) | (with_reducible (first | apply keep_ite | apply keep_ite2 | apply keep_ite3 | apply keep_ite1 | apply keep_foldl | apply keep_foldl2 | apply keep_foldl3 | (fail_if_no_progress refine keep_mk rfl rfl rfl rfl rfl ?_) | refine keep_free rfl rfl rfl rfl rfl ?_)) | dsimp only | split)
theorem opWireFail_keep (h : ℕ) (ws : List ℕ) (s : State) (h2 : Keep k s) :
    Keep k (opWireFail h ws s) := by
  unfold opWireFail
  repeat' (first | (with_reducible assumption) | (intro _) | (with_reducible (first | apply wiresFail_keep | apply faddSat_keep)) | (with_reducible (first | apply keep_ite | apply keep_ite2 | apply keep_ite3 | apply keep_ite1 | apply keep_foldl | apply keep_foldl2 | apply keep_foldl3 | (fail_if_no_progress refine keep_mk rfl rfl rfl rfl rfl ?_) | refine keep_free rfl rfl rfl rfl rfl ?_)) | dsimp only | split)
theorem opWireWinExpire_keep (h : ℕ) (s : State) (h1 : Keep k s) :
    Keep k (opWireWinExpire h s) := by
  unfold opWireWinExpire
  repeat' (first | (with_reducible assumption) | (intro _) | (with_reducible (first | apply fset_keep)) | (with_reducible (first | apply keep_ite | apply keep_ite2 | apply keep_ite3 | apply keep_ite1 | apply keep_foldl | apply keep_foldl2 | apply keep_foldl3 | (fail_if_no_progress refine keep_mk rfl rfl rfl rfl rfl ?_) | refine keep_free rfl rfl rfl rfl rfl ?_)) | dsimp only | split)
theorem actHwClr_keep (h : ℕ) (s : State) (h1 : Keep k s) :
    Keep k (actHwClr h s) := by
  unfold actHwClr
  repeat' (first | (with_reducible assumption) | (intro _) | (with_reducible (first | apply fwipe_keep | apply csrWipe_keep)) | (with_reducible (first | apply keep_ite | apply keep_ite2 | apply keep_ite3 | apply keep_ite1 | apply keep_foldl | apply keep_foldl2 | apply keep_foldl3 | (fail_if_no_progress refine keep_mk rfl rfl rfl rfl rfl ?_) | refine keep_free rfl rfl rfl rfl rfl ?_)) | dsimp only | split)
theorem actTestGo_keep (h : ℕ) (s : State) (h1 : Keep k s) :
    Keep k (actTestGo h s) := by
  unfold actTestGo
  repeat' (first | (with_reducible assumption) | (intro _) | (with_reducible (first | apply fflag_keep | apply wireFails_keep)) | (with_reducible (first | apply keep_ite | apply keep_ite2 | apply keep_ite3 | apply keep_ite1 | apply keep_foldl | apply keep_foldl2 | apply keep_foldl3 | (fail_if_no_progress refine keep_mk rfl rfl rfl rfl rfl ?_) | refine keep_free rfl rfl rfl rfl rfl ?_)) | dsimp only | split)
theorem testHawser_keep (s : State) (h : ℕ) (t : HawserTest) (alt : Bool) (fl2 : Bool) (h0 : Keep k s) :
    Keep k (testHawser s h t alt fl2) := by
  unfold testHawser
  repeat' (first | (with_reducible assumption) | (intro _) | (with_reducible (first | apply setBadData_keep | apply fsetBit_keep | apply fflag_keep | apply fset_keep | apply selectState_keep)) | (with_reducible (first | apply keep_ite | apply keep_ite2 | apply keep_ite3 | apply keep_ite1 | apply keep_foldl | apply keep_foldl2 | apply keep_foldl3 | (fail_if_no_progress refine keep_mk rfl rfl rfl rfl rfl ?_) | refine keep_free rfl rfl rfl rfl rfl ?_)) | dsimp only | split)

end Sys2Proof.Machine
end

