-- ==== Sys2Proof/Laws/KeepSteps.lean ====
section
/-! SUPPORT. The operations of Machine/Steps.lean keep the queue, the counts that only rise, and `Inv`. -/

namespace Sys2Proof.Machine

set_option linter.unusedTactic false
set_option linter.unreachableTactic false
set_option linter.unusedVariables false

variable {k : KeepAt}

theorem stepBegin_keep (s : State) (code : ℕ) (arg : ℕ) (alt : Bool) (h0 : Keep k s) :
    Keep k (stepBegin s code arg alt) := by
  unfold stepBegin
  repeat' (first | (with_reducible assumption) | (intro _) | (with_reducible (first | apply fflag_keep | apply fset_keep)) | (with_reducible (first | apply keep_ite | apply keep_ite2 | apply keep_ite3 | apply keep_ite1 | apply keep_foldl | apply keep_foldl2 | apply keep_foldl3 | (fail_if_no_progress refine keep_mk rfl rfl rfl rfl rfl ?_) | refine keep_free rfl rfl rfl rfl rfl ?_)) | dsimp only | split)
theorem stepTable_keep (s : State) (code : ℕ) (arg : ℕ) (alt : Bool) (ok : Bool) (h0 : Keep k s) :
    Keep k (stepTable s code arg alt ok) := by
  unfold stepTable
  repeat' (first | (with_reducible assumption) | (intro _) | (with_reducible (first | apply keep_ite | apply keep_ite2 | apply keep_ite3 | apply keep_ite1 | apply keep_foldl | apply keep_foldl2 | apply keep_foldl3 | (fail_if_no_progress refine keep_mk rfl rfl rfl rfl rfl ?_) | refine keep_free rfl rfl rfl rfl rfl ?_)) | dsimp only | split)
theorem stepEnd_keep (s : State) (code : ℕ) (arg : ℕ) (alt : Bool) (ok : Bool) (det : ℕ) (h0 : Keep k s) :
    Keep k (stepEnd s code arg alt ok det) := by
  unfold stepEnd
  repeat' (first | (with_reducible assumption) | (intro _) | (with_reducible (first | apply fflag_keep | apply stepTable_keep | apply journal_keep)) | (with_reducible (first | apply keep_ite | apply keep_ite2 | apply keep_ite3 | apply keep_ite1 | apply keep_foldl | apply keep_foldl2 | apply keep_foldl3 | (fail_if_no_progress refine keep_mk rfl rfl rfl rfl rfl ?_) | refine keep_free rfl rfl rfl rfl rfl ?_)) | dsimp only | split)
theorem stepRun_keep (s : State) (code : ℕ) (arg : ℕ) (alt : Bool) (ok : Bool) (det : ℕ) (h0 : Keep k s) :
    Keep k (stepRun s code arg alt ok det) := by
  unfold stepRun
  repeat' (first | (with_reducible assumption) | (intro _) | (with_reducible (first | apply stepEnd_keep | apply stepBegin_keep)) | (with_reducible (first | apply keep_ite | apply keep_ite2 | apply keep_ite3 | apply keep_ite1 | apply keep_foldl | apply keep_foldl2 | apply keep_foldl3 | (fail_if_no_progress refine keep_mk rfl rfl rfl rfl rfl ?_) | refine keep_free rfl rfl rfl rfl rfl ?_)) | dsimp only | split)

end Sys2Proof.Machine
end

