-- ==== Sys2Proof/Laws/KeepLoad.lean ====
section
/-! SUPPORT. The operations of Machine/Load.lean keep the queue, the counts that only rise, and `Inv`. -/

namespace Sys2Proof.Machine

set_option linter.unusedTactic false
set_option linter.unreachableTactic false
set_option linter.unusedVariables false

variable {k : KeepAt}

theorem setCfgState_keep (s : State) (v : ℕ) (h0 : Keep k s) :
    Keep k (setCfgState s v) := by
  unfold setCfgState
  repeat' (first | (with_reducible assumption) | (intro _) | (with_reducible (first | apply fset_keep)) | (with_reducible (first | apply keep_ite | apply keep_ite2 | apply keep_ite3 | apply keep_ite1 | apply keep_foldl | apply keep_foldl2 | apply keep_foldl3 | (fail_if_no_progress refine keep_mk rfl rfl rfl rfl rfl ?_) | refine keep_free rfl rfl rfl rfl rfl ?_)) | dsimp only | split)
theorem clearAll_keep (s : State) (h0 : Keep k s) :
    Keep k (clearAll s) := by
  unfold clearAll
  repeat' (first | (with_reducible assumption) | (intro _) | (with_reducible (first | apply islUpd_keep)) | (with_reducible (first | apply keep_ite | apply keep_ite2 | apply keep_ite3 | apply keep_ite1 | apply keep_foldl | apply keep_foldl2 | apply keep_foldl3 | (fail_if_no_progress refine keep_mk rfl rfl rfl rfl rfl ?_) | refine keep_free rfl rfl rfl rfl rfl ?_)) | dsimp only | split)
theorem startFull_keep (s : State) (golden : Bool) (retry : Bool) (h0 : Keep k s) :
    Keep k (startFull s golden retry) := by
  unfold startFull
  repeat' (first | (with_reducible assumption) | (intro _) | (with_reducible (first | apply setCfgState_keep | apply clearAll_keep)) | (with_reducible (first | apply keep_ite | apply keep_ite2 | apply keep_ite3 | apply keep_ite1 | apply keep_foldl | apply keep_foldl2 | apply keep_foldl3 | (fail_if_no_progress refine keep_mk rfl rfl rfl rfl rfl ?_) | refine keep_free rfl rfl rfl rfl rfl ?_)) | dsimp only | split)
theorem recordErr_keep (s : State) (f : LoadFail) (partialLoad : Bool) (h0 : Keep k s) :
    Keep k (recordErr s f partialLoad) := by
  unfold recordErr
  repeat' (first | (with_reducible assumption) | (intro _) | (with_reducible (first | apply fset_keep | apply fflag_keep)) | (with_reducible (first | apply keep_ite | apply keep_ite2 | apply keep_ite3 | apply keep_ite1 | apply keep_foldl | apply keep_foldl2 | apply keep_foldl3 | (fail_if_no_progress refine keep_mk rfl rfl rfl rfl rfl ?_) | refine keep_free rfl rfl rfl rfl rfl ?_)) | dsimp only | split)
theorem phaseEnd_keep (s : State) (p : ℕ) (h0 : Keep k s) :
    Keep k (phaseEnd s p) := by
  unfold phaseEnd
  repeat' (first | (with_reducible assumption) | (intro _) | (with_reducible (first | apply fset_keep | apply journalFlush_keep)) | (with_reducible (first | apply keep_ite | apply keep_ite2 | apply keep_ite3 | apply keep_ite1 | apply keep_foldl | apply keep_foldl2 | apply keep_foldl3 | (fail_if_no_progress refine keep_mk rfl rfl rfl rfl rfl ?_) | refine keep_free rfl rfl rfl rfl rfl ?_)) | dsimp only | split)
theorem loadEnd_keep (s : State) (h0 : Keep k s) :
    Keep k (loadEnd s) := by
  unfold loadEnd
  repeat' (first | (with_reducible assumption) | (intro _) | (with_reducible (first | apply phaseEnd_keep)) | (with_reducible (first | apply keep_ite | apply keep_ite2 | apply keep_ite3 | apply keep_ite1 | apply keep_foldl | apply keep_foldl2 | apply keep_foldl3 | (fail_if_no_progress refine keep_mk rfl rfl rfl rfl rfl ?_) | refine keep_free rfl rfl rfl rfl rfl ?_)) | dsimp only | split)
theorem cfgFailed_keep (s : State) (f : LoadFail) (h0 : Keep k s) :
    Keep k (cfgFailed s f) := by
  unfold cfgFailed
  repeat' (first | (with_reducible assumption) | (intro _) | (with_reducible (first | apply loadEnd_keep | apply setCfgState_keep | apply alarmCfg_keep | apply clearAll_keep)) | (with_reducible (first | apply keep_ite | apply keep_ite2 | apply keep_ite3 | apply keep_ite1 | apply keep_foldl | apply keep_foldl2 | apply keep_foldl3 | (fail_if_no_progress refine keep_mk rfl rfl rfl rfl rfl ?_) | refine keep_free rfl rfl rfl rfl rfl ?_)) | dsimp only | split)
theorem goldenLoad_keep (s : State) (f : LoadFail) (h0 : Keep k s) :
    Keep k (goldenLoad s f) := by
  unfold goldenLoad
  repeat' (first | (with_reducible assumption) | (intro _) | (with_reducible (first | apply cfgFailed_keep | apply stepRun_keep | apply startFull_keep | apply stepBegin_keep)) | (with_reducible (first | apply keep_ite | apply keep_ite2 | apply keep_ite3 | apply keep_ite1 | apply keep_foldl | apply keep_foldl2 | apply keep_foldl3 | (fail_if_no_progress refine keep_mk rfl rfl rfl rfl rfl ?_) | refine keep_free rfl rfl rfl rfl rfl ?_)) | dsimp only | split)
theorem rejectFull_keep (s : State) (l : LoadSt) (f : LoadFail) (h0 : Keep k s) :
    Keep k (rejectFull s l f) := by
  unfold rejectFull
  repeat' (first | (with_reducible assumption) | (intro _) | (with_reducible (first | apply recordErr_keep | apply cfgFailed_keep | apply stepEnd_keep | apply alarmCfg_keep | apply fset_keep | apply goldenLoad_keep | apply clearAll_keep)) | (with_reducible (first | apply keep_ite | apply keep_ite2 | apply keep_ite3 | apply keep_ite1 | apply keep_foldl | apply keep_foldl2 | apply keep_foldl3 | (fail_if_no_progress refine keep_mk rfl rfl rfl rfl rfl ?_) | refine keep_free rfl rfl rfl rfl rfl ?_)) | dsimp only | split)
theorem rejectPartial_keep (s : State) (l : LoadSt) (f : LoadFail) (h0 : Keep k s) :
    Keep k (rejectPartial s l f) := by
  unfold rejectPartial
  repeat' (first | (with_reducible assumption) | (intro _) | (with_reducible (first | apply recordErr_keep | apply regionFail_keep | apply mbFinish_keep)) | (with_reducible (first | apply keep_ite | apply keep_ite2 | apply keep_ite3 | apply keep_ite1 | apply keep_foldl | apply keep_foldl2 | apply keep_foldl3 | (fail_if_no_progress refine keep_mk rfl rfl rfl rfl rfl ?_) | refine keep_free rfl rfl rfl rfl rfl ?_)) | dsimp only | split)
theorem reject_keep (s : State) (l : LoadSt) (f : LoadFail) (h0 : Keep k s) :
    Keep k (reject s l f) := by
  unfold reject
  repeat' (first | (with_reducible assumption) | (intro _) | (with_reducible (first | apply rejectPartial_keep | apply rejectFull_keep)) | (with_reducible (first | apply keep_ite | apply keep_ite2 | apply keep_ite3 | apply keep_ite1 | apply keep_foldl | apply keep_foldl2 | apply keep_foldl3 | (fail_if_no_progress refine keep_mk rfl rfl rfl rfl rfl ?_) | refine keep_free rfl rfl rfl rfl rfl ?_)) | dsimp only | split)
theorem takeHeader_keep (s : State) (l : LoadSt) (b : List Byte) (chk : ImageCheck) (h0 : Keep k s) :
    Keep k (takeHeader s l b chk) := by
  unfold takeHeader
  repeat' (first | (with_reducible assumption) | (intro _) | (with_reducible (first | apply reject_keep)) | (with_reducible (first | apply keep_ite | apply keep_ite2 | apply keep_ite3 | apply keep_ite1 | apply keep_foldl | apply keep_foldl2 | apply keep_foldl3 | (fail_if_no_progress refine keep_mk rfl rfl rfl rfl rfl ?_) | refine keep_free rfl rfl rfl rfl rfl ?_)) | dsimp only | split)
theorem opImageHeader_keep (b : List Byte) (chk : ImageCheck) (s : State) (h2 : Keep k s) :
    Keep k (opImageHeader b chk s) := by
  unfold opImageHeader
  repeat' (first | (with_reducible assumption) | (intro _) | (with_reducible (first | apply takeHeader_keep | apply startFull_keep)) | (with_reducible (first | apply keep_ite | apply keep_ite2 | apply keep_ite3 | apply keep_ite1 | apply keep_foldl | apply keep_foldl2 | apply keep_foldl3 | (fail_if_no_progress refine keep_mk rfl rfl rfl rfl rfl ?_) | refine keep_free rfl rfl rfl rfl rfl ?_)) | dsimp only | split)
theorem recordBroken_keep (s : State) (l : LoadSt) (h0 : Keep k s) :
    Keep k (recordBroken s l) := by
  unfold recordBroken
  repeat' (first | (with_reducible assumption) | (intro _) | (with_reducible (first | apply reject_keep)) | (with_reducible (first | apply keep_ite | apply keep_ite2 | apply keep_ite3 | apply keep_ite1 | apply keep_foldl | apply keep_foldl2 | apply keep_foldl3 | (fail_if_no_progress refine keep_mk rfl rfl rfl rfl rfl ?_) | refine keep_free rfl rfl rfl rfl rfl ?_)) | dsimp only | split)
theorem clearNamed_keep (s : State) (l : LoadSt) (h0 : Keep k s) :
    Keep k (clearNamed s l) := by
  unfold clearNamed
  repeat' (first | (with_reducible assumption) | (intro _) | (with_reducible (first | apply clearReconf_keep)) | (with_reducible (first | apply keep_ite | apply keep_ite2 | apply keep_ite3 | apply keep_ite1 | apply keep_foldl | apply keep_foldl2 | apply keep_foldl3 | (fail_if_no_progress refine keep_mk rfl rfl rfl rfl rfl ?_) | refine keep_free rfl rfl rfl rfl rfl ?_)) | dsimp only | split)
theorem loadFrame_keep (s : State) (l : LoadSt) (a : ℕ) (d : BitVec 4096) (crcOk : Bool) (h0 : Keep k s) :
    Keep k (loadFrame s l a d crcOk).1 := by
  unfold loadFrame
  repeat' (first | (with_reducible assumption) | (intro _) | (with_reducible (first | apply frameWrite_keep)) | (with_reducible (first | apply keep_ite | apply keep_ite2 | apply keep_ite3 | apply keep_ite1 | apply keep_foldl | apply keep_foldl2 | apply keep_foldl3 | (fail_if_no_progress refine keep_mk rfl rfl rfl rfl rfl ?_) | refine keep_free rfl rfl rfl rfl rfl ?_)) | dsimp only | split)
theorem opFrames_keep (n : ℕ) (a : ℕ) (s : State) (h2 : Keep k s) :
    Keep k (opFrames n a s) := by
  unfold opFrames
  repeat' (first | (with_reducible assumption) | (intro _) | (with_reducible (first | apply recordBroken_keep | apply clearNamed_keep)) | (with_reducible (first | apply keep_ite | apply keep_ite2 | apply keep_ite3 | apply keep_ite1 | apply keep_foldl | apply keep_foldl2 | apply keep_foldl3 | (fail_if_no_progress refine keep_mk rfl rfl rfl rfl rfl ?_) | refine keep_free rfl rfl rfl rfl rfl ?_)) | dsimp only | split)
theorem opFrameRecord_keep (ws : List Word) (s : State) (h1 : Keep k s) :
    Keep k (opFrameRecord ws s) := by
  unfold opFrameRecord
  repeat' (first | (with_reducible assumption) | (intro _) | (with_reducible (first | apply recordBroken_keep | apply loadFrame_keep)) | (with_reducible (first | apply keep_ite | apply keep_ite2 | apply keep_ite3 | apply keep_ite1 | apply keep_foldl | apply keep_foldl2 | apply keep_foldl3 | (fail_if_no_progress refine keep_mk rfl rfl rfl rfl rfl ?_) | refine keep_free rfl rfl rfl rfl rfl ?_)) | dsimp only | split)
theorem zeroFrames_keep (x0 : ℕ) (x1 : ℕ) (x2 : State) (x3 : LoadSt) (h2 : Keep k x2) :
    Keep k (zeroFrames x0 x1 x2 x3).1 := by
  induction x0 generalizing x1 x2 x3 with
  | zero => exact h2
  | succ n ih =>
    unfold zeroFrames
    exact ih _ _ _ (loadFrame_keep _ _ _ _ _ h2)
theorem opZero_keep (n : ℕ) (a : ℕ) (s : State) (h2 : Keep k s) :
    Keep k (opZero n a s) := by
  unfold opZero
  repeat' (first | (with_reducible assumption) | (intro _) | (with_reducible (first | apply recordBroken_keep | apply zeroFrames_keep | apply clearNamed_keep)) | (with_reducible (first | apply keep_ite | apply keep_ite2 | apply keep_ite3 | apply keep_ite1 | apply keep_foldl | apply keep_foldl2 | apply keep_foldl3 | (fail_if_no_progress refine keep_mk rfl rfl rfl rfl rfl ?_) | refine keep_free rfl rfl rfl rfl rfl ?_)) | dsimp only | split)
theorem opDieRec_keep (n : ℕ) (ws : List Word) (s : State) (h2 : Keep k s) :
    Keep k (opDieRec n ws s) := by
  unfold opDieRec
  repeat' (first | (with_reducible assumption) | (intro _) | (with_reducible (first | apply recordBroken_keep)) | (with_reducible (first | apply keep_ite | apply keep_ite2 | apply keep_ite3 | apply keep_ite1 | apply keep_foldl | apply keep_foldl2 | apply keep_foldl3 | (fail_if_no_progress refine keep_mk rfl rfl rfl rfl rfl ?_) | refine keep_free rfl rfl rfl rfl rfl ?_)) | dsimp only | split)
theorem opSegmentNop_keep (arg : ℕ) (s : State) (h1 : Keep k s) :
    Keep k (opSegmentNop arg s) := by
  unfold opSegmentNop
  repeat' (first | (with_reducible assumption) | (intro _) | (with_reducible (first | apply recordBroken_keep)) | (with_reducible (first | apply keep_ite | apply keep_ite2 | apply keep_ite3 | apply keep_ite1 | apply keep_foldl | apply keep_foldl2 | apply keep_foldl3 | (fail_if_no_progress refine keep_mk rfl rfl rfl rfl rfl ?_) | refine keep_free rfl rfl rfl rfl rfl ?_)) | dsimp only | split)
theorem applyDieRec_keep (s : State) (d : ℕ) (ws : List Word) (h0 : Keep k s) :
    Keep k (applyDieRec s d ws) := by
  unfold applyDieRec
  repeat' (first | (with_reducible assumption) | (intro _) | (with_reducible (first | apply fflag_keep | apply fset_keep | apply eisUpd_keep)) | (with_reducible (first | apply keep_ite | apply keep_ite2 | apply keep_ite3 | apply keep_ite1 | apply keep_foldl | apply keep_foldl2 | apply keep_foldl3 | (fail_if_no_progress refine keep_mk rfl rfl rfl rfl rfl ?_) | refine keep_free rfl rfl rfl rfl rfl ?_)) | dsimp only | split)
theorem awaitRelease_keep (s : State) (ns : List ℕ) (h0 : Keep k s) :
    Keep k (awaitRelease s ns) := by
  unfold awaitRelease
  repeat' (first | (with_reducible assumption) | (intro _) | (with_reducible (first | apply fflag_keep | apply islUpd_keep)) | (with_reducible (first | apply keep_ite | apply keep_ite2 | apply keep_ite3 | apply keep_ite1 | apply keep_foldl | apply keep_foldl2 | apply keep_foldl3 | (fail_if_no_progress refine keep_mk rfl rfl rfl rfl rfl ?_) | refine keep_free rfl rfl rfl rfl rfl ?_)) | dsimp only | split)
theorem fullPassed_keep (s : State) (l : LoadSt) (h0 : Keep k s) :
    Keep k (fullPassed s l) := by
  unfold fullPassed
  repeat' (first | (with_reducible assumption) | (intro _) | (with_reducible (first | apply setCfgState_keep | apply fset_keep | apply awaitRelease_keep | apply stepEnd_keep | apply loadEnd_keep)) | (with_reducible (first | apply keep_ite | apply keep_ite2 | apply keep_ite3 | apply keep_ite1 | apply keep_foldl | apply keep_foldl2 | apply keep_foldl3 | (fail_if_no_progress refine keep_mk rfl rfl rfl rfl rfl ?_) | refine keep_free rfl rfl rfl rfl rfl ?_)) | dsimp only | split)
theorem opEnd_keep (arg : ℕ) (s : State) (h1 : Keep k s) :
    Keep k (opEnd arg s) := by
  unfold opEnd
  repeat' (first | (with_reducible assumption) | (intro _) | (with_reducible (first | apply clearNamed_keep | apply reject_keep | apply drainStart_keep | apply awaitRelease_keep | apply jEvent_keep | apply applyDieRec_keep | apply fullPassed_keep)) | (with_reducible (first | apply keep_ite | apply keep_ite2 | apply keep_ite3 | apply keep_ite1 | apply keep_foldl | apply keep_foldl2 | apply keep_foldl3 | (fail_if_no_progress refine keep_mk rfl rfl rfl rfl rfl ?_) | refine keep_free rfl rfl rfl rfl rfl ?_)) | dsimp only | split)
theorem opSourceTimeout_keep (s : State) (h0 : Keep k s) :
    Keep k (opSourceTimeout s) := by
  unfold opSourceTimeout
  repeat' (first | (with_reducible assumption) | (intro _) | (with_reducible (first | apply reject_keep)) | (with_reducible (first | apply keep_ite | apply keep_ite2 | apply keep_ite3 | apply keep_ite1 | apply keep_foldl | apply keep_foldl2 | apply keep_foldl3 | (fail_if_no_progress refine keep_mk rfl rfl rfl rfl rfl ?_) | refine keep_free rfl rfl rfl rfl rfl ?_)) | dsimp only | split)
theorem fullInForce_keep (s : State) (l : LoadSt) (h0 : Keep k s) :
    Keep k (fullInForce s l) := by
  unfold fullInForce
  repeat' (first | (with_reducible assumption) | (intro _) | (with_reducible (first | apply fset_keep | apply setCfgState_keep | apply fflag_keep | apply setIslState_keep | apply islUpd_keep)) | (with_reducible (first | apply keep_ite | apply keep_ite2 | apply keep_ite3 | apply keep_ite1 | apply keep_foldl | apply keep_foldl2 | apply keep_foldl3 | (fail_if_no_progress refine keep_mk rfl rfl rfl rfl rfl ?_) | refine keep_free rfl rfl rfl rfl rfl ?_)) | dsimp only | split)
theorem finishLoad_keep (s : State) (h0 : Keep k s) :
    Keep k (finishLoad s) := by
  unfold finishLoad
  repeat' (first | (with_reducible assumption) | (intro _) | (with_reducible (first | apply partialDone_keep | apply fullInForce_keep)) | (with_reducible (first | apply keep_ite | apply keep_ite2 | apply keep_ite3 | apply keep_ite1 | apply keep_foldl | apply keep_foldl2 | apply keep_foldl3 | (fail_if_no_progress refine keep_mk rfl rfl rfl rfl rfl ?_) | refine keep_free rfl rfl rfl rfl rfl ?_)) | dsimp only | split)
theorem opLockFail_keep (n : ℕ) (s : State) (h1 : Keep k s) :
    Keep k (opLockFail n s) := by
  unfold opLockFail
  repeat' (first | (with_reducible assumption) | (intro _) | (with_reducible (first | apply alarmCfg_keep | apply rejectPartial_keep | apply finishLoad_keep | apply islUpd_keep)) | (with_reducible (first | apply keep_ite | apply keep_ite2 | apply keep_ite3 | apply keep_ite1 | apply keep_foldl | apply keep_foldl2 | apply keep_foldl3 | (fail_if_no_progress refine keep_mk rfl rfl rfl rfl rfl ?_) | refine keep_free rfl rfl rfl rfl rfl ?_)) | dsimp only | split)

end Sys2Proof.Machine
end

