-- ==== Sys2Proof/Laws/KeepBight.lean ====
section
/-! SUPPORT. The operations of Machine/Bight.lean keep the queue, the counts that only rise, and `Inv`. -/

namespace Sys2Proof.Machine

set_option linter.unusedTactic false
set_option linter.unreachableTactic false
set_option linter.unusedVariables false

variable {k : KeepAt}

theorem closeBypass_keep (s : State) (b : Bool) (h0 : Keep k s) :
    Keep k (closeBypass s b) := by
  unfold closeBypass
  repeat' (first | (with_reducible assumption) | (intro _) | (with_reducible (first | apply fflag_keep)) | (with_reducible (first | apply keep_ite | apply keep_ite2 | apply keep_ite3 | apply keep_ite1 | apply keep_foldl | apply keep_foldl2 | apply keep_foldl3 | (fail_if_no_progress refine keep_mk rfl rfl rfl rfl rfl ?_) | refine keep_free rfl rfl rfl rfl rfl ?_)) | dsimp only | split)
theorem closeBights_keep (s : State) (h0 : Keep k s) :
    Keep k (closeBights s) := by
  unfold closeBights
  repeat' (first | (with_reducible assumption) | (intro _) | (with_reducible (first | apply closeBypass_keep)) | (with_reducible (first | apply keep_ite | apply keep_ite2 | apply keep_ite3 | apply keep_ite1 | apply keep_foldl | apply keep_foldl2 | apply keep_foldl3 | (fail_if_no_progress refine keep_mk rfl rfl rfl rfl rfl ?_) | refine keep_free rfl rfl rfl rfl rfl ?_)) | dsimp only | split)
theorem setReady_keep (s : State) (b : Bool) (v : ℕ) (h0 : Keep k s) :
    Keep k (setReady s b v) := by
  unfold setReady
  repeat' (first | (with_reducible assumption) | (intro _) | (with_reducible (first | apply keep_ite | apply keep_ite2 | apply keep_ite3 | apply keep_ite1 | apply keep_foldl | apply keep_foldl2 | apply keep_foldl3 | (fail_if_no_progress refine keep_mk rfl rfl rfl rfl rfl ?_) | refine keep_free rfl rfl rfl rfl rfl ?_)) | dsimp only | split)
theorem opBightLaneUp_keep (b : Bool) (s : State) (h1 : Keep k s) :
    Keep k (opBightLaneUp b s) := by
  unfold opBightLaneUp
  repeat' (first | (with_reducible assumption) | (intro _) | (with_reducible (first | apply fflag_keep | apply setReady_keep)) | (with_reducible (first | apply keep_ite | apply keep_ite2 | apply keep_ite3 | apply keep_ite1 | apply keep_foldl | apply keep_foldl2 | apply keep_foldl3 | (fail_if_no_progress refine keep_mk rfl rfl rfl rfl rfl ?_) | refine keep_free rfl rfl rfl rfl rfl ?_)) | dsimp only | split)
theorem opBightRelease_keep (b : Bool) (s : State) (h1 : Keep k s) :
    Keep k (opBightRelease b s) := by
  unfold opBightRelease
  repeat' (first | (with_reducible assumption) | (intro _) | (with_reducible (first | apply fflag_keep)) | (with_reducible (first | apply keep_ite | apply keep_ite2 | apply keep_ite3 | apply keep_ite1 | apply keep_foldl | apply keep_foldl2 | apply keep_foldl3 | (fail_if_no_progress refine keep_mk rfl rfl rfl rfl rfl ?_) | refine keep_free rfl rfl rfl rfl rfl ?_)) | dsimp only | split)
theorem opBightLaneLost_keep (b : Bool) (s : State) (h1 : Keep k s) :
    Keep k (opBightLaneLost b s) := by
  unfold opBightLaneLost
  repeat' (first | (with_reducible assumption) | (intro _) | (with_reducible (first | apply closeBypass_keep | apply setReady_keep | apply fflag_keep)) | (with_reducible (first | apply keep_ite | apply keep_ite2 | apply keep_ite3 | apply keep_ite1 | apply keep_foldl | apply keep_foldl2 | apply keep_foldl3 | (fail_if_no_progress refine keep_mk rfl rfl rfl rfl rfl ?_) | refine keep_free rfl rfl rfl rfl rfl ?_)) | dsimp only | split)
theorem opBightWatchdog_keep (s : State) (h0 : Keep k s) :
    Keep k (opBightWatchdog s) := by
  unfold opBightWatchdog
  repeat' (first | (with_reducible assumption) | (intro _) | (with_reducible (first | apply closeBights_keep | apply finc_keep)) | (with_reducible (first | apply keep_ite | apply keep_ite2 | apply keep_ite3 | apply keep_ite1 | apply keep_foldl | apply keep_foldl2 | apply keep_foldl3 | (fail_if_no_progress refine keep_mk rfl rfl rfl rfl rfl ?_) | refine keep_free rfl rfl rfl rfl rfl ?_)) | dsimp only | split)
theorem showRx_keep (s : State) (h0 : Keep k s) :
    Keep k (showRx s) := by
  unfold showRx
  repeat' (first | (with_reducible assumption) | (intro _) | (with_reducible (first | apply fset_keep | apply fflag_keep)) | (with_reducible (first | apply keep_ite | apply keep_ite2 | apply keep_ite3 | apply keep_ite1 | apply keep_foldl | apply keep_foldl2 | apply keep_foldl3 | (fail_if_no_progress refine keep_mk rfl rfl rfl rfl rfl ?_) | refine keep_free rfl rfl rfl rfl rfl ?_)) | dsimp only | split)
theorem opRingFrameReceive_keep (b : Bool) (f : List Byte) (s : State) (h2 : Keep k s) :
    Keep k (opRingFrameReceive b f s) := by
  unfold opRingFrameReceive
  repeat' (first | (with_reducible assumption) | (intro _) | (with_reducible (first | apply finc_keep | apply showRx_keep | apply answerBytes_keep)) | (with_reducible (first | apply keep_ite | apply keep_ite2 | apply keep_ite3 | apply keep_ite1 | apply keep_foldl | apply keep_foldl2 | apply keep_foldl3 | (fail_if_no_progress refine keep_mk rfl rfl rfl rfl rfl ?_) | refine keep_free rfl rfl rfl rfl rfl ?_)) | dsimp only | split)
theorem opRingFrameInsert_keep (elasticEmpty : Bool) (s : State) (h1 : Keep k s) :
    Keep k (opRingFrameInsert elasticEmpty s) := by
  unfold opRingFrameInsert
  repeat' (first | (with_reducible assumption) | (intro _) | (with_reducible (first | apply answerBytes_keep | apply fflag_keep)) | (with_reducible (first | apply keep_ite | apply keep_ite2 | apply keep_ite3 | apply keep_ite1 | apply keep_foldl | apply keep_foldl2 | apply keep_foldl3 | (fail_if_no_progress refine keep_mk rfl rfl rfl rfl rfl ?_) | refine keep_free rfl rfl rfl rfl rfl ?_)) | dsimp only | split)
theorem actTxGo_keep (s : State) (h0 : Keep k s) :
    Keep k (actTxGo s) := by
  unfold actTxGo
  repeat' (first | (with_reducible assumption) | (intro _) | (with_reducible (first | apply fflag_keep)) | (with_reducible (first | apply keep_ite | apply keep_ite2 | apply keep_ite3 | apply keep_ite1 | apply keep_foldl | apply keep_foldl2 | apply keep_foldl3 | (fail_if_no_progress refine keep_mk rfl rfl rfl rfl rfl ?_) | refine keep_free rfl rfl rfl rfl rfl ?_)) | dsimp only | split)
theorem actRxPop_keep (s : State) (h0 : Keep k s) :
    Keep k (actRxPop s) := by
  unfold actRxPop
  repeat' (first | (with_reducible assumption) | (intro _) | (with_reducible (first | apply showRx_keep)) | (with_reducible (first | apply keep_ite | apply keep_ite2 | apply keep_ite3 | apply keep_ite1 | apply keep_foldl | apply keep_foldl2 | apply keep_foldl3 | (fail_if_no_progress refine keep_mk rfl rfl rfl rfl rfl ?_) | refine keep_free rfl rfl rfl rfl rfl ?_)) | dsimp only | split)

end Sys2Proof.Machine
end

