-- ==== Sys2Proof/Laws/KeepScrub.lean ====
section
/-! SUPPORT. The operations of Machine/Scrub.lean keep the queue, the counts that only rise, and `Inv`. -/

namespace Sys2Proof.Machine

set_option linter.unusedTactic false
set_option linter.unreachableTactic false
set_option linter.unusedVariables false

variable {k : KeepAt}

theorem forceSet_keep (s : State) (n : ℕ) (t : ℕ) (K : ℕ) (x : ℕ) (h0 : Keep k s) :
    Keep k (forceSet s n t K x) := by
  unfold forceSet
  repeat' (first | (with_reducible assumption) | (intro _) | (with_reducible (first | apply ffPut_keep)) | (with_reducible (first | apply keep_ite | apply keep_ite2 | apply keep_ite3 | apply keep_ite1 | apply keep_foldl | apply keep_foldl2 | apply keep_foldl3 | (fail_if_no_progress refine keep_mk rfl rfl rfl rfl rfl ?_) | refine keep_free rfl rfl rfl rfl rfl ?_)) | dsimp only | split)
theorem settleSr_keep (s : State) (n : ℕ) (f : ℕ) (h0 : Keep k s) :
    Keep k (settleSr s n f) := by
  unfold settleSr
  repeat' (first | (with_reducible assumption) | (intro _) | (with_reducible (first | apply forceSet_keep)) | (with_reducible (first | apply keep_ite | apply keep_ite2 | apply keep_ite3 | apply keep_ite1 | apply keep_foldl | apply keep_foldl2 | apply keep_foldl3 | (fail_if_no_progress refine keep_mk rfl rfl rfl rfl rfl ?_) | refine keep_free rfl rfl rfl rfl rfl ?_)) | dsimp only | split)
theorem opConfigUpset_keep (n : ℕ) (f : ℕ) (bits : List ℕ) (s : State) (h3 : Keep k s) :
    Keep k (opConfigUpset n f bits s) := by
  unfold opConfigUpset
  repeat' (first | (with_reducible assumption) | (intro _) | (with_reducible (first | apply settleSr_keep | apply frameSet_keep)) | (with_reducible (first | apply keep_ite | apply keep_ite2 | apply keep_ite3 | apply keep_ite1 | apply keep_foldl | apply keep_foldl2 | apply keep_foldl3 | (fail_if_no_progress refine keep_mk rfl rfl rfl rfl rfl ?_) | refine keep_free rfl rfl rfl rfl rfl ?_)) | dsimp only | split)
theorem csRecord_keep (s : State) (d : ℕ) (a : ℕ) (ue : Bool) (h0 : Keep k s) :
    Keep k (csRecord s d a ue) := by
  unfold csRecord
  repeat' (first | (with_reducible assumption) | (intro _) | (with_reducible (first | apply fflag_keep | apply fset_keep)) | (with_reducible (first | apply keep_ite | apply keep_ite2 | apply keep_ite3 | apply keep_ite1 | apply keep_foldl | apply keep_foldl2 | apply keep_foldl3 | (fail_if_no_progress refine keep_mk rfl rfl rfl rfl rfl ?_) | refine keep_free rfl rfl rfl rfl rfl ?_)) | dsimp only | split)
theorem selRecord_keep (s : State) (n : ℕ) (f : ℕ) (b : ℕ) (h0 : Keep k s) :
    Keep k (selRecord s n f b) := by
  unfold selRecord
  repeat' (first | (with_reducible assumption) | (intro _) | (with_reducible (first | apply fset_keep | apply finc_keep | apply fflag_keep)) | (with_reducible (first | apply keep_ite | apply keep_ite2 | apply keep_ite3 | apply keep_ite1 | apply keep_foldl | apply keep_foldl2 | apply keep_foldl3 | (fail_if_no_progress refine keep_mk rfl rfl rfl rfl rfl ?_) | refine keep_free rfl rfl rfl rfl rfl ?_)) | dsimp only | split)
theorem scrubOne_keep (s : State) (n : ℕ) (f : ℕ) (h0 : Keep k s) :
    Keep k (scrubOne s n f) := by
  unfold scrubOne
  repeat' (first | (with_reducible assumption) | (intro _) | (with_reducible (first | apply finc_keep | apply csRecord_keep | apply frameSet_keep | apply alarmCfg_keep | apply selRecord_keep | apply settleSr_keep)) | (with_reducible (first | apply keep_ite | apply keep_ite2 | apply keep_ite3 | apply keep_ite1 | apply keep_foldl | apply keep_foldl2 | apply keep_foldl3 | (fail_if_no_progress refine keep_mk rfl rfl rfl rfl rfl ?_) | refine keep_free rfl rfl rfl rfl rfl ?_)) | dsimp only | split)
theorem csAdvance_keep (s : State) (d : ℕ) (pos : ℕ) (h0 : Keep k s) :
    Keep k (csAdvance s d pos) := by
  unfold csAdvance
  repeat' (first | (with_reducible assumption) | (intro _) | (with_reducible (first | apply fset_keep | apply fincWrap_keep)) | (with_reducible (first | apply keep_ite | apply keep_ite2 | apply keep_ite3 | apply keep_ite1 | apply keep_foldl | apply keep_foldl2 | apply keep_foldl3 | (fail_if_no_progress refine keep_mk rfl rfl rfl rfl rfl ?_) | refine keep_free rfl rfl rfl rfl rfl ?_)) | dsimp only | split)
theorem opScrubFrame_keep (d : ℕ) (s : State) (h1 : Keep k s) :
    Keep k (opScrubFrame d s) := by
  unfold opScrubFrame
  repeat' (first | (with_reducible assumption) | (intro _) | (with_reducible (first | apply csAdvance_keep | apply scrubOne_keep)) | (with_reducible (first | apply keep_ite | apply keep_ite2 | apply keep_ite3 | apply keep_ite1 | apply keep_foldl | apply keep_foldl2 | apply keep_foldl3 | (fail_if_no_progress refine keep_mk rfl rfl rfl rfl rfl ?_) | refine keep_free rfl rfl rfl rfl rfl ?_)) | dsimp only | split)
theorem csRestart_keep (s : State) (d : ℕ) (h0 : Keep k s) :
    Keep k (csRestart s d) := by
  unfold csRestart
  repeat' (first | (with_reducible assumption) | (intro _) | (with_reducible (first | apply keep_ite | apply keep_ite2 | apply keep_ite3 | apply keep_ite1 | apply keep_foldl | apply keep_foldl2 | apply keep_foldl3 | (fail_if_no_progress refine keep_mk rfl rfl rfl rfl rfl ?_) | refine keep_free rfl rfl rfl rfl rfl ?_)) | dsimp only | split)
theorem opScrubStall_keep (d : ℕ) (s : State) (h1 : Keep k s) :
    Keep k (opScrubStall d s) := by
  unfold opScrubStall
  repeat' (first | (with_reducible assumption) | (intro _) | (with_reducible (first | apply jEvent_keep | apply finc_keep | apply csRestart_keep)) | (with_reducible (first | apply keep_ite | apply keep_ite2 | apply keep_ite3 | apply keep_ite1 | apply keep_foldl | apply keep_foldl2 | apply keep_foldl3 | (fail_if_no_progress refine keep_mk rfl rfl rfl rfl rfl ?_) | refine keep_free rfl rfl rfl rfl rfl ?_)) | dsimp only | split)
theorem opFrameRepair_keep (n : ℕ) (f : ℕ) (source : Option (BitVec 4096)) (s : State) (h3 : Keep k s) :
    Keep k (opFrameRepair n f source s) := by
  unfold opFrameRepair
  repeat' (first | (with_reducible assumption) | (intro _) | (with_reducible (first | apply jEvent_keep | apply settleSr_keep | apply frameWrite_keep | apply recordErr_keep | apply islUpd_keep | apply islClamp_keep | apply alarmCfg_keep)) | (with_reducible (first | apply keep_ite | apply keep_ite2 | apply keep_ite3 | apply keep_ite1 | apply keep_foldl | apply keep_foldl2 | apply keep_foldl3 | (fail_if_no_progress refine keep_mk rfl rfl rfl rfl rfl ?_) | refine keep_free rfl rfl rfl rfl rfl ?_)) | dsimp only | split)
theorem actCsClr_keep (d : ℕ) (s : State) (h1 : Keep k s) :
    Keep k (actCsClr d s) := by
  unfold actCsClr
  repeat' (first | (with_reducible assumption) | (intro _) | (with_reducible (first | apply csrWipe_keep)) | (with_reducible (first | apply keep_ite | apply keep_ite2 | apply keep_ite3 | apply keep_ite1 | apply keep_foldl | apply keep_foldl2 | apply keep_foldl3 | (fail_if_no_progress refine keep_mk rfl rfl rfl rfl rfl ?_) | refine keep_free rfl rfl rfl rfl rfl ?_)) | dsimp only | split)
theorem actCfgErrClr_keep (s : State) (h0 : Keep k s) :
    Keep k (actCfgErrClr s) := by
  unfold actCfgErrClr
  repeat' (first | (with_reducible assumption) | (intro _) | (with_reducible (first | apply csrWipe_keep)) | (with_reducible (first | apply keep_ite | apply keep_ite2 | apply keep_ite3 | apply keep_ite1 | apply keep_foldl | apply keep_foldl2 | apply keep_foldl3 | (fail_if_no_progress refine keep_mk rfl rfl rfl rfl rfl ?_) | refine keep_free rfl rfl rfl rfl rfl ?_)) | dsimp only | split)
theorem actSelClr_keep (d : ℕ) (s : State) (h1 : Keep k s) :
    Keep k (actSelClr d s) := by
  unfold actSelClr
  repeat' (first | (with_reducible assumption) | (intro _) | (with_reducible (first | apply csrWipe_keep)) | (with_reducible (first | apply keep_ite | apply keep_ite2 | apply keep_ite3 | apply keep_ite1 | apply keep_foldl | apply keep_foldl2 | apply keep_foldl3 | (fail_if_no_progress refine keep_mk rfl rfl rfl rfl rfl ?_) | refine keep_free rfl rfl rfl rfl rfl ?_)) | dsimp only | split)
theorem portPut_keep (s : State) (b : List Byte) (h0 : Keep k s) :
    Keep k (portPut s b) := by
  unfold portPut
  repeat' (first | (with_reducible assumption) | (intro _) | (with_reducible (first | apply keep_ite | apply keep_ite2 | apply keep_ite3 | apply keep_ite1 | apply keep_foldl | apply keep_foldl2 | apply keep_foldl3 | (fail_if_no_progress refine keep_mk rfl rfl rfl rfl rfl ?_) | refine keep_free rfl rfl rfl rfl rfl ?_)) | dsimp only | split)
theorem opHparWord_keep (v : Word) (s : State) (h1 : Keep k s) :
    Keep k (opHparWord v s) := by
  unfold opHparWord
  repeat' (first | (with_reducible assumption) | (intro _) | (with_reducible (first | apply portPut_keep)) | (with_reducible (first | apply keep_ite | apply keep_ite2 | apply keep_ite3 | apply keep_ite1 | apply keep_foldl | apply keep_foldl2 | apply keep_foldl3 | (fail_if_no_progress refine keep_mk rfl rfl rfl rfl rfl ?_) | refine keep_free rfl rfl rfl rfl rfl ?_)) | dsimp only | split)
theorem opHspiByte_keep (b : Byte) (s : State) (h1 : Keep k s) :
    Keep k (opHspiByte b s) := by
  unfold opHspiByte
  repeat' (first | (with_reducible assumption) | (intro _) | (with_reducible (first | apply portPut_keep)) | (with_reducible (first | apply keep_ite | apply keep_ite2 | apply keep_ite3 | apply keep_ite1 | apply keep_foldl | apply keep_foldl2 | apply keep_foldl3 | (fail_if_no_progress refine keep_mk rfl rfl rfl rfl rfl ?_) | refine keep_free rfl rfl rfl rfl rfl ?_)) | dsimp only | split)
theorem opCfgWord_keep (v : Word) (s : State) (h1 : Keep k s) :
    Keep k (opCfgWord v s) := by
  unfold opCfgWord
  repeat' (first | (with_reducible assumption) | (intro _) | (with_reducible (first | apply portPut_keep)) | (with_reducible (first | apply keep_ite | apply keep_ite2 | apply keep_ite3 | apply keep_ite1 | apply keep_foldl | apply keep_foldl2 | apply keep_foldl3 | (fail_if_no_progress refine keep_mk rfl rfl rfl rfl rfl ?_) | refine keep_free rfl rfl rfl rfl rfl ?_)) | dsimp only | split)
theorem actRawfGo_keep (s : State) (h0 : Keep k s) :
    Keep k (actRawfGo s) := by
  unfold actRawfGo
  repeat' (first | (with_reducible assumption) | (intro _) | (with_reducible (first | apply fflag_keep)) | (with_reducible (first | apply keep_ite | apply keep_ite2 | apply keep_ite3 | apply keep_ite1 | apply keep_foldl | apply keep_foldl2 | apply keep_foldl3 | (fail_if_no_progress refine keep_mk rfl rfl rfl rfl rfl ?_) | refine keep_free rfl rfl rfl rfl rfl ?_)) | dsimp only | split)
theorem opRawfAccess_keep (s : State) (h0 : Keep k s) :
    Keep k (opRawfAccess s) := by
  unfold opRawfAccess
  repeat' (first | (with_reducible assumption) | (intro _) | (with_reducible (first | apply fflag_keep | apply frameWrite_keep | apply recordErr_keep | apply settleSr_keep | apply fset_keep)) | (with_reducible (first | apply keep_ite | apply keep_ite2 | apply keep_ite3 | apply keep_ite1 | apply keep_foldl | apply keep_foldl2 | apply keep_foldl3 | (fail_if_no_progress refine keep_mk rfl rfl rfl rfl rfl ?_) | refine keep_free rfl rfl rfl rfl rfl ?_)) | dsimp only | split)

end Sys2Proof.Machine
end

