-- ==== Sys2Proof/Laws/KeepEngLoad.lean ====
section
/-! SUPPORT. The operations of Machine/EngLoad.lean keep the queue, the counts that only rise, and `Inv`. -/

namespace Sys2Proof.Machine

set_option linter.unusedTactic false
set_option linter.unreachableTactic false
set_option linter.unusedVariables false

variable {k : KeepAt}

theorem dmcWaits_keep (s : State) (a : ℕ) (h0 : Keep k s) :
    Keep k (dmcWaits s a) := by
  unfold dmcWaits
  repeat' (first | (with_reducible assumption) | (intro _) | (with_reducible (first | apply opSubtreeResetDone_keep | apply opZeroFillDone_keep | apply opRekeyDone_keep)) | (with_reducible (first | apply keep_ite | apply keep_ite2 | apply keep_ite3 | apply keep_ite1 | apply keep_foldl | apply keep_foldl2 | apply keep_foldl3 | (fail_if_no_progress refine keep_mk rfl rfl rfl rfl rfl ?_) | refine keep_free rfl rfl rfl rfl rfl ?_)) | dsimp only | split)
theorem dmcChunk_keep (s : State) (part : ℕ) (a : ℕ) (n : ℕ) (h0 : Keep k s) :
    Keep k (dmcChunk s part a n).2.2 := by
  unfold dmcChunk
  repeat' (first | (with_reducible assumption) | (intro _) | (with_reducible (first | apply granUse_keep | apply dmcWaits_keep | apply readLines_keep)) | (with_reducible (first | apply keep_ite | apply keep_ite2 | apply keep_ite3 | apply keep_ite1 | apply keep_foldl | apply keep_foldl2 | apply keep_foldl3 | (fail_if_no_progress refine keep_mk rfl rfl rfl rfl rfl ?_) | refine keep_free rfl rfl rfl rfl rfl ?_)) | dsimp only | split)
theorem dmcReads_keep (part : ℕ) (x1 : ℕ) (x2 : ℕ) (x3 : ℕ) (x4 : State) (h4 : Keep k x4) :
    Keep k (dmcReads part x1 x2 x3 x4).2.2 := by
  induction x1 generalizing x2 x3 x4 with
  | zero => exact h4
  | succ n ih =>
    unfold dmcReads
    repeat' (first | (with_reducible assumption) | (intro _) | (with_reducible (first | apply ih | apply dmcChunk_keep)) | dsimp only | split)
theorem dmcRead_keep (s : State) (part : ℕ) (a : ℕ) (n : ℕ) (h0 : Keep k s) :
    Keep k (dmcRead s part a n).2.2 := by
  unfold dmcRead
  repeat' (first | (with_reducible assumption) | (intro _) | (with_reducible (first | apply dmcReads_keep)) | (with_reducible (first | apply keep_ite | apply keep_ite2 | apply keep_ite3 | apply keep_ite1 | apply keep_foldl | apply keep_foldl2 | apply keep_foldl3 | (fail_if_no_progress refine keep_mk rfl rfl rfl rfl rfl ?_) | refine keep_free rfl rfl rfl rfl rfl ?_)) | dsimp only | split)
theorem setBind_keep (s : State) (n : ℕ) (cls : ℕ) (bound : Bool) (h0 : Keep k s) :
    Keep k (setBind s n cls bound) := by
  unfold setBind
  repeat' (first | (with_reducible assumption) | (intro _) | (with_reducible (first | apply fflag_keep | apply fset_keep | apply eisUpd_keep)) | (with_reducible (first | apply keep_ite | apply keep_ite2 | apply keep_ite3 | apply keep_ite1 | apply keep_foldl | apply keep_foldl2 | apply keep_foldl3 | (fail_if_no_progress refine keep_mk rfl rfl rfl rfl rfl ?_) | refine keep_free rfl rfl rfl rfl rfl ?_)) | dsimp only | split)
theorem installImg_keep (s : State) (n : ℕ) (m : EngImg) (h0 : Keep k s) :
    Keep k (installImg s n m) := by
  unfold installImg
  repeat' (first | (with_reducible assumption) | (intro _) | (with_reducible (first | apply engUpd_keep | apply fset_keep | apply setEngState_keep)) | (with_reducible (first | apply keep_ite | apply keep_ite2 | apply keep_ite3 | apply keep_ite1 | apply keep_foldl | apply keep_foldl2 | apply keep_foldl3 | (fail_if_no_progress refine keep_mk rfl rfl rfl rfl rfl ?_) | refine keep_free rfl rfl rfl rfl rfl ?_)) | dsimp only | split)
theorem reloadImg_keep (s : State) (n : ℕ) (h0 : Keep k s) :
    Keep k (reloadImg s n).2 := by
  unfold reloadImg
  repeat' (first | (with_reducible assumption) | (intro _) | (with_reducible (first | apply jEvent_keep | apply dmcRead_keep | apply installImg_keep)) | (with_reducible (first | apply keep_ite | apply keep_ite2 | apply keep_ite3 | apply keep_ite1 | apply keep_foldl | apply keep_foldl2 | apply keep_foldl3 | (fail_if_no_progress refine keep_mk rfl rfl rfl rfl rfl ?_) | refine keep_free rfl rfl rfl rfl rfl ?_)) | dsimp only | split)
theorem eisPowerOff_keep (s : State) (e : ℕ) (st : ℕ) (h0 : Keep k s) :
    Keep k (eisPowerOff s e st) := by
  unfold eisPowerOff
  repeat' (first | (with_reducible assumption) | (intro _) | (with_reducible (first | apply engSet_keep | apply haltRun_keep | apply csrClear_keep | apply fflag_keep | apply nicReset_keep | apply eisUpd_keep)) | (with_reducible (first | apply keep_ite | apply keep_ite2 | apply keep_ite3 | apply keep_ite1 | apply keep_foldl | apply keep_foldl2 | apply keep_foldl3 | (fail_if_no_progress refine keep_mk rfl rfl rfl rfl rfl ?_) | refine keep_free rfl rfl rfl rfl rfl ?_)) | dsimp only | split)
theorem eisWake_keep (s : State) (e : ℕ) (h0 : Keep k s) :
    Keep k (eisWake s e).2 := by
  unfold eisWake
  repeat' (first | (with_reducible assumption) | (intro _) | (with_reducible (first | apply eisUpd_keep | apply fset_keep | apply reloadImg_keep | apply setBind_keep)) | (with_reducible (first | apply keep_ite | apply keep_ite2 | apply keep_ite3 | apply keep_ite1 | apply keep_foldl | apply keep_foldl2 | apply keep_foldl3 | (fail_if_no_progress refine keep_mk rfl rfl rfl rfl rfl ?_) | refine keep_free rfl rfl rfl rfl rfl ?_)) | dsimp only | split)

end Sys2Proof.Machine
end

