-- ==== Sys2Proof/Laws/KeepPower.lean ====
section
/-! SUPPORT. The operations of Machine/Power.lean keep the queue, the counts that only rise, and `Inv`. -/

namespace Sys2Proof.Machine

set_option linter.unusedTactic false
set_option linter.unreachableTactic false
set_option linter.unusedVariables false

variable {k : KeepAt}

theorem keepAo_keep (s : State) (t : State) (h0 : Keep k s) (h1 : Keep k t) :
    Keep k (keepAo s t) := by
  unfold keepAo
  repeat' (first | (with_reducible assumption) | (intro _) | (with_reducible (first | apply fset_keep)) | (with_reducible (first | apply keep_ite | apply keep_ite2 | apply keep_ite3 | apply keep_ite1 | apply keep_foldl | apply keep_foldl2 | apply keep_foldl3 | (fail_if_no_progress refine keep_mk rfl rfl rfl rfl rfl ?_) | refine keep_free rfl rfl rfl rfl rfl ?_)) | dsimp only | split)
theorem unpowered_keep (s : State) (h0 : Keep k s) :
    Keep k (unpowered s) := by
  exact ⟨h0.1, h0.2.1, h0.2.2.1, by simp [unpowered, Memory.wf, twf], by simp [unpowered, rising]⟩
theorem underReset_keep (s : State) (h0 : Keep k s) :
    Keep k (underReset s) := by
  unfold underReset
  repeat' (first | (with_reducible assumption) | (intro _) | (with_reducible (first | apply unpowered_keep | apply keepAo_keep)) | (with_reducible (first | apply keep_ite | apply keep_ite2 | apply keep_ite3 | apply keep_ite1 | apply keep_foldl | apply keep_foldl2 | apply keep_foldl3 | (fail_if_no_progress refine keep_mk rfl rfl rfl rfl rfl ?_) | refine keep_free rfl rfl rfl rfl rfl ?_)) | dsimp only | split)
theorem goDormant_keep (s : State) (h0 : Keep k s) :
    Keep k (goDormant s) := by
  unfold goDormant
  repeat' (first | (with_reducible assumption) | (intro _) | (with_reducible (first | apply underReset_keep | apply pwrUpd_keep)) | (with_reducible (first | apply keep_ite | apply keep_ite2 | apply keep_ite3 | apply keep_ite1 | apply keep_foldl | apply keep_foldl2 | apply keep_foldl3 | (fail_if_no_progress refine keep_mk rfl rfl rfl rfl rfl ?_) | refine keep_free rfl rfl rfl rfl rfl ?_)) | dsimp only | split)
theorem setDevState_keep (s : State) (v : ℕ) (h0 : Keep k s) :
    Keep k (setDevState s v) := by
  unfold setDevState
  repeat' (first | (with_reducible assumption) | (intro _) | (with_reducible (first | apply fset_keep)) | (with_reducible (first | apply keep_ite | apply keep_ite2 | apply keep_ite3 | apply keep_ite1 | apply keep_foldl | apply keep_foldl2 | apply keep_foldl3 | (fail_if_no_progress refine keep_mk rfl rfl rfl rfl rfl ?_) | refine keep_free rfl rfl rfl rfl rfl ?_)) | dsimp only | split)
theorem dormantEntry_keep (s : State) (h0 : Keep k s) :
    Keep k (dormantEntry s) := by
  unfold dormantEntry
  repeat' (first | (with_reducible assumption) | (intro _) | (with_reducible (first | apply goDormant_keep | apply finc_keep | apply fflag_keep | apply fset_keep | apply pwrUpd_keep)) | (with_reducible (first | apply keep_ite | apply keep_ite2 | apply keep_ite3 | apply keep_ite1 | apply keep_foldl | apply keep_foldl2 | apply keep_foldl3 | (fail_if_no_progress refine keep_mk rfl rfl rfl rfl rfl ?_) | refine keep_free rfl rfl rfl rfl rfl ?_)) | dsimp only | split)
theorem dormantCommit_keep (s : State) (h0 : Keep k s) :
    Keep k (dormantCommit s) := by
  unfold dormantCommit
  repeat' (first | (with_reducible assumption) | (intro _) | (with_reducible (first | apply drainStart_keep | apply closeBights_keep | apply pwrUpd_keep | apply setDevState_keep)) | (with_reducible (first | apply keep_ite | apply keep_ite2 | apply keep_ite3 | apply keep_ite1 | apply keep_foldl | apply keep_foldl2 | apply keep_foldl3 | (fail_if_no_progress refine keep_mk rfl rfl rfl rfl rfl ?_) | refine keep_free rfl rfl rfl rfl rfl ?_)) | dsimp only | split)
theorem dormantCycle_keep (s : State) (h0 : Keep k s) :
    Keep k (dormantCycle s) := by
  unfold dormantCycle
  repeat' (first | (with_reducible assumption) | (intro _) | (with_reducible (first | apply dormantEntry_keep)) | (with_reducible (first | apply keep_ite | apply keep_ite2 | apply keep_ite3 | apply keep_ite1 | apply keep_foldl | apply keep_foldl2 | apply keep_foldl3 | (fail_if_no_progress refine keep_mk rfl rfl rfl rfl rfl ?_) | refine keep_free rfl rfl rfl rfl rfl ?_)) | dsimp only | split)
theorem sleepCommit_keep (s : State) (h0 : Keep k s) :
    Keep k (sleepCommit s) := by
  unfold sleepCommit
  repeat' (first | (with_reducible assumption) | (intro _) | (with_reducible (first | apply setDevState_keep | apply closeBights_keep | apply pwrUpd_keep | apply drainStart_keep)) | (with_reducible (first | apply keep_ite | apply keep_ite2 | apply keep_ite3 | apply keep_ite1 | apply keep_foldl | apply keep_foldl2 | apply keep_foldl3 | (fail_if_no_progress refine keep_mk rfl rfl rfl rfl rfl ?_) | refine keep_free rfl rfl rfl rfl rfl ?_)) | dsimp only | split)
theorem sleepRequest_keep (s : State) (dormant : Bool) (bell : Bool) (h0 : Keep k s) :
    Keep k (sleepRequest s dormant bell).2 := by
  unfold sleepRequest
  repeat' (first | (with_reducible assumption) | (intro _) | (with_reducible (first | apply finc_keep | apply dormantCommit_keep | apply sleepCommit_keep)) | (with_reducible (first | apply keep_ite | apply keep_ite2 | apply keep_ite3 | apply keep_ite1 | apply keep_foldl | apply keep_foldl2 | apply keep_foldl3 | (fail_if_no_progress refine keep_mk rfl rfl rfl rfl rfl ?_) | refine keep_free rfl rfl rfl rfl rfl ?_)) | dsimp only | split)
theorem islSleep_keep (s : State) (n : ℕ) (h0 : Keep k s) :
    Keep k (islSleep s n) := by
  unfold islSleep
  repeat' (first | (with_reducible assumption) | (intro _) | (with_reducible (first | apply islIsolate_keep | apply answerPending_keep | apply islPowerOff_keep | apply islUpd_keep)) | (with_reducible (first | apply keep_ite | apply keep_ite2 | apply keep_ite3 | apply keep_ite1 | apply keep_foldl | apply keep_foldl2 | apply keep_foldl3 | (fail_if_no_progress refine keep_mk rfl rfl rfl rfl rfl ?_) | refine keep_free rfl rfl rfl rfl rfl ?_)) | dsimp only | split)
theorem exitWork_keep (s : State) (h0 : Keep k s) :
    Keep k (exitWork s) := by
  unfold exitWork
  repeat' (first | (with_reducible assumption) | (intro _) | (with_reducible (first | apply pwrUpd_keep | apply setDevState_keep | apply mcUnstandby_keep | apply wakeStart_keep | apply setIslState_keep | apply eisWake_keep | apply quadWake_keep)) | (with_reducible (first | apply keep_ite | apply keep_ite2 | apply keep_ite3 | apply keep_ite1 | apply keep_foldl | apply keep_foldl2 | apply keep_foldl3 | (fail_if_no_progress refine keep_mk rfl rfl rfl rfl rfl ?_) | refine keep_free rfl rfl rfl rfl rfl ?_)) | dsimp only | split)
theorem exitGo_keep (s : State) (h0 : Keep k s) :
    Keep k (exitGo s) := by
  unfold exitGo
  repeat' (first | (with_reducible assumption) | (intro _) | (with_reducible (first | apply exitWork_keep)) | (with_reducible (first | apply keep_ite | apply keep_ite2 | apply keep_ite3 | apply keep_ite1 | apply keep_foldl | apply keep_foldl2 | apply keep_foldl3 | (fail_if_no_progress refine keep_mk rfl rfl rfl rfl rfl ?_) | refine keep_free rfl rfl rfl rfl rfl ?_)) | dsimp only | split)
theorem standbyExit_keep (s : State) (src : Option ℕ) (h0 : Keep k s) :
    Keep k (standbyExit s src) := by
  unfold standbyExit
  repeat' (first | (with_reducible assumption) | (intro _) | (with_reducible (first | apply setDevState_keep | apply fset_keep | apply pwrUpd_keep | apply exitGo_keep | apply railTarget_keep)) | (with_reducible (first | apply keep_ite | apply keep_ite2 | apply keep_ite3 | apply keep_ite1 | apply keep_foldl | apply keep_foldl2 | apply keep_foldl3 | (fail_if_no_progress refine keep_mk rfl rfl rfl rfl rfl ?_) | refine keep_free rfl rfl rfl rfl rfl ?_)) | dsimp only | split)
theorem opStandbyEntryDone_keep (s : State) (h0 : Keep k s) :
    Keep k (opStandbyEntryDone s) := by
  unfold opStandbyEntryDone
  with_reducible refine keep_ite (fun _ => h0) (fun _ => ?_)
  extract_lets late s1 s2 s3 s4 s5 s6
  have h1 : Keep k s1 := pwrUpd_keep _ _ h0
  have h2 : Keep k s2 := keep_foldl h1 (fun s x hs => islSleep_keep _ _ hs)
  have h3 : Keep k s3 := keep_foldl h2 (fun s x hs => eisPowerOff_keep _ _ _ hs)
  have h4 : Keep k s4 := keep_foldl h3 (fun s x hs => quadOff_keep _ _ _ hs)
  have h5 : Keep k s5 := keep_foldl h4 (fun s x hs => mcStandby_keep _ _ hs)
  have h6 : Keep k s6 := setDevState_keep _ _ (sleepRails_keep _ h5)
  clear_value s6
  split
  · exact standbyExit_keep _ _ h6
  · exact h6
theorem wakeFire_keep (s : State) (src : ℕ) (h0 : Keep k s) :
    Keep k (wakeFire s src) := by
  unfold wakeFire
  repeat' (first | (with_reducible assumption) | (intro _) | (with_reducible (first | apply fset_keep | apply pwrUpd_keep | apply standbyExit_keep)) | (with_reducible (first | apply keep_ite | apply keep_ite2 | apply keep_ite3 | apply keep_ite1 | apply keep_foldl | apply keep_foldl2 | apply keep_foldl3 | (fail_if_no_progress refine keep_mk rfl rfl rfl rfl rfl ?_) | refine keep_free rfl rfl rfl rfl rfl ?_)) | dsimp only | split)
theorem opI2cWakeMatch_keep (addr : ℕ) (s : State) (h1 : Keep k s) :
    Keep k (opI2cWakeMatch addr s) := by
  unfold opI2cWakeMatch
  repeat' (first | (with_reducible assumption) | (intro _) | (with_reducible (first | apply wakeFire_keep)) | (with_reducible (first | apply keep_ite | apply keep_ite2 | apply keep_ite3 | apply keep_ite1 | apply keep_foldl | apply keep_foldl2 | apply keep_foldl3 | (fail_if_no_progress refine keep_mk rfl rfl rfl rfl rfl ?_) | refine keep_free rfl rfl rfl rfl rfl ?_)) | dsimp only | split)
theorem opAoTimer_keep (s : State) (h0 : Keep k s) :
    Keep k (opAoTimer s) := by
  unfold opAoTimer
  repeat' (first | (with_reducible assumption) | (intro _) | (with_reducible (first | apply wakeFire_keep | apply fset_keep)) | (with_reducible (first | apply keep_ite | apply keep_ite2 | apply keep_ite3 | apply keep_ite1 | apply keep_foldl | apply keep_foldl2 | apply keep_foldl3 | (fail_if_no_progress refine keep_mk rfl rfl rfl rfl rfl ?_) | refine keep_free rfl rfl rfl rfl rfl ?_)) | dsimp only | split)
theorem opSupplyTimeout_keep (s : State) (h0 : Keep k s) :
    Keep k (opSupplyTimeout s) := by
  unfold opSupplyTimeout
  repeat' (first | (with_reducible assumption) | (intro _) | (with_reducible (first | apply fflag_keep | apply pwrUpd_keep)) | (with_reducible (first | apply keep_ite | apply keep_ite2 | apply keep_ite3 | apply keep_ite1 | apply keep_foldl | apply keep_foldl2 | apply keep_foldl3 | (fail_if_no_progress refine keep_mk rfl rfl rfl rfl rfl ?_) | refine keep_free rfl rfl rfl rfl rfl ?_)) | dsimp only | split)
theorem opThermalTrip_keep (sensor : ℕ) (s : State) (h1 : Keep k s) :
    Keep k (opThermalTrip sensor s) := by
  unfold opThermalTrip
  repeat' (first | (with_reducible assumption) | (intro _) | (with_reducible (first | apply goDormant_keep | apply fflag_keep | apply pwrUpd_keep)) | (with_reducible (first | apply keep_ite | apply keep_ite2 | apply keep_ite3 | apply keep_ite1 | apply keep_foldl | apply keep_foldl2 | apply keep_foldl3 | (fail_if_no_progress refine keep_mk rfl rfl rfl rfl rfl ?_) | refine keep_free rfl rfl rfl rfl rfl ?_)) | dsimp only | split)
theorem opSysRstN_keep (level : Bool) (s : State) (h1 : Keep k s) :
    Keep k (opSysRstN level s) := by
  unfold opSysRstN
  repeat' (first | (with_reducible assumption) | (intro _) | (with_reducible (first | apply pwrUpd_keep | apply underReset_keep)) | (with_reducible (first | apply keep_ite | apply keep_ite2 | apply keep_ite3 | apply keep_ite1 | apply keep_foldl | apply keep_foldl2 | apply keep_foldl3 | (fail_if_no_progress refine keep_mk rfl rfl rfl rfl rfl ?_) | refine keep_free rfl rfl rfl rfl rfl ?_)) | dsimp only | split)
theorem opRailFault_keep (s : State) (h0 : Keep k s) :
    Keep k (opRailFault s) := by
  unfold opRailFault
  repeat' (first | (with_reducible assumption) | (intro _) | (with_reducible (first | apply underReset_keep | apply pwrUpd_keep)) | (with_reducible (first | apply keep_ite | apply keep_ite2 | apply keep_ite3 | apply keep_ite1 | apply keep_foldl | apply keep_foldl2 | apply keep_foldl3 | (fail_if_no_progress refine keep_mk rfl rfl rfl rfl rfl ?_) | refine keep_free rfl rfl rfl rfl rfl ?_)) | dsimp only | split)
theorem opAoPowerGood_keep (s : State) (h0 : Keep k s) :
    Keep k (opAoPowerGood s) := by
  unfold opAoPowerGood
  repeat' (first | (with_reducible assumption) | (intro _) | (with_reducible (first | apply pwrUpd_keep)) | (with_reducible (first | apply keep_ite | apply keep_ite2 | apply keep_ite3 | apply keep_ite1 | apply keep_foldl | apply keep_foldl2 | apply keep_foldl3 | (fail_if_no_progress refine keep_mk rfl rfl rfl rfl rfl ?_) | refine keep_free rfl rfl rfl rfl rfl ?_)) | dsimp only | split)
theorem opVccAoLoss_keep (s : State) (h0 : Keep k s) :
    Keep k (opVccAoLoss s) := by
  unfold opVccAoLoss
  repeat' (first | (with_reducible assumption) | (intro _) | (with_reducible (first | apply unpowered_keep)) | (with_reducible (first | apply keep_ite | apply keep_ite2 | apply keep_ite3 | apply keep_ite1 | apply keep_foldl | apply keep_foldl2 | apply keep_foldl3 | (fail_if_no_progress refine keep_mk rfl rfl rfl rfl rfl ?_) | refine keep_free rfl rfl rfl rfl rfl ?_)) | dsimp only | split)

end Sys2Proof.Machine
end

