-- ==== Sys2Proof/Laws/KeepLogic.lean ====
section
/-! SUPPORT. The operations of Machine/Logic.lean keep the queue, the counts that only rise, and `Inv`. -/

namespace Sys2Proof.Machine

set_option linter.unusedTactic false
set_option linter.unreachableTactic false
set_option linter.unusedVariables false

variable {k : KeepAt}

theorem spineStep_keep (fb : ℕ → Bool) (s : State) (k0 : ℕ) (h1 : Keep k s) :
    Keep k (spineStep fb s k0) := by
  unfold spineStep
  repeat' (first | (with_reducible assumption) | (intro _) | (with_reducible (first | apply keep_ite | apply keep_ite2 | apply keep_ite3 | apply keep_ite1 | apply keep_foldl | apply keep_foldl2 | apply keep_foldl3 | (fail_if_no_progress refine keep_mk rfl rfl rfl rfl rfl ?_) | refine keep_free rfl rfl rfl rfl rfl ?_)) | dsimp only | split)
theorem genStep_keep (fb : ℕ → Bool) (s : State) (n : ℕ) (h1 : Keep k s) :
    Keep k (genStep fb s n) := by
  unfold genStep
  repeat' (first | (with_reducible assumption) | (intro _) | (with_reducible (first | apply marginFresh_keep | apply islUpd_keep)) | (with_reducible (first | apply keep_ite | apply keep_ite2 | apply keep_ite3 | apply keep_ite1 | apply keep_foldl | apply keep_foldl2 | apply keep_foldl3 | (fail_if_no_progress refine keep_mk rfl rfl rfl rfl rfl ?_) | refine keep_free rfl rfl rfl rfl rfl ?_)) | dsimp only | split)
theorem treePut_keep (s : State) (n : ℕ) (x : ℕ) (t : TreeSt) (h0 : Keep k s) :
    Keep k (treePut s n x t) := by
  unfold treePut
  repeat' (first | (with_reducible assumption) | (intro _) | (with_reducible (first | apply islUpd_keep)) | (with_reducible (first | apply keep_ite | apply keep_ite2 | apply keep_ite3 | apply keep_ite1 | apply keep_foldl | apply keep_foldl2 | apply keep_foldl3 | (fail_if_no_progress refine keep_mk rfl rfl rfl rfl rfl ?_) | refine keep_free rfl rfl rfl rfl rfl ?_)) | dsimp only | split)
theorem switchOld_keep (s : State) (n : ℕ) (x : ℕ) (t : TreeSt) (lo : Bool) (ln : Bool) (h0 : Keep k s) :
    Keep k (switchOld s n x t lo ln) := by
  unfold switchOld
  repeat' (first | (with_reducible assumption) | (intro _) | (with_reducible (first | apply swGate_keep | apply treePut_keep | apply fsetBit_keep)) | (with_reducible (first | apply keep_ite | apply keep_ite2 | apply keep_ite3 | apply keep_ite1 | apply keep_foldl | apply keep_foldl2 | apply keep_foldl3 | (fail_if_no_progress refine keep_mk rfl rfl rfl rfl rfl ?_) | refine keep_free rfl rfl rfl rfl rfl ?_)) | dsimp only | split)
theorem switchNew_keep (s : State) (n : ℕ) (x : ℕ) (t : TreeSt) (ln : Bool) (h0 : Keep k s) :
    Keep k (switchNew s n x t ln) := by
  unfold switchNew
  repeat' (first | (with_reducible assumption) | (intro _) | (with_reducible (first | apply swRetarget_keep | apply treePut_keep | apply swFinish_keep)) | (with_reducible (first | apply keep_ite | apply keep_ite2 | apply keep_ite3 | apply keep_ite1 | apply keep_foldl | apply keep_foldl2 | apply keep_foldl3 | (fail_if_no_progress refine keep_mk rfl rfl rfl rfl rfl ?_) | refine keep_free rfl rfl rfl rfl rfl ?_)) | dsimp only | split)
theorem treeCycle_keep (fb : ℕ → Bool) (s : State) (u : State) (n : ℕ) (x : ℕ) (h1 : Keep k s) (h2 : Keep k u) :
    Keep k (treeCycle fb s u n x) := by
  unfold treeCycle
  repeat' (first | (with_reducible assumption) | (intro _) | (with_reducible (first | apply treePut_keep | apply switchNew_keep | apply switchOld_keep)) | (with_reducible (first | apply keep_ite | apply keep_ite2 | apply keep_ite3 | apply keep_ite1 | apply keep_foldl | apply keep_foldl2 | apply keep_foldl3 | (fail_if_no_progress refine keep_mk rfl rfl rfl rfl rfl ?_) | refine keep_free rfl rfl rfl rfl rfl ?_)) | dsimp only | split)
theorem clocksCycle_keep (fb : ℕ → Bool) (s : State) (roots : List ℕ) (h1 : Keep k s) :
    Keep k (clocksCycle fb s roots) := by
  unfold clocksCycle
  repeat' (first | (with_reducible assumption) | (intro _) | (with_reducible (first | apply spineStep_keep | apply genStep_keep | apply treeCycle_keep)) | (with_reducible (first | apply keep_ite | apply keep_ite2 | apply keep_ite3 | apply keep_ite1 | apply keep_foldl | apply keep_foldl2 | apply keep_foldl3 | (fail_if_no_progress refine keep_mk rfl rfl rfl rfl rfl ?_) | refine keep_free rfl rfl rfl rfl rfl ?_)) | dsimp only | split)
theorem ffCycle_keep (fb : ℕ → Bool) (s : State) (e : State) (u : State) (n : ℕ) (h1 : Keep k s) (h2 : Keep k e) (h3 : Keep k u) :
    Keep k (ffCycle fb s e u n) := by
  unfold ffCycle
  repeat' (first | (with_reducible assumption) | (intro _) | (with_reducible (first | apply ffPut_keep)) | (with_reducible (first | apply keep_ite | apply keep_ite2 | apply keep_ite3 | apply keep_ite1 | apply keep_foldl | apply keep_foldl2 | apply keep_foldl3 | (fail_if_no_progress refine keep_mk rfl rfl rfl rfl rfl ?_) | refine keep_free rfl rfl rfl rfl rfl ?_)) | dsimp only | split)
theorem settle_keep (fb : ℕ → Bool) (n : ℕ) (x2 : ℕ) (x3 : State) (h3 : Keep k x3) :
    Keep k (settle fb n x2 x3) := by
  induction x2 generalizing x3 with
  | zero => exact h3
  | succ n' ih =>
    unfold settle
    dsimp only
    with_reducible refine keep_ite (fun _ => h3) (fun _ => ih _ (ffCycle_keep _ _ _ _ _ h3 h3 h3))
theorem bramCycle_keep (fb : ℕ → Bool) (t : ℕ) (s : State) (e : State) (u : State) (n : ℕ) (b : ℕ) (h2 : Keep k s) (h3 : Keep k e) (h4 : Keep k u) :
    Keep k (bramCycle fb t s e u n b) := by
  unfold bramCycle
  repeat' (first | (with_reducible assumption) | (intro _) | (with_reducible (first | apply bramEdges_keep)) | (with_reducible (first | apply keep_ite | apply keep_ite2 | apply keep_ite3 | apply keep_ite1 | apply keep_foldl | apply keep_foldl2 | apply keep_foldl3 | (fail_if_no_progress refine keep_mk rfl rfl rfl rfl rfl ?_) | refine keep_free rfl rfl rfl rfl rfl ?_)) | dsimp only | split)
theorem hitchSend_keep (fb : ℕ → Bool) (s : State) (u : State) (n : ℕ) (e : ℕ) (k0 : ℕ) (h1 : Keep k s) (h2 : Keep k u) :
    Keep k (hitchSend fb s u n e k0) := by
  unfold hitchSend
  repeat' (first | (with_reducible assumption) | (intro _) | (with_reducible (first | apply hitchSet_keep)) | (with_reducible (first | apply keep_ite | apply keep_ite2 | apply keep_ite3 | apply keep_ite1 | apply keep_foldl | apply keep_foldl2 | apply keep_foldl3 | (fail_if_no_progress refine keep_mk rfl rfl rfl rfl rfl ?_) | refine keep_free rfl rfl rfl rfl rfl ?_)) | dsimp only | split)
theorem hitchReceive_keep (fb : ℕ → Bool) (s : State) (u : State) (n : ℕ) (e : ℕ) (k0 : ℕ) (h1 : Keep k s) (h2 : Keep k u) :
    Keep k (hitchReceive fb s u n e k0) := by
  unfold hitchReceive
  repeat' (first | (with_reducible assumption) | (intro _) | (with_reducible (first | apply hitchSet_keep)) | (with_reducible (first | apply keep_ite | apply keep_ite2 | apply keep_ite3 | apply keep_ite1 | apply keep_foldl | apply keep_foldl2 | apply keep_foldl3 | (fail_if_no_progress refine keep_mk rfl rfl rfl rfl rfl ?_) | refine keep_free rfl rfl rfl rfl rfl ?_)) | dsimp only | split)
theorem hitchesIn_keep (fb : ℕ → Bool) (s : State) (e : State) (u : State) (n : ℕ) (edge : ℕ) (h1 : Keep k s) (h2 : Keep k e) (h3 : Keep k u) :
    Keep k (hitchesIn fb s e u n edge) := by
  unfold hitchesIn
  repeat' (first | (with_reducible assumption) | (intro _) | (with_reducible (first | apply hitchReceive_keep | apply islUpd_keep)) | (with_reducible (first | apply keep_ite | apply keep_ite2 | apply keep_ite3 | apply keep_ite1 | apply keep_foldl | apply keep_foldl2 | apply keep_foldl3 | (fail_if_no_progress refine keep_mk rfl rfl rfl rfl rfl ?_) | refine keep_free rfl rfl rfl rfl rfl ?_)) | dsimp only | split)
theorem hitchesOut_keep (fb : ℕ → Bool) (s : State) (e : State) (u : State) (n : ℕ) (edge : ℕ) (h1 : Keep k s) (h2 : Keep k e) (h3 : Keep k u) :
    Keep k (hitchesOut fb s e u n edge) := by
  unfold hitchesOut
  repeat' (first | (with_reducible assumption) | (intro _) | (with_reducible (first | apply hitchSend_keep)) | (with_reducible (first | apply keep_ite | apply keep_ite2 | apply keep_ite3 | apply keep_ite1 | apply keep_foldl | apply keep_foldl2 | apply keep_foldl3 | (fail_if_no_progress refine keep_mk rfl rfl rfl rfl rfl ?_) | refine keep_free rfl rfl rfl rfl rfl ?_)) | dsimp only | split)
theorem laneCycle_keep (fb : ℕ → Bool) (s : State) (e : State) (u : State) (n : ℕ) (l : ℕ) (h1 : Keep k s) (h2 : Keep k e) (h3 : Keep k u) :
    Keep k (laneCycle fb s e u n l) := by
  unfold laneCycle
  repeat' (first | (with_reducible assumption) | (intro _) | (with_reducible (first | apply laneEdge_keep | apply opTxWord_keep)) | (with_reducible (first | apply keep_ite | apply keep_ite2 | apply keep_ite3 | apply keep_ite1 | apply keep_foldl | apply keep_foldl2 | apply keep_foldl3 | (fail_if_no_progress refine keep_mk rfl rfl rfl rfl rfl ?_) | refine keep_free rfl rfl rfl rfl rfl ?_)) | dsimp only | split)
theorem rqoInject_keep (n : ℕ) (s : State) (h1 : Keep k s) :
    Keep k (rqoInject n s) := by
  unfold rqoInject
  repeat' (first | (with_reducible assumption) | (intro _) | (with_reducible (first | apply islUpd_keep | apply nicUpd_keep | apply injectNow_keep)) | (with_reducible (first | apply keep_ite | apply keep_ite2 | apply keep_ite3 | apply keep_ite1 | apply keep_foldl | apply keep_foldl2 | apply keep_foldl3 | (fail_if_no_progress refine keep_mk rfl rfl rfl rfl rfl ?_) | refine keep_free rfl rfl rfl rfl rfl ?_)) | dsimp only | split)
theorem rsoAnswer_keep (n : ℕ) (s : State) (h1 : Keep k s) :
    Keep k (rsoAnswer n s) := by
  unfold rsoAnswer
  repeat' (first | (with_reducible assumption) | (intro _) | (with_reducible (first | apply islUpd_keep | apply opIslandResponse_keep)) | (with_reducible (first | apply keep_ite | apply keep_ite2 | apply keep_ite3 | apply keep_ite1 | apply keep_foldl | apply keep_foldl2 | apply keep_foldl3 | (fail_if_no_progress refine keep_mk rfl rfl rfl rfl rfl ?_) | refine keep_free rfl rfl rfl rfl rfl ?_)) | dsimp only | split)
theorem rsiTaken_keep (n : ℕ) (s : State) (h1 : Keep k s) :
    Keep k (rsiTaken n s) := by
  unfold rsiTaken
  repeat' (first | (with_reducible assumption) | (intro _) | (with_reducible (first | apply islUpd_keep | apply nicUpd_keep)) | (with_reducible (first | apply keep_ite | apply keep_ite2 | apply keep_ite3 | apply keep_ite1 | apply keep_foldl | apply keep_foldl2 | apply keep_foldl3 | (fail_if_no_progress refine keep_mk rfl rfl rfl rfl rfl ?_) | refine keep_free rfl rfl rfl rfl rfl ?_)) | dsimp only | split)
theorem rqiTaken_keep (n : ℕ) (s : State) (h1 : Keep k s) :
    Keep k (rqiTaken n s) := by
  unfold rqiTaken
  repeat' (first | (with_reducible assumption) | (intro _) | (with_reducible (first | apply islUpd_keep | apply nocUpd_keep)) | (with_reducible (first | apply keep_ite | apply keep_ite2 | apply keep_ite3 | apply keep_ite1 | apply keep_foldl | apply keep_foldl2 | apply keep_foldl3 | (fail_if_no_progress refine keep_mk rfl rfl rfl rfl rfl ?_) | refine keep_free rfl rfl rfl rfl rfl ?_)) | dsimp only | split)
theorem portCycle_keep (fb : ℕ → Bool) (s : State) (e : State) (u : State) (n : ℕ) (h1 : Keep k s) (h2 : Keep k e) (h3 : Keep k u) :
    Keep k (portCycle fb s e u n) := by
  unfold portCycle
  repeat' (first | (with_reducible assumption) | (intro _) | (with_reducible (first | apply islUpd_keep | apply rqoInject_keep | apply rsiTaken_keep | apply rqiTaken_keep | apply rsoAnswer_keep)) | (with_reducible (first | apply keep_ite | apply keep_ite2 | apply keep_ite3 | apply keep_ite1 | apply keep_foldl | apply keep_foldl2 | apply keep_foldl3 | (fail_if_no_progress refine keep_mk rfl rfl rfl rfl rfl ?_) | refine keep_free rfl rfl rfl rfl rfl ?_)) | dsimp only | split)
theorem uioCycle_keep (fb : ℕ → Bool) (s : State) (e : State) (u : State) (n : ℕ) (h1 : Keep k s) (h2 : Keep k e) (h3 : Keep k u) :
    Keep k (uioCycle fb s e u n) := by
  unfold uioCycle
  repeat' (first | (with_reducible assumption) | (intro _) | (with_reducible (first | apply islUpd_keep)) | (with_reducible (first | apply keep_ite | apply keep_ite2 | apply keep_ite3 | apply keep_ite1 | apply keep_foldl | apply keep_foldl2 | apply keep_foldl3 | (fail_if_no_progress refine keep_mk rfl rfl rfl rfl rfl ?_) | refine keep_free rfl rfl rfl rfl rfl ?_)) | dsimp only | split)
theorem releaseCycle_keep (s : State) (h0 : Keep k s) :
    Keep k (releaseCycle s) := by
  unfold releaseCycle
  repeat' (first | (with_reducible assumption) | (intro _) | (with_reducible (first | apply keep_ite | apply keep_ite2 | apply keep_ite3 | apply keep_ite1 | apply keep_foldl | apply keep_foldl2 | apply keep_foldl3 | (fail_if_no_progress refine keep_mk rfl rfl rfl rfl rfl ?_) | refine keep_free rfl rfl rfl rfl rfl ?_)) | dsimp only | split)
theorem logicCycle_keep (fb : ℕ → Bool) (t : ℕ) (s : State) (h2 : Keep k s) :
    Keep k (logicCycle fb t s) := by
  unfold logicCycle
  repeat' (first | (with_reducible assumption) | (intro _) | (with_reducible (first | apply settle_keep | apply clocksCycle_keep | apply ffCycle_keep | apply bramCycle_keep | apply hitchesIn_keep | apply hitchesOut_keep | apply portCycle_keep | apply laneCycle_keep | apply uioCycle_keep)) | (with_reducible (first | apply keep_ite | apply keep_ite2 | apply keep_ite3 | apply keep_ite1 | apply keep_foldl | apply keep_foldl2 | apply keep_foldl3 | (fail_if_no_progress refine keep_mk rfl rfl rfl rfl rfl ?_) | refine keep_free rfl rfl rfl rfl rfl ?_)) | dsimp only | split)
theorem logicQuarter_keep (s : State) (q : ℕ) (h0 : Keep k s) :
    Keep k (logicQuarter s q) := by
  unfold logicQuarter
  repeat' (first | (with_reducible assumption) | (intro _) | (with_reducible (first | apply logicCycle_keep)) | (with_reducible (first | apply keep_ite | apply keep_ite2 | apply keep_ite3 | apply keep_ite1 | apply keep_foldl | apply keep_foldl2 | apply keep_foldl3 | (fail_if_no_progress refine keep_mk rfl rfl rfl rfl rfl ?_) | refine keep_free rfl rfl rfl rfl rfl ?_)) | dsimp only | split)
theorem logicIdle_keep (s : State) (h0 : Keep k s) :
    Keep k (logicIdle s) := by
  unfold logicIdle
  repeat' (first | (with_reducible assumption) | (intro _) | (with_reducible (first | apply releaseCycle_keep | apply logicQuarter_keep)) | (with_reducible (first | apply keep_ite | apply keep_ite2 | apply keep_ite3 | apply keep_ite1 | apply keep_foldl | apply keep_foldl2 | apply keep_foldl3 | (fail_if_no_progress refine keep_mk rfl rfl rfl rfl rfl ?_) | refine keep_free rfl rfl rfl rfl rfl ?_)) | dsimp only | split)

end Sys2Proof.Machine
end

