-- ==== Sys2Proof/Laws/KeepBoot.lean ====
section
/-! SUPPORT. The operations of Machine/Boot.lean keep the queue, the counts that only rise, and `Inv`. -/

namespace Sys2Proof.Machine

set_option linter.unusedTactic false
set_option linter.unreachableTactic false
set_option linter.unusedVariables false

variable {k : KeepAt}

theorem haltStart_keep (s : State) (h0 : Keep k s) :
    Keep k (haltStart s) := by
  unfold haltStart
  repeat' (first | (with_reducible assumption) | (intro _) | (with_reducible (first | apply closeBights_keep | apply fset_keep)) | (with_reducible (first | apply keep_ite | apply keep_ite2 | apply keep_ite3 | apply keep_ite1 | apply keep_foldl | apply keep_foldl2 | apply keep_foldl3 | (fail_if_no_progress refine keep_mk rfl rfl rfl rfl rfl ?_) | refine keep_free rfl rfl rfl rfl rfl ?_)) | dsimp only | split)
theorem stepTry_keep (s : State) (code : ℕ) (arg : ℕ) (normal : State → Bool × State) (alt : State → Bool × State) (h0 : Keep k s) (h3 : ∀ s, Keep k s → Keep k (normal s).2) (h4 : ∀ s, Keep k s → Keep k (alt s).2) :
    Keep k (stepTry s code arg normal alt).2 := by
  unfold stepTry
  repeat' (first | (with_reducible assumption) | (intro _) | (with_reducible (first | apply stepBegin_keep | apply stepEnd_keep | apply journal_keep | apply fflag_keep)) | (with_reducible (first | apply h3 | apply h4)) | (with_reducible (first | apply keep_ite | apply keep_ite2 | apply keep_ite3 | apply keep_ite1 | apply keep_foldl | apply keep_foldl2 | apply keep_foldl3 | (fail_if_no_progress refine keep_mk rfl rfl rfl rfl rfl ?_) | refine keep_free rfl rfl rfl rfl rfl ?_)) | dsimp only | split)
theorem lastStep_keep (s : State) (h0 : Keep k s) :
    Keep k (lastStep s) := by
  unfold lastStep
  repeat' (first | (with_reducible assumption) | (intro _) | (with_reducible (first | apply stepTable_keep | apply journal_keep)) | (with_reducible (first | apply keep_ite | apply keep_ite2 | apply keep_ite3 | apply keep_ite1 | apply keep_foldl | apply keep_foldl2 | apply keep_foldl3 | (fail_if_no_progress refine keep_mk rfl rfl rfl rfl rfl ?_) | refine keep_free rfl rfl rfl rfl rfl ?_)) | dsimp only | split)
theorem loadFuses_keep (s : State) (h0 : Keep k s) :
    Keep k (loadFuses s) := by
  unfold loadFuses
  repeat' (first | (with_reducible assumption) | (intro _) | (with_reducible (first | apply fset_keep)) | (with_reducible (first | apply keep_ite | apply keep_ite2 | apply keep_ite3 | apply keep_ite1 | apply keep_foldl | apply keep_foldl2 | apply keep_foldl3 | (fail_if_no_progress refine keep_mk rfl rfl rfl rfl rfl ?_) | refine keep_free rfl rfl rfl rfl rfl ?_)) | dsimp only | split)
theorem phaseA_keep (s : State) (h0 : Keep k s) :
    Keep k (phaseA s) := by
  unfold phaseA
  repeat' (first | (with_reducible assumption) | (intro _) | (with_reducible (first | apply pwrUpd_keep | apply lastStep_keep | apply finc_keep | apply stepRun_keep | apply haltStart_keep | apply phaseEnd_keep | apply loadFuses_keep)) | (with_reducible (first | apply keep_ite | apply keep_ite2 | apply keep_ite3 | apply keep_ite1 | apply keep_foldl | apply keep_foldl2 | apply keep_foldl3 | (fail_if_no_progress refine keep_mk rfl rfl rfl rfl rfl ?_) | refine keep_free rfl rfl rfl rfl rfl ?_)) | dsimp only | split)
theorem opSuppliesValid_keep (s : State) (h0 : Keep k s) :
    Keep k (opSuppliesValid s) := by
  unfold opSuppliesValid
  repeat' (first | (with_reducible assumption) | (intro _) | (with_reducible (first | apply phaseA_keep)) | (with_reducible (first | apply keep_ite | apply keep_ite2 | apply keep_ite3 | apply keep_ite1 | apply keep_foldl | apply keep_foldl2 | apply keep_foldl3 | (fail_if_no_progress refine keep_mk rfl rfl rfl rfl rfl ?_) | refine keep_free rfl rfl rfl rfl rfl ?_)) | dsimp only | split)
theorem opStartWatchdog_keep (s : State) (h0 : Keep k s) :
    Keep k (opStartWatchdog s) := by
  unfold opStartWatchdog
  repeat' (first | (with_reducible assumption) | (intro _) | (with_reducible (first | apply phaseA_keep | apply finc_keep | apply underReset_keep)) | (with_reducible (first | apply keep_ite | apply keep_ite2 | apply keep_ite3 | apply keep_ite1 | apply keep_foldl | apply keep_foldl2 | apply keep_foldl3 | (fail_if_no_progress refine keep_mk rfl rfl rfl rfl rfl ?_) | refine keep_free rfl rfl rfl rfl rfl ?_)) | dsimp only | split)
theorem dieAbsent_keep (fl2 : Bool) (s : State) (d : ℕ) (h1 : Keep k s) :
    Keep k (dieAbsent fl2 s d) := by
  unfold dieAbsent
  repeat' (first | (with_reducible assumption) | (intro _) | (with_reducible (first | apply fsetBit_keep | apply fflag_keep | apply jEvent_keep | apply fset_keep)) | (with_reducible (first | apply keep_ite | apply keep_ite2 | apply keep_ite3 | apply keep_ite1 | apply keep_foldl | apply keep_foldl2 | apply keep_foldl3 | (fail_if_no_progress refine keep_mk rfl rfl rfl rfl rfl ?_) | refine keep_free rfl rfl rfl rfl rfl ?_)) | dsimp only | split)
theorem diePresent_keep (ds : List DieFound) (ts : List HawserTest) (alt : Bool) (fl2 : Bool) (s : State) (d : ℕ) (h4 : Keep k s) :
    Keep k (diePresent ds ts alt fl2 s d) := by
  unfold diePresent
  repeat' (first | (with_reducible assumption) | (intro _) | (with_reducible (first | apply fset_keep | apply testHawser_keep | apply jEvent_keep | apply alarmHw_keep | apply mapRows_keep)) | (with_reducible (first | apply keep_ite | apply keep_ite2 | apply keep_ite3 | apply keep_ite1 | apply keep_foldl | apply keep_foldl2 | apply keep_foldl3 | (fail_if_no_progress refine keep_mk rfl rfl rfl rfl rfl ?_) | refine keep_free rfl rfl rfl rfl rfl ?_)) | dsimp only | split)
theorem opPhaseB_keep (ds : List DieFound) (ts : List HawserTest) (s : State) (h2 : Keep k s) :
    Keep k (opPhaseB ds ts s) := by
  unfold opPhaseB
  repeat' (first | (with_reducible assumption) | (intro _) | (with_reducible (first | apply stepBegin_keep | apply fset_keep | apply dieAbsent_keep | apply stepEnd_keep | apply haltStart_keep | apply diePresent_keep | apply fenceDie_keep | apply phaseEnd_keep | apply stepRun_keep)) | (with_reducible (first | apply keep_ite | apply keep_ite2 | apply keep_ite3 | apply keep_ite1 | apply keep_foldl | apply keep_foldl2 | apply keep_foldl3 | (fail_if_no_progress refine keep_mk rfl rfl rfl rfl rfl ?_) | refine keep_free rfl rfl rfl rfl rfl ?_)) | dsimp only | split)
theorem useSlot_keep (s : State) (k0 : ℕ) (m : List Byte) (h0 : Keep k s) :
    Keep k (useSlot s k0 m) := by
  unfold useSlot
  repeat' (first | (with_reducible assumption) | (intro _) | (with_reducible (first | apply fflag_keep | apply fset_keep)) | (with_reducible (first | apply keep_ite | apply keep_ite2 | apply keep_ite3 | apply keep_ite1 | apply keep_foldl | apply keep_foldl2 | apply keep_foldl3 | (fail_if_no_progress refine keep_mk rfl rfl rfl rfl rfl ?_) | refine keep_free rfl rfl rfl rfl rfl ?_)) | dsimp only | split)
theorem tryManifest_keep (c0 : SlotCheck) (c1 : SlotCheck) (k0 : ℕ) (s : State) (h3 : Keep k s) :
    Keep k (tryManifest c0 c1 k0 s).2 := by
  unfold tryManifest
  repeat' (first | (with_reducible assumption) | (intro _) | (with_reducible (first | apply useSlot_keep)) | (with_reducible (first | apply keep_ite | apply keep_ite2 | apply keep_ite3 | apply keep_ite1 | apply keep_foldl | apply keep_foldl2 | apply keep_foldl3 | (fail_if_no_progress refine keep_mk rfl rfl rfl rfl rfl ?_) | refine keep_free rfl rfl rfl rfl rfl ?_)) | dsimp only | split)
theorem ownPart_keep (i : ℕ) (s : State) (h1 : Keep k s) :
    Keep k (ownPart i s).2 := by
  unfold ownPart
  repeat' (first | (with_reducible assumption) | (intro _) | (with_reducible (first | apply keep_ite | apply keep_ite2 | apply keep_ite3 | apply keep_ite1 | apply keep_foldl | apply keep_foldl2 | apply keep_foldl3 | (fail_if_no_progress refine keep_mk rfl rfl rfl rfl rfl ?_) | refine keep_free rfl rfl rfl rfl rfl ?_)) | dsimp only | split)
theorem otherPart_keep (i : ℕ) (s : State) (h1 : Keep k s) :
    Keep k (otherPart i s).2 := by
  unfold otherPart
  repeat' (first | (with_reducible assumption) | (intro _) | (with_reducible (first | apply keep_ite | apply keep_ite2 | apply keep_ite3 | apply keep_ite1 | apply keep_foldl | apply keep_foldl2 | apply keep_foldl3 | (fail_if_no_progress refine keep_mk rfl rfl rfl rfl rfl ?_) | refine keep_free rfl rfl rfl rfl rfl ?_)) | dsimp only | split)
theorem burnRollback_keep (s : State) (h0 : Keep k s) :
    Keep k (burnRollback s) := by
  unfold burnRollback
  dsimp only
  with_reducible refine keep_ite (fun h => ?_) (fun _ => h0)
  exact fset_keep _ _ _ ⟨h0.1, h0.2.1, le_trans h0.2.2.1 (le_of_lt h), h0.2.2.2⟩
theorem activate_keep (s : State) (k0 : ℕ) (m : List Byte) (h0 : Keep k s) :
    Keep k (activate s k0 m) := by
  unfold activate
  repeat' (first | (with_reducible assumption) | (intro _) | (with_reducible (first | apply selWrite_keep | apply burnRollback_keep | apply useSlot_keep | apply jEvent_keep | apply fflag_keep)) | (with_reducible (first | apply keep_ite | apply keep_ite2 | apply keep_ite3 | apply keep_ite1 | apply keep_foldl | apply keep_foldl2 | apply keep_foldl3 | (fail_if_no_progress refine keep_mk rfl rfl rfl rfl rfl ?_) | refine keep_free rfl rfl rfl rfl rfl ?_)) | dsimp only | split)
theorem setVerify_keep (s : State) (v : List ℕ) (h0 : Keep k s) :
    Keep k (setVerify s v) := by
  unfold setVerify
  repeat' (first | (with_reducible assumption) | (intro _) | (with_reducible (first | apply keep_ite | apply keep_ite2 | apply keep_ite3 | apply keep_ite1 | apply keep_foldl | apply keep_foldl2 | apply keep_foldl3 | (fail_if_no_progress refine keep_mk rfl rfl rfl rfl rfl ?_) | refine keep_free rfl rfl rfl rfl rfl ?_)) | dsimp only | split)
theorem verifyStaged_keep (c : SlotCheck) (k0 : ℕ) (s : State) (h2 : Keep k s) :
    Keep k (verifyStaged c k0 s).2 := by
  unfold verifyStaged
  repeat' (first | (with_reducible assumption) | (intro _) | (with_reducible (first | apply jEvent_keep | apply setVerify_keep | apply activate_keep | apply setMarker_keep)) | (with_reducible (first | apply keep_ite | apply keep_ite2 | apply keep_ite3 | apply keep_ite1 | apply keep_foldl | apply keep_foldl2 | apply keep_foldl3 | (fail_if_no_progress refine keep_mk rfl rfl rfl rfl rfl ?_) | refine keep_free rfl rfl rfl rfl rfl ?_)) | dsimp only | split)
theorem skipStaged_keep (s : State) (h0 : Keep k s) :
    Keep k (skipStaged s).2 := by
  unfold skipStaged
  repeat' (first | (with_reducible assumption) | (intro _) | (with_reducible (first | apply setVerify_keep)) | (with_reducible (first | apply keep_ite | apply keep_ite2 | apply keep_ite3 | apply keep_ite1 | apply keep_foldl | apply keep_foldl2 | apply keep_foldl3 | (fail_if_no_progress refine keep_mk rfl rfl rfl rfl rfl ?_) | refine keep_free rfl rfl rfl rfl rfl ?_)) | dsimp only | split)
theorem checkPlan_keep (s : State) (h0 : Keep k s) :
    Keep k (checkPlan s) := by
  unfold checkPlan
  repeat' (first | (with_reducible assumption) | (intro _) | (with_reducible (first | apply stepBegin_keep | apply partUpd_keep | apply jEvent_keep | apply alarmCfg_keep | apply fflag_keep | apply stepEnd_keep)) | (with_reducible (first | apply keep_ite | apply keep_ite2 | apply keep_ite3 | apply keep_ite1 | apply keep_foldl | apply keep_foldl2 | apply keep_foldl3 | (fail_if_no_progress refine keep_mk rfl rfl rfl rfl rfl ?_) | refine keep_free rfl rfl rfl rfl rfl ?_)) | dsimp only | split)
theorem pcieStart_keep (ok : BitVec 2) (s : State) (c : ℕ) (h1 : Keep k s) :
    Keep k (pcieStart ok s c) := by
  unfold pcieStart
  repeat' (first | (with_reducible assumption) | (intro _) | (with_reducible (first | apply stepRun_keep | apply pcieUpd_keep | apply alarmHw_keep)) | (with_reducible (first | apply keep_ite | apply keep_ite2 | apply keep_ite3 | apply keep_ite1 | apply keep_foldl | apply keep_foldl2 | apply keep_foldl3 | (fail_if_no_progress refine keep_mk rfl rfl rfl rfl rfl ?_) | refine keep_free rfl rfl rfl rfl rfl ?_)) | dsimp only | split)
theorem endC_keep (s : State) (h0 : Keep k s) :
    Keep k (endC s) := by
  unfold endC
  repeat' (first | (with_reducible assumption) | (intro _) | (with_reducible (first | apply jEvent_keep | apply alarmPower_keep | apply pwrUpd_keep | apply fset_keep | apply railTarget_keep)) | (with_reducible (first | apply keep_ite | apply keep_ite2 | apply keep_ite3 | apply keep_ite1 | apply keep_foldl | apply keep_foldl2 | apply keep_foldl3 | (fail_if_no_progress refine keep_mk rfl rfl rfl rfl rfl ?_) | refine keep_free rfl rfl rfl rfl rfl ?_)) | dsimp only | split)
theorem phaseC2_keep (s : State) (h0 : Keep k s) :
    Keep k (phaseC2 s) := by
  unfold phaseC2
  repeat' (first | (with_reducible assumption) | (intro _) | (with_reducible (first | apply burnRollback_keep | apply stepTry_keep | apply ownPart_keep | apply otherPart_keep | apply haltStart_keep | apply journalFlush_keep | apply phaseEnd_keep | apply endC_keep | apply checkPlan_keep)) | (with_reducible (first | apply keep_ite | apply keep_ite2 | apply keep_ite3 | apply keep_ite1 | apply keep_foldl | apply keep_foldl2 | apply keep_foldl3 | (fail_if_no_progress refine keep_mk rfl rfl rfl rfl rfl ?_) | refine keep_free rfl rfl rfl rfl rfl ?_)) | dsimp only | split)
theorem opPhaseC_keep (c0 : SlotCheck) (c1 : SlotCheck) (pcieOk : BitVec 2) (s : State) (h3 : Keep k s) :
    Keep k (opPhaseC c0 c1 pcieOk s) := by
  unfold opPhaseC
  repeat' (first | (with_reducible assumption) | (intro _) | (with_reducible (first | apply journalMend_keep | apply jEvent_keep | apply fflag_keep | apply stepTry_keep | apply tryManifest_keep | apply haltStart_keep | apply pcieStart_keep | apply verifyStaged_keep | apply skipStaged_keep | apply phaseC2_keep)) | (with_reducible (first | apply keep_ite | apply keep_ite2 | apply keep_ite3 | apply keep_ite1 | apply keep_foldl | apply keep_foldl2 | apply keep_foldl3 | (fail_if_no_progress refine keep_mk rfl rfl rfl rfl rfl ?_) | refine keep_free rfl rfl rfl rfl rfl ?_)) | dsimp only | split)
theorem drawKey_keep (trng : Bool) (s : State) (h1 : Keep k s) :
    Keep k (drawKey trng s) := by
  unfold drawKey
  repeat' (first | (with_reducible assumption) | (intro _) | (with_reducible (first | apply stepRun_keep | apply fflag_keep | apply jEvent_keep | apply secAlarm_keep)) | (with_reducible (first | apply keep_ite | apply keep_ite2 | apply keep_ite3 | apply keep_ite1 | apply keep_foldl | apply keep_foldl2 | apply keep_foldl3 | (fail_if_no_progress refine keep_mk rfl rfl rfl rfl rfl ?_) | refine keep_free rfl rfl rfl rfl rfl ?_)) | dsimp only | split)
theorem dscStart_keep (dsc : BitVec 8) (s : State) (d : ℕ) (h1 : Keep k s) :
    Keep k (dscStart dsc s d) := by
  unfold dscStart
  repeat' (first | (with_reducible assumption) | (intro _) | (with_reducible (first | apply stepTry_keep | apply ownPart_keep | apply otherPart_keep | apply fenceDie_keep)) | (with_reducible (first | apply keep_ite | apply keep_ite2 | apply keep_ite3 | apply keep_ite1 | apply keep_foldl | apply keep_foldl2 | apply keep_foldl3 | (fail_if_no_progress refine keep_mk rfl rfl rfl rfl rfl ?_) | refine keep_free rfl rfl rfl rfl rfl ?_)) | dsimp only | split)
theorem quadBoot_keep (quads : BitVec 40) (s : State) (q : ℕ) (h1 : Keep k s) :
    Keep k (quadBoot quads s q) := by
  unfold quadBoot
  repeat' (first | (with_reducible assumption) | (intro _) | (with_reducible (first | apply stepTry_keep | apply ownPart_keep | apply otherPart_keep | apply quadStart_keep | apply fflag_keep | apply alarmLink_keep | apply quadUpd_keep)) | (with_reducible (first | apply keep_ite | apply keep_ite2 | apply keep_ite3 | apply keep_ite1 | apply keep_foldl | apply keep_foldl2 | apply keep_foldl3 | (fail_if_no_progress refine keep_mk rfl rfl rfl rfl rfl ?_) | refine keep_free rfl rfl rfl rfl rfl ?_)) | dsimp only | split)
theorem trainFree_keep (s : State) (n : ℕ) (h0 : Keep k s) :
    Keep k (trainFree s n) := by
  unfold trainFree
  repeat' (first | (with_reducible assumption) | (intro _) | (with_reducible (first | apply freeWord_keep | apply fset_keep)) | (with_reducible (first | apply keep_ite | apply keep_ite2 | apply keep_ite3 | apply keep_ite1 | apply keep_foldl | apply keep_foldl2 | apply keep_foldl3 | (fail_if_no_progress refine keep_mk rfl rfl rfl rfl rfl ?_) | refine keep_free rfl rfl rfl rfl rfl ?_)) | dsimp only | split)
theorem trainJournal_keep (n : ℕ) (res : ℕ) (det : ℕ) (s : State) (h3 : Keep k s) :
    Keep k (trainJournal n res det s) := by
  unfold trainJournal
  repeat' (first | (with_reducible assumption) | (intro _) | (with_reducible (first | apply journal_keep | apply fflag_keep)) | (with_reducible (first | apply keep_ite | apply keep_ite2 | apply keep_ite3 | apply keep_ite1 | apply keep_foldl | apply keep_foldl2 | apply keep_foldl3 | (fail_if_no_progress refine keep_mk rfl rfl rfl rfl rfl ?_) | refine keep_free rfl rfl rfl rfl rfl ?_)) | dsimp only | split)
theorem channelBoot_keep (fits : List (Option Fit)) (train : List TrainOutcome) (s : State) (n : ℕ) (h2 : Keep k s) :
    Keep k (channelBoot fits train s n) := by
  unfold channelBoot
  repeat' (first | (with_reducible assumption) | (intro _) | (with_reducible (first | apply stepBegin_keep | apply trainJournal_keep | apply fset_keep | apply mcUpd_keep | apply mcDisable_keep | apply rateSet_keep | apply fflag_keep | apply actRunGo_keep | apply trainFree_keep | apply actDisableGo_keep | apply opTrainingTimeLimit_keep)) | (with_reducible (first | apply keep_ite | apply keep_ite2 | apply keep_ite3 | apply keep_ite1 | apply keep_foldl | apply keep_foldl2 | apply keep_foldl3 | (fail_if_no_progress refine keep_mk rfl rfl rfl rfl rfl ?_) | refine keep_free rfl rfl rfl rfl rfl ?_)) | dsimp only | split)
theorem phaseDEnd_keep (s : State) (h0 : Keep k s) :
    Keep k (phaseDEnd s) := by
  unfold phaseDEnd
  repeat' (first | (with_reducible assumption) | (intro _) | (with_reducible (first | apply phaseEnd_keep | apply showAutoSr_keep)) | (with_reducible (first | apply keep_ite | apply keep_ite2 | apply keep_ite3 | apply keep_ite1 | apply keep_foldl | apply keep_foldl2 | apply keep_foldl3 | (fail_if_no_progress refine keep_mk rfl rfl rfl rfl rfl ?_) | refine keep_free rfl rfl rfl rfl rfl ?_)) | dsimp only | split)
theorem opPhaseD_keep (fits : List (Option Fit)) (train : List TrainOutcome) (quads : BitVec 40) (dsc : BitVec 8) (trng : Bool) (s : State) (h5 : Keep k s) :
    Keep k (opPhaseD fits train quads dsc trng s) := by
  unfold opPhaseD
  repeat' (first | (with_reducible assumption) | (intro _) | (with_reducible (first | apply dscStart_keep | apply drawKey_keep | apply quadBoot_keep | apply channelBoot_keep | apply phaseDEnd_keep)) | (with_reducible (first | apply keep_ite | apply keep_ite2 | apply keep_ite3 | apply keep_ite1 | apply keep_foldl | apply keep_foldl2 | apply keep_foldl3 | (fail_if_no_progress refine keep_mk rfl rfl rfl rfl rfl ?_) | refine keep_free rfl rfl rfl rfl rfl ?_)) | dsimp only | split)
theorem trainEnd_keep (n : ℕ) (s : State) (t : State) (h1 : Keep k s) (h2 : Keep k t) :
    Keep k (trainEnd n s t) := by
  unfold trainEnd
  repeat' (first | (with_reducible assumption) | (intro _) | (with_reducible (first | apply trainJournal_keep | apply phaseDEnd_keep)) | (with_reducible (first | apply keep_ite | apply keep_ite2 | apply keep_ite3 | apply keep_ite1 | apply keep_foldl | apply keep_foldl2 | apply keep_foldl3 | (fail_if_no_progress refine keep_mk rfl rfl rfl rfl rfl ?_) | refine keep_free rfl rfl rfl rfl rfl ?_)) | dsimp only | split)
theorem opTrainingLimit_keep (n : ℕ) (step : ℕ) (s : State) (h2 : Keep k s) :
    Keep k (opTrainingLimit n step s) := by
  unfold opTrainingLimit
  repeat' (first | (with_reducible assumption) | (intro _) | (with_reducible (first | apply trainEnd_keep | apply opTrainingTimeLimit_keep)) | (with_reducible (first | apply keep_ite | apply keep_ite2 | apply keep_ite3 | apply keep_ite1 | apply keep_foldl | apply keep_foldl2 | apply keep_foldl3 | (fail_if_no_progress refine keep_mk rfl rfl rfl rfl rfl ?_) | refine keep_free rfl rfl rfl rfl rfl ?_)) | dsimp only | split)
theorem loadEntries_keep (slot : ℕ) (x1 : List (ℕ × ℕ × ℕ × ℕ × ℕ × ℕ)) (x2 : State) (h2 : Keep k x2) :
    Keep k (loadEntries slot x1 x2).2 := by
  induction x1 generalizing x2 with
  | nil => exact h2
  | cons p t ih =>
    obtain ⟨d, n, mask, cb, addr, len⟩ := p
    unfold loadEntries
    split
    · exact h2
    · with_reducible refine keep_ite2 (fun _ => h2) (fun _ => ?_)
      apply ih
      exact keep_foldl h2 (fun s x hs => eisUpd_keep _ _ _ (setBind_keep _ _ _ _ (installImg_keep _ _ _ hs)))
theorem enginesBoot_keep (s : State) (e : ℕ) (es : List (ℕ × ℕ × ℕ × ℕ × ℕ × ℕ)) (hashOk : Bool) (h0 : Keep k s) :
    Keep k (enginesBoot s e es hashOk) := by
  unfold enginesBoot
  dsimp only
  with_reducible refine keep_ite (fun _ => journal_keep _ _ _ _ _ h0) (fun _ => ?_)
  refine stepTry_keep _ _ _ _ _ h0 ?_ (fun t ht => ht)
  intro t ht
  have hr : Keep k (if hashOk = true then loadEntries (runSlot t) es t else (false, t)).2 := keep_ite2 (fun _ => loadEntries_keep _ _ _ ht) (fun _ => ht)
  generalize (if hashOk = true then loadEntries (runSlot t) es t else (false, t)) = r at hr
  with_reducible refine keep_ite2 (fun _ => hr) (fun _ => ?_)
  have hs := fset_keep 0 Reg.Hub.JS_ARG (16 * (e / 10) + e % 10) (fset_keep 0 Reg.Hub.JS_CODE 0x42 hr)
  exact ⟨hs.1, hs.2.1, hs.2.2.1, hs.2.2.2.1, rising_filter _ hs.2.2.2.2⟩
theorem bootEngines_keep (s : State) (h0 : Keep k s) :
    Keep k (bootEngines s) := by
  unfold bootEngines
  repeat' (first | (with_reducible assumption) | (intro _) | (with_reducible (first | apply enginesBoot_keep)) | (with_reducible (first | apply keep_ite | apply keep_ite2 | apply keep_ite3 | apply keep_ite1 | apply keep_foldl | apply keep_foldl2 | apply keep_foldl3 | (fail_if_no_progress refine keep_mk rfl rfl rfl rfl rfl ?_) | refine keep_free rfl rfl rfl rfl rfl ?_)) | dsimp only | split)
theorem opPhaseE_keep (s : State) (h0 : Keep k s) :
    Keep k (opPhaseE s) := by
  unfold opPhaseE
  repeat' (first | (with_reducible assumption) | (intro _) | (with_reducible (first | apply eisUpd_keep | apply bootEngines_keep | apply stepBegin_keep | apply goldenLoad_keep | apply stepEnd_keep | apply rejectFull_keep | apply startFull_keep)) | (with_reducible (first | apply keep_ite | apply keep_ite2 | apply keep_ite3 | apply keep_ite1 | apply keep_foldl | apply keep_foldl2 | apply keep_foldl3 | (fail_if_no_progress refine keep_mk rfl rfl rfl rfl rfl ?_) | refine keep_free rfl rfl rfl rfl rfl ?_)) | dsimp only | split)
theorem eisService_keep (s : State) (h0 : Keep k s) :
    Keep k (eisService s) := by
  unfold eisService
  repeat' (first | (with_reducible assumption) | (intro _) | (with_reducible (first | apply opEclkLock_keep | apply eisRelease_keep)) | (with_reducible (first | apply keep_ite | apply keep_ite2 | apply keep_ite3 | apply keep_ite1 | apply keep_foldl | apply keep_foldl2 | apply keep_foldl3 | (fail_if_no_progress refine keep_mk rfl rfl rfl rfl rfl ?_) | refine keep_free rfl rfl rfl rfl rfl ?_)) | dsimp only | split)
theorem bootRelease_keep (locked : List ℕ) (s : State) (h1 : Keep k s) :
    Keep k (bootRelease locked s).2 := by
  unfold bootRelease
  repeat' (first | (with_reducible assumption) | (intro _) | (with_reducible (first | apply fflag_keep | apply finishLoad_keep | apply opStagedRelease_keep | apply opLockFail_keep)) | (with_reducible (first | apply keep_ite | apply keep_ite2 | apply keep_ite3 | apply keep_ite1 | apply keep_foldl | apply keep_foldl2 | apply keep_foldl3 | (fail_if_no_progress refine keep_mk rfl rfl rfl rfl rfl ?_) | refine keep_free rfl rfl rfl rfl rfl ?_)) | dsimp only | split)
theorem autoLock_keep (s : State) (h0 : Keep k s) :
    Keep k (autoLock s) := by
  unfold autoLock
  repeat' (first | (with_reducible assumption) | (intro _) | (with_reducible (first | apply stepEnd_keep | apply lockPlan_keep | apply stepBegin_keep | apply journal_keep | apply fflag_keep)) | (with_reducible (first | apply keep_ite | apply keep_ite2 | apply keep_ite3 | apply keep_ite1 | apply keep_foldl | apply keep_foldl2 | apply keep_foldl3 | (fail_if_no_progress refine keep_mk rfl rfl rfl rfl rfl ?_) | refine keep_free rfl rfl rfl rfl rfl ?_)) | dsimp only | split)
theorem opPhaseF_keep (locked : List ℕ) (s : State) (h1 : Keep k s) :
    Keep k (opPhaseF locked s) := by
  unfold opPhaseF
  repeat' (first | (with_reducible assumption) | (intro _) | (with_reducible (first | apply stepBegin_keep | apply journal_keep | apply fflag_keep | apply bootRelease_keep | apply stepEnd_keep | apply autoLock_keep | apply eisService_keep | apply phaseEnd_keep | apply stepRun_keep)) | (with_reducible (first | apply keep_ite | apply keep_ite2 | apply keep_ite3 | apply keep_ite1 | apply keep_foldl | apply keep_foldl2 | apply keep_foldl3 | (fail_if_no_progress refine keep_mk rfl rfl rfl rfl rfl ?_) | refine keep_free rfl rfl rfl rfl rfl ?_)) | dsimp only | split)
theorem opLockWait_keep (s : State) (h0 : Keep k s) :
    Keep k (opLockWait s) := by
  unfold opLockWait
  repeat' (first | (with_reducible assumption) | (intro _) | (with_reducible (first | apply lockPlan_keep | apply jEvent_keep)) | (with_reducible (first | apply keep_ite | apply keep_ite2 | apply keep_ite3 | apply keep_ite1 | apply keep_foldl | apply keep_foldl2 | apply keep_foldl3 | (fail_if_no_progress refine keep_mk rfl rfl rfl rfl rfl ?_) | refine keep_free rfl rfl rfl rfl rfl ?_)) | dsimp only | split)

end Sys2Proof.Machine
end

