-- ==== Sys2Proof/Laws/KeepCmd.lean ====
section
/-! SUPPORT. The operations of Machine/Cmd.lean keep the queue, the counts that only rise, and `Inv`. -/

namespace Sys2Proof.Machine

set_option linter.unusedTactic false
set_option linter.unreachableTactic false
set_option linter.unusedVariables false

variable {k : KeepAt}

theorem cmdOk_keep (c : Cmd) (payload : List Byte) (s : State) (h2 : Keep k s) :
    Keep k (cmdOk c payload s) := by
  unfold cmdOk
  repeat' (first | (with_reducible assumption) | (intro _) | (with_reducible (first | apply mbFinish_keep)) | (with_reducible (first | apply keep_ite | apply keep_ite2 | apply keep_ite3 | apply keep_ite1 | apply keep_foldl | apply keep_foldl2 | apply keep_foldl3 | (fail_if_no_progress refine keep_mk rfl rfl rfl rfl rfl ?_) | refine keep_free rfl rfl rfl rfl rfl ?_)) | dsimp only | split)
theorem cmdBad_keep (c : Cmd) (s : State) (h1 : Keep k s) :
    Keep k (cmdBad c s) := by
  unfold cmdBad
  repeat' (first | (with_reducible assumption) | (intro _) | (with_reducible (first | apply mbFinish_keep)) | (with_reducible (first | apply keep_ite | apply keep_ite2 | apply keep_ite3 | apply keep_ite1 | apply keep_foldl | apply keep_foldl2 | apply keep_foldl3 | (fail_if_no_progress refine keep_mk rfl rfl rfl rfl rfl ?_) | refine keep_free rfl rfl rfl rfl rfl ?_)) | dsimp only | split)
theorem cmdDenied_keep (c : Cmd) (src : ℕ) (code : ℕ) (s : State) (h3 : Keep k s) :
    Keep k (cmdDenied c src code s) := by
  unfold cmdDenied
  repeat' (first | (with_reducible assumption) | (intro _) | (with_reducible (first | apply mbFinish_keep)) | (with_reducible (first | apply keep_ite | apply keep_ite2 | apply keep_ite3 | apply keep_ite1 | apply keep_foldl | apply keep_foldl2 | apply keep_foldl3 | (fail_if_no_progress refine keep_mk rfl rfl rfl rfl rfl ?_) | refine keep_free rfl rfl rfl rfl rfl ?_)) | dsimp only | split)
theorem cmdFailed_keep (c : Cmd) (src : ℕ) (code : ℕ) (idx : ℕ) (s : State) (h4 : Keep k s) :
    Keep k (cmdFailed c src code idx s) := by
  unfold cmdFailed
  repeat' (first | (with_reducible assumption) | (intro _) | (with_reducible (first | apply mbFinish_keep)) | (with_reducible (first | apply keep_ite | apply keep_ite2 | apply keep_ite3 | apply keep_ite1 | apply keep_foldl | apply keep_foldl2 | apply keep_foldl3 | (fail_if_no_progress refine keep_mk rfl rfl rfl rfl rfl ?_) | refine keep_free rfl rfl rfl rfl rfl ?_)) | dsimp only | split)
theorem cmdOff_keep (c : Cmd) (idx : ℕ) (s : State) (h2 : Keep k s) :
    Keep k (cmdOff c idx s) := by
  unfold cmdOff
  repeat' (first | (with_reducible assumption) | (intro _) | (with_reducible (first | apply cmdFailed_keep)) | (with_reducible (first | apply keep_ite | apply keep_ite2 | apply keep_ite3 | apply keep_ite1 | apply keep_foldl | apply keep_foldl2 | apply keep_foldl3 | (fail_if_no_progress refine keep_mk rfl rfl rfl rfl rfl ?_) | refine keep_free rfl rfl rfl rfl rfl ?_)) | dsimp only | split)
theorem cmdWait_keep (c : Cmd) (w : Wait) (s : State) (h2 : Keep k s) :
    Keep k (cmdWait c w s) := by
  unfold cmdWait
  repeat' (first | (with_reducible assumption) | (intro _) | (with_reducible (first | apply mbUpd_keep)) | (with_reducible (first | apply keep_ite | apply keep_ite2 | apply keep_ite3 | apply keep_ite1 | apply keep_foldl | apply keep_foldl2 | apply keep_foldl3 | (fail_if_no_progress refine keep_mk rfl rfl rfl rfl rfl ?_) | refine keep_free rfl rfl rfl rfl rfl ?_)) | dsimp only | split)
theorem slotFill_keep (s : State) (r : MbReq) (op : ℕ) (h0 : Keep k s) :
    Keep k (slotFill s r op) := by
  unfold slotFill
  repeat' (first | (with_reducible assumption) | (intro _) | (with_reducible (first | apply mbUpd_keep)) | (with_reducible (first | apply keep_ite | apply keep_ite2 | apply keep_ite3 | apply keep_ite1 | apply keep_foldl | apply keep_foldl2 | apply keep_foldl3 | (fail_if_no_progress refine keep_mk rfl rfl rfl rfl rfl ?_) | refine keep_free rfl rfl rfl rfl rfl ?_)) | dsimp only | split)
theorem withObjs_keep (c : Cmd) (go : State → State) (s : State) (h1 : ∀ s, Keep k s → Keep k (go s)) (h2 : Keep k s) :
    Keep k (withObjs c go s) := by
  unfold withObjs
  repeat' (first | (with_reducible assumption) | (intro _) | (with_reducible (first | apply cmdWait_keep)) | (with_reducible (first | apply h1)) | (with_reducible (first | apply keep_ite | apply keep_ite2 | apply keep_ite3 | apply keep_ite1 | apply keep_foldl | apply keep_foldl2 | apply keep_foldl3 | (fail_if_no_progress refine keep_mk rfl rfl rfl rfl rfl ?_) | refine keep_free rfl rfl rfl rfl rfl ?_)) | dsimp only | split)
theorem cmdDevInfo_keep (c : Cmd) (s : State) (h1 : Keep k s) :
    Keep k (cmdDevInfo c s) := by
  unfold cmdDevInfo
  repeat' (first | (with_reducible assumption) | (intro _) | (with_reducible (first | apply cmdOk_keep)) | (with_reducible (first | apply keep_ite | apply keep_ite2 | apply keep_ite3 | apply keep_ite1 | apply keep_foldl | apply keep_foldl2 | apply keep_foldl3 | (fail_if_no_progress refine keep_mk rfl rfl rfl rfl rfl ?_) | refine keep_free rfl rfl rfl rfl rfl ?_)) | dsimp only | split)
theorem cmdIfLevel_keep (c : Cmd) (s : State) (h1 : Keep k s) :
    Keep k (cmdIfLevel c s) := by
  unfold cmdIfLevel
  repeat' (first | (with_reducible assumption) | (intro _) | (with_reducible (first | apply cmdOk_keep | apply cmdBad_keep)) | (with_reducible (first | apply keep_ite | apply keep_ite2 | apply keep_ite3 | apply keep_ite1 | apply keep_foldl | apply keep_foldl2 | apply keep_foldl3 | (fail_if_no_progress refine keep_mk rfl rfl rfl rfl rfl ?_) | refine keep_free rfl rfl rfl rfl rfl ?_)) | dsimp only | split)
theorem cmdAttach_keep (c : Cmd) (s : State) (h1 : Keep k s) :
    Keep k (cmdAttach c s) := by
  unfold cmdAttach
  repeat' (first | (with_reducible assumption) | (intro _) | (with_reducible (first | apply cmdBad_keep | apply mbFinish_keep | apply restartPart_keep | apply cmdOk_keep)) | (with_reducible (first | apply keep_ite | apply keep_ite2 | apply keep_ite3 | apply keep_ite1 | apply keep_foldl | apply keep_foldl2 | apply keep_foldl3 | (fail_if_no_progress refine keep_mk rfl rfl rfl rfl rfl ?_) | refine keep_free rfl rfl rfl rfl rfl ?_)) | dsimp only | split)
theorem cmdDetach_keep (c : Cmd) (s : State) (h1 : Keep k s) :
    Keep k (cmdDetach c s) := by
  unfold cmdDetach
  repeat' (first | (with_reducible assumption) | (intro _) | (with_reducible (first | apply cmdDenied_keep | apply cmdBad_keep | apply stopPart_keep | apply endSessions_keep | apply cmdOk_keep)) | (with_reducible (first | apply keep_ite | apply keep_ite2 | apply keep_ite3 | apply keep_ite1 | apply keep_foldl | apply keep_foldl2 | apply keep_foldl3 | (fail_if_no_progress refine keep_mk rfl rfl rfl rfl rfl ?_) | refine keep_free rfl rfl rfl rfl rfl ?_)) | dsimp only | split)
theorem cmdPartInfo_keep (c : Cmd) (s : State) (h1 : Keep k s) :
    Keep k (cmdPartInfo c s) := by
  unfold cmdPartInfo
  repeat' (first | (with_reducible assumption) | (intro _) | (with_reducible (first | apply cmdDenied_keep | apply cmdBad_keep | apply cmdOk_keep)) | (with_reducible (first | apply keep_ite | apply keep_ite2 | apply keep_ite3 | apply keep_ite1 | apply keep_foldl | apply keep_foldl2 | apply keep_foldl3 | (fail_if_no_progress refine keep_mk rfl rfl rfl rfl rfl ?_) | refine keep_free rfl rfl rfl rfl rfl ?_)) | dsimp only | split)
theorem cmdEcho_keep (c : Cmd) (s : State) (h1 : Keep k s) :
    Keep k (cmdEcho c s) := by
  unfold cmdEcho
  repeat' (first | (with_reducible assumption) | (intro _) | (with_reducible (first | apply cmdOk_keep)) | (with_reducible (first | apply keep_ite | apply keep_ite2 | apply keep_ite3 | apply keep_ite1 | apply keep_foldl | apply keep_foldl2 | apply keep_foldl3 | (fail_if_no_progress refine keep_mk rfl rfl rfl rfl rfl ?_) | refine keep_free rfl rfl rfl rfl rfl ?_)) | dsimp only | split)

end Sys2Proof.Machine
end

