-- ==== Sys2Proof/Laws/KeepCmdRegion.lean ====
section
/-! SUPPORT. The operations of Machine/CmdRegion.lean keep the queue, the counts that only rise, and `Inv`. -/

namespace Sys2Proof.Machine

set_option linter.unusedTactic false
set_option linter.unreachableTactic false
set_option linter.unusedVariables false

variable {k : KeepAt}

theorem descEnd_keep (c : Cmd) (r : Resp) (s : State) (h2 : Keep k s) :
    Keep k (descEnd c r s) := by
  unfold descEnd
  repeat' (first | (with_reducible assumption) | (intro _) | (with_reducible (first | apply cmdDenied_keep | apply cmdFailed_keep)) | (with_reducible (first | apply keep_ite | apply keep_ite2 | apply keep_ite3 | apply keep_ite1 | apply keep_foldl | apply keep_foldl2 | apply keep_foldl3 | (fail_if_no_progress refine keep_mk rfl rfl rfl rfl rfl ?_) | refine keep_free rfl rfl rfl rfl rfl ?_)) | dsimp only | split)
theorem regionCmd_keep (c : Cmd) (go : List ℕ → State → State) (s : State) (h1 : ∀ a s, Keep k s → Keep k (go a s)) (h2 : Keep k s) :
    Keep k (regionCmd c go s) := by
  unfold regionCmd
  repeat' (first | (with_reducible assumption) | (intro _) | (with_reducible (first | apply cmdDenied_keep | apply cmdBad_keep | apply cmdOff_keep | apply withObjs_keep | apply cmdWait_keep)) | (with_reducible (first | apply h1)) | (with_reducible (first | apply keep_ite | apply keep_ite2 | apply keep_ite3 | apply keep_ite1 | apply keep_foldl | apply keep_foldl2 | apply keep_foldl3 | (fail_if_no_progress refine keep_mk rfl rfl rfl rfl rfl ?_) | refine keep_free rfl rfl rfl rfl rfl ?_)) | dsimp only | split)
theorem cmdRegionLoad_keep (c : Cmd) (s : State) (h1 : Keep k s) :
    Keep k (cmdRegionLoad c s) := by
  unfold cmdRegionLoad
  repeat' (first | (with_reducible assumption) | (intro _) | (with_reducible (first | apply regionCmd_keep | apply cmdWait_keep | apply cmdBad_keep | apply descEnd_keep)) | (with_reducible (first | apply keep_ite | apply keep_ite2 | apply keep_ite3 | apply keep_ite1 | apply keep_foldl | apply keep_foldl2 | apply keep_foldl3 | (fail_if_no_progress refine keep_mk rfl rfl rfl rfl rfl ?_) | refine keep_free rfl rfl rfl rfl rfl ?_)) | dsimp only | split)
theorem cmdRegionUnload_keep (c : Cmd) (s : State) (h1 : Keep k s) :
    Keep k (cmdRegionUnload c s) := by
  unfold cmdRegionUnload
  repeat' (first | (with_reducible assumption) | (intro _) | (with_reducible (first | apply regionCmd_keep | apply islUpd_keep | apply drainStart_keep | apply nocUpd_keep | apply cmdWait_keep)) | (with_reducible (first | apply keep_ite | apply keep_ite2 | apply keep_ite3 | apply keep_ite1 | apply keep_foldl | apply keep_foldl2 | apply keep_foldl3 | (fail_if_no_progress refine keep_mk rfl rfl rfl rfl rfl ?_) | refine keep_free rfl rfl rfl rfl rfl ?_)) | dsimp only | split)
theorem unloadIsl_keep (s : State) (n : ℕ) (h0 : Keep k s) :
    Keep k (unloadIsl s n) := by
  unfold unloadIsl
  repeat' (first | (with_reducible assumption) | (intro _) | (with_reducible (first | apply islUpd_keep | apply clearReconf_keep | apply nocUpd_keep)) | (with_reducible (first | apply keep_ite | apply keep_ite2 | apply keep_ite3 | apply keep_ite1 | apply keep_foldl | apply keep_foldl2 | apply keep_foldl3 | (fail_if_no_progress refine keep_mk rfl rfl rfl rfl rfl ?_) | refine keep_free rfl rfl rfl rfl rfl ?_)) | dsimp only | split)
theorem regionUnloadEnd_keep (c : Cmd) (s : State) (h1 : Keep k s) :
    Keep k (regionUnloadEnd c s) := by
  unfold regionUnloadEnd
  repeat' (first | (with_reducible assumption) | (intro _) | (with_reducible (first | apply cmdOk_keep | apply unloadIsl_keep)) | (with_reducible (first | apply keep_ite | apply keep_ite2 | apply keep_ite3 | apply keep_ite1 | apply keep_foldl | apply keep_foldl2 | apply keep_foldl3 | (fail_if_no_progress refine keep_mk rfl rfl rfl rfl rfl ?_) | refine keep_free rfl rfl rfl rfl rfl ?_)) | dsimp only | split)
theorem cmdRegionStatus_keep (c : Cmd) (s : State) (h1 : Keep k s) :
    Keep k (cmdRegionStatus c s) := by
  unfold cmdRegionStatus
  repeat' (first | (with_reducible assumption) | (intro _) | (with_reducible (first | apply cmdDenied_keep | apply cmdBad_keep | apply cmdOk_keep)) | (with_reducible (first | apply keep_ite | apply keep_ite2 | apply keep_ite3 | apply keep_ite1 | apply keep_foldl | apply keep_foldl2 | apply keep_foldl3 | (fail_if_no_progress refine keep_mk rfl rfl rfl rfl rfl ?_) | refine keep_free rfl rfl rfl rfl rfl ?_)) | dsimp only | split)
theorem engineCmd_keep (c : Cmd) (ok : Bool) (go : State → State) (s : State) (h2 : ∀ s, Keep k s → Keep k (go s)) (h3 : Keep k s) :
    Keep k (engineCmd c ok go s) := by
  unfold engineCmd
  repeat' (first | (with_reducible assumption) | (intro _) | (with_reducible (first | apply cmdDenied_keep | apply cmdBad_keep | apply cmdOff_keep)) | (with_reducible (first | apply h2)) | (with_reducible (first | apply keep_ite | apply keep_ite2 | apply keep_ite3 | apply keep_ite1 | apply keep_foldl | apply keep_foldl2 | apply keep_foldl3 | (fail_if_no_progress refine keep_mk rfl rfl rfl rfl rfl ?_) | refine keep_free rfl rfl rfl rfl rfl ?_)) | dsimp only | split)
theorem cmdEngineLoad_keep (c : Cmd) (s : State) (h1 : Keep k s) :
    Keep k (cmdEngineLoad c s) := by
  unfold cmdEngineLoad
  repeat' (first | (with_reducible assumption) | (intro _) | (with_reducible (first | apply engineCmd_keep | apply withObjs_keep | apply cmdOff_keep | apply cmdBad_keep | apply dmcRead_keep | apply descEnd_keep | apply cmdFailed_keep | apply mbFinish_keep | apply engUpd_keep | apply mbUpd_keep)) | (with_reducible (first | apply keep_ite | apply keep_ite2 | apply keep_ite3 | apply keep_ite1 | apply keep_foldl | apply keep_foldl2 | apply keep_foldl3 | (fail_if_no_progress refine keep_mk rfl rfl rfl rfl rfl ?_) | refine keep_free rfl rfl rfl rfl rfl ?_)) | dsimp only | split)
theorem engineLoadEnd_keep (c : Cmd) (s : State) (h1 : Keep k s) :
    Keep k (engineLoadEnd c s) := by
  unfold engineLoadEnd
  repeat' (first | (with_reducible assumption) | (intro _) | (with_reducible (first | apply setBind_keep | apply installImg_keep | apply eisUpd_keep | apply eisRelease_keep | apply cmdOk_keep | apply cmdFailed_keep)) | (with_reducible (first | apply keep_ite | apply keep_ite2 | apply keep_ite3 | apply keep_ite1 | apply keep_foldl | apply keep_foldl2 | apply keep_foldl3 | (fail_if_no_progress refine keep_mk rfl rfl rfl rfl rfl ?_) | refine keep_free rfl rfl rfl rfl rfl ?_)) | dsimp only | split)
theorem setClass_keep (s : State) (e : ℕ) (k0 : ℕ) (v : ℕ × ℕ × ℕ) (h0 : Keep k s) :
    Keep k (setClass s e k0 v) := by
  unfold setClass
  repeat' (first | (with_reducible assumption) | (intro _) | (with_reducible (first | apply eisUpd_keep | apply fset_keep)) | (with_reducible (first | apply keep_ite | apply keep_ite2 | apply keep_ite3 | apply keep_ite1 | apply keep_foldl | apply keep_foldl2 | apply keep_foldl3 | (fail_if_no_progress refine keep_mk rfl rfl rfl rfl rfl ?_) | refine keep_free rfl rfl rfl rfl rfl ?_)) | dsimp only | split)
theorem cmdPeriodSet_keep (c : Cmd) (s : State) (h1 : Keep k s) :
    Keep k (cmdPeriodSet c s) := by
  unfold cmdPeriodSet
  repeat' (first | (with_reducible assumption) | (intro _) | (with_reducible (first | apply engineCmd_keep | apply withObjs_keep | apply setClass_keep | apply setBind_keep | apply inject_keep | apply cmdOk_keep)) | (with_reducible (first | apply keep_ite | apply keep_ite2 | apply keep_ite3 | apply keep_ite1 | apply keep_foldl | apply keep_foldl2 | apply keep_foldl3 | (fail_if_no_progress refine keep_mk rfl rfl rfl rfl rfl ?_) | refine keep_free rfl rfl rfl rfl rfl ?_)) | dsimp only | split)
theorem cmdEngineStats_keep (c : Cmd) (s : State) (h1 : Keep k s) :
    Keep k (cmdEngineStats c s) := by
  unfold cmdEngineStats
  repeat' (first | (with_reducible assumption) | (intro _) | (with_reducible (first | apply engineCmd_keep | apply cmdOk_keep | apply actSchedClr_keep)) | (with_reducible (first | apply keep_ite | apply keep_ite2 | apply keep_ite3 | apply keep_ite1 | apply keep_foldl | apply keep_foldl2 | apply keep_foldl3 | (fail_if_no_progress refine keep_mk rfl rfl rfl rfl rfl ?_) | refine keep_free rfl rfl rfl rfl rfl ?_)) | dsimp only | split)

end Sys2Proof.Machine
end

