-- ==== Sys2Proof/Laws/KeepCmdLink.lean ====
section
/-! SUPPORT. The operations of Machine/CmdLink.lean keep the queue, the counts that only rise, and `Inv`. -/

namespace Sys2Proof.Machine

set_option linter.unusedTactic false
set_option linter.unreachableTactic false
set_option linter.unusedVariables false

variable {k : KeepAt}

theorem linkEnable_keep (c : Cmd) (n : ℕ) (s : State) (h2 : Keep k s) :
    Keep k (linkEnable c n s) := by
  unfold linkEnable
  repeat' (first | (with_reducible assumption) | (intro _) | (with_reducible (first | apply quadUpd_keep | apply laneUpd_keep | apply laneRestart_keep | apply setMode_keep | apply laneEndTest_keep | apply fset_keep | apply setLink_keep | apply laneAttempt_keep | apply laneQuiet_keep)) | (with_reducible (first | apply keep_ite | apply keep_ite2 | apply keep_ite3 | apply keep_ite1 | apply keep_foldl | apply keep_foldl2 | apply keep_foldl3 | (fail_if_no_progress refine keep_mk rfl rfl rfl rfl rfl ?_) | refine keep_free rfl rfl rfl rfl rfl ?_)) | dsimp only | split)
theorem cmdLinkSet_keep (c : Cmd) (s : State) (h1 : Keep k s) :
    Keep k (cmdLinkSet c s) := by
  unfold cmdLinkSet
  repeat' (first | (with_reducible assumption) | (intro _) | (with_reducible (first | apply cmdDenied_keep | apply cmdBad_keep | apply cmdOff_keep | apply withObjs_keep | apply cmdOk_keep | apply laneDisable_keep | apply laneUpd_keep | apply cmdFailed_keep | apply quadWake_keep | apply linkEnable_keep | apply setLink_keep)) | (with_reducible (first | apply keep_ite | apply keep_ite2 | apply keep_ite3 | apply keep_ite1 | apply keep_foldl | apply keep_foldl2 | apply keep_foldl3 | (fail_if_no_progress refine keep_mk rfl rfl rfl rfl rfl ?_) | refine keep_free rfl rfl rfl rfl rfl ?_)) | dsimp only | split)
theorem cmdLinkStatus_keep (c : Cmd) (s : State) (h1 : Keep k s) :
    Keep k (cmdLinkStatus c s) := by
  unfold cmdLinkStatus
  repeat' (first | (with_reducible assumption) | (intro _) | (with_reducible (first | apply cmdDenied_keep | apply cmdBad_keep | apply cmdOff_keep | apply cmdOk_keep)) | (with_reducible (first | apply keep_ite | apply keep_ite2 | apply keep_ite3 | apply keep_ite1 | apply keep_foldl | apply keep_foldl2 | apply keep_foldl3 | (fail_if_no_progress refine keep_mk rfl rfl rfl rfl rfl ?_) | refine keep_free rfl rfl rfl rfl rfl ?_)) | dsimp only | split)
theorem enterTest_keep (c : Cmd) (n : ℕ) (s : State) (h2 : Keep k s) :
    Keep k (enterTest c n s) := by
  unfold enterTest
  repeat' (first | (with_reducible assumption) | (intro _) | (with_reducible (first | apply laneUpd_keep | apply laneQuiet_keep | apply setLink_keep | apply fset_keep | apply csrClear_keep | apply fflag_keep)) | (with_reducible (first | apply keep_ite | apply keep_ite2 | apply keep_ite3 | apply keep_ite1 | apply keep_foldl | apply keep_foldl2 | apply keep_foldl3 | (fail_if_no_progress refine keep_mk rfl rfl rfl rfl rfl ?_) | refine keep_free rfl rfl rfl rfl rfl ?_)) | dsimp only | split)
theorem linkTestEnd_keep (c : Cmd) (s : State) (h1 : Keep k s) :
    Keep k (linkTestEnd c s) := by
  unfold linkTestEnd
  repeat' (first | (with_reducible assumption) | (intro _) | (with_reducible (first | apply testResult_keep | apply cmdOk_keep | apply laneLeaveTest_keep)) | (with_reducible (first | apply keep_ite | apply keep_ite2 | apply keep_ite3 | apply keep_ite1 | apply keep_foldl | apply keep_foldl2 | apply keep_foldl3 | (fail_if_no_progress refine keep_mk rfl rfl rfl rfl rfl ?_) | refine keep_free rfl rfl rfl rfl rfl ?_)) | dsimp only | split)
theorem cmdLinkTest_keep (c : Cmd) (s : State) (h1 : Keep k s) :
    Keep k (cmdLinkTest c s) := by
  unfold cmdLinkTest
  repeat' (first | (with_reducible assumption) | (intro _) | (with_reducible (first | apply cmdDenied_keep | apply cmdBad_keep | apply cmdOff_keep | apply withObjs_keep | apply linkTestEnd_keep | apply cmdFailed_keep | apply enterTest_keep | apply cmdOk_keep | apply cmdWait_keep)) | (with_reducible (first | apply keep_ite | apply keep_ite2 | apply keep_ite3 | apply keep_ite1 | apply keep_foldl | apply keep_foldl2 | apply keep_foldl3 | (fail_if_no_progress refine keep_mk rfl rfl rfl rfl rfl ?_) | refine keep_free rfl rfl rfl rfl rfl ?_)) | dsimp only | split)

end Sys2Proof.Machine
end

