-- ==== Sys2Proof/Laws/KeepCmdPower.lean ====
section
/-! SUPPORT. The operations of Machine/CmdPower.lean keep the queue, the counts that only rise, and `Inv`. -/

namespace Sys2Proof.Machine

set_option linter.unusedTactic false
set_option linter.unreachableTactic false
set_option linter.unusedVariables false

variable {k : KeepAt}

theorem islAsked_keep (s : State) (n : ℕ) (h0 : Keep k s) :
    Keep k (islAsked s n) := by
  unfold islAsked
  repeat' (first | (with_reducible assumption) | (intro _) | (with_reducible (first | apply islUpd_keep)) | (with_reducible (first | apply keep_ite | apply keep_ite2 | apply keep_ite3 | apply keep_ite1 | apply keep_foldl | apply keep_foldl2 | apply keep_foldl3 | (fail_if_no_progress refine keep_mk rfl rfl rfl rfl rfl ?_) | refine keep_free rfl rfl rfl rfl rfl ?_)) | dsimp only | split)
theorem islWant_keep (c : Cmd) (n : ℕ) (s : State) (h2 : Keep k s) :
    Keep k (islWant c n s) := by
  unfold islWant
  repeat' (first | (with_reducible assumption) | (intro _) | (with_reducible (first | apply islAsked_keep | apply cmdOk_keep | apply cmdWait_keep | apply wakeStart_keep | apply setIslState_keep | apply islUpd_keep)) | (with_reducible (first | apply keep_ite | apply keep_ite2 | apply keep_ite3 | apply keep_ite1 | apply keep_foldl | apply keep_foldl2 | apply keep_foldl3 | (fail_if_no_progress refine keep_mk rfl rfl rfl rfl rfl ?_) | refine keep_free rfl rfl rfl rfl rfl ?_)) | dsimp only | split)
theorem islDown_keep (c : Cmd) (n : ℕ) (st : ℕ) (keep : Bool) (s : State) (h4 : Keep k s) :
    Keep k (islDown c n st keep s) := by
  unfold islDown
  repeat' (first | (with_reducible assumption) | (intro _) | (with_reducible (first | apply cmdOk_keep | apply setIslState_keep | apply islUpd_keep | apply cmdWait_keep | apply nocUpd_keep | apply drainStart_keep)) | (with_reducible (first | apply keep_ite | apply keep_ite2 | apply keep_ite3 | apply keep_ite1 | apply keep_foldl | apply keep_foldl2 | apply keep_foldl3 | (fail_if_no_progress refine keep_mk rfl rfl rfl rfl rfl ?_) | refine keep_free rfl rfl rfl rfl rfl ?_)) | dsimp only | split)
theorem powerIsland_keep (c : Cmd) (s : State) (h1 : Keep k s) :
    Keep k (powerIsland c s) := by
  unfold powerIsland
  repeat' (first | (with_reducible assumption) | (intro _) | (with_reducible (first | apply withObjs_keep | apply cmdOk_keep | apply cmdWait_keep | apply islWant_keep | apply islDown_keep)) | (with_reducible (first | apply keep_ite | apply keep_ite2 | apply keep_ite3 | apply keep_ite1 | apply keep_foldl | apply keep_foldl2 | apply keep_foldl3 | (fail_if_no_progress refine keep_mk rfl rfl rfl rfl rfl ?_) | refine keep_free rfl rfl rfl rfl rfl ?_)) | dsimp only | split)
theorem powerIslandEnd_keep (c : Cmd) (s : State) (h1 : Keep k s) :
    Keep k (powerIslandEnd c s) := by
  unfold powerIslandEnd
  repeat' (first | (with_reducible assumption) | (intro _) | (with_reducible (first | apply cmdFailed_keep | apply cmdOk_keep)) | (with_reducible (first | apply keep_ite | apply keep_ite2 | apply keep_ite3 | apply keep_ite1 | apply keep_foldl | apply keep_foldl2 | apply keep_foldl3 | (fail_if_no_progress refine keep_mk rfl rfl rfl rfl rfl ?_) | refine keep_free rfl rfl rfl rfl rfl ?_)) | dsimp only | split)
theorem powerEngines_keep (c : Cmd) (s : State) (h1 : Keep k s) :
    Keep k (powerEngines c s) := by
  unfold powerEngines
  refine withObjs_keep _ _ _ ?_ h1
  intro s hs
  extract_lets now asked
  have ha : Keep k (asked s) := eisUpd_keep _ _ _ hs
  have hw := eisWake_keep (asked s) (10 * pb c.pl 1 + pb c.pl 2) ha
  clear_value asked
  with_reducible refine keep_ite (fun _ => cmdOk_keep _ _ _ (keep_ite (fun _ => ha) (fun _ => hs))) (fun _ => keep_ite (fun _ => cmdOk_keep _ _ _ hs) (fun _ =>
    keep_ite (fun _ => ?_) (fun _ => keep_ite (fun _ => ?_) (fun _ => ?_))))
  · have hw' := hw
    split
    · exact cmdFailed_keep _ _ _ _ _ hw
    · exact cmdOk_keep _ _ _ hw
  · exact cmdOk_keep _ _ _ (eisPowerOff_keep _ _ _ hs)
  · exact cmdOk_keep _ _ _ (eisUpd_keep _ _ _ hs)
theorem powerQuad_keep (c : Cmd) (s : State) (h1 : Keep k s) :
    Keep k (powerQuad c s) := by
  unfold powerQuad
  repeat' (first | (with_reducible assumption) | (intro _) | (with_reducible (first | apply withObjs_keep | apply quadUpd_keep | apply cmdOk_keep | apply quadWake_keep | apply quadOff_keep)) | (with_reducible (first | apply keep_ite | apply keep_ite2 | apply keep_ite3 | apply keep_ite1 | apply keep_foldl | apply keep_foldl2 | apply keep_foldl3 | (fail_if_no_progress refine keep_mk rfl rfl rfl rfl rfl ?_) | refine keep_free rfl rfl rfl rfl rfl ?_)) | dsimp only | split)
theorem powerDevice_keep (c : Cmd) (s : State) (h1 : Keep k s) :
    Keep k (powerDevice c s) := by
  unfold powerDevice
  repeat' (first | (with_reducible assumption) | (intro _) | (with_reducible (first | apply cmdDenied_keep | apply cmdBad_keep | apply cmdWait_keep | apply cmdOk_keep | apply standbyExit_keep | apply sleepRequest_keep)) | (with_reducible (first | apply keep_ite | apply keep_ite2 | apply keep_ite3 | apply keep_ite1 | apply keep_foldl | apply keep_foldl2 | apply keep_foldl3 | (fail_if_no_progress refine keep_mk rfl rfl rfl rfl rfl ?_) | refine keep_free rfl rfl rfl rfl rfl ?_)) | dsimp only | split)
theorem opAutoIdle_keep (s : State) (h0 : Keep k s) :
    Keep k (opAutoIdle s) := by
  unfold opAutoIdle
  repeat' (first | (with_reducible assumption) | (intro _) | (with_reducible (first | apply jEvent_keep | apply sleepRequest_keep)) | (with_reducible (first | apply keep_ite | apply keep_ite2 | apply keep_ite3 | apply keep_ite1 | apply keep_foldl | apply keep_foldl2 | apply keep_foldl3 | (fail_if_no_progress refine keep_mk rfl rfl rfl rfl rfl ?_) | refine keep_free rfl rfl rfl rfl rfl ?_)) | dsimp only | split)
theorem cmdPowerSet_keep (c : Cmd) (s : State) (h1 : Keep k s) :
    Keep k (cmdPowerSet c s) := by
  unfold cmdPowerSet
  repeat' (first | (with_reducible assumption) | (intro _) | (with_reducible (first | apply cmdBad_keep | apply powerDevice_keep | apply cmdDenied_keep | apply cmdOff_keep | apply powerIsland_keep | apply powerEngines_keep | apply powerQuad_keep)) | (with_reducible (first | apply keep_ite | apply keep_ite2 | apply keep_ite3 | apply keep_ite1 | apply keep_foldl | apply keep_foldl2 | apply keep_foldl3 | (fail_if_no_progress refine keep_mk rfl rfl rfl rfl rfl ?_) | refine keep_free rfl rfl rfl rfl rfl ?_)) | dsimp only | split)
theorem cmdDeviceState_keep (c : Cmd) (s : State) (h1 : Keep k s) :
    Keep k (cmdDeviceState c s) := by
  unfold cmdDeviceState
  repeat' (first | (with_reducible assumption) | (intro _) | (with_reducible (first | apply cmdBad_keep | apply cmdOk_keep)) | (with_reducible (first | apply keep_ite | apply keep_ite2 | apply keep_ite3 | apply keep_ite1 | apply keep_foldl | apply keep_foldl2 | apply keep_foldl3 | (fail_if_no_progress refine keep_mk rfl rfl rfl rfl rfl ?_) | refine keep_free rfl rfl rfl rfl rfl ?_)) | dsimp only | split)
theorem cmdHealthRead_keep (c : Cmd) (s : State) (h1 : Keep k s) :
    Keep k (cmdHealthRead c s) := by
  unfold cmdHealthRead
  repeat' (first | (with_reducible assumption) | (intro _) | (with_reducible (first | apply cmdBad_keep | apply cmdOk_keep | apply cmdOff_keep)) | (with_reducible (first | apply keep_ite | apply keep_ite2 | apply keep_ite3 | apply keep_ite1 | apply keep_foldl | apply keep_foldl2 | apply keep_foldl3 | (fail_if_no_progress refine keep_mk rfl rfl rfl rfl rfl ?_) | refine keep_free rfl rfl rfl rfl rfl ?_)) | dsimp only | split)
theorem cmdPolicySet_keep (c : Cmd) (s : State) (h1 : Keep k s) :
    Keep k (cmdPolicySet c s) := by
  unfold cmdPolicySet
  repeat' (first | (with_reducible assumption) | (intro _) | (with_reducible (first | apply cmdDenied_keep | apply cmdBad_keep | apply cmdOk_keep | apply pwrUpd_keep | apply applyBounds_keep)) | (with_reducible (first | apply keep_ite | apply keep_ite2 | apply keep_ite3 | apply keep_ite1 | apply keep_foldl | apply keep_foldl2 | apply keep_foldl3 | (fail_if_no_progress refine keep_mk rfl rfl rfl rfl rfl ?_) | refine keep_free rfl rfl rfl rfl rfl ?_)) | dsimp only | split)

end Sys2Proof.Machine
end

