-- ==== Sys2Proof/Laws/KeepCmdMem.lean ====
section
/-! SUPPORT. The operations of Machine/CmdMem.lean keep the queue, the counts that only rise, and `Inv`. -/

namespace Sys2Proof.Machine

set_option linter.unusedTactic false
set_option linter.unreachableTactic false
set_option linter.unusedVariables false

variable {k : KeepAt}

theorem cmdMemAlloc_keep (c : Cmd) (s : State) (h1 : Keep k s) :
    Keep k (cmdMemAlloc c s) := by
  unfold cmdMemAlloc
  repeat' (first | (with_reducible assumption) | (intro _) | (with_reducible (first | apply cmdOk_keep | apply assignRange_keep | apply cmdBad_keep | apply cmdDenied_keep | apply withObjs_keep | apply mbFinish_keep)) | (with_reducible (first | apply keep_ite | apply keep_ite2 | apply keep_ite3 | apply keep_ite1 | apply keep_foldl | apply keep_foldl2 | apply keep_foldl3 | (fail_if_no_progress refine keep_mk rfl rfl rfl rfl rfl ?_) | refine keep_free rfl rfl rfl rfl rfl ?_)) | dsimp only | split)
theorem releaseGrans_keep (s : State) (lo : ℕ) (n : ℕ) (h0 : Keep k s) :
    Keep k (releaseGrans s lo n) := by
  unfold releaseGrans
  repeat' (first | (with_reducible assumption) | (intro _) | (with_reducible (first | apply secUpd_keep)) | (with_reducible (first | apply keep_ite | apply keep_ite2 | apply keep_ite3 | apply keep_ite1 | apply keep_foldl | apply keep_foldl2 | apply keep_foldl3 | (fail_if_no_progress refine keep_mk rfl rfl rfl rfl rfl ?_) | refine keep_free rfl rfl rfl rfl rfl ?_)) | dsimp only | split)
theorem memReleaseEnd_keep (c : Cmd) (s : State) (h1 : Keep k s) :
    Keep k (memReleaseEnd c s) := by
  unfold memReleaseEnd
  repeat' (first | (with_reducible assumption) | (intro _) | (with_reducible (first | apply cmdOk_keep | apply releaseGrans_keep)) | (with_reducible (first | apply keep_ite | apply keep_ite2 | apply keep_ite3 | apply keep_ite1 | apply keep_foldl | apply keep_foldl2 | apply keep_foldl3 | (fail_if_no_progress refine keep_mk rfl rfl rfl rfl rfl ?_) | refine keep_free rfl rfl rfl rfl rfl ?_)) | dsimp only | split)
theorem cmdMemRelease_keep (c : Cmd) (s : State) (h1 : Keep k s) :
    Keep k (cmdMemRelease c s) := by
  unfold cmdMemRelease
  repeat' (first | (with_reducible assumption) | (intro _) | (with_reducible (first | apply cmdBad_keep | apply cmdDenied_keep | apply withObjs_keep | apply cmdWait_keep | apply memReleaseEnd_keep)) | (with_reducible (first | apply keep_ite | apply keep_ite2 | apply keep_ite3 | apply keep_ite1 | apply keep_foldl | apply keep_foldl2 | apply keep_foldl3 | (fail_if_no_progress refine keep_mk rfl rfl rfl rfl rfl ?_) | refine keep_free rfl rfl rfl rfl rfl ?_)) | dsimp only | split)
theorem cmdSubtreeReset_keep (c : Cmd) (s : State) (h1 : Keep k s) :
    Keep k (cmdSubtreeReset c s) := by
  unfold cmdSubtreeReset
  repeat' (first | (with_reducible assumption) | (intro _) | (with_reducible (first | apply cmdBad_keep | apply cmdDenied_keep | apply cmdOff_keep | apply withObjs_keep | apply cmdWait_keep | apply secUpd_keep)) | (with_reducible (first | apply keep_ite | apply keep_ite2 | apply keep_ite3 | apply keep_ite1 | apply keep_foldl | apply keep_foldl2 | apply keep_foldl3 | (fail_if_no_progress refine keep_mk rfl rfl rfl rfl rfl ?_) | refine keep_free rfl rfl rfl rfl rfl ?_)) | dsimp only | split)
theorem opResetDone_keep (s : State) (h0 : Keep k s) :
    Keep k (opResetDone s) := by
  unfold opResetDone
  repeat' (first | (with_reducible assumption) | (intro _) | (with_reducible (first | apply mbFinish_keep | apply opSubtreeResetDone_keep)) | (with_reducible (first | apply keep_ite | apply keep_ite2 | apply keep_ite3 | apply keep_ite1 | apply keep_foldl | apply keep_foldl2 | apply keep_foldl3 | (fail_if_no_progress refine keep_mk rfl rfl rfl rfl rfl ?_) | refine keep_free rfl rfl rfl rfl rfl ?_)) | dsimp only | split)
theorem stageBegin_keep (s : State) (flags : ℕ) (h0 : Keep k s) :
    Keep k (stageBegin s flags) := by
  unfold stageBegin
  repeat' (first | (with_reducible assumption) | (intro _) | (with_reducible (first | apply setMarker_keep)) | (with_reducible (first | apply keep_ite | apply keep_ite2 | apply keep_ite3 | apply keep_ite1 | apply keep_foldl | apply keep_foldl2 | apply keep_foldl3 | (fail_if_no_progress refine keep_mk rfl rfl rfl rfl rfl ?_) | refine keep_free rfl rfl rfl rfl rfl ?_)) | dsimp only | split)
theorem cmdUpdateStage_keep (c : Cmd) (s : State) (h1 : Keep k s) :
    Keep k (cmdUpdateStage c s) := by
  unfold cmdUpdateStage
  repeat' (first | (with_reducible assumption) | (intro _) | (with_reducible (first | apply cmdBad_keep | apply cmdDenied_keep | apply withObjs_keep | apply cmdOff_keep | apply dmcRead_keep | apply descEnd_keep | apply mbUpd_keep | apply stageBegin_keep)) | (with_reducible (first | apply keep_ite | apply keep_ite2 | apply keep_ite3 | apply keep_ite1 | apply keep_foldl | apply keep_foldl2 | apply keep_foldl3 | (fail_if_no_progress refine keep_mk rfl rfl rfl rfl rfl ?_) | refine keep_free rfl rfl rfl rfl rfl ?_)) | dsimp only | split)
theorem updateStageEnd_keep (c : Cmd) (s : State) (h1 : Keep k s) :
    Keep k (updateStageEnd c s) := by
  unfold updateStageEnd
  repeat' (first | (with_reducible assumption) | (intro _) | (with_reducible (first | apply cmdDenied_keep | apply stageStop_keep | apply flashWrite_keep | apply jEvent_keep | apply setMarker_keep | apply cmdOk_keep)) | (with_reducible (first | apply keep_ite | apply keep_ite2 | apply keep_ite3 | apply keep_ite1 | apply keep_foldl | apply keep_foldl2 | apply keep_foldl3 | (fail_if_no_progress refine keep_mk rfl rfl rfl rfl rfl ?_) | refine keep_free rfl rfl rfl rfl rfl ?_)) | dsimp only | split)
theorem cmdUpdateStatus_keep (c : Cmd) (s : State) (h1 : Keep k s) :
    Keep k (cmdUpdateStatus c s) := by
  unfold cmdUpdateStatus
  repeat' (first | (with_reducible assumption) | (intro _) | (with_reducible (first | apply cmdOk_keep)) | (with_reducible (first | apply keep_ite | apply keep_ite2 | apply keep_ite3 | apply keep_ite1 | apply keep_foldl | apply keep_foldl2 | apply keep_foldl3 | (fail_if_no_progress refine keep_mk rfl rfl rfl rfl rfl ?_) | refine keep_free rfl rfl rfl rfl rfl ?_)) | dsimp only | split)
theorem cmdOwnerLock_keep (c : Cmd) (s : State) (h1 : Keep k s) :
    Keep k (cmdOwnerLock c s) := by
  unfold cmdOwnerLock
  repeat' (first | (with_reducible assumption) | (intro _) | (with_reducible (first | apply cmdBad_keep | apply withObjs_keep | apply cmdOk_keep | apply jEvent_keep)) | (with_reducible (first | apply keep_ite | apply keep_ite2 | apply keep_ite3 | apply keep_ite1 | apply keep_foldl | apply keep_foldl2 | apply keep_foldl3 | (fail_if_no_progress refine keep_mk rfl rfl rfl rfl rfl ?_) | refine keep_free rfl rfl rfl rfl rfl ?_)) | dsimp only | split)
theorem cmdJournalRead_keep (c : Cmd) (s : State) (h1 : Keep k s) :
    Keep k (cmdJournalRead c s) := by
  unfold cmdJournalRead
  repeat' (first | (with_reducible assumption) | (intro _) | (with_reducible (first | apply cmdBad_keep | apply cmdOk_keep)) | (with_reducible (first | apply keep_ite | apply keep_ite2 | apply keep_ite3 | apply keep_ite1 | apply keep_foldl | apply keep_foldl2 | apply keep_foldl3 | (fail_if_no_progress refine keep_mk rfl rfl rfl rfl rfl ?_) | refine keep_free rfl rfl rfl rfl rfl ?_)) | dsimp only | split)
theorem cmdJournalClear_keep (c : Cmd) (s : State) (h1 : Keep k s) :
    Keep k (cmdJournalClear c s) := by
  unfold cmdJournalClear
  repeat' (first | (with_reducible assumption) | (intro _) | (with_reducible (first | apply withObjs_keep | apply cmdOk_keep | apply jEvent_keep)) | (with_reducible (first | apply keep_ite | apply keep_ite2 | apply keep_ite3 | apply keep_ite1 | apply keep_foldl | apply keep_foldl2 | apply keep_foldl3 | (fail_if_no_progress refine keep_mk rfl rfl rfl rfl rfl ?_) | refine keep_free rfl rfl rfl rfl rfl ?_)) | dsimp only | split)
theorem cmdAlarmRead_keep (c : Cmd) (s : State) (h1 : Keep k s) :
    Keep k (cmdAlarmRead c s) := by
  unfold cmdAlarmRead
  repeat' (first | (with_reducible assumption) | (intro _) | (with_reducible (first | apply cmdBad_keep | apply cmdOk_keep)) | (with_reducible (first | apply keep_ite | apply keep_ite2 | apply keep_ite3 | apply keep_ite1 | apply keep_foldl | apply keep_foldl2 | apply keep_foldl3 | (fail_if_no_progress refine keep_mk rfl rfl rfl rfl rfl ?_) | refine keep_free rfl rfl rfl rfl rfl ?_)) | dsimp only | split)
theorem cmdAlarmAck_keep (c : Cmd) (s : State) (h1 : Keep k s) :
    Keep k (cmdAlarmAck c s) := by
  unfold cmdAlarmAck
  repeat' (first | (with_reducible assumption) | (intro _) | (with_reducible (first | apply cmdOk_keep)) | (with_reducible (first | apply keep_ite | apply keep_ite2 | apply keep_ite3 | apply keep_ite1 | apply keep_foldl | apply keep_foldl2 | apply keep_foldl3 | (fail_if_no_progress refine keep_mk rfl rfl rfl rfl rfl ?_) | refine keep_free rfl rfl rfl rfl rfl ?_)) | dsimp only | split)

end Sys2Proof.Machine
end

