-- ==== Sys2Proof/Laws/KeepCmdRun.lean ====
section
/-! SUPPORT. The operations of Machine/CmdRun.lean keep the queue, the counts that only rise, and `Inv`. -/

namespace Sys2Proof.Machine

set_option linter.unusedTactic false
set_option linter.unreachableTactic false
set_option linter.unusedVariables false

variable {k : KeepAt}

theorem cmdAbort_keep (c : Cmd) (s : State) (h1 : Keep k s) :
    Keep k (cmdAbort c s) := by
  unfold cmdAbort
  repeat' (first | (with_reducible assumption) | (intro _) | (with_reducible (first | apply cmdDenied_keep | apply cmdBad_keep | apply cmdOk_keep | apply stopCommand_keep | apply mbFinish_keep)) | (with_reducible (first | apply keep_ite | apply keep_ite2 | apply keep_ite3 | apply keep_ite1 | apply keep_foldl | apply keep_foldl2 | apply keep_foldl3 | (fail_if_no_progress refine keep_mk rfl rfl rfl rfl rfl ?_) | refine keep_free rfl rfl rfl rfl rfl ?_)) | dsimp only | split)
theorem cmdBody_keep (c : Cmd) (s : State) (h1 : Keep k s) :
    Keep k (cmdBody c s) := by
  unfold cmdBody
  repeat' (first | (with_reducible assumption) | (intro _) | (with_reducible (first | apply cmdDevInfo_keep | apply cmdIfLevel_keep | apply cmdAttach_keep | apply cmdDetach_keep | apply cmdPartInfo_keep | apply cmdRegionLoad_keep | apply cmdRegionUnload_keep | apply cmdRegionStatus_keep | apply cmdEngineLoad_keep | apply cmdPeriodSet_keep | apply cmdEngineStats_keep | apply cmdLinkSet_keep | apply cmdLinkStatus_keep | apply cmdLinkTest_keep | apply cmdPowerSet_keep | apply cmdDeviceState_keep | apply cmdHealthRead_keep | apply cmdPolicySet_keep | apply cmdMemAlloc_keep | apply cmdMemRelease_keep | apply cmdSubtreeReset_keep | apply cmdUpdateStage_keep | apply cmdUpdateStatus_keep | apply cmdOwnerLock_keep | apply cmdJournalRead_keep | apply cmdAlarmRead_keep | apply cmdAlarmAck_keep | apply cmdJournalClear_keep | apply cmdAbort_keep | apply cmdEcho_keep | apply mbFinish_keep)) | (with_reducible (first | apply keep_ite | apply keep_ite2 | apply keep_ite3 | apply keep_ite1 | apply keep_foldl | apply keep_foldl2 | apply keep_foldl3 | (fail_if_no_progress refine keep_mk rfl rfl rfl rfl rfl ?_) | refine keep_free rfl rfl rfl rfl rfl ?_)) | dsimp only | split)
theorem retryWaiting_keep (s : State) (h0 : Keep k s) :
    Keep k (retryWaiting s) := by
  unfold retryWaiting
  repeat' (first | (with_reducible assumption) | (intro _) | (with_reducible (first | apply cmdBody_keep)) | (with_reducible (first | apply keep_ite | apply keep_ite2 | apply keep_ite3 | apply keep_ite1 | apply keep_foldl | apply keep_foldl2 | apply keep_foldl3 | (fail_if_no_progress refine keep_mk rfl rfl rfl rfl rfl ?_) | refine keep_free rfl rfl rfl rfl rfl ?_)) | dsimp only | split)
theorem bellWakes_keep (before : ℕ) (c : Cmd) (s : State) (h2 : Keep k s) :
    Keep k (bellWakes before c s) := by
  unfold bellWakes
  repeat' (first | (with_reducible assumption) | (intro _) | (with_reducible (first | apply wakeFire_keep)) | (with_reducible (first | apply keep_ite | apply keep_ite2 | apply keep_ite3 | apply keep_ite1 | apply keep_foldl | apply keep_foldl2 | apply keep_foldl3 | (fail_if_no_progress refine keep_mk rfl rfl rfl rfl rfl ?_) | refine keep_free rfl rfl rfl rfl rfl ?_)) | dsimp only | split)
theorem renew_keep (c : Cmd) (s : State) (h1 : Keep k s) :
    Keep k (renew c s) := by
  unfold renew
  repeat' (first | (with_reducible assumption) | (intro _) | (with_reducible (first | apply keep_ite | apply keep_ite2 | apply keep_ite3 | apply keep_ite1 | apply keep_foldl | apply keep_foldl2 | apply keep_foldl3 | (fail_if_no_progress refine keep_mk rfl rfl rfl rfl rfl ?_) | refine keep_free rfl rfl rfl rfl rfl ?_)) | dsimp only | split)
theorem serveSlot_keep (s : State) (n : ℕ) (p : Path) (h0 : Keep k s) :
    Keep k (serveSlot s n p) := by
  unfold serveSlot
  repeat' (first | (with_reducible assumption) | (intro _) | (with_reducible (first | apply mbBegin_keep | apply renew_keep | apply mbFinish_keep | apply cmdBody_keep | apply retryWaiting_keep | apply bellWakes_keep)) | (with_reducible (first | apply keep_ite | apply keep_ite2 | apply keep_ite3 | apply keep_ite1 | apply keep_foldl | apply keep_foldl2 | apply keep_foldl3 | (fail_if_no_progress refine keep_mk rfl rfl rfl rfl rfl ?_) | refine keep_free rfl rfl rfl rfl rfl ?_)) | dsimp only | split)
theorem abortSeen_keep (s : State) (n : ℕ) (code : ℕ) (h0 : Keep k s) :
    Keep k (abortSeen s n code) := by
  unfold abortSeen
  repeat' (first | (with_reducible assumption) | (intro _) | (with_reducible (first | apply mbUpd_keep)) | (with_reducible (first | apply keep_ite | apply keep_ite2 | apply keep_ite3 | apply keep_ite1 | apply keep_foldl | apply keep_foldl2 | apply keep_foldl3 | (fail_if_no_progress refine keep_mk rfl rfl rfl rfl rfl ?_) | refine keep_free rfl rfl rfl rfl rfl ?_)) | dsimp only | split)
theorem abortSlot_keep (s : State) (n : ℕ) (p : Path) (h0 : Keep k s) :
    Keep k (abortSlot s n p) := by
  unfold abortSlot
  repeat' (first | (with_reducible assumption) | (intro _) | (with_reducible (first | apply abortSeen_keep | apply retryWaiting_keep | apply stopCommand_keep)) | (with_reducible (first | apply keep_ite | apply keep_ite2 | apply keep_ite3 | apply keep_ite1 | apply keep_foldl | apply keep_foldl2 | apply keep_foldl3 | (fail_if_no_progress refine keep_mk rfl rfl rfl rfl rfl ?_) | refine keep_free rfl rfl rfl rfl rfl ?_)) | dsimp only | split)
theorem ringBell_keep (s : State) (n : ℕ) (p : Path) (h0 : Keep k s) :
    Keep k (ringBell s n p) := by
  unfold ringBell
  repeat' (first | (with_reducible assumption) | (intro _) | (with_reducible (first | apply serveSlot_keep | apply mbUpd_keep)) | (with_reducible (first | apply keep_ite | apply keep_ite2 | apply keep_ite3 | apply keep_ite1 | apply keep_foldl | apply keep_foldl2 | apply keep_foldl3 | (fail_if_no_progress refine keep_mk rfl rfl rfl rfl rfl ?_) | refine keep_free rfl rfl rfl rfl rfl ?_)) | dsimp only | split)
theorem ringAbort_keep (s : State) (n : ℕ) (p : Path) (h0 : Keep k s) :
    Keep k (ringAbort s n p) := by
  unfold ringAbort
  repeat' (first | (with_reducible assumption) | (intro _) | (with_reducible (first | apply abortSlot_keep | apply wakeFire_keep | apply mbUpd_keep)) | (with_reducible (first | apply keep_ite | apply keep_ite2 | apply keep_ite3 | apply keep_ite1 | apply keep_foldl | apply keep_foldl2 | apply keep_foldl3 | (fail_if_no_progress refine keep_mk rfl rfl rfl rfl rfl ?_) | refine keep_free rfl rfl rfl rfl rfl ?_)) | dsimp only | split)
theorem serveBells_keep (s : State) (h0 : Keep k s) :
    Keep k (serveBells s) := by
  unfold serveBells
  repeat' (first | (with_reducible assumption) | (intro _) | (with_reducible (first | apply serveSlot_keep | apply mbUpd_keep | apply abortSlot_keep)) | (with_reducible (first | apply keep_ite | apply keep_ite2 | apply keep_ite3 | apply keep_ite1 | apply keep_foldl | apply keep_foldl2 | apply keep_foldl3 | (fail_if_no_progress refine keep_mk rfl rfl rfl rfl rfl ?_) | refine keep_free rfl rfl rfl rfl rfl ?_)) | dsimp only | split)
theorem mailboxRow_keep (op : ℕ) (r : MbReq) (s : State) (h2 : Keep k s) :
    Keep k (mailboxRow op r s) := by
  unfold mailboxRow
  repeat' (first | (with_reducible assumption) | (intro _) | (with_reducible (first | apply answer_keep | apply ringAbort_keep | apply ringBell_keep | apply slotFill_keep)) | (with_reducible (first | apply keep_ite | apply keep_ite2 | apply keep_ite3 | apply keep_ite1 | apply keep_foldl | apply keep_foldl2 | apply keep_foldl3 | (fail_if_no_progress refine keep_mk rfl rfl rfl rfl rfl ?_) | refine keep_free rfl rfl rfl rfl rfl ?_)) | dsimp only | split)
theorem settleRegion_keep (s : State) (ns : List ℕ) (h0 : Keep k s) :
    Keep k (settleRegion s ns) := by
  unfold settleRegion
  repeat' (first | (with_reducible assumption) | (intro _) | (with_reducible (first | apply islIsolate_keep | apply answerPending_keep | apply nocUpd_keep)) | (with_reducible (first | apply keep_ite | apply keep_ite2 | apply keep_ite3 | apply keep_ite1 | apply keep_foldl | apply keep_foldl2 | apply keep_foldl3 | (fail_if_no_progress refine keep_mk rfl rfl rfl rfl rfl ?_) | refine keep_free rfl rfl rfl rfl rfl ?_)) | dsimp only | split)
theorem cmdDone_keep (n : ℕ) (s : State) (h1 : Keep k s) :
    Keep k (cmdDone n s) := by
  unfold cmdDone
  repeat' (first | (with_reducible assumption) | (intro _) | (with_reducible (first | apply regionUnloadEnd_keep | apply engineLoadEnd_keep | apply linkTestEnd_keep | apply powerIslandEnd_keep | apply memReleaseEnd_keep | apply updateStageEnd_keep)) | (with_reducible (first | apply keep_ite | apply keep_ite2 | apply keep_ite3 | apply keep_ite1 | apply keep_foldl | apply keep_foldl2 | apply keep_foldl3 | (fail_if_no_progress refine keep_mk rfl rfl rfl rfl rfl ?_) | refine keep_free rfl rfl rfl rfl rfl ?_)) | dsimp only | split)
theorem endEarly_keep (s : State) (n : ℕ) (code : ℕ) (det : Word) (h0 : Keep k s) :
    Keep k (endEarly s n code det) := by
  unfold endEarly
  repeat' (first | (with_reducible assumption) | (intro _) | (with_reducible (first | apply stopCommand_keep | apply mbFinish_keep | apply settleRegion_keep)) | (with_reducible (first | apply keep_ite | apply keep_ite2 | apply keep_ite3 | apply keep_ite1 | apply keep_foldl | apply keep_foldl2 | apply keep_foldl3 | (fail_if_no_progress refine keep_mk rfl rfl rfl rfl rfl ?_) | refine keep_free rfl rfl rfl rfl rfl ?_)) | dsimp only | split)
theorem cmdBroken_keep (n : ℕ) (src : ℕ) (code : ℕ) (idx : ℕ) (s : State) (h4 : Keep k s) :
    Keep k (cmdBroken n src code idx s) := by
  unfold cmdBroken
  repeat' (first | (with_reducible assumption) | (intro _) | (with_reducible (first | apply mbFinish_keep | apply endEarly_keep)) | (with_reducible (first | apply keep_ite | apply keep_ite2 | apply keep_ite3 | apply keep_ite1 | apply keep_foldl | apply keep_foldl2 | apply keep_foldl3 | (fail_if_no_progress refine keep_mk rfl rfl rfl rfl rfl ?_) | refine keep_free rfl rfl rfl rfl rfl ?_)) | dsimp only | split)
theorem opCommandComplete_keep (n : ℕ) (fin : Finish) (s : State) (h2 : Keep k s) :
    Keep k (opCommandComplete n fin s) := by
  unfold opCommandComplete
  repeat' (first | (with_reducible assumption) | (intro _) | (with_reducible (first | apply retryWaiting_keep | apply cmdDone_keep | apply cmdBroken_keep)) | (with_reducible (first | apply keep_ite | apply keep_ite2 | apply keep_ite3 | apply keep_ite1 | apply keep_foldl | apply keep_foldl2 | apply keep_foldl3 | (fail_if_no_progress refine keep_mk rfl rfl rfl rfl rfl ?_) | refine keep_free rfl rfl rfl rfl rfl ?_)) | dsimp only | split)
theorem opCommandTimeout_keep (n : ℕ) (s : State) (h1 : Keep k s) :
    Keep k (opCommandTimeout n s) := by
  unfold opCommandTimeout
  repeat' (first | (with_reducible assumption) | (intro _) | (with_reducible (first | apply retryWaiting_keep | apply endEarly_keep)) | (with_reducible (first | apply keep_ite | apply keep_ite2 | apply keep_ite3 | apply keep_ite1 | apply keep_foldl | apply keep_foldl2 | apply keep_foldl3 | (fail_if_no_progress refine keep_mk rfl rfl rfl rfl rfl ?_) | refine keep_free rfl rfl rfl rfl rfl ?_)) | dsimp only | split)
theorem opObjectWaitTimeout_keep (n : ℕ) (s : State) (h1 : Keep k s) :
    Keep k (opObjectWaitTimeout n s) := by
  unfold opObjectWaitTimeout
  repeat' (first | (with_reducible assumption) | (intro _) | (with_reducible (first | apply cmdBody_keep | apply mbFinish_keep)) | (with_reducible (first | apply keep_ite | apply keep_ite2 | apply keep_ite3 | apply keep_ite1 | apply keep_foldl | apply keep_foldl2 | apply keep_foldl3 | (fail_if_no_progress refine keep_mk rfl rfl rfl rfl rfl ?_) | refine keep_free rfl rfl rfl rfl rfl ?_)) | dsimp only | split)
theorem opLeaseExpire_keep (id : ℕ) (s : State) (h1 : Keep k s) :
    Keep k (opLeaseExpire id s) := by
  unfold opLeaseExpire
  repeat' (first | (with_reducible assumption) | (intro _) | (with_reducible (first | apply endSessions_keep)) | (with_reducible (first | apply keep_ite | apply keep_ite2 | apply keep_ite3 | apply keep_ite1 | apply keep_foldl | apply keep_foldl2 | apply keep_foldl3 | (fail_if_no_progress refine keep_mk rfl rfl rfl rfl rfl ?_) | refine keep_free rfl rfl rfl rfl rfl ?_)) | dsimp only | split)
theorem leaseCycle_keep (s : State) (h0 : Keep k s) :
    Keep k (leaseCycle s) := by
  unfold leaseCycle
  repeat' (first | (with_reducible assumption) | (intro _) | (with_reducible (first | apply endSessions_keep)) | (with_reducible (first | apply keep_ite | apply keep_ite2 | apply keep_ite3 | apply keep_ite1 | apply keep_foldl | apply keep_foldl2 | apply keep_foldl3 | (fail_if_no_progress refine keep_mk rfl rfl rfl rfl rfl ?_) | refine keep_free rfl rfl rfl rfl rfl ?_)) | dsimp only | split)
theorem linkLost_keep (s : State) (c : ℕ) (k0 : ℕ) (h0 : Keep k s) :
    Keep k (linkLost s c k0) := by
  unfold linkLost
  repeat' (first | (with_reducible assumption) | (intro _) | (with_reducible (first | apply finc_keep | apply freset_keep)) | (with_reducible (first | apply keep_ite | apply keep_ite2 | apply keep_ite3 | apply keep_ite1 | apply keep_foldl | apply keep_foldl2 | apply keep_foldl3 | (fail_if_no_progress refine keep_mk rfl rfl rfl rfl rfl ?_) | refine keep_free rfl rfl rfl rfl rfl ?_)) | dsimp only | split)
theorem fnReset_keep (s : State) (c : ℕ) (k0 : ℕ) (f : ℕ) (h0 : Keep k s) :
    Keep k (fnReset s c k0 f) := by
  unfold fnReset
  repeat' (first | (with_reducible assumption) | (intro _) | (with_reducible (first | apply endSessions_keep | apply fnUpd_keep)) | (with_reducible (first | apply keep_ite | apply keep_ite2 | apply keep_ite3 | apply keep_ite1 | apply keep_foldl | apply keep_foldl2 | apply keep_foldl3 | (fail_if_no_progress refine keep_mk rfl rfl rfl rfl rfl ?_) | refine keep_free rfl rfl rfl rfl rfl ?_)) | dsimp only | split)
theorem linkFns_keep (s : State) (c : ℕ) (k0 : ℕ) (h0 : Keep k s) :
    Keep k (linkFns s c k0) := by
  unfold linkFns
  repeat' (first | (with_reducible assumption) | (intro _) | (with_reducible (first | apply fnReset_keep)) | (with_reducible (first | apply keep_ite | apply keep_ite2 | apply keep_ite3 | apply keep_ite1 | apply keep_foldl | apply keep_foldl2 | apply keep_foldl3 | (fail_if_no_progress refine keep_mk rfl rfl rfl rfl rfl ?_) | refine keep_free rfl rfl rfl rfl rfl ?_)) | dsimp only | split)
theorem linkDropped_keep (s : State) (c : ℕ) (k0 : ℕ) (h0 : Keep k s) :
    Keep k (linkDropped s c k0) := by
  unfold linkDropped
  repeat' (first | (with_reducible assumption) | (intro _) | (with_reducible (first | apply nicReset_keep | apply linkLost_keep | apply linkFns_keep)) | (with_reducible (first | apply keep_ite | apply keep_ite2 | apply keep_ite3 | apply keep_ite1 | apply keep_foldl | apply keep_foldl2 | apply keep_foldl3 | (fail_if_no_progress refine keep_mk rfl rfl rfl rfl rfl ?_) | refine keep_free rfl rfl rfl rfl rfl ?_)) | dsimp only | split)
theorem opPathLoss_keep (p : Path) (how : LossKind) (s : State) (h2 : Keep k s) :
    Keep k (opPathLoss p how s) := by
  unfold opPathLoss
  repeat' (first | (with_reducible assumption) | (intro _) | (with_reducible (first | apply linkDropped_keep | apply pcieUpd_keep | apply fnReset_keep)) | (with_reducible (first | apply keep_ite | apply keep_ite2 | apply keep_ite3 | apply keep_ite1 | apply keep_foldl | apply keep_foldl2 | apply keep_foldl3 | (fail_if_no_progress refine keep_mk rfl rfl rfl rfl rfl ?_) | refine keep_free rfl rfl rfl rfl rfl ?_)) | dsimp only | split)
theorem restartEnds_keep (s : State) (n : ℕ) (h0 : Keep k s) :
    Keep k (restartEnds s n) := by
  unfold restartEnds
  repeat' (first | (with_reducible assumption) | (intro _) | (with_reducible (first | apply islUpd_keep | apply settleRegion_keep | apply stageStop_keep | apply mbFinish_keep)) | (with_reducible (first | apply keep_ite | apply keep_ite2 | apply keep_ite3 | apply keep_ite1 | apply keep_foldl | apply keep_foldl2 | apply keep_foldl3 | (fail_if_no_progress refine keep_mk rfl rfl rfl rfl rfl ?_) | refine keep_free rfl rfl rfl rfl rfl ?_)) | dsimp only | split)
theorem opDmcRestart_keep (sram : Bool) (s : State) (h1 : Keep k s) :
    Keep k (opDmcRestart sram s) := by
  unfold opDmcRestart
  repeat' (first | (with_reducible assumption) | (intro _) | (with_reducible (first | apply restartEnds_keep | apply engUpd_keep | apply opBightWatchdog_keep | apply nicReset_keep | apply endSessions_keep | apply serveBells_keep | apply jEvent_keep | apply alarmHw_keep)) | (with_reducible (first | apply keep_ite | apply keep_ite2 | apply keep_ite3 | apply keep_ite1 | apply keep_foldl | apply keep_foldl2 | apply keep_foldl3 | (fail_if_no_progress refine keep_mk rfl rfl rfl rfl rfl ?_) | refine keep_free rfl rfl rfl rfl rfl ?_)) | dsimp only | split)

end Sys2Proof.Machine
end

