-- ==== Sys2Proof/Laws/KeepAccess.lean ====
section
/-! SUPPORT. The operations of Machine/Access.lean keep the queue, the counts that only rise, and `Inv`. -/

namespace Sys2Proof.Machine

set_option linter.unusedTactic false
set_option linter.unreachableTactic false
set_option linter.unusedVariables false

variable {k : KeepAt}

theorem setOffAccess_keep (s : State) (w : Win) (h0 : Keep k s) :
    Keep k (setOffAccess s w) := by
  unfold setOffAccess
  repeat' (first | (with_reducible assumption) | (intro _) | (with_reducible (first | apply fflag_keep)) | (with_reducible (first | apply keep_ite | apply keep_ite2 | apply keep_ite3 | apply keep_ite1 | apply keep_foldl | apply keep_foldl2 | apply keep_foldl3 | (fail_if_no_progress refine keep_mk rfl rfl rfl rfl rfl ?_) | refine keep_free rfl rfl rfl rfl rfl ?_)) | dsimp only | split)
theorem countPartErr_keep (s : State) (w : Win) (h0 : Keep k s) :
    Keep k (countPartErr s w) := by
  unfold countPartErr
  repeat' (first | (with_reducible assumption) | (intro _) | (with_reducible (first | apply finc_keep)) | (with_reducible (first | apply keep_ite | apply keep_ite2 | apply keep_ite3 | apply keep_ite1 | apply keep_foldl | apply keep_foldl2 | apply keep_foldl3 | (fail_if_no_progress refine keep_mk rfl rfl rfl rfl rfl ?_) | refine keep_free rfl rfl rfl rfl rfl ?_)) | dsimp only | split)
theorem csrGate_keep (s : State) (part : ℕ) (a : ℕ) (size : ℕ) (write : Bool) (h0 : Keep k s) :
    Keep k (csrGate s part a size write).2 := by
  unfold csrGate
  repeat' (first | (with_reducible assumption) | (intro _) | (with_reducible (first | apply countPartErr_keep | apply setOffAccess_keep)) | (with_reducible (first | apply keep_ite | apply keep_ite2 | apply keep_ite3 | apply keep_ite1 | apply keep_foldl | apply keep_foldl2 | apply keep_foldl3 | (fail_if_no_progress refine keep_mk rfl rfl rfl rfl rfl ?_) | refine keep_free rfl rfl rfl rfl rfl ?_)) | dsimp only | split)
theorem tapValue_keep (s : State) (n : ℕ) (h0 : Keep k s) :
    Keep k (tapValue s n).2 := by
  unfold tapValue
  repeat' (first | (with_reducible assumption) | (intro _) | (with_reducible (first | apply freeWord_keep | apply laneUpd_keep)) | (with_reducible (first | apply keep_ite | apply keep_ite2 | apply keep_ite3 | apply keep_ite1 | apply keep_foldl | apply keep_foldl2 | apply keep_foldl3 | (fail_if_no_progress refine keep_mk rfl rfl rfl rfl rfl ?_) | refine keep_free rfl rfl rfl rfl rfl ?_)) | dsimp only | split)
theorem uioNow_keep (s : State) (n : ℕ) (j : ℕ) (h0 : Keep k s) :
    Keep k (uioNow s n j).2 := by
  unfold uioNow
  repeat' (first | (with_reducible assumption) | (intro _) | (with_reducible (first | apply freeWord_keep)) | (with_reducible (first | apply keep_ite | apply keep_ite2 | apply keep_ite3 | apply keep_ite1 | apply keep_foldl | apply keep_foldl2 | apply keep_foldl3 | (fail_if_no_progress refine keep_mk rfl rfl rfl rfl rfl ?_) | refine keep_free rfl rfl rfl rfl rfl ?_)) | dsimp only | split)
theorem pcieMet_keep (s : State) (b : ℕ) (h0 : Keep k s) :
    Keep k (pcieMet s b) := by
  unfold pcieMet
  repeat' (first | (with_reducible assumption) | (intro _) | (with_reducible (first | apply freeWord_keep | apply faddSat_keep | apply fflag_keep)) | (with_reducible (first | apply keep_ite | apply keep_ite2 | apply keep_ite3 | apply keep_ite1 | apply keep_foldl | apply keep_foldl2 | apply keep_foldl3 | (fail_if_no_progress refine keep_mk rfl rfl rfl rfl rfl ?_) | refine keep_free rfl rfl rfl rfl rfl ?_)) | dsimp only | split)
theorem csrValue_keep (s : State) (w : Win) (o : ℕ) (h0 : Keep k s) :
    Keep k (csrValue s w o).2 := by
  unfold csrValue
  repeat' (first | (with_reducible assumption) | (intro _) | (with_reducible (first | apply pcieMet_keep | apply latchTime_keep | apply uioNow_keep | apply tapValue_keep | apply fset_keep)) | (with_reducible (first | apply keep_ite | apply keep_ite2 | apply keep_ite3 | apply keep_ite1 | apply keep_foldl | apply keep_foldl2 | apply keep_foldl3 | (fail_if_no_progress refine keep_mk rfl rfl rfl rfl rfl ?_) | refine keep_free rfl rfl rfl rfl rfl ?_)) | dsimp only | split)
theorem csrRead_keep (s : State) (part : ℕ) (a : ℕ) (size : ℕ) (h0 : Keep k s) :
    Keep k (csrRead s part a size).2.2 := by
  unfold csrRead
  have hg := csrGate_keep s part a size false h0
  split
  · rename_i he
    rw [he] at hg
    exact hg
  · rename_i he
    rw [he] at hg
    exact csrValue_keep _ _ _ hg
theorem writeTaken_keep (s : State) (b : ℕ) (fs : List Fld) (v : Word) (h0 : Keep k s) :
    Keep k (writeTaken s b fs v) := by
  unfold writeTaken
  repeat' (first | (with_reducible assumption) | (intro _) | (with_reducible (first | apply writeFields_keep)) | (with_reducible (first | apply keep_ite | apply keep_ite2 | apply keep_ite3 | apply keep_ite1 | apply keep_foldl | apply keep_foldl2 | apply keep_foldl3 | (fail_if_no_progress refine keep_mk rfl rfl rfl rfl rfl ?_) | refine keep_free rfl rfl rfl rfl rfl ?_)) | dsimp only | split)
theorem onBit_keep (v : Word) (k0 : ℕ) (act : State → State) (s : State) (h2 : ∀ s, Keep k s → Keep k (act s)) (h3 : Keep k s) :
    Keep k (onBit v k0 act s) := by
  unfold onBit
  repeat' (first | (with_reducible assumption) | (intro _) | (with_reducible (first | apply h2)) | (with_reducible (first | apply keep_ite | apply keep_ite2 | apply keep_ite3 | apply keep_ite1 | apply keep_foldl | apply keep_foldl2 | apply keep_foldl3 | (fail_if_no_progress refine keep_mk rfl rfl rfl rfl rfl ?_) | refine keep_free rfl rfl rfl rfl rfl ?_)) | dsimp only | split)
theorem mailboxWrite_keep (p : Option Path) (n : ℕ) (o : ℕ) (v : Word) (s : State) (h4 : Keep k s) :
    Keep k (mailboxWrite p n o v s) := by
  unfold mailboxWrite
  repeat' (first | (with_reducible assumption) | (intro _) | (with_reducible (first | apply mbUpd_keep | apply ringAbort_keep | apply onBit_keep | apply ringBell_keep)) | (with_reducible (first | apply keep_ite | apply keep_ite2 | apply keep_ite3 | apply keep_ite1 | apply keep_foldl | apply keep_foldl2 | apply keep_foldl3 | (fail_if_no_progress refine keep_mk rfl rfl rfl rfl rfl ?_) | refine keep_free rfl rfl rfl rfl rfl ?_)) | dsimp only | split)
theorem mcWrite_keep (by' : By) (n : ℕ) (o : ℕ) (v : Word) (s : State) (h4 : Keep k s) :
    Keep k (mcWrite by' n o v s) := by
  unfold mcWrite
  repeat' (first | (with_reducible assumption) | (intro _) | (with_reducible (first | apply writeTaken_keep | apply dramRehash_keep | apply trainEnd_keep | apply onBit_keep | apply actDisableGo_keep | apply actRunGo_keep | apply actMcErrClr_keep | apply actTrnGo_keep | apply goReject_keep | apply mcUpd_keep | apply writeFields_keep)) | (with_reducible (first | apply keep_ite | apply keep_ite2 | apply keep_ite3 | apply keep_ite1 | apply keep_foldl | apply keep_foldl2 | apply keep_foldl3 | (fail_if_no_progress refine keep_mk rfl rfl rfl rfl rfl ?_) | refine keep_free rfl rfl rfl rfl rfl ?_)) | dsimp only | split)
theorem spineWrite_keep (d : ℕ) (k0 : ℕ) (v : Word) (s : State) (h3 : Keep k s) :
    Keep k (spineWrite d k0 v s) := by
  unfold spineWrite
  repeat' (first | (with_reducible assumption) | (intro _) | (with_reducible (first | apply fflag_keep | apply writeFields_keep)) | (with_reducible (first | apply keep_ite | apply keep_ite2 | apply keep_ite3 | apply keep_ite1 | apply keep_foldl | apply keep_foldl2 | apply keep_foldl3 | (fail_if_no_progress refine keep_mk rfl rfl rfl rfl rfl ?_) | refine keep_free rfl rfl rfl rfl rfl ?_)) | dsimp only | split)
theorem dieWrite_keep (d : ℕ) (o : ℕ) (v : Word) (s : State) (h3 : Keep k s) :
    Keep k (dieWrite d o v s) := by
  unfold dieWrite
  repeat' (first | (with_reducible assumption) | (intro _) | (with_reducible (first | apply onBit_keep | apply actSelClr_keep | apply actNocClr_keep | apply actCsClr_keep | apply csRestart_keep | apply spineWrite_keep | apply writeTaken_keep)) | (with_reducible (first | apply keep_ite | apply keep_ite2 | apply keep_ite3 | apply keep_ite1 | apply keep_foldl | apply keep_foldl2 | apply keep_foldl3 | (fail_if_no_progress refine keep_mk rfl rfl rfl rfl rfl ?_) | refine keep_free rfl rfl rfl rfl rfl ?_)) | dsimp only | split)
theorem islWrite_keep (n : ℕ) (o : ℕ) (v : Word) (s : State) (h3 : Keep k s) :
    Keep k (islWrite n o v s) := by
  unfold islWrite
  repeat' (first | (with_reducible assumption) | (intro _) | (with_reducible (first | apply writeTaken_keep | apply generatorWrite_keep | apply treeWrite_keep | apply onBit_keep | apply actMarginClr_keep | apply actMemClr_keep | apply actBramRawGo_keep)) | (with_reducible (first | apply keep_ite | apply keep_ite2 | apply keep_ite3 | apply keep_ite1 | apply keep_foldl | apply keep_foldl2 | apply keep_foldl3 | (fail_if_no_progress refine keep_mk rfl rfl rfl rfl rfl ?_) | refine keep_free rfl rfl rfl rfl rfl ?_)) | dsimp only | split)
theorem eisWrite_keep (e : ℕ) (o : ℕ) (v : Word) (s : State) (h3 : Keep k s) :
    Keep k (eisWrite e o v s) := by
  unfold eisWrite
  extract_lets f plain n was t k'
  have hp : ∀ s, Keep k s → Keep k (plain s) := fun s hs => writeTaken_keep _ _ _ _ hs
  have ht : Keep k t := writeFields_keep _ _ _ _ h3
  clear_value plain t
  with_reducible refine keep_ite (fun _ => keep_ite (fun _ => ht) (fun _ => fflag_keep _ _ _ _ ht)) (fun _ => ?_)
  with_reducible refine keep_ite (fun _ => onBit_keep _ _ _ _ (fun s hs => actMarginClr_keep _ _ hs) h3) (fun _ => ?_)
  with_reducible refine keep_ite (fun _ => hp _ h3) (fun _ => ?_)
  split
  · exact onBit_keep _ _ _ _ (fun s hs => actEngErrClr_keep _ _ hs) h3
  · with_reducible refine keep_ite (fun _ => h3) (fun _ => onBit_keep _ _ _ _ (fun s hs => actEngRawGo_keep _ _ hs) (hp _ h3))
  · exact onBit_keep _ _ _ _ (fun s hs => actSchedClr_keep _ _ hs) h3
  · exact hp _ h3
theorem txcWrite_keep (n : ℕ) (o : ℕ) (v : Word) (s : State) (h3 : Keep k s) :
    Keep k (txcWrite n o v s) := by
  unfold txcWrite
  repeat' (first | (with_reducible assumption) | (intro _) | (with_reducible (first | apply writeFields_keep | apply fset_keep | apply fflag_keep)) | (with_reducible (first | apply keep_ite | apply keep_ite2 | apply keep_ite3 | apply keep_ite1 | apply keep_foldl | apply keep_foldl2 | apply keep_foldl3 | (fail_if_no_progress refine keep_mk rfl rfl rfl rfl rfl ?_) | refine keep_free rfl rfl rfl rfl rfl ?_)) | dsimp only | split)
theorem testWrite_keep (n : ℕ) (v : Word) (s : State) (h2 : Keep k s) :
    Keep k (testWrite n v s) := by
  unfold testWrite
  repeat' (first | (with_reducible assumption) | (intro _) | (with_reducible (first | apply fflag_keep | apply fset_keep)) | (with_reducible (first | apply keep_ite | apply keep_ite2 | apply keep_ite3 | apply keep_ite1 | apply keep_foldl | apply keep_foldl2 | apply keep_foldl3 | (fail_if_no_progress refine keep_mk rfl rfl rfl rfl rfl ?_) | refine keep_free rfl rfl rfl rfl rfl ?_)) | dsimp only | split)
theorem laneWrite_keep (n : ℕ) (o : ℕ) (v : Word) (s : State) (h3 : Keep k s) :
    Keep k (laneWrite n o v s) := by
  unfold laneWrite
  repeat' (first | (with_reducible assumption) | (intro _) | (with_reducible (first | apply onBit_keep | apply actLaneClr_keep | apply txcWrite_keep | apply writeFields_keep | apply testWrite_keep | apply laneUpd_keep | apply actInjGo_keep)) | (with_reducible (first | apply keep_ite | apply keep_ite2 | apply keep_ite3 | apply keep_ite1 | apply keep_foldl | apply keep_foldl2 | apply keep_foldl3 | (fail_if_no_progress refine keep_mk rfl rfl rfl rfl rfl ?_) | refine keep_free rfl rfl rfl rfl rfl ?_)) | dsimp only | split)
theorem pwrWrite_keep (o : ℕ) (v : Word) (s : State) (h2 : Keep k s) :
    Keep k (pwrWrite o v s) := by
  unfold pwrWrite
  repeat' (first | (with_reducible assumption) | (intro _) | (with_reducible (first | apply writeTaken_keep | apply onBit_keep | apply fwipe_keep | apply closeBypass_keep | apply actRxPop_keep | apply actTxGo_keep)) | (with_reducible (first | apply keep_ite | apply keep_ite2 | apply keep_ite3 | apply keep_ite1 | apply keep_foldl | apply keep_foldl2 | apply keep_foldl3 | (fail_if_no_progress refine keep_mk rfl rfl rfl rfl rfl ?_) | refine keep_free rfl rfl rfl rfl rfl ?_)) | dsimp only | split)
theorem timWrite_keep (o : ℕ) (v : Word) (s : State) (h2 : Keep k s) :
    Keep k (timWrite o v s) := by
  unfold timWrite
  repeat' (first | (with_reducible assumption) | (intro _) | (with_reducible (first | apply writeTaken_keep | apply fset_keep | apply onBit_keep | apply actSetGo_keep)) | (with_reducible (first | apply keep_ite | apply keep_ite2 | apply keep_ite3 | apply keep_ite1 | apply keep_foldl | apply keep_foldl2 | apply keep_foldl3 | (fail_if_no_progress refine keep_mk rfl rfl rfl rfl rfl ?_) | refine keep_free rfl rfl rfl rfl rfl ?_)) | dsimp only | split)
theorem pcieWrite_keep (c : ℕ) (o : ℕ) (v : Word) (s : State) (h3 : Keep k s) :
    Keep k (pcieWrite c o v s) := by
  unfold pcieWrite
  repeat' (first | (with_reducible assumption) | (intro _) | (with_reducible (first | apply onBit_keep | apply csrWipe_keep)) | (with_reducible (first | apply keep_ite | apply keep_ite2 | apply keep_ite3 | apply keep_ite1 | apply keep_foldl | apply keep_foldl2 | apply keep_foldl3 | (fail_if_no_progress refine keep_mk rfl rfl rfl rfl rfl ?_) | refine keep_free rfl rfl rfl rfl rfl ?_)) | dsimp only | split)
theorem secWrite_keep (o : ℕ) (v : Word) (s : State) (h2 : Keep k s) :
    Keep k (secWrite o v s) := by
  unfold secWrite
  repeat' (first | (with_reducible assumption) | (intro _) | (with_reducible (first | apply winWrite_keep | apply onBit_keep | apply actSecClr_keep | apply actSecCntClr_keep | apply writeTaken_keep)) | (with_reducible (first | apply keep_ite | apply keep_ite2 | apply keep_ite3 | apply keep_ite1 | apply keep_foldl | apply keep_foldl2 | apply keep_foldl3 | (fail_if_no_progress refine keep_mk rfl rfl rfl rfl rfl ?_) | refine keep_free rfl rfl rfl rfl rfl ?_)) | dsimp only | split)
theorem cfgWrite_keep (o : ℕ) (v : Word) (s : State) (h2 : Keep k s) :
    Keep k (cfgWrite o v s) := by
  unfold cfgWrite
  repeat' (first | (with_reducible assumption) | (intro _) | (with_reducible (first | apply onBit_keep | apply actCfgErrClr_keep | apply actRawfGo_keep | apply writeFields_keep)) | (with_reducible (first | apply keep_ite | apply keep_ite2 | apply keep_ite3 | apply keep_ite1 | apply keep_foldl | apply keep_foldl2 | apply keep_foldl3 | (fail_if_no_progress refine keep_mk rfl rfl rfl rfl rfl ?_) | refine keep_free rfl rfl rfl rfl rfl ?_)) | dsimp only | split)
theorem hwWrite_keep (h : ℕ) (o : ℕ) (v : Word) (s : State) (h3 : Keep k s) :
    Keep k (hwWrite h o v s) := by
  unfold hwWrite
  repeat' (first | (with_reducible assumption) | (intro _) | (with_reducible (first | apply writeTaken_keep | apply onBit_keep | apply actHwClr_keep | apply actTestGo_keep)) | (with_reducible (first | apply keep_ite | apply keep_ite2 | apply keep_ite3 | apply keep_ite1 | apply keep_foldl | apply keep_foldl2 | apply keep_foldl3 | (fail_if_no_progress refine keep_mk rfl rfl rfl rfl rfl ?_) | refine keep_free rfl rfl rfl rfl rfl ?_)) | dsimp only | split)
theorem csrStore_keep (by' : By) (w : Win) (o : ℕ) (v : Word) (s : State) (h4 : Keep k s) :
    Keep k (csrStore by' w o v s) := by
  unfold csrStore
  repeat' (first | (with_reducible assumption) | (intro _) | (with_reducible (first | apply onBit_keep | apply lockPlan_keep | apply writeFields_keep | apply mailboxWrite_keep | apply mcWrite_keep | apply secWrite_keep | apply pcieWrite_keep | apply laneWrite_keep | apply timWrite_keep | apply pwrWrite_keep | apply cfgWrite_keep | apply dieWrite_keep | apply islWrite_keep | apply eisWrite_keep | apply hwWrite_keep)) | (with_reducible (first | apply keep_ite | apply keep_ite2 | apply keep_ite3 | apply keep_ite1 | apply keep_foldl | apply keep_foldl2 | apply keep_foldl3 | (fail_if_no_progress refine keep_mk rfl rfl rfl rfl rfl ?_) | refine keep_free rfl rfl rfl rfl rfl ?_)) | dsimp only | split)
theorem csrWrite_keep (by' : By) (s : State) (part : ℕ) (a : ℕ) (size : ℕ) (v : Word) (h1 : Keep k s) :
    Keep k (csrWrite by' s part a size v).2 := by
  unfold csrWrite
  have hg := csrGate_keep s part a size true h1
  split
  · rename_i he
    rw [he] at hg
    exact hg
  · rename_i he
    rw [he] at hg
    exact csrStore_keep _ _ _ _ _ hg
theorem csrAtTarget_keep (write : Bool) (p : Packet) (s : State) (h2 : Keep k s) :
    Keep k (csrAtTarget write p s) := by
  unfold csrAtTarget
  repeat' (first | (with_reducible assumption) | (intro _) | (with_reducible (first | apply respond_keep | apply csrGate_keep | apply csrWrite_keep | apply csrRead_keep)) | (with_reducible (first | apply keep_ite | apply keep_ite2 | apply keep_ite3 | apply keep_ite1 | apply keep_foldl | apply keep_foldl2 | apply keep_foldl3 | (fail_if_no_progress refine keep_mk rfl rfl rfl rfl rfl ?_) | refine keep_free rfl rfl rfl rfl rfl ?_)) | dsimp only | split)
theorem csrArrive_keep (write : Bool) (p : Packet) (s : State) (h2 : Keep k s) :
    Keep k (csrArrive write p s) := by
  unfold csrArrive
  repeat' (first | (with_reducible assumption) | (intro _) | (with_reducible (first | apply csrAtTarget_keep)) | (exact takeNet_keep (by with_reducible assumption) (by with_reducible assumption)) | (with_reducible (first | apply keep_ite | apply keep_ite2 | apply keep_ite3 | apply keep_ite1 | apply keep_foldl | apply keep_foldl2 | apply keep_foldl3 | (fail_if_no_progress refine keep_mk rfl rfl rfl rfl rfl ?_) | refine keep_free rfl rfl rfl rfl rfl ?_)) | dsimp only | split)

end Sys2Proof.Machine
end

