-- ==== Sys2Proof/Laws/KeepRouter.lean ====
section
/-! SUPPORT. The operations of Machine/Router.lean keep the queue, the counts that only rise, and `Inv`. -/

namespace Sys2Proof.Machine

set_option linter.unusedTactic false
set_option linter.unreachableTactic false
set_option linter.unusedVariables false

variable {k : KeepAt}

theorem outCycle_keep (s : State) (t : ℕ) (u : State) (o : ℕ) (h0 : Keep k s) (h2 : Keep k u) :
    Keep k (outCycle s t u o) := by
  unfold outCycle
  repeat' (first | (with_reducible assumption) | (intro _) | (with_reducible (first | apply finc_keep | apply faddSat_keep)) | (with_reducible (first | apply keep_ite | apply keep_ite2 | apply keep_ite3 | apply keep_ite1 | apply keep_foldl | apply keep_foldl2 | apply keep_foldl3 | (fail_if_no_progress refine keep_mk rfl rfl rfl rfl rfl ?_) | refine keep_free rfl rfl rfl rfl rfl ?_)) | dsimp only | split)
theorem packetArrive_keep (p : Packet) (s : State) (h1 : Keep k s) :
    Keep k (packetArrive p s) := by
  unfold packetArrive
  repeat' (first | (with_reducible assumption) | (intro _) | (with_reducible (first | apply opResponseArrive_keep | apply opEvtArrive_keep | apply tickArrive_keep | apply csrArrive_keep | apply arrive_keep)) | (with_reducible (first | apply keep_ite | apply keep_ite2 | apply keep_ite3 | apply keep_ite1 | apply keep_foldl | apply keep_foldl2 | apply keep_foldl3 | (fail_if_no_progress refine keep_mk rfl rfl rfl rfl rfl ?_) | refine keep_free rfl rfl rfl rfl rfl ?_)) | dsimp only | split)
theorem fenceAnswer_keep (p : Packet) (s : State) (h1 : Keep k s) :
    Keep k (fenceAnswer p s) := by
  unfold fenceAnswer
  repeat' (first | (with_reducible assumption) | (intro _) | (with_reducible (first | apply respondPart_keep | apply respond_keep)) | (with_reducible (first | apply keep_ite | apply keep_ite2 | apply keep_ite3 | apply keep_ite1 | apply keep_foldl | apply keep_foldl2 | apply keep_foldl3 | (fail_if_no_progress refine keep_mk rfl rfl rfl rfl rfl ?_) | refine keep_free rfl rfl rfl rfl rfl ?_)) | dsimp only | split)
theorem nocCycle_keep (s : State) (t : ℕ) (h0 : Keep k s) :
    Keep k (nocCycle s t) := by
  unfold nocCycle
  repeat' (first | (with_reducible assumption) | (intro _) | (with_reducible (first | apply fenceAnswer_keep | apply packetArrive_keep | apply outCycle_keep)) | (with_reducible (first | apply keep_ite | apply keep_ite2 | apply keep_ite3 | apply keep_ite1 | apply keep_foldl | apply keep_foldl2 | apply keep_foldl3 | (fail_if_no_progress refine keep_mk rfl rfl rfl rfl rfl ?_) | refine keep_free rfl rfl rfl rfl rfl ?_)) | dsimp only | split)
theorem nocIdle_keep (s : State) (h0 : Keep k s) :
    Keep k (nocIdle s) := by
  unfold nocIdle
  repeat' (first | (with_reducible assumption) | (intro _) | (with_reducible (first | apply nocCycle_keep)) | (with_reducible (first | apply keep_ite | apply keep_ite2 | apply keep_ite3 | apply keep_ite1 | apply keep_foldl | apply keep_foldl2 | apply keep_foldl3 | (fail_if_no_progress refine keep_mk rfl rfl rfl rfl rfl ?_) | refine keep_free rfl rfl rfl rfl rfl ?_)) | dsimp only | split)

end Sys2Proof.Machine
end

