-- ==== Sys2Proof/Laws/KeepIdle.lean ====
section
/-! SUPPORT. The operations of Machine/Idle.lean keep the queue, the counts that only rise, and `Inv`. -/

namespace Sys2Proof.Machine

set_option linter.unusedTactic false
set_option linter.unreachableTactic false
set_option linter.unusedVariables false

variable {k : KeepAt}

theorem timingCycle_keep (s : State) (h0 : Keep k s) :
    Keep k (timingCycle s) := by
  unfold timingCycle
  repeat' (first | (with_reducible assumption) | (intro _) | (with_reducible (first | apply ppsCycle_keep | apply opTick_keep | apply opTimeStep_keep | apply markers_keep)) | (with_reducible (first | apply keep_ite | apply keep_ite2 | apply keep_ite3 | apply keep_ite1 | apply keep_foldl | apply keep_foldl2 | apply keep_foldl3 | (fail_if_no_progress refine keep_mk rfl rfl rfl rfl rfl ?_) | refine keep_free rfl rfl rfl rfl rfl ?_)) | dsimp only | split)
theorem extCycle_keep (n : ℕ) (s : State) (h1 : Keep k s) :
    Keep k (extCycle n s) := by
  unfold extCycle
  repeat' (first | (with_reducible assumption) | (intro _) | (with_reducible (first | apply opEngineRawAccess_keep | apply opSharedStoreArrive_keep | apply opStagedDrain_keep | apply opDmWriteback_keep)) | (with_reducible (first | apply keep_ite | apply keep_ite2 | apply keep_ite3 | apply keep_ite1 | apply keep_foldl | apply keep_foldl2 | apply keep_foldl3 | (fail_if_no_progress refine keep_mk rfl rfl rfl rfl rfl ?_) | refine keep_free rfl rfl rfl rfl rfl ?_)) | dsimp only | split)
theorem eisCycle_keep (s : State) (e : ℕ) (h0 : Keep k s) :
    Keep k (eisCycle s e) := by
  unfold eisCycle
  repeat' (first | (with_reducible assumption) | (intro _) | (with_reducible (first | apply eisUpd_keep | apply engineCycle_keep | apply extCycle_keep | apply marginFresh_keep)) | (with_reducible (first | apply keep_ite | apply keep_ite2 | apply keep_ite3 | apply keep_ite1 | apply keep_foldl | apply keep_foldl2 | apply keep_foldl3 | (fail_if_no_progress refine keep_mk rfl rfl rfl rfl rfl ?_) | refine keep_free rfl rfl rfl rfl rfl ?_)) | dsimp only | split)
theorem quadCycle_keep (s : State) (h0 : Keep k s) :
    Keep k (quadCycle s) := by
  unfold quadCycle
  repeat' (first | (with_reducible assumption) | (intro _) | (with_reducible (first | apply keep_ite | apply keep_ite2 | apply keep_ite3 | apply keep_ite1 | apply keep_foldl | apply keep_foldl2 | apply keep_foldl3 | (fail_if_no_progress refine keep_mk rfl rfl rfl rfl rfl ?_) | refine keep_free rfl rfl rfl rfl rfl ?_)) | dsimp only | split)
theorem aoTimerCycle_keep (s : State) (h0 : Keep k s) :
    Keep k (aoTimerCycle s) := by
  unfold aoTimerCycle
  repeat' (first | (with_reducible assumption) | (intro _) | (with_reducible (first | apply fset_keep)) | (with_reducible (first | apply keep_ite | apply keep_ite2 | apply keep_ite3 | apply keep_ite1 | apply keep_foldl | apply keep_foldl2 | apply keep_foldl3 | (fail_if_no_progress refine keep_mk rfl rfl rfl rfl rfl ?_) | refine keep_free rfl rfl rfl rfl rfl ?_)) | dsimp only | split)
theorem freshEnd_keep (s : State) (h0 : Keep k s) :
    Keep k (freshEnd s) := by
  unfold freshEnd
  repeat' (first | (with_reducible assumption) | (intro _) | (with_reducible (first | apply keep_ite | apply keep_ite2 | apply keep_ite3 | apply keep_ite1 | apply keep_foldl | apply keep_foldl2 | apply keep_foldl3 | (fail_if_no_progress refine keep_mk rfl rfl rfl rfl rfl ?_) | refine keep_free rfl rfl rfl rfl rfl ?_)) | dsimp only | split)
theorem lanesCycle_keep (s : State) (h0 : Keep k s) :
    Keep k (lanesCycle s) := by
  unfold lanesCycle
  repeat' (first | (with_reducible assumption) | (intro _) | (with_reducible (first | apply laneWaitCycle_keep | apply laneBits_keep | apply laneLine_keep)) | (with_reducible (first | apply keep_ite | apply keep_ite2 | apply keep_ite3 | apply keep_ite1 | apply keep_foldl | apply keep_foldl2 | apply keep_foldl3 | (fail_if_no_progress refine keep_mk rfl rfl rfl rfl rfl ?_) | refine keep_free rfl rfl rfl rfl rfl ?_)) | dsimp only | split)
theorem idle_keep (s : State) (h0 : Keep k s) :
    Keep k (idle s) := by
  unfold idle
  repeat' (first | (with_reducible assumption) | (intro _) | (with_reducible (first | apply aoTimerCycle_keep | apply dormantCycle_keep | apply nocIdle_keep | apply lanesCycle_keep | apply logicIdle_keep | apply eisCycle_keep | apply quadCycle_keep | apply timingCycle_keep | apply leaseCycle_keep | apply freshEnd_keep)) | (with_reducible (first | apply keep_ite | apply keep_ite2 | apply keep_ite3 | apply keep_ite1 | apply keep_foldl | apply keep_foldl2 | apply keep_foldl3 | (fail_if_no_progress refine keep_mk rfl rfl rfl rfl rfl ?_) | refine keep_free rfl rfl rfl rfl rfl ?_)) | dsimp only | split)

end Sys2Proof.Machine
end

