-- ==== Sys2Proof/Laws/KeepPcie.lean ====
section
/-! SUPPORT. The operations of Machine/Pcie.lean keep the queue, the counts that only rise, and `Inv`. -/

namespace Sys2Proof.Machine

set_option linter.unusedTactic false
set_option linter.unreachableTactic false
set_option linter.unusedVariables false

variable {k : KeepAt}

theorem opDataLinkUp_keep (c : ℕ) (k0 : ℕ) (speed : ℕ) (width : ℕ) (flit : Bool) (s : State) (h5 : Keep k s) :
    Keep k (opDataLinkUp c k0 speed width flit s) := by
  unfold opDataLinkUp
  repeat' (first | (with_reducible assumption) | (intro _) | (with_reducible (first | apply fflag_keep | apply fset_keep)) | (with_reducible (first | apply keep_ite | apply keep_ite2 | apply keep_ite3 | apply keep_ite1 | apply keep_foldl | apply keep_foldl2 | apply keep_foldl3 | (fail_if_no_progress refine keep_mk rfl rfl rfl rfl rfl ?_) | refine keep_free rfl rfl rfl rfl rfl ?_)) | dsimp only | split)
theorem opPerstRelease_keep (c : ℕ) (s : State) (h1 : Keep k s) :
    Keep k (opPerstRelease c s) := by
  unfold opPerstRelease
  repeat' (first | (with_reducible assumption) | (intro _) | (with_reducible (first | apply pcieUpd_keep)) | (with_reducible (first | apply keep_ite | apply keep_ite2 | apply keep_ite3 | apply keep_ite1 | apply keep_foldl | apply keep_foldl2 | apply keep_foldl3 | (fail_if_no_progress refine keep_mk rfl rfl rfl rfl rfl ?_) | refine keep_free rfl rfl rfl rfl rfl ?_)) | dsimp only | split)
theorem opPcieConfigRequest_keep (c : ℕ) (k0 : ℕ) (f : ℕ) (s : State) (h3 : Keep k s) :
    Keep k (opPcieConfigRequest c k0 f s) := by
  unfold opPcieConfigRequest
  repeat' (first | (with_reducible assumption) | (intro _) | (with_reducible (first | apply answer_keep | apply finc_keep)) | (with_reducible (first | apply keep_ite | apply keep_ite2 | apply keep_ite3 | apply keep_ite1 | apply keep_foldl | apply keep_foldl2 | apply keep_foldl3 | (fail_if_no_progress refine keep_mk rfl rfl rfl rfl rfl ?_) | refine keep_free rfl rfl rfl rfl rfl ?_)) | dsimp only | split)
theorem barCsr_keep (r : BarReq) (part : ℕ) (a : ℕ) (i : ℕ) (size : ℕ) (s : State) (h5 : Keep k s) :
    Keep k (barCsr r part a i size s).2.2 := by
  unfold barCsr
  repeat' (first | (with_reducible assumption) | (intro _) | (with_reducible (first | apply csrWrite_keep | apply csrRead_keep)) | (with_reducible (first | apply keep_ite | apply keep_ite2 | apply keep_ite3 | apply keep_ite1 | apply keep_foldl | apply keep_foldl2 | apply keep_foldl3 | (fail_if_no_progress refine keep_mk rfl rfl rfl rfl rfl ?_) | refine keep_free rfl rfl rfl rfl rfl ?_)) | dsimp only | split)
theorem barSpace_keep (r : BarReq) (part : ℕ) (a : ℕ) (size : ℕ) (s : State) (h4 : Keep k s) :
    Keep k (barSpace r part a size s) := by
  unfold barSpace
  repeat' (first | (with_reducible assumption) | (intro _) | (with_reducible (first | apply barCsr_keep | apply pcieSeen_keep | apply answerBytes_keep)) | (with_reducible (first | apply keep_ite | apply keep_ite2 | apply keep_ite3 | apply keep_ite1 | apply keep_foldl | apply keep_foldl2 | apply keep_foldl3 | (fail_if_no_progress refine keep_mk rfl rfl rfl rfl rfl ?_) | refine keep_free rfl rfl rfl rfl rfl ?_)) | dsimp only | split)
theorem msixWrite_keep (s : State) (fn : ℕ) (i : ℕ) (v : Word) (h0 : Keep k s) :
    Keep k (msixWrite s fn i v) := by
  unfold msixWrite
  repeat' (first | (with_reducible assumption) | (intro _) | (with_reducible (first | apply fnUpd_keep | apply msiSignal_keep)) | (with_reducible (first | apply keep_ite | apply keep_ite2 | apply keep_ite3 | apply keep_ite1 | apply keep_foldl | apply keep_foldl2 | apply keep_foldl3 | (fail_if_no_progress refine keep_mk rfl rfl rfl rfl rfl ?_) | refine keep_free rfl rfl rfl rfl rfl ?_)) | dsimp only | split)
theorem barMemory_keep (r : BarReq) (part : ℕ) (off : ℕ) (size : ℕ) (s : State) (h4 : Keep k s) :
    Keep k (barMemory r part off size s) := by
  unfold barMemory
  repeat' (first | (with_reducible assumption) | (intro _) | (with_reducible (first | apply pcieSeen_keep | apply answer_keep | apply inject_keep)) | (with_reducible (first | apply keep_ite | apply keep_ite2 | apply keep_ite3 | apply keep_ite1 | apply keep_foldl | apply keep_foldl2 | apply keep_foldl3 | (fail_if_no_progress refine keep_mk rfl rfl rfl rfl rfl ?_) | refine keep_free rfl rfl rfl rfl rfl ?_)) | dsimp only | split)
theorem msixAccess_keep {r : BarReq} {off : Nat} {s : State} {v : Word × State} (hf : msixAccess r off s = some v) (h : Keep k s) :
    Keep k v.2 := by
  unfold msixAccess at hf
  dsimp only at hf
  split at hf
  · split at hf
    · cases hf
      exact msixWrite_keep _ _ _ _ h
    · cases hf
      exact h
  · split at hf
    · cases hf
      exact h
    · cases hf
theorem barServe_keep (r : BarReq) (part : ℕ) (bar : ℕ) (off : ℕ) (size : ℕ) (s : State) (h5 : Keep k s) :
    Keep k (barServe r part bar off size s) := by
  unfold barServe
  extract_lets c k' deny stopped
  have hd : ∀ e, Keep k (deny e) := fun e => answer_keep _ _ _ (pcieSeen_keep _ _ _ _ h5)
  clear_value deny
  split
  · with_reducible refine keep_ite (fun _ => keep_ite (fun _ => hd _) (fun _ => barSpace_keep _ _ _ _ _ h5)) (fun _ => ?_)
    with_reducible refine keep_ite (fun _ => hd _) (fun _ => keep_ite (fun _ => ?_) (fun _ => keep_ite (fun _ => ?_) (fun _ => hd _)))
    · split
      · exact answer_keep _ _ _ (msixAccess_keep (by assumption) h5)
      · exact hd _
    · split
      · have hv := msixAccess_keep (by assumption) h5
        split
        · exact answerBytes_keep _ _ _ (msixAccess_keep (by assumption) hv)
        · exact hd _
      · exact hd _
  · with_reducible refine keep_ite (fun _ => hd _) (fun _ => keep_ite (fun _ => hd _) (fun _ => barSpace_keep _ _ _ _ _ h5))
  · with_reducible refine keep_ite (fun _ => hd _) (fun _ => barMemory_keep _ _ _ _ _ h5)
  · exact hd _
theorem opPcieBarAccess_keep (r : BarReq) (bar : ℕ) (off : ℕ) (size : ℕ) (s : State) (h4 : Keep k s) :
    Keep k (opPcieBarAccess r bar off size s) := by
  unfold opPcieBarAccess
  repeat' (first | (with_reducible assumption) | (intro _) | (with_reducible (first | apply barServe_keep | apply pcieSeen_keep | apply answer_keep)) | (with_reducible (first | apply keep_ite | apply keep_ite2 | apply keep_ite3 | apply keep_ite1 | apply keep_foldl | apply keep_foldl2 | apply keep_foldl3 | (fail_if_no_progress refine keep_mk rfl rfl rfl rfl rfl ?_) | refine keep_free rfl rfl rfl rfl rfl ?_)) | dsimp only | split)
theorem i2cWrites_keep (part : ℕ) (mb : ℕ) (x2 : List Byte) (x3 : ℕ) (x4 : Word) (x5 : State) (h5 : Keep k x5) :
    Keep k (i2cWrites part mb x2 x3 x4 x5) := by
  induction x2 generalizing x3 x4 x5 with
  | nil => exact h5
  | cons b t ih =>
    unfold i2cWrites
    dsimp only
    apply ih
    with_reducible refine keep_ite (fun _ => csrWrite_keep _ _ _ _ _ _ h5) (fun _ => h5)
theorem i2cReads_keep (part : ℕ) (mb : ℕ) (x2 : ℕ) (x3 : ℕ) (x4 : Word) (x5 : State) (h5 : Keep k x5) :
    Keep k (i2cReads part mb x2 x3 x4 x5).2 := by
  induction x2 generalizing x3 x4 x5 with
  | zero => exact h5
  | succ n ih =>
    unfold i2cReads
    dsimp only
    apply ih
    with_reducible refine keep_ite2 (fun _ => csrRead_keep _ _ _ _ h5) (fun _ => h5)
theorem opI2cTransaction_keep (mb : ℕ) (off : ℕ) (write : Bool) (data : List Byte) (count : ℕ) (s : State) (h5 : Keep k s) :
    Keep k (opI2cTransaction mb off write data count s) := by
  unfold opI2cTransaction
  repeat' (first | (with_reducible assumption) | (intro _) | (with_reducible (first | apply answer_keep | apply freeWord_keep | apply i2cWrites_keep | apply i2cReads_keep | apply answerBytes_keep)) | (with_reducible (first | apply keep_ite | apply keep_ite2 | apply keep_ite3 | apply keep_ite1 | apply keep_foldl | apply keep_foldl2 | apply keep_foldl3 | (fail_if_no_progress refine keep_mk rfl rfl rfl rfl rfl ?_) | refine keep_free rfl rfl rfl rfl rfl ?_)) | dsimp only | split)
theorem opHostRegisterAccess_keep (hspi : Bool) (write : Bool) (addr : ℕ) (v : Word) (s : State) (h4 : Keep k s) :
    Keep k (opHostRegisterAccess hspi write addr v s) := by
  unfold opHostRegisterAccess
  repeat' (first | (with_reducible assumption) | (intro _) | (with_reducible (first | apply csrWrite_keep | apply answer_keep | apply csrRead_keep)) | (with_reducible (first | apply keep_ite | apply keep_ite2 | apply keep_ite3 | apply keep_ite1 | apply keep_foldl | apply keep_foldl2 | apply keep_foldl3 | (fail_if_no_progress refine keep_mk rfl rfl rfl rfl rfl ?_) | refine keep_free rfl rfl rfl rfl rfl ?_)) | dsimp only | split)

end Sys2Proof.Machine
end

