-- ==== Sys2Proof/Laws/KeepTap.lean ====
section
/-! SUPPORT. The operations of Machine/Tap.lean keep the queue, the counts that only rise, and `Inv`. -/

namespace Sys2Proof.Machine

set_option linter.unusedTactic false
set_option linter.unreachableTactic false
set_option linter.unusedVariables false

variable {k : KeepAt}

theorem laneTaken_keep (s : State) (n : ℕ) (h0 : Keep k s) :
    Keep k (laneTaken s n) := by
  unfold laneTaken
  repeat' (first | (with_reducible assumption) | (intro _) | (with_reducible (first | apply opLinkDown_keep)) | (with_reducible (first | apply keep_ite | apply keep_ite2 | apply keep_ite3 | apply keep_ite1 | apply keep_foldl | apply keep_foldl2 | apply keep_foldl3 | (fail_if_no_progress refine keep_mk rfl rfl rfl rfl rfl ?_) | refine keep_free rfl rfl rfl rfl rfl ?_)) | dsimp only | split)
theorem pcieTaken_keep (s : State) (c : ℕ) (h0 : Keep k s) :
    Keep k (pcieTaken s c) := by
  unfold pcieTaken
  repeat' (first | (with_reducible assumption) | (intro _) | (with_reducible (first | apply linkDropped_keep)) | (with_reducible (first | apply keep_ite | apply keep_ite2 | apply keep_ite3 | apply keep_ite1 | apply keep_foldl | apply keep_foldl2 | apply keep_foldl3 | (fail_if_no_progress refine keep_mk rfl rfl rfl rfl rfl ?_) | refine keep_free rfl rfl rfl rfl rfl ?_)) | dsimp only | split)
theorem loadIr_keep (s : State) (code : ℕ) (h0 : Keep k s) :
    Keep k (loadIr s code) := by
  unfold loadIr
  repeat' (first | (with_reducible assumption) | (intro _) | (with_reducible (first | apply pcieTaken_keep | apply laneTaken_keep)) | (with_reducible (first | apply keep_ite | apply keep_ite2 | apply keep_ite3 | apply keep_ite1 | apply keep_foldl | apply keep_foldl2 | apply keep_foldl3 | (fail_if_no_progress refine keep_mk rfl rfl rfl rfl rfl ?_) | refine keep_free rfl rfl rfl rfl rfl ?_)) | dsimp only | split)
theorem scanCells_keep (s : State) (tdi : BitVec 4878) (h0 : Keep k s) :
    Keep k (scanCells s tdi) := by
  unfold scanCells
  repeat' (first | (with_reducible assumption) | (intro _) | (with_reducible (first | apply keep_ite | apply keep_ite2 | apply keep_ite3 | apply keep_ite1 | apply keep_foldl | apply keep_foldl2 | apply keep_foldl3 | (fail_if_no_progress refine keep_mk rfl rfl rfl rfl rfl ?_) | refine keep_free rfl rfl rfl rfl rfl ?_)) | dsimp only | split)
theorem onTap_keep (s : State) (act : State → State) (h0 : Keep k s) (h1 : ∀ s, Keep k s → Keep k (act s)) :
    Keep k (onTap s act) := by
  unfold onTap
  repeat' (first | (with_reducible assumption) | (intro _) | (with_reducible (first | apply h1)) | (with_reducible (first | apply keep_ite | apply keep_ite2 | apply keep_ite3 | apply keep_ite1 | apply keep_foldl | apply keep_foldl2 | apply keep_foldl3 | (fail_if_no_progress refine keep_mk rfl rfl rfl rfl rfl ?_) | refine keep_free rfl rfl rfl rfl rfl ?_)) | dsimp only | split)
theorem tapScan_keep (code : ℕ) (tdi : BitVec 4878) (s : State) (h2 : Keep k s) :
    Keep k (tapScan code tdi s) := by
  unfold tapScan
  repeat' (first | (with_reducible assumption) | (intro _) | (with_reducible (first | apply onTap_keep | apply scanCells_keep | apply loadIr_keep)) | (with_reducible (first | apply keep_ite | apply keep_ite2 | apply keep_ite3 | apply keep_ite1 | apply keep_foldl | apply keep_foldl2 | apply keep_foldl3 | (fail_if_no_progress refine keep_mk rfl rfl rfl rfl rfl ?_) | refine keep_free rfl rfl rfl rfl rfl ?_)) | dsimp only | split)
theorem tapPass_keep (code : ℕ) (s : State) (h1 : Keep k s) :
    Keep k (tapPass code s) := by
  unfold tapPass
  repeat' (first | (with_reducible assumption) | (intro _) | (with_reducible (first | apply onTap_keep | apply loadIr_keep)) | (with_reducible (first | apply keep_ite | apply keep_ite2 | apply keep_ite3 | apply keep_ite1 | apply keep_foldl | apply keep_foldl2 | apply keep_foldl3 | (fail_if_no_progress refine keep_mk rfl rfl rfl rfl rfl ?_) | refine keep_free rfl rfl rfl rfl rfl ?_)) | dsimp only | split)
theorem tapRead_keep (code : ℕ) (v : Word) (s : State) (h2 : Keep k s) :
    Keep k (tapRead code v s) := by
  unfold tapRead
  repeat' (first | (with_reducible assumption) | (intro _) | (with_reducible (first | apply onTap_keep | apply answer_keep | apply loadIr_keep)) | (with_reducible (first | apply keep_ite | apply keep_ite2 | apply keep_ite3 | apply keep_ite1 | apply keep_foldl | apply keep_foldl2 | apply keep_foldl3 | (fail_if_no_progress refine keep_mk rfl rfl rfl rfl rfl ?_) | refine keep_free rfl rfl rfl rfl rfl ?_)) | dsimp only | split)
theorem opCfgIn_keep (v : Word) (s : State) (h1 : Keep k s) :
    Keep k (opCfgIn v s) := by
  unfold opCfgIn
  repeat' (first | (with_reducible assumption) | (intro _) | (with_reducible (first | apply onTap_keep | apply opCfgWord_keep | apply loadIr_keep)) | (with_reducible (first | apply keep_ite | apply keep_ite2 | apply keep_ite3 | apply keep_ite1 | apply keep_foldl | apply keep_foldl2 | apply keep_foldl3 | (fail_if_no_progress refine keep_mk rfl rfl rfl rfl rfl ?_) | refine keep_free rfl rfl rfl rfl rfl ?_)) | dsimp only | split)
theorem opBypass_keep (code : ℕ) (s : State) (h1 : Keep k s) :
    Keep k (opBypass code s) := by
  unfold opBypass
  repeat' (first | (with_reducible assumption) | (intro _) | (with_reducible (first | apply tapPass_keep)) | (with_reducible (first | apply keep_ite | apply keep_ite2 | apply keep_ite3 | apply keep_ite1 | apply keep_foldl | apply keep_foldl2 | apply keep_foldl3 | (fail_if_no_progress refine keep_mk rfl rfl rfl rfl rfl ?_) | refine keep_free rfl rfl rfl rfl rfl ?_)) | dsimp only | split)
theorem opTapReset_keep (s : State) (h0 : Keep k s) :
    Keep k (opTapReset s) := by
  unfold opTapReset
  repeat' (first | (with_reducible assumption) | (intro _) | (with_reducible (first | apply tapPass_keep)) | (with_reducible (first | apply keep_ite | apply keep_ite2 | apply keep_ite3 | apply keep_ite1 | apply keep_foldl | apply keep_foldl2 | apply keep_foldl3 | (fail_if_no_progress refine keep_mk rfl rfl rfl rfl rfl ?_) | refine keep_free rfl rfl rfl rfl rfl ?_)) | dsimp only | split)

end Sys2Proof.Machine
end

