-- ==== Sys2Proof/Laws/KeepWriteRows.lean ====
section
/-! SUPPORT. The operations of Machine/WriteRows.lean keep the queue, the counts that only rise, and `Inv`. -/

namespace Sys2Proof.Machine

set_option linter.unusedTactic false
set_option linter.unreachableTactic false
set_option linter.unusedVariables false

variable {k : KeepAt}

theorem csrWriteRow_keep (w : Who) (a : ℕ) (v : Word) (s : State) (h3 : Keep k s) :
    Keep k (csrWriteRow w a v s) := by
  unfold csrWriteRow
  repeat' (first | (with_reducible assumption) | (intro _) | (with_reducible (first | apply csrWrite_keep | apply answer_keep)) | (with_reducible (first | apply keep_ite | apply keep_ite2 | apply keep_ite3 | apply keep_ite1 | apply keep_foldl | apply keep_foldl2 | apply keep_foldl3 | (fail_if_no_progress refine keep_mk rfl rfl rfl rfl rfl ?_) | refine keep_free rfl rfl rfl rfl rfl ?_)) | dsimp only | split)
theorem csrReadRow_keep (w : Who) (a : ℕ) (s : State) (h2 : Keep k s) :
    Keep k (csrReadRow w a s) := by
  unfold csrReadRow
  repeat' (first | (with_reducible assumption) | (intro _) | (with_reducible (first | apply csrRead_keep | apply answer_keep)) | (with_reducible (first | apply keep_ite | apply keep_ite2 | apply keep_ite3 | apply keep_ite1 | apply keep_foldl | apply keep_foldl2 | apply keep_foldl3 | (fail_if_no_progress refine keep_mk rfl rfl rfl rfl rfl ?_) | refine keep_free rfl rfl rfl rfl rfl ?_)) | dsimp only | split)
theorem linkCount_keep (s : State) (p : Packet) (f : Fld) (h0 : Keep k s) :
    Keep k (linkCount s p f) := by
  unfold linkCount
  repeat' (first | (with_reducible assumption) | (intro _) | (with_reducible (first | apply finc_keep)) | (with_reducible (first | apply keep_ite | apply keep_ite2 | apply keep_ite3 | apply keep_ite1 | apply keep_foldl | apply keep_foldl2 | apply keep_foldl3 | (fail_if_no_progress refine keep_mk rfl rfl rfl rfl rfl ?_) | refine keep_free rfl rfl rfl rfl rfl ?_)) | dsimp only | split)
theorem linkUpset_keep (p : Packet) (k0 : ℕ) (w : ℕ) (mask : BitVec 72) (s : State) (h4 : Keep k s) :
    Keep k (linkUpset p k0 w mask s) := by
  unfold linkUpset
  repeat' (first | (with_reducible assumption) | (intro _) | (with_reducible (first | apply linkCount_keep | apply swapPacket_keep)) | (with_reducible (first | apply keep_ite | apply keep_ite2 | apply keep_ite3 | apply keep_ite1 | apply keep_foldl | apply keep_foldl2 | apply keep_foldl3 | (fail_if_no_progress refine keep_mk rfl rfl rfl rfl rfl ?_) | refine keep_free rfl rfl rfl rfl rfl ?_)) | dsimp only | split)
theorem opMemoryUpset_keep (x : UpsetAt) (s : State) (h1 : Keep k s) :
    Keep k (opMemoryUpset x s) := by
  unfold opMemoryUpset
  repeat' (first | (with_reducible assumption) | (intro _) | (with_reducible (first | apply bramSet_keep | apply engUpd_keep | apply dramSet_keep | apply cachePut_keep | apply granSet_keep | apply linkUpset_keep | apply opDmcRestart_keep)) | (with_reducible (first | apply keep_ite | apply keep_ite2 | apply keep_ite3 | apply keep_ite1 | apply keep_foldl | apply keep_foldl2 | apply keep_foldl3 | (fail_if_no_progress refine keep_mk rfl rfl rfl rfl rfl ?_) | refine keep_free rfl rfl rfl rfl rfl ?_)) | dsimp only | split)

end Sys2Proof.Machine
end

