-- ==== Sys2Proof/Laws/Logic.lean ====
section
/-! SUPPORT. User logic: what the design's accesses of one nanosecond leave alone, and what each flip-flop holds after it. -/

namespace Sys2Proof.Machine

set_option linter.unusedTactic false
set_option linter.unreachableTactic false

/-- What the accesses of user logic leave alone in `u`: flip-flops, frames, every island's hold, and the islands but those of `ns`. -/
structure LogicKeeps (ns : List Nat) (s u : State) : Prop where
  ff : u.ff = s.ff
  frames : u.frames = s.frames
  hold : ∀ j, (islGet u j).hold = (islGet s j).hold
  others : ∀ j, j ∉ ns → islGet u j = islGet s j

variable {ns : List Nat} {s : State}
theorem LogicKeeps.refl (s : State) : LogicKeeps ns s s := ⟨rfl, rfl, fun _ => rfl, fun _ _ => rfl⟩
theorem lk_mk {u v : State} (h : LogicKeeps ns s u) (h1 : v.ff = u.ff) (h2 : v.frames = u.frames) (h3 : v.isl = u.isl) : LogicKeeps ns s v :=
  ⟨h1.trans h.ff, h2.trans h.frames, fun j => by rw [← h.hold j]; unfold islGet; rw [h3], fun j hj => by rw [← h.others j hj]; unfold islGet; rw [h3]⟩
theorem lk_foldl {α : Type} {f : State → α → State} {l : List α} {u : State} (h : LogicKeeps ns s u)
    (hf : ∀ u, ∀ x ∈ l, LogicKeeps ns s u → LogicKeeps ns s (f u x)) : LogicKeeps ns s (l.foldl f u) := by
  induction l generalizing u with
  | nil => exact h
  | cons a l ih => exact ih (hf u a List.mem_cons_self h) (fun u x hx => hf u x (List.mem_cons_of_mem _ hx))
theorem lk_ite {c : Prop} [Decidable c] {a b : State} (ha : LogicKeeps ns s a) (hb : LogicKeeps ns s b) : LogicKeeps ns s (if c then a else b) := by
  split <;> assumption

theorem lk_islUpd {u : State} (n : Nat) (f : IslSt → IslSt) (hn : n ∈ ns) (hf : ∀ i, (f i).hold = i.hold) (h : LogicKeeps ns s u) :
    LogicKeeps ns s (islUpd u n f) := by
  refine ⟨h.ff, h.frames, fun j => ?_, fun j hj => ?_⟩
  · rw [← h.hold j]
    simp only [islGet, islUpd, tmod]
    rw [tget_tset]
    split
    · rename_i e
      rw [e, hf]
    · rfl
  · rw [← h.others j hj]
    simp only [islGet, islUpd, tmod]
    rw [tget_tset, if_neg (fun e : j = n => hj (by rw [e]; exact hn))]
theorem lk_bramSet {u : State} (k b) (h : LogicKeeps ns s u) : LogicKeeps ns s (bramSet u k b) := lk_mk h rfl rfl rfl
theorem lk_fset {u : State} (k b v) (h : LogicKeeps ns s u) : LogicKeeps ns s (fset u k b v) := lk_mk h rfl rfl rfl
theorem lk_hitchSet {u : State} (k b) (h : LogicKeeps ns s u) : LogicKeeps ns s (hitchSet u k b) := lk_mk h rfl rfl rfl
theorem lk_answerBytes {u : State} (k b) (h : LogicKeeps ns s u) : LogicKeeps ns s (answerBytes u k b) := lk_mk h rfl rfl rfl
theorem lk_laneUpd {u : State} (k b) (h : LogicKeeps ns s u) : LogicKeeps ns s (laneUpd u k b) := lk_mk h rfl rfl rfl
theorem lk_bramError {u : State} (a b c d e) (h : LogicKeeps ns s u) : LogicKeeps ns s (bramError u a b c d e) := lk_mk h rfl rfl rfl
theorem lk_finc {u : State} (a b) (h : LogicKeeps ns s u) : LogicKeeps ns s (finc u a b) := lk_mk h rfl rfl rfl
theorem lk_nicUpd {u : State} (a b) (h : LogicKeeps ns s u) : LogicKeeps ns s (nicUpd u a b) := lk_mk h rfl rfl rfl
theorem lk_nocUpd {u : State} (a b) (h : LogicKeeps ns s u) : LogicKeeps ns s (nocUpd u a b) := lk_mk h rfl rfl rfl
theorem lk_respond {u : State} (a b c) (h : LogicKeeps ns s u) : LogicKeeps ns s (respond u a b c) := by
  unfold respond
  repeat' (first | assumption | apply lk_ite | with_reducible exact lk_mk h rfl rfl rfl | dsimp only | split)
theorem lk_respondPart {u : State} (a) (h : LogicKeeps ns s u) : LogicKeeps ns s (respondPart u a) := by
  unfold respondPart
  repeat' (first | assumption | apply lk_respond | apply lk_finc | apply lk_ite | with_reducible exact lk_mk h rfl rfl rfl | dsimp only | split)
theorem lk_portPresent {u : State} (a b c d e f g i j l) (h : LogicKeeps ns s u) : LogicKeeps ns s (portPresent u a b c d e f g i j l) := by
  unfold portPresent
  repeat' (first | assumption | apply lk_bramError | apply lk_bramSet | apply lk_ite | with_reducible exact lk_mk h rfl rfl rfl | dsimp only | split)
theorem lk_bramTdp {u : State} (a b c d e f) (h : LogicKeeps ns s u) : LogicKeeps ns s (bramTdp u a b c d e f) := by
  unfold bramTdp
  repeat' (first | assumption | apply lk_portPresent | apply lk_bramSet | apply lk_ite | with_reducible exact lk_mk h rfl rfl rfl | dsimp only | split)
theorem lk_bramSdpWrite {u : State} (a b c d e) (h : LogicKeeps ns s u) : LogicKeeps ns s (bramSdpWrite u a b c d e) := by
  unfold bramSdpWrite
  repeat' (first | assumption | apply lk_finc | apply lk_bramSet | apply lk_ite | with_reducible exact lk_mk h rfl rfl rfl | dsimp only | split)
theorem lk_bweEnd {u : State} (a b) (h : LogicKeeps ns s u) : LogicKeeps ns s (bweEnd u a b) := by
  unfold bweEnd
  repeat' (first | assumption | apply lk_bramSet | apply lk_ite | with_reducible exact lk_mk h rfl rfl rfl | dsimp only | split)
theorem lk_bramSdpRead {u : State} (z a b c d e f) (h : LogicKeeps ns s u) : LogicKeeps ns s (bramSdpRead z u a b c d e f) := by
  unfold bramSdpRead
  repeat' (first | assumption | apply lk_bramError | apply lk_bramSet | apply lk_ite | with_reducible exact lk_mk h rfl rfl rfl | dsimp only | split)
theorem lk_bramAccess {u : State} (a b c d e f) (h : LogicKeeps ns s u) : LogicKeeps ns s (bramAccess a b c d e f u) := by
  unfold bramAccess
  repeat' (first | assumption | apply lk_bramTdp | apply lk_bramSdpRead | apply lk_bramSdpWrite | apply lk_bweEnd | apply lk_ite | with_reducible exact lk_mk h rfl rfl rfl | dsimp only | split)
theorem lk_bramKeep {u : State} (z a b c d e f) (h : LogicKeeps ns s u) : LogicKeeps ns s (bramKeep z u a b c d e f) := by
  unfold bramKeep
  repeat' (first | assumption | apply lk_ite | with_reducible exact lk_mk h rfl rfl rfl | dsimp only | split)
theorem lk_bramRowsPut {u : State} (a b) (h : LogicKeeps ns s u) : LogicKeeps ns s (bramRowsPut u a b) := by
  unfold bramRowsPut
  repeat' (first | assumption | apply lk_bramSet | apply lk_ite | with_reducible exact lk_mk h rfl rfl rfl | dsimp only | split)
theorem lk_bramEdges {u : State} (a b c d e f) (h : LogicKeeps ns s u) : LogicKeeps ns s (bramEdges a b c d e f u) := by
  unfold bramEdges
  repeat' (first | assumption | apply lk_bramKeep | apply lk_bramAccess | apply lk_bramSet | apply lk_bramRowsPut | apply lk_ite | with_reducible exact lk_mk h rfl rfl rfl | dsimp only | split)
theorem lk_bramCycle {u : State} (fb a z e n b) (h : LogicKeeps ns s u) : LogicKeeps ns s (bramCycle fb a z e u n b) := by
  unfold bramCycle
  repeat' (first | assumption | apply lk_bramEdges | apply lk_ite | with_reducible exact lk_mk h rfl rfl rfl | dsimp only | split)
theorem lk_hitchSend {u : State} (fb z n e k) (h : LogicKeeps ns s u) : LogicKeeps ns s (hitchSend fb z u n e k) := by
  unfold hitchSend
  repeat' (first | assumption | apply lk_hitchSet | apply lk_ite | with_reducible exact lk_mk h rfl rfl rfl | dsimp only | split)
theorem lk_hitchReceive {u : State} (fb z n e k) (h : LogicKeeps ns s u) : LogicKeeps ns s (hitchReceive fb z u n e k) := by
  unfold hitchReceive
  repeat' (first | assumption | apply lk_hitchSet | apply lk_ite | with_reducible exact lk_mk h rfl rfl rfl | dsimp only | split)
theorem lk_hitchesIn {u : State} (fb z e) {n : Nat} (edge) (hn : n ∈ ns) (h : LogicKeeps ns s u) : LogicKeeps ns s (hitchesIn fb z e u n edge) := by
  unfold hitchesIn
  exact lk_ite (lk_islUpd _ _ hn (fun _ => rfl) (lk_foldl h (fun u k _ hu => lk_hitchReceive _ _ _ _ _ hu))) h
theorem lk_hitchesOut {u : State} (fb z e n edge) (h : LogicKeeps ns s u) : LogicKeeps ns s (hitchesOut fb z e u n edge) := by
  unfold hitchesOut
  exact lk_ite (lk_foldl h (fun u k _ hu => lk_hitchSend _ _ _ _ _ hu)) h
theorem lk_presentWord {u : State} (a b c) (h : LogicKeeps ns s u) : LogicKeeps ns s (presentWord a b c u) := by
  unfold presentWord
  repeat' (first | assumption | apply lk_laneUpd | apply lk_finc | apply lk_ite | with_reducible exact lk_mk h rfl rfl rfl | dsimp only | split)
theorem lk_opTxWord {u : State} (a b c d) (h : LogicKeeps ns s u) : LogicKeeps ns s (opTxWord a b c d u) := by
  unfold opTxWord
  repeat' (first | assumption | apply lk_presentWord | apply lk_laneUpd | apply lk_ite | with_reducible exact lk_mk h rfl rfl rfl | dsimp only | split)
theorem lk_opTxTimestamp {u : State} (a) (h : LogicKeeps ns s u) : LogicKeeps ns s (opTxTimestamp a u) := by
  unfold opTxTimestamp
  repeat' (first | assumption | apply lk_laneUpd | apply lk_ite | with_reducible exact lk_mk h rfl rfl rfl | dsimp only | split)
theorem lk_laneEdge {u : State} (a) (h : LogicKeeps ns s u) : LogicKeeps ns s (laneEdge u a) := by
  unfold laneEdge
  repeat' (first | assumption | apply lk_opTxTimestamp | apply lk_laneUpd | apply lk_ite | with_reducible exact lk_mk h rfl rfl rfl | dsimp only | split)
theorem lk_laneCycle {u : State} (fb z e n l) (h : LogicKeeps ns s u) : LogicKeeps ns s (laneCycle fb z e u n l) := by
  unfold laneCycle
  repeat' (first | assumption | apply lk_opTxWord | apply lk_laneEdge | apply lk_ite | with_reducible exact lk_mk h rfl rfl rfl | dsimp only | split)
theorem lk_injectNow {u : State} (p) (h : LogicKeeps ns s u) : LogicKeeps ns s (injectNow u p).2 := by
  unfold injectNow
  repeat' (first | assumption | apply lk_nicUpd | apply lk_ite | with_reducible exact lk_mk h rfl rfl rfl | dsimp only | split)
theorem lk_opIslandResponse {u : State} (a b c) (h : LogicKeeps ns s u) : LogicKeeps ns s (opIslandResponse a b c u) := by
  unfold opIslandResponse
  repeat' (first | assumption | apply lk_respond | apply lk_nocUpd | apply lk_ite | with_reducible exact lk_mk h rfl rfl rfl | dsimp only | split)
theorem lk_rqoInject {u : State} {n : Nat} (hn : n ∈ ns) (h : LogicKeeps ns s u) : LogicKeeps ns s (rqoInject n u) := by
  have hf : ∀ u, LogicKeeps ns s u → LogicKeeps ns s (islUpd u n (fun i => { i with rqo := [], rqoLast := false })) := fun u h =>
    lk_islUpd _ _ hn (fun _ => rfl) h
  unfold rqoInject
  dsimp only
  split
  · exact lk_islUpd _ _ hn (fun _ => rfl) (lk_nicUpd _ _ h)
  · refine lk_ite (lk_islUpd _ _ hn (fun _ => rfl) (lk_nicUpd _ _ h)) (lk_ite (lk_islUpd _ _ hn (fun _ => rfl) (lk_injectNow _ h)) h)
theorem lk_rsoAnswer {u : State} {n : Nat} (hn : n ∈ ns) (h : LogicKeeps ns s u) : LogicKeeps ns s (rsoAnswer n u) := by
  unfold rsoAnswer
  dsimp only
  split <;> exact lk_opIslandResponse _ _ _ (lk_islUpd _ _ hn (fun _ => rfl) h)
theorem lk_rsiTaken {u : State} {n : Nat} (hn : n ∈ ns) (h : LogicKeeps ns s u) : LogicKeeps ns s (rsiTaken n u) := by
  have h1 : LogicKeeps ns s (islUpd u n (fun i => { i with rsiBeat := 0 })) := lk_islUpd _ _ hn (fun _ => rfl) h
  unfold rsiTaken
  dsimp only
  split
  · exact lk_nicUpd _ _ h1
  · split
    · exact lk_nicUpd _ _ h1
    · exact h1
theorem lk_rqiTaken {u : State} {n : Nat} (hn : n ∈ ns) (h : LogicKeeps ns s u) : LogicKeeps ns s (rqiTaken n u) := by
  have h1 : LogicKeeps ns s (islUpd u n (fun i => { i with rqiBeat := 0 })) := lk_islUpd _ _ hn (fun _ => rfl) h
  unfold rqiTaken
  dsimp only
  split
  · exact h1
  · exact lk_ite (lk_nocUpd _ _ h1) (lk_nocUpd _ _ h1)
theorem lk_portCycle {u : State} (fb z e) {n : Nat} (hn : n ∈ ns) (h : LogicKeeps ns s u) : LogicKeeps ns s (portCycle fb z e u n) := by
  unfold portCycle
  extract_lets g beat u1 u2 u3 u4
  have h1 : LogicKeeps ns s u1 := lk_ite (lk_islUpd _ _ hn (fun _ => rfl) h) h
  have h2 : LogicKeeps ns s u2 := lk_ite (lk_rqoInject hn h1) h1
  have h3 : LogicKeeps ns s u3 := by
    refine lk_ite ?_ h2
    split
    · exact lk_ite (lk_rsiTaken hn h2) (lk_islUpd _ _ hn (fun _ => rfl) h2)
    · exact h2
  have h4 : LogicKeeps ns s u4 := by
    refine lk_ite ?_ h3
    split
    · exact lk_ite (lk_rqiTaken hn h3) (lk_islUpd _ _ hn (fun _ => rfl) h3)
    · exact h3
  have h5 : LogicKeeps ns s (islUpd u4 n (fun i => { i with rso := i.rso ++ [beat 3] })) := lk_islUpd _ _ hn (fun _ => rfl) h4
  clear_value u4
  exact lk_ite h (lk_ite (lk_ite (lk_rsoAnswer hn h5) h5) h4)
theorem lk_uioCycle {u : State} (fb z e) {n : Nat} (hn : n ∈ ns) (h : LogicKeeps ns s u) : LogicKeeps ns s (uioCycle fb z e u n) := by
  unfold uioCycle
  exact lk_ite (lk_islUpd _ _ hn (fun _ => rfl) h) h

/-! ### Clocks -/

theorem lk_fsetBit {u : State} (a b c d) (h : LogicKeeps ns s u) : LogicKeeps ns s (fsetBit u a b c d) := lk_mk h rfl rfl rfl
theorem lk_marginFresh {u : State} (a) (h : LogicKeeps ns s u) : LogicKeeps ns s (marginFresh u a) := lk_mk h rfl rfl rfl
theorem lk_spineStep {u : State} (fb k) (h : LogicKeeps ns s u) : LogicKeeps ns s (spineStep fb u k) := lk_mk h rfl rfl rfl
theorem lk_startSwitch {u : State} {n : Nat} (x a b) (hn : n ∈ ns) (h : LogicKeeps ns s u) : LogicKeeps ns s (startSwitch u n x a b) :=
  lk_islUpd _ _ hn (fun _ => rfl) (lk_fsetBit _ _ _ _ (lk_fsetBit _ _ _ _ (lk_fset _ _ _ (lk_fset _ _ _ h))))
theorem lk_swRetarget {u : State} {n : Nat} (x v) (hn : n ∈ ns) (h : LogicKeeps ns s u) : LogicKeeps ns s (swRetarget u n x v) :=
  lk_islUpd _ _ hn (fun _ => rfl) (lk_fsetBit _ _ _ _ (lk_fset _ _ _ (lk_fset _ _ _ h)))
theorem lk_swGate {u : State} {n : Nat} (x) (hn : n ∈ ns) (h : LogicKeeps ns s u) : LogicKeeps ns s (swGate u n x) := by
  unfold swGate
  extract_lets v
  have hv : LogicKeeps ns s v := lk_islUpd _ _ hn (fun _ => rfl) h
  clear_value v
  split
  · exact lk_ite (lk_swRetarget _ _ hn hv) hv
  · exact hv
theorem lk_swFinish {u : State} {n : Nat} (x t) (hn : n ∈ ns) (h : LogicKeeps ns s u) : LogicKeeps ns s (swFinish u n x t) := by
  have hv := lk_islUpd (ns := ns) (s := s) n (fun i => { i with
    swOld := tset 0 i.swOld x 0, swStep2 := tset false i.swStep2 x false, swHeld := tset none i.swHeld x none, trees := tset {} i.trees x t })
    hn (fun _ => rfl) (lk_fsetBit (islBase n) Reg.Isl.SW_BUSY x false h)
  unfold swFinish
  dsimp only
  split
  · exact hv
  · exact lk_startSwitch _ _ _ hn (lk_fsetBit _ _ _ _ hv)
theorem lk_treePut {u : State} {n : Nat} (x t) (hn : n ∈ ns) (h : LogicKeeps ns s u) : LogicKeeps ns s (treePut u n x t) :=
  lk_islUpd _ _ hn (fun _ => rfl) h
theorem lk_genStep {u : State} (fb) {n : Nat} (hn : n ∈ ns) (h : LogicKeeps ns s u) : LogicKeeps ns s (genStep fb u n) := by
  unfold genStep
  exact lk_ite (lk_marginFresh _ (lk_islUpd _ _ hn (fun _ => rfl) h)) (lk_islUpd _ _ hn (fun _ => rfl) h)
theorem lk_treeCycle {u : State} (fb z) {n : Nat} (x) (hn : n ∈ ns) (h : LogicKeeps ns s u) : LogicKeeps ns s (treeCycle fb z u n x) := by
  unfold treeCycle switchNew switchOld
  repeat' (first | assumption | apply lk_treePut | apply lk_swFinish | apply lk_swGate | apply lk_swRetarget | apply lk_fsetBit | apply lk_ite | dsimp only | split)
/-- The clocks change nothing else. -/
theorem lk_clocksCycle {u : State} (fb) {roots : List Nat} (hr : ∀ n ∈ roots, n ∈ ns) (h : LogicKeeps ns s u) :
    LogicKeeps ns s (clocksCycle fb u roots) := by
  unfold clocksCycle
  exact lk_foldl (lk_foldl (lk_foldl h (fun u k _ hu => lk_spineStep _ _ hu)) (fun u n hn hu => lk_genStep _ (hr n hn) hu))
    (fun u n hn hu => lk_foldl hu (fun u x _ hu => lk_treeCycle _ _ _ (hr n hn) hu))

/-- A flip-flop after `ffCycle`: one of a configured tile takes its new value, every other keeps. -/
theorem ffCycle_eq (fb) (s e u : State) (n : Nat) : ffCycle fb s e u n = { u with ff := (ffCycle fb s e u n).ff } := by
  unfold ffCycle
  have inner : ∀ (l : List (Nat × Nat)) (t : Nat) (u : State), l.foldl (fun u x => ffPut u n t x.1 x.2 (ffNew s e fb n t x.1 x.2)) u =
      { u with ff := (l.foldl (fun u x => ffPut u n t x.1 x.2 (ffNew s e fb n t x.1 x.2)) u).ff } := by
    intro l t
    induction l with
    | nil => intro u; rfl
    | cons a l ih => intro u; rw [List.foldl_cons, ih]; rfl
  generalize activeTiles s n = l
  induction l generalizing u with
  | nil => rfl
  | cons a l ih => rw [List.foldl_cons, ih]; rw [inner]

theorem ffKey_inj {n t t' K K' f f' : Nat} (hK : K < 4) (hK' : K' < 4) (hf : f < 16) (hf' : f' < 16) (h : ffKey n t K f = ffKey n t' K' f') :
    t = t' ∧ K = K' ∧ f = f' := by
  unfold ffKey at h
  omega
theorem mem_tileFfs {x : Nat × Nat} : x ∈ tileFfs ↔ x.1 < 4 ∧ x.2 < 16 := by
  obtain ⟨K, f⟩ := x
  simp [tileFfs]
theorem ffPut_ff (s : State) (n t K f : Nat) (q : Bool) (j : Nat) :
    tget 0 (ffPut s n t K f q).ff j = if j = ffKey n t K f then q.toNat else tget 0 s.ff j := tget_tset 0 s.ff _ _ j
theorem ffCycle_ff (fb) (s e u : State) (n t K f : Nat) (hK : K < 4) (hf : f < 16) :
    tget 0 (ffCycle fb s e u n).ff (ffKey n t K f) =
      if t ∈ activeTiles s n then (ffNew s e fb n t K f).toNat else tget 0 u.ff (ffKey n t K f) := by
  have inner : ∀ (l : List (Nat × Nat)) (t' : Nat) (u : State), (∀ x ∈ l, x.1 < 4 ∧ x.2 < 16) →
      tget 0 (l.foldl (fun u x => ffPut u n t' x.1 x.2 (ffNew s e fb n t' x.1 x.2)) u).ff (ffKey n t K f) =
        if t = t' ∧ (K, f) ∈ l then (ffNew s e fb n t K f).toNat else tget 0 u.ff (ffKey n t K f) := by
    intro l t'
    induction l with
    | nil => intro u _; simp
    | cons a l ih =>
      intro u h
      rw [List.foldl_cons, ih _ (fun x hx => h x (List.mem_cons_of_mem _ hx)), ffPut_ff]
      obtain ⟨ha1, ha2⟩ := h a (List.mem_cons_self)
      by_cases h1 : t = t' ∧ (K, f) ∈ l
      · rw [if_pos h1, if_pos ⟨h1.1, List.mem_cons_of_mem _ h1.2⟩]
      · rw [if_neg h1]
        by_cases h2 : ffKey n t K f = ffKey n t' a.1 a.2
        · obtain ⟨e1, e2, e3⟩ := ffKey_inj hK ha1 hf ha2 h2
          rw [if_pos h2, if_pos ⟨e1, by rw [e2, e3]; exact List.mem_cons_self⟩, e1, e2, e3]
        · rw [if_neg h2, if_neg]
          rintro ⟨h3, h4⟩
          rcases List.mem_cons.mp h4 with h4 | h4
          · exact h2 (by rw [h3, ← h4])
          · exact h1 ⟨h3, h4⟩
  unfold ffCycle
  generalize activeTiles s n = l
  induction l generalizing u with
  | nil => simp
  | cons a l ih =>
    rw [List.foldl_cons, ih, inner _ _ _ (fun x hx => mem_tileFfs.mp hx)]
    have hm : (K, f) ∈ tileFfs := mem_tileFfs.mpr ⟨hK, hf⟩
    by_cases h1 : t ∈ l
    · simp [h1]
    · by_cases h2 : t = a
      · subst h2; simp [hm]
      · simp [h1, h2]

/-- What a quarter of a nanosecond leaves alone once the flip-flops have taken their edges: every access of user logic. -/
theorem lk_logicCycle (fb : Nat → Bool) (t : Nat) (s : State) :
    let ns := runningIsl s
    let z := ns.foldl (fun s n => settle fb n 51200 s) s
    let run := ns.filter (ungated z)
    let e := clocksCycle fb z (run.filter (fun n => spliceRoot z n == n))
    LogicKeeps run (run.foldl (ffCycle fb z e) e) (logicCycle fb t s) := by
  intro ns z run e
  unfold logicCycle
  have hl : ∀ {α : Type} {f : State → α → State} {l : List α} {u : State}, LogicKeeps run (run.foldl (ffCycle fb z e) e) u →
      (∀ u, ∀ x ∈ l, LogicKeeps run (run.foldl (ffCycle fb z e) e) u → LogicKeeps run (run.foldl (ffCycle fb z e) e) (f u x)) →
      LogicKeeps run (run.foldl (ffCycle fb z e) e) (l.foldl f u) := lk_foldl
  refine hl (hl (hl (hl (hl (hl (LogicKeeps.refl _) ?_) ?_) ?_) ?_) ?_) ?_
  · intro u n hn hu
    exact hl hu (fun u b _ hu => lk_bramCycle _ _ _ _ _ _ hu)
  · intro u n hn hu
    exact hl hu (fun u b _ hu => lk_hitchesIn _ _ _ _ hn hu)
  · intro u n hn hu
    exact hl hu (fun u b _ hu => lk_hitchesOut _ _ _ _ _ hu)
  · intro u n hn hu
    exact lk_portCycle _ _ _ hn hu
  · intro u n hn hu
    exact hl hu (fun u b _ hu => lk_laneCycle _ _ _ _ _ hu)
  · intro u n hn hu
    exact lk_uioCycle _ _ _ hn hu

end Sys2Proof.Machine
end

