-- ==== Sys2Proof/WellFormed.lean ====
section
/-! DEFINITION. Which commands are well formed: the lengths and codes that the spec fixes for what a command carries. The widths
of numbered operands are in their types. `exec` is total: a command that is not well formed still has an outcome. -/

namespace Sys2Proof

/-- A packet carries at most 512 data bytes (08 R224). -/
def Packet.wf (p : Packet) : Bool := decide (p.data.length ≤ 512)

/-- A mailbox command carries at most 240 payload bytes (13 R374). -/
def MbReq.wf (r : MbReq) : Bool := decide (r.payload.length ≤ 240)

/-- The instruction codes of 17 R526 that the TAP implements by name; every other code acts as `BYPASS`. -/
def tapCodes : List (BitVec 10) := [0x000, 0x001, 0x008, 0x009, 0x00A, 0x00B, 0x02C, 0x02D, 0x0C5]

/-- The well-formedness of a command. -/
def Instr.wf : Instr → Bool
  | .csrWr p => p.wf
  | .usLo .. | .configUpset .. | .selClr .. | .generatorWrite .. | .generatorLock .. | .treeSwitch ..
  | .switchComplete .. | .switchForce .. | .stretchRequest .. | .stretchRelease .. | .marginClr .. | .hitchWrite ..
  | .hitchArrive .. | .hitchTake .. | .hitchSlotFree .. | .bramPortAccess .. | .bramScrubStep ..
  | .bramScrubWriteback .. | .bramScrubSkip .. | .bramRawGo .. | .bramRawAccess .. | .bramRawTimeout .. | .memClr ..
  | .slotANop .. | .addW .. | .subW .. | .cmpW .. | .addH .. | .subH .. | .addsH .. | .subsH .. | .andW .. | .orW ..
  | .xorW .. | .andnW .. | .shlW .. | .shrW .. | .sraW .. | .sraH .. | .movX .. | .mvl .. | .mvh .. | .conj ..
  | .mulj .. | .packH .. | .rdst .. | .wrst .. | .accClr .. | .accSet .. | .accAdd .. | .accSub .. | .mvfa .. | .mvta ..
  | .ext .. | .extr .. | .norm .. | .ashift .. | .expx .. | .bfscan .. | .bfpack .. | .bfcls .. | .bfxa .. | .cmac ..
  | .cmsc .. | .cmacc .. | .cmscc .. | .cmul .. | .cmulc .. | .rmac .. | .rmsc .. | .rmul .. | .mulW .. | .slotBNop ..
  | .ld16Re .. | .ld16Im .. | .ld16s .. | .ld32 .. | .ld64 .. | .st16Re .. | .st16Im .. | .st32 .. | .st64 .. | .upd ..
  | .movi .. | .mov .. | .stset .. | .stclr .. | .bCc .. | .loop .. | .bl .. | .brr .. | .reti .. | .rpt .. | .commit ..
  | .done .. | .illegalOp .. | .pmDbe .. | .dmWriteback .. | .resultRetire .. | .sharedStoreArrive .. | .timerFire ..
  | .interruptAccept .. | .engineErrClr .. | .rawGo .. | .engineRawAccess .. | .engineRawTimeout .. | .setGo ..
  | .timeStep .. | .tick .. | .tickLoss .. | .frameInEdge .. | .ppsInEdge .. | .frameLoss .. | .ppsLoss ..
  | .ppsOutRise .. | .ppsOutFall .. | .eclkNWrite .. | .eclkLock .. | .stagedDrain .. | .schedClr .. => true
  | .packetInject p => p.wf
  | .rd p => p.wf
  | .wr p => p.wf
  | .csrRd p => p.wf
  | .msg p => p.wf
  | .evt p => p.wf
  | .responseArrive p => p.wf
  | .rspTimeout .. | .rsvGenerationReturn .. => true
  | .islandResponse _ _ _ d => decide (d.length ≤ 512)
  | .drainEnd .. | .drainTimeout .. | .islandOff .. | .wakeFail .. | .nocClr .. => true
  | .hawserBlock _ _ b => decide (b.length = 40)
  | .hawserAck .. | .hawserNak .. | .wireFail .. | .wireWinExpire .. | .repairRequest .. | .repairMarker ..
  | .repairConfirm .. | .dieSelfFence .. | .hwClr .. | .testGo .. | .mcRequest .. | .mcCommand .. | .mcReadData ..
  | .refreshDue .. | .rowClose .. | .mr4Poll .. | .zqCal .. | .srEntry .. | .patrolStep .. | .trnGo .. | .trnDone ..
  | .mrGo .. | .mrAccessDone .. | .runGo .. | .disableGo .. | .trainingTimeLimit .. | .phyWrite .. | .mcErrClr ..
  | .zeroFillDone .. | .rekeyDone .. | .winEn .. | .escalationZeroizeDone .. | .gtRestore .. | .subtreeResetDone ..
  | .secClr .. | .secCntClr .. | .txWord .. | .rxWord .. | .anComplete .. | .trainComplete .. | .acquireLock ..
  | .trainWaitTimeout .. | .acquireTimeout .. | .signalLoss .. | .validateWindow .. | .linkDown .. | .backoffExpire ..
  | .signalDetectRise .. | .mcuReload .. | .ctleAdapt .. | .recentre .. | .injGo .. | .injectRateFire .. | .laneClr ..
  | .timeMarker .. | .tsUnsync .. | .txTimestamp .. | .bightLaneUp .. | .bightRelease .. | .bightLaneLost ..
  | .bightWatchdog .. => true
  | .ringFrameReceive _ f => decide (7 ≤ f.length ∧ f.length ≤ 255)
  | .ringFrameInsert .. | .txGo .. | .rxPop .. => true
  | .badOpcode r _ => r.wf
  | .devInfo r => r.wf
  | .ifLevel r => r.wf
  | .attach r => r.wf
  | .detach r => r.wf
  | .partInfo r => r.wf
  | .regionLoad r => r.wf
  | .regionUnload r => r.wf
  | .regionStatus r => r.wf
  | .engineLoad r => r.wf
  | .periodSet r => r.wf
  | .engineStats r => r.wf
  | .linkSet r => r.wf
  | .linkStatus r => r.wf
  | .linkTest r => r.wf
  | .powerSet r => r.wf
  | .deviceState r => r.wf
  | .healthRead r => r.wf
  | .policySet r => r.wf
  | .memAlloc r => r.wf
  | .memRelease r => r.wf
  | .subtreeReset r => r.wf
  | .updateStage r => r.wf
  | .updateStatus r => r.wf
  | .ownerLock r => r.wf
  | .journalRead r => r.wf
  | .alarmRead r => r.wf
  | .alarmAck r => r.wf
  | .journalClear r => r.wf
  | .abort r => r.wf
  | .echo r => r.wf
  | .commandComplete .. | .commandTimeout .. | .objectWaitTimeout .. | .leaseExpire .. | .pathLoss .. | .protLock ..
  | .lockWait .. | .dmcRestart .. | .perstRelease .. | .pcieConfigRequest .. => true
  | .pcieBarAccess _ _ _ _ _ w d n => if w then decide (d.length ≤ 512) else decide (n.toNat ≤ 512)
  | .pcieClr .. | .i2cTransaction .. => true
  | .hostRegisterAccess hspi _ a _ => hspi || decide (a.toNat < 2 ^ 28 ∧ a.toNat % 4 = 0)
  | .imageHeader b _ => decide (b.length ≤ 4096)
  | .frames .. => true
  | .frameRecord w => decide (w.length ≤ 130)
  | .zero .. => true
  | .dieRec n w => decide (w.length = n.toNat)
  | .segmentNop .. | .endRecord .. | .hparWord .. | .hspiByte .. | .sourceTimeout .. | .lockFail .. | .stagedRelease ..
  | .scrubFrame .. | .frameRepair .. | .scrubStall .. | .csRestart .. | .csClr .. | .cfgErrClr .. | .rawfGo ..
  | .rawfAccess .. | .standbyEntryDone .. | .supplyTimeout .. | .wakeN .. | .i2cWakeMatch .. | .aoTimer ..
  | .autoIdle .. | .sensorSample .. | .policyLoop .. | .avsAck .. | .avsTimeout .. | .railDeviation .. | .agingSample ..
  | .tjAlarm .. | .thermalTrip .. | .pwrClr .. | .suppliesValid .. => true
  | .phaseB ds ts => decide (ds.length = 8 ∧ ts.length = 128)
  | .phaseC .. => true
  | .phaseD f t _ _ _ => decide (f.length = 8 ∧ t.length = 8)
  | .phaseE .. | .phaseF .. | .startWatchdog .. | .aoPowerGood .. | .sysRstN .. | .railFault .. | .extest ..
  | .samplePreload .. | .usercode .. | .idcode .. | .highz .. | .clamp .. | .extestPulse .. | .extestTrain ..
  | .cfgIn .. => true
  | .bypass c => !(tapCodes.contains c)
  | .tapReset .. | .vccAoLoss .. | .refclkOkChange .. | .dataLinkUp .. | .responseTake .. | .memoryUpset .. => true

end Sys2Proof
end

