-- ==== Sys2Proof/Tests/Slice0.lean ====
section
/-! SUPPORT. The model's own tests: for each statement concrete states and operands that meet its hypotheses, with what the step gives
there where the kernel evaluates it (a value drawn from Config's free constants, AES and SHA it does not); bundle words written out from
06 R176 and R183; and an ill-formed term for each check of WellFormed. `ck` takes the hypotheses and the conclusions. -/

open Sys2Proof Sys2Proof.Machine

namespace Sys2Proof.Tests

/-! One theorem at a time: side by side they would need more threads than the sandbox gives. -/
set_option Elab.async false

def nx (o : Out) : State := match o with | .next t => t | _ => {}
/-- All hypotheses and all conclusions hold. -/
def ck (_ : String) (hs cs : List Bool) : Option Unit := if hs.all id && cs.all id then some () else none

/-- a running device: P0 and P1 -/
def rP0 : PartRec := { valid := true, maxSess := 4, fns := 1, mailboxes := 1, ports := 0, islands := [2^47,0,0,0,0,0,0,0], eisl := List.replicate 8 0, quads := 0, granges := [⟨0, 1024, false⟩] }
def rP1 : PartRec := { valid := true, maxSess := 2, fns := 2, mailboxes := 2, ports := 7, islands := (2^47-1) :: List.replicate 7 (2^48-1), eisl := List.replicate 8 0x3FF, quads := 0xFFFFFFFF, granges := [⟨1024, 4096, false⟩], steward := true }
def W : State :=
  let s : State := { pwr := { ao := true, mainEn := true, hubReset := false }, boot := { dmc := true }, plan := [rP0, rP1] }
  let s := partUpd s 0 (fun x => { x with state := 2 })
  let s := partUpd s 1 (fun x => { x with state := 2 })
  let s := fset s 0 Reg.Hub.DIES_PRESENT 0xFF
  let s := fset s 0 Reg.Hub.BOOT_PHASE 6
  let s := fset s 0 Reg.Hub.FL 2
  let s := fset s 0 Reg.Hub.PROT_LOCK 1
  let s := fset s cfgBase Reg.Cfg.CFG_STATE 3
  { s with sessions := [{ id := 5, part := 0, path := .fabric 0 47, lease := 0 }, { id := 6, part := 1, path := .hpar, lease := 0 }], nextSession := 7 }
/-- die 0 island 3 running etc -/
def runI (s : State) (n : Nat) : State :=
  let s := islUpd s n (fun i => { i with hold := false, image := true })
  fflag (setIslState s n 0) (islBase n) Reg.Isl.LOCKED true
def e0 : Eng := ⟨0, 0, 0⟩

def W1 : State := runI W 47
def offB (s : State) (r : MbReq) (part : Nat) : Bool :=
  !s.pwr.hubReset && !s.pwr.dormant && s.boot.dmc && devState s == 0 && pathPart s r.path == some part && mbHolder s r.mb.val == part &&
  !slotClosed s r.mb.val && (List.range 40).all (fun n => !waiting s n) && r.payload.length == r.len.toNat && decide (r.len.toNat ≤ 240)
def accB (s : State) (op : Nat) (r : MbReq) (part : Nat) : Bool := offB s r part && (cmdGate s (cmdOf op r part)).isNone
def by8 (l : List Nat) : List Byte := l.map byte
/-- request of P1 on mailbox 1 -/
def q1 (pl : List Nat) : MbReq := ⟨1, .hpar, BitVec.ofNat 8 pl.length, 6, 9, by8 pl⟩
def q1n (pl : List Nat) : MbReq := ⟨1, .hpar, BitVec.ofNat 8 pl.length, 0, 9, by8 pl⟩
def q0 (pl : List Nat) : MbReq := ⟨0, .fabric 0 47, BitVec.ofNat 8 pl.length, 5, 9, by8 pl⟩
def endedB (t : State) (n code : Nat) (rsp : List Byte) : Bool := (mbGet t n).state == 2 && (mbGet t n).code == code && (mbGet t n).rsp == rsp
def endC (t : State) (n code : Nat) : Bool := (mbGet t n).state == 2 && (mbGet t n).code == code
def inSvB (t : State) (n op : Nat) : Bool := (mbGet t n).state == 1 && (mbGet t n).ropcode == op && (mbGet t n).wait == .run
def le (v n : Nat) : List Nat := (natLe v n).map (·.toNat)
def z (n : Nat) : List Nat := List.replicate n 0
def fitA : Fit := { kind := 2, width := 1, density := false, ranks2 := false, spdRate := 0, slow := false, ecc := true, serial := 1 }
/-- channel 0 runs, granule 1024 (P1) and 0 (P0) written -/
def memOn (s : State) : State :=
  let s := fset s (mcBase 0) Reg.Mc.STATE 2
  let s := mcUpd s 0 (fun m => { m with fit := some fitA })
  let s := fset (secUpd s (fun e => { e with key := some 0x1234 })) secBase Reg.Sec.KEY_READY 1
  granSet (granSet s 1024 { owner := 1, init := true }) 0 { owner := 0, init := true }
def storeBytes (s : State) (ln : Nat) (bs : List Nat) : State :=
  let d : BitVec 512 := BitVec.ofNat 512 (leNat (by8 bs))
  let c := ln / 2^30
  dramSet s c (ln % 2^30) (encLine (xtsEnc (outKeys s) ln d))
def img : List Nat :=
  let body := z 8
  le 0x49455A53 4 ++ le 1 2 ++ [1, 0] ++ le 0 2 ++ le 1 2 ++ le 0 2 ++ le 0 2 ++ le 560 2 ++ le 0 2 ++ le (crc32c (by8 body)).toNat 4 ++ z 8 ++ body
def A1 : Nat := 131072 * 1024
def W4 : State := storeBytes (memOn W1) (A1 / 64) img

namespace Engines

/-! Witnesses for StepRunsTheCommandAtTheFront, ResetState, the invariant; the slot A, slot B, control transfer and illegal bundle
statements; TruncatedProductOmitsLowColumns; UserLogicRunsInIdleNanoseconds; the checks of WellFormed. -/

-- the queue, the invariant, reset
theorem test_step_takes_the_front : step { State.reset with pending := [.ppsOutFall, .tapReset] } = exec .ppsOutFall { State.reset with pending := [.tapReset] } := rfl
def WQ : State := { W1 with eis := [], quad := [], fresh := [], sessions := [], isl := [] }
theorem test_idle_with_nothing_running : WQ.pending = [] ∧ WQ.pwr.hubReset = false ∧ WQ.fresh = [] ∧ WQ.sessions = [] ∧ WQ.quad = [] ∧ WQ.lane = [] ∧
    WQ.net = [] ∧ WQ.way = [] ∧ WQ.spine = [] ∧ (∀ e, eisOn WQ e = false) ∧ WQ.isl = [] ∧ (∀ d ∈ List.range 8, ∀ k ∈ List.range 8, spineEn WQ d k = false) ∧
    aoCounts WQ = false ∧ devState WQ ≠ 4 ∧ WQ.tim.pps = false ∧ WQ.tim.ppsLeft = 0 ∧ usCount (advanceTime WQ.tim (rateAdj WQ)) = usCount WQ.tim ∧
    passesNs WQ.tim (advanceTime WQ.tim (rateAdj WQ)) (fget WQ timBase Reg.Tim.PPS_OFFSET) = false :=
  ⟨rfl, rfl, rfl, rfl, rfl, rfl, rfl, rfl, rfl, fun _ => rfl, rfl, by decide +kernel, by decide +kernel, by decide +kernel, rfl, rfl, by decide +kernel, by decide +kernel⟩
/-- An island runs and a tile of it is configured: its flip-flop 0 captures nothing, as no clock is selected. -/
theorem test_user_logic : (let s := { runI W1 53 with frames := [(frameKey 53 0, { ({} : Frame) with data := 1 })] }; let fb := fun _ => false; let z := (runningIsl s).foldl (fun s n => settle fb n 51200 s) s
  ck "user logic" [(runningIsl s).contains 53, ungated z 53, (activeTiles s 53).contains 0] [z.ff == s.ff, z.frames == s.frames] : Option Unit) = some () := by decide +kernel
theorem test_dormant_timer : (let d : State := fset { pwr := { ao := true, dormant := true, hubReset := true }, up := 999999 } pwrBase Reg.Pwr.AO_TIMER 5
  ck "dormant timer" [d.pending.isEmpty] [match step d with | .next t => fget t pwrBase Reg.Pwr.AO_TIMER == 4 | _ => false] : Option Unit) = some () := by decide +kernel
theorem test_inv_of_a_running_device : Inv (memOn W1) := by unfold Inv rising; decide +kernel
theorem test_reset_idles : step State.reset = .next State.reset := rfl
-- engines: a state in which the engine issues, for every flow
def Ge : Eng := ⟨0, 0, 0⟩
def Ei (e : EngSt) : State := fset (engSet (eisUpd W1 0 (fun x => { x with pst := 0, hold := false })) (engId Ge) e) (engBase (engId Ge)) Reg.Eng.STATE 2
def ea : EngSt := { main := { r := [(1, 0x7FFFFFFF), (2, 0x80000000), (3, 0x8000FFFF), (16, 0x100), (24, 4), (32, 0xF0), (40, 0x20), (48, 5)],
                              acc := [(0, ⟨5, -3⟩), (1, ⟨BitVec.ofNat 48 (2 ^ 47 - 1), 2⟩)] }, pc := 7 }
theorem test_engine_issues : (ck "" [canIssue (Ei ea) (engId Ge), (engOf (Ei ea) Ge).flow == .seq, (engOf (Ei ea) Ge).bank == false] [] : Option Unit) = some () := by decide +kernel
theorem test_engine_issues_in_a_slot : (do for fl in ([.slots 2 .seq, .slots 1 (.goto 9), .rep 3] : List Flow) do
    ck "" [canIssue (Ei { ea with flow := fl }) (engId Ge)] [nx (execDone Ge (Ei { ea with flow := fl })) == ranB (Ei { ea with flow := fl }) Ge [(1, .sticky 0x80)]] : Option Unit) = some () := by decide +kernel
theorem test_engine_issues_in_the_shadow_bank : (ck "" [canIssue (Ei { ea with bank := true }) (engId Ge), (engOf (Ei { ea with bank := true }) Ge).bank] [] : Option Unit) = some () := by decide +kernel
theorem test_loop_counter_zero : (let s := Ei { ea with main := {} }; ck "" [canIssue s (engId Ge), regRead (engOf s Ge) false 48 == 0] [] : Option Unit) = some () := by decide +kernel
theorem test_rpt_clips : (let s := Ei { ea with main := { r := [(48, 5000)] } }; ck "" [canIssue s (engId Ge), 4096 < (regRead (engOf s Ge) false 48).toNat] [] : Option Unit) = some () := by decide +kernel
theorem test_add_overflows : nx (execAddW Ge 4 1 1 (Ei ea)) = ranA (Ei ea) Ge [(1, .reg 4 0xFFFFFFFE), (1, .stBits 0xF 0xA)] := by decide +kernel
theorem test_sub_borrows : nx (execSubW Ge 4 1 2 (Ei ea)) = ranA (Ei ea) Ge [(1, .reg 4 0xFFFFFFFF), (1, .stBits 0xF 0xA)] := by decide +kernel
theorem test_conj_of_the_least_saturates : nx (execConj Ge 4 3 (Ei ea)) = ranA (Ei ea) Ge [(1, .reg 4 0x7FFFFFFF), (1, .sticky 0x10)] := by decide +kernel
/-- The example of 06 R179: (4,660, −5) normalises by 34. -/
theorem test_norm : let s := Ei { ea with main := { acc := [(0, ⟨4660, -5⟩)] } }
    nx (execNorm Ge 0 6 s) = ranA s Ge [(1, .acc 0 ⟨4660 * 2 ^ 34, -5 * 2 ^ 34⟩), (1, .reg 6 34)] := by decide +kernel
theorem test_load_circular : let s := Ei ea
    nx (execLd32 Ge 5 0 1 0x14 s) = ranB s Ge [(3, .load (.reg 5) 0x100 4), (1, .reg 16 0xF4)] := by decide +kernel
theorem test_feature_levels : featureLevel (Ei ea) = 2 ∧ featureLevel (fset (Ei ea) 0 Reg.Hub.FL 1) = 1 := by decide +kernel
theorem test_truncated_product : mul16 true 3 5 = 15 - (1 * 1 + 1 * 4 + 2 * 1 + 2 * 4) + 22528 ∧ mul16 true 0x8000 0x8000 = 2 ^ 30 + 22528 := by decide +kernel
-- the bits of a bundle, from 06 R176 and R183
/-- Slot A: `add.w x1, x2, x3` is OPA 0x01, D 1, S 2, T 3. -/
theorem test_decode_add : decodeA Ge (0b000001_0001_0010_0011_0_0_000000_000000#32) = some (opAddW Ge 1 2 3) := rfl
/-- Slot A: `sra.w x15, x1, 31` is OPA 0x0E, D 15, S 1, SH 31. -/
theorem test_decode_sra : decodeA Ge (0b001110_1111_0001_0000_0_0_000000_011111#32) = some (opSraW Ge 15 1 31) := rfl
/-- Slot A: `mvfa x2, acc3, im, high` is OPA 0x1C, D 2, S 3, C 1, H 1. -/
theorem test_decode_mvfa : decodeA Ge (0b011100_0010_0011_0000_1_1_000000_000000#32) = some (opMvfa Ge 2 3 true true) := rfl
/-- Slot A: `mvl x3, 0x8001` is OPA 0x11, D 3, IMM16. -/
theorem test_decode_mvl : decodeA Ge (0b010001_0011_000000_1000000000000001#32) = some (opMvl Ge 3 0x8001) := rfl
/-- Slot A: OPA 0x27 is reserved, and an accumulator field has no bit above bit 1. -/
theorem test_decode_reserved : decodeA Ge (0b100111_0000_0000_0000_0_0_000000_000000#32) = none ∧ decodeA Ge (0b011000_0100_0000_0000_0_0_000000_000000#32) = none := ⟨rfl, rfl⟩
/-- Slot B: `ld32 lc, [a5 += -1]` is OPB 0x04, REG 48, AI 5, MODE 1, IMM15 −1. -/
theorem test_decode_ld32 : decodeB Ge (0b000100_110000_101_01_111111111111111#32) = some (opLd32 Ge 48 5 1 0x7FFF) := rfl
/-- Slot B: `movi b0, 5` is OPB 0x10, REG 32, IMM20 5. -/
theorem test_decode_movi : decodeB Ge (0b010000_100000_00000000000000000101#32) = some (opMovi Ge 32 5) := rfl
/-- Slot B: `mov x1, st` is OPB 0x11, REG 1, SREG 49. -/
theorem test_decode_mov : decodeB Ge (0b010001_000001_110001_00000000000000#32) = some (opMov Ge 1 49) := rfl
/-- Slot B: `b.cc 0x3FF` with COND 3 is OPB 0x18. -/
theorem test_decode_bcc : decodeB Ge (0b011000_0011_00_0000000000_1111111111#32) = some (opBCc Ge 3 0x3FF) := rfl
/-- Slot B: `rpt lc` is OPB 0x1D with CSRC 1. -/
theorem test_decode_rpt : decodeB Ge (0b011101_1_0000000000000_000000000000#32) = some (opRpt Ge true 0) := rfl
/-- Slot B: `stset 0x800` is OPB 0x12; an unused bit makes it illegal. -/
theorem test_decode_stset : decodeB Ge (0b010010_00000000000000_100000000000#32) = some (opStset Ge 0x800) ∧ decodeB Ge (0b010010_00000000000001_100000000000#32) = none := ⟨rfl, rfl⟩
theorem test_illegal_bundle : (let s := Ei ea; let t := nx (execIllegalOp Ge (0x27 <<< 26) s)
  ck "" [canIssue s (engId Ge), (decodeA Ge 0x9C000000).isNone] [engState t (engId Ge) == 3, fget t (engBase (engId Ge)) Reg.Eng.FAULT_CAUSE == 3, fget t (engBase (engId Ge)) Reg.Eng.FAULT_PC == 7] : Option Unit) = some () := by decide +kernel
-- well-formedness: for each check an ill-formed term
def pk0 (n : Nat) : Packet := { dstDie := 8, dstNode := 0, dstUnit := 0, srcDie := 0, srcNode := 3, srcUnit := 0, part := 1, prio := 1, vn := 0, op := 3, len := 0, tag := 5, nw := false, rsv := 0, resp := 0, size := 4, addr := 0, firstBe := 0, lastBe := 0, rsvd := false, poisoned := false, data := List.replicate n 0 }
def ill (cs : List Instr) : Bool := cs.all (fun c => !c.wf)
theorem test_wf_packets : ill [.rd (pk0 513), .wr (pk0 513), .csrRd (pk0 513), .csrWr (pk0 513), .msg (pk0 513), .evt (pk0 513), .packetInject (pk0 513), .responseArrive (pk0 513)] = true ∧ (Instr.wf (.rd (pk0 512))) = true := by decide +kernel
theorem test_wf_mailbox : ill ([.badOpcode (q1 (z 241)) 9, .devInfo (q1 (z 241)), .echo (q1 (z 241)), .abort (q1 (z 241)), .powerSet (q1 (z 241))]) = true ∧ Instr.wf (.echo (q1 (z 240))) = true := by decide +kernel
theorem test_wf_lengths : ill [.islandResponse 0 0 0 (List.replicate 513 0), .hawserBlock 0 0 (List.replicate 39 0), .ringFrameReceive false (List.replicate 6 0), .ringFrameReceive false (List.replicate 256 0),
    .pcieBarAccess 0 0 0 2 0 true (List.replicate 513 0) 0, .pcieBarAccess 0 0 0 2 0 false [] 513, .hostRegisterAccess false false 2 0, .hostRegisterAccess false false (2 ^ 28) 0,
    .imageHeader (List.replicate 4097 0) ⟨false, false, 0, 0⟩, .frameRecord (List.replicate 131 0), .dieRec 18 [], .bypass 0x009, .phaseB [] [], .phaseD [] [] 0 0 true] = true := by decide +kernel

end Engines

namespace EngineEvents

/-! Witnesses for RegisterWidthConversions, ResultsRetireAndLoadsRead, ByteCodeCorrectsOneAndDetectsTwo, EngineEventsAndRawAccess,
RunsStartAndHalt, TimingEventsAndStagedWrites, EngineCommandsTouchOnlyTheirEngine. -/

def G : Eng := ⟨0,0,0⟩
def bankW : Bank := { r := [(0,0x1234FFFF),(3,5),(16,0x12345),(24,0xFFF80001),(33,77),(49,0x800)], acc := [(0,⟨5,-3⟩),(1,⟨BitVec.ofNat 48 (2^47-1), 2⟩)] }
def e0' : EngSt := { main := bankW, shadow := { bankW with r := [(0,7),(49,0x1001)] }, ctl := [(50,3),(52,6),(53,2),(54,9),(55,11)], pc := 5 }
def rwB (e : EngSt) (b : Bool) (n : Nat) (v : Word) : Bool :=
    let r := fun (m : Nat) => regRead (regWrite e b n v) b m
    (!(n < 16) || r n = v) &&
    (!(16 ≤ n && n < 24) || r n = (v.extractLsb' 0 20).setWidth 32) &&
    (!(24 ≤ n && n < 32) || r n = (v.extractLsb' 0 20).signExtend 32) &&
    (!(32 ≤ n && n < 48) || r n = (v.extractLsb' 0 20).setWidth 32) &&
    (!(n = 48) || r n = (v.extractLsb' 0 16).setWidth 32) &&
    (!(n = 49) || r n = (v &&& 0xFF3F0FFF) ||| (if b then 0x1000 else 0)) &&
    (!(n = 50 || n = 51) || r n = (v.extractLsb' 0 10).setWidth 32) &&
    (!(n = 52) || r n = regRead e b 52 &&& ~~~v) &&
    (!(n = 53) || r n = (v.extractLsb' 0 3).setWidth 32) &&
    (!(n = 54 || n = 55) || r n = v) &&
    ([0, 17, 49, 52].all (fun m => m == n || (r m = regRead e b m && regRead (regWrite e b n v) (!b) m = regRead e (!b) m)))
theorem test_rw : (ck "rw" [] (do let n ← [0, 15, 16, 24, 47, 48, 49, 50, 52, 53, 55]; let b ← [true, false]; pure (rwB e0' b n 0x89ABCDEF)) : Option Unit) = some () := by decide +kernel
def WE (e : EngSt) : State := engSet W1 (engId G) e
def clocked (s : State) (e : EngSt) : EngSt := if engState s (engId G) = 2 then timerStep e else e
def endsB (e : EngSt) (fl : List Res) (f : EngSt → EngSt) : Bool :=
  let s := WE { e with fly := fl }
  let e := engOf s G
  let t := nx (execResultRetire G s)
  engOf t G == cycleOver { f (clocked s e) with fly := [] } && { t with eng := s.eng } == s
def stv (e : EngSt) (sh : Bool) := tget 0 (bankOf e sh).r 49
def one (sh : Bool) (w : ResW) : List Res := [⟨1, sh, 3, w⟩]
theorem test_ends : (do for sh in [false,true] do
      let s0 := WE e0'
      let endsB (e : EngSt) (fl : List Res) (f : EngSt → EngSt) : Bool :=
        let s := engSet s0 (engId G) { e with fly := fl }
        let e := engOf s G
        let t := nx (execResultRetire G s)
        engOf t G == cycleOver { f (clocked s e) with fly := [] } && { t with eng := s.eng } == s
      ck "ends" [(engOf s0 G).starting == 0] ([endsB e0' (one sh (.stBits 0xFF 0x5)) (fun e => regWrite e sh 49 ((stv e0' sh &&& ~~~0xFF) ||| (5))),
        endsB e0' (one sh (.sticky 0x30)) (fun e => regWrite e sh 49 (stv e0' sh ||| 0x30)),
        endsB e0' (one sh (.acc 2 ⟨4,5⟩)) (fun e => accWrite e sh 2 ⟨4,5⟩),
        endsB e0' (one sh (.mac 1 false (-5) (2^48+3))) (fun e => accWrite e sh 1 ⟨BitVec.ofInt 48 (-5), BitVec.ofInt 48 3⟩),
        endsB e0' (one sh (.store 0x100 8 0x1122334455667788)) (fun e => dmBytes e 0x100 ((List.range 8).map (fun i => (0x1122334455667788#64).extractLsb' (8 * i) 8)))]
       ++ [0, 15, 24, 48, 49, 52, 55].map (fun n => endsB e0' (one sh (.reg n 0x87654321)) (fun e => regWrite e sh n 0x87654321))
       ++ [0, 15].flatMap (fun n => [endsB e0' (one sh (.lane n false 0x8888)) (fun e => regWrite e sh n (imOf (regRead e sh n) ++ (0x8888#16))), endsB e0' (one sh (.lane n true 0x8888)) (fun e => regWrite e sh n ((0x8888#16) ++ reOf (regRead e sh n)))])
       ++ (do let n ← [0,1]; let re ← [(5:Int),-2^47]; let im ← [(2^47-1:Int)]
              pure (endsB e0' (one sh (.mac n true re im)) (fun e => 
                let a := accRead e sh n
                let e' := accWrite e sh n ⟨a.re + BitVec.ofInt 48 re, a.im + BitVec.ofInt 48 im⟩
                let fits := fun (x : Int) => decide (-2 ^ 47 ≤ x ∧ x ≤ 2 ^ 47 - 1)
                if fits (a.re.toInt + re) && fits (a.im.toInt + im) then e' else regWrite e' sh 49 (stv e0' sh ||| 0x20))))) : Option Unit) = some () := by decide +kernel
theorem test_two : (let fl : List Res := [⟨1,false,3,.reg 4 7⟩,⟨1,false,4,.reg 4 9⟩]; let s := WE { e0' with fly := fl }; let t := nx (execResultRetire G s); ck "two" [] [engOf t G == cycleOver { regWrite (regWrite (engOf s G) false 4 7) false 4 9 with fly := [] }] : Option Unit) = some () := by decide +kernel
theorem test_wait : (do for (w : ResW) in ([.reg 4 7, .dbe 3, .commit, .send 4 [], .mac 0 true 1 1] : List ResW) do let s := WE { e0' with fly := [⟨3,true,5,w⟩] }; let t := nx (execResultRetire G s); ck "wait" [] [engOf t G == cycleOver { engOf s G with fly := [⟨2,true,5,w⟩] }, { t with eng := s.eng } == s] : Option Unit) = some () := by decide +kernel
theorem test_load : (let e := dmBytes e0' 0x200 (by8 [1,9,3,4]); let e := { e with old := [(0x201, encByte 2)], fly := [⟨3,false,5,.load (.reg 16) 0x200 4⟩] }; let s := WE e; let t := nx (execResultRetire G s)
   ck "load" [!inPers s (engId G) 0x203, !(decByte (tget 0 e.dm 0x201)).sbe] [(engOf t G).fly == [⟨2,false,5,.reg 16 0x04030201⟩], (engOf t G).dm == e.dm, { t with eng := s.eng } == s] : Option Unit) = some () := by decide +kernel
theorem test_code : (ck "code" [] (do let b ← [0, 1, 0x80, 0xA5, 0xFF].map byte; pure (
   decByte (encByte b) == ⟨b.toNat, false, false⟩ && (List.range 13).all (fun i => decByte (encByte b ^^^ (1 <<< i)) == ⟨b.toNat, true, false⟩ && (List.range i).all (fun j => (decByte (encByte b ^^^ (1 <<< i) ^^^ (1 <<< j))).dbe)))) : Option Unit) = some () := by decide +kernel
-- EngineEvents
def st (s : State) (n v : Nat) := fset s (engBase n) Reg.Eng.STATE v
def R (e : EngSt) : State := st (WE e) (engId G) 2
theorem test_pmdbe : (let n := engId G; let b := engBase n; let s := R { e0' with pc := 5, pm := [(0,0)], fly := [], bank := false }
   let s := engUpd s n (fun e => { e with pm := [(42, 3)] })
   let t := nx (execPmDbe G s); ck "pmdbe" [opens s G, fetchBad s n 5] [engState t n == 3, fget t b Reg.Eng.FAULT_CAUSE == 1, fget t b Reg.Eng.FAULT_PC == 5, fget t b Reg.Eng.LAST_END == 2, fget t b Reg.Eng.PM_DBE_CNT == 1] : Option Unit) = some () := by decide +kernel
def okP : Posted := ⟨3, 0x40, 4, 0x11223344, 0⟩
theorem test_wb : (let n := engId G; let e := { e0' with wbs := [(false,7,9),(true,3,4),(false,7,2)] }; let s := R e; let t := nx (execDmWriteback G s); let s2 := R { e with wbs := [(true,3,4)] }; let t2 := nx (execDmWriteback G s2)
   ck "wb" [portServes s n 3 [7 / 4 % 4], portServes s2 n 3 [4]] [(engOf t G).dm == tset 0 e.dm 7 9, (engOf t G).wbs == [(true,3,4)], { t with eng := s.eng } == s,
     (engOf t2 G).pm == tset 0 e.pm 3 4, (engOf t2 G).wbs == [], (engOf t2 G).dm == e.dm] : Option Unit) = some () := by decide +kernel
theorem test_posted : (let n := engId G; let e := { e0' with posted := [okP] }; let s := R e; let t := nx (execSharedStoreArrive G 3 s)
   ck "posted" [portServes s n 2 (banksOf 0x40 4)] [(engOf t G).posted == [], tget 0 (engOf t G).dm 0x43 == encByte 0x11, tget 0 (engOf t G).dm 0x40 == encByte 0x44, tget 0 (engOf t G).dm 0x44 == 0] : Option Unit) = some () := by decide +kernel
theorem test_timer : (let e := { e0' with ctl := tset 0 e0'.ctl 54 1 }; let s := R e; let t := nx (execTimerFire G s); ck "timer" [] [{ t with eng := s.eng } == s, regRead (engOf t G) e.bank 54 == regRead e e.bank 55, regRead (engOf t G) e.bank 52 == regRead e e.bank 52 ||| 4, (engOf t G).fired] : Option Unit) = some () := by decide +kernel
theorem test_irq : (let s := R e0'; let t := nx (execInterruptAccept G s); let e := e0'; ck "irq" [(tget 0 e.main.r 49).getLsbD 11, regRead e false 52 &&& regRead e false 53 != 0] [{ t with eng := s.eng } == s, (engOf t G).bank, (engOf t G).pc == 3, regRead (engOf t G) true 51 == 5, (engOf t G).main == e.main, (engOf t G).shadow == e.shadow] : Option Unit) = some () := by decide +kernel
/-- 05 R159: a running engine's timer at the end of a cycle, and a message that set `ipend` in the cycle of its clear. -/
theorem test_timer_step : (let s := R { e0' with ctl := [(52, 2), (54, 1), (55, 11)], pset := 2, fly := one false (.reg 52 6) }; let t := nx (execResultRetire G s)
   ck "step" [] [regRead (engOf t G) false 54 == 11, regRead (engOf t G) false 52 == 6] : Option Unit) = some () := by decide +kernel
theorem test_dbe : (let s := fset (R { e0' with fly := one false (.dbe 4), staged := [.store 1 1 1] }) (engBase (engId G)) Reg.Eng.PC_NOW 77; let t := nx (execResultRetire G s); let b := engBase (engId G)
   ck "dbe" [] [engState t (engId G) == 3, fget t b Reg.Eng.FAULT_CAUSE == 2, fget t b Reg.Eng.FAULT_PC == 77, fget t b Reg.Eng.LAST_END == 2, (engOf t G).staged == []] : Option Unit) = some () := by decide +kernel
-- raw
theorem test_raw : (do
   for stt in [1,2,3] do for w in [0,1] do for m in [0,1] do
    let n := engId G; let b := engBase n
    let s := st (WE { e0' with dm := [(4,0x1ABC)], pm := [(4,0x123)] }) n stt
    let s := fset (fset (fset (fset (fset (fset s b Reg.Eng.RAW_ADDR 4) b Reg.Eng.RAW_DATA 0x55) b Reg.Eng.RAW_CHK 0x13) b Reg.Eng.RAW_BUSY 1) b Reg.Eng.RAW_WRITE w) b Reg.Eng.RAW_MEM m
    let e := engOf s G; let a := 4; let code := BitVec.ofNat 13 (0x55 + 256*0x13)
    let ended := fun (t : State) (f : Fld) (dm pm : Tab (BitVec 13)) => fget t b Reg.Eng.RAW_BUSY = 0 && fget t b f = 1 && (engOf t G).dm = dm && (engOf t G).pm = pm && { t with csr := s.csr, fresh := s.fresh, eng := s.eng } = s
    let t := nx (execEngineRawAccess G s)
    ck "raw" [] [ended (nx (execEngineRawTimeout G s)) Reg.Eng.RAW_TIMEOUT e.dm e.pm,
      if stt = 2 then ended t Reg.Eng.RAW_REFUSED e.dm e.pm else if w = 1 then (if m = 0 then ended t Reg.Eng.RAW_DONE (tset 0 e.dm a code) e.pm else ended t Reg.Eng.RAW_DONE e.dm (tset 0 e.pm a code)) else ended t Reg.Eng.RAW_DONE e.dm e.pm,
      portServes s n 0 [if m = 1 then 4 else 1],
      if stt ≠ 2 && w = 0 then fget t b Reg.Eng.RAW_DATA + 256 * fget t b Reg.Eng.RAW_CHK == (if m = 0 then 0x1ABC else 0x123) else true] : Option Unit) = some () := by decide +kernel
theorem test_halt : (do for (dn : Bool) in ([false,true] : List Bool) do for cause in [1,3,4] do
    let n := engId G; let b := engBase n
    let s := fset (R { e0' with staged := [.store 1 1 1], released := [.store 2 2 2], ovf := true, bank := true, flow := if dn then .slots 1 .stop else .seq, fly := one false (.reg 1 1) }) b Reg.Eng.OVERRUN 3
    let t := haltRun s n cause; let isDone : Bool := doneIssued (engOf s G)
    ck "halt" [isDone == dn] [engState t n = 1 && (engOf t G).staged = [] && (engOf t G).ovf = false && (engOf t G).bank = false &&
      (engOf t G).released = (engOf s G).released && (engOf t G).fly = (engOf s G).fly && (engOf t G).dm = (engOf s G).dm,
      fget t b Reg.Eng.LAST_END = (if isDone then 0 else cause), fget t b Reg.Eng.OVERRUN == (if isDone || cause = 4 then 3 else 4), { t with csr := s.csr, fresh := s.fresh, eng := s.eng } == s] : Option Unit) = some () := by decide +kernel
def EIS (s : State) : State := let i := eisBase 0; fflag (fset (fset (fset (eisUpd s 0 (fun e => { e with pst := 0, hold := false })) i (Reg.Eisl.PERIOD 1) 100) i (Reg.Eisl.PHASE 1) 20) i (Reg.Eisl.BUDGET 1) 60) i Reg.Eisl.ECLK_LOCK true
def bnd (s : State) : State := fset (fset s (engBase (engId G)) Reg.Eng.BOUND 1) (engBase (engId G)) Reg.Eng.CLASS 1
theorem test_tick : (do for stt in [1,2] do for (dn : Bool) in ([false,true] : List Bool) do
    let n := engId G; let b := engBase n
    let s := fset (bnd (EIS (st (WE { e0' with staged := [.store 1 1 1], released := [.store 2 2 2], ovf := true, flow := if dn then .slots 1 .stop else .seq }) n stt))) b Reg.Eng.STARTS 9
    let N := 1020; let t := engTick s n N
    ck "tick" [fget s b Reg.Eng.BOUND == 1, fget s b Reg.Eng.CLASS == 1] [(engOf t G).starting = 35 && (engOf t G).staged = [] && (engOf t G).ovf = false &&
      (engOf t G).ticksLeft = 60 && (engOf t G).startUs = BitVec.ofNat 32 N && (engOf t G).released = (engOf s G).released && engState t n = 1, fget t b Reg.Eng.STARTS == 10, !(stt = 2 && !dn) || fget t b Reg.Eng.LAST_END == 1] : Option Unit) = some () := by decide +kernel
-- timing
def TW : State := { EIS W1 with tim := { sec := 2^33+7, ns := 999999999, sub := 0xABCD12345678, step := some (3,4) } }
theorem test_tim : (let s := TW; let b := timBase; let frac := s.tim.sub / 2^32; let t := nx (execTimeStep s); let f := nx (execFrameInEdge s); let p := nx (execPpsInEdge s)
  ck "tim" [] [t.tim.sec = 3 && t.tim.ns = 4 && t.tim.sub = 0 && t.tim.step = none && fget t b Reg.Tim.SET_PENDING = 0 && { t with csr := s.csr, fresh := s.fresh, tim := s.tim } = s,
   fget f b Reg.Tim.FRAME_NS = s.tim.ns % 2 ^ 32 && fget f b Reg.Tim.FRAME_FRAC = frac / 0x1000 * 0x1000 % 2 ^ 16 && fget f b Reg.Tim.FRAME_SEC = s.tim.sec % 2 ^ 16 && fget f b Reg.Tim.FRAME_SEEN = 1 && { f with csr := s.csr, fresh := s.fresh } = s,
   fget p b Reg.Tim.PPS_NS = s.tim.ns % 2 ^ 32 && fget p b Reg.Tim.PPS_FRAC = frac / 0x1000 * 0x1000 % 2 ^ 16 && fget p b Reg.Tim.PPS_SEC = s.tim.sec % 2 ^ 16 && fget p b Reg.Tim.PPS_SEEN = 1 && { p with csr := s.csr, fresh := s.fresh } = s,
   nx (execFrameLoss s) == fset s b Reg.Tim.FRAME_LOSS 1, nx (execPpsLoss s) == fset s b Reg.Tim.PPS_LOSS 1,
   nx (execPpsOutFall s) == { s with tim := { s.tim with pps := false, ppsLeft := 0 } }, (let s := fset (fset (fset s b Reg.Tim.PPS_EN 1) b Reg.Tim.PPS_OFFSET 999999998) b Reg.Tim.PPS_WIDTH 5; nx (execPpsOutRise s) == { s with tim := { s.tim with pps := true, ppsLeft := 5000 } }),
   nx (execEclkLock 0 0 s) == fset s (eisBase 0) Reg.Eisl.ECLK_LOCK 1] : Option Unit) = some () := by decide +kernel
theorem test_tick_2 : (let s := bnd (EIS (R e0')); let t := nx (execTick s); ck "tick" [eisLive s (eisId 0 0)] [fget t (eisBase 0) Reg.Eisl.LAST_TICK == s.tim.sec * 1000000 + s.tim.ns / 1000, engGet t 1 == engGet s 1, nx (execTickLoss 0 0 s) == ((List.range 16).foldl (fun u k => haltRun u (16 * eisId 0 0 + k) 3) (fset s (eisBase (eisId 0 0)) Reg.Eisl.TICK_LOSS 1)), t != s] : Option Unit) = some () := by decide +kernel
-- staged
def rtB (s : State) (w : ResW) (staged released : List StEnt) (ovf : Bool) : Bool := let s := engUpd s (engId G) (fun e => { e with fly := one false w }); let e := engOf s G; let t := nx (execResultRetire G s)
  (engOf t G).staged == staged && (engOf t G).released == released && (engOf t G).ovf == ovf && (engOf t G).fly == [] && (engOf t G).dm == e.dm && { t with csr := s.csr, fresh := s.fresh, eng := s.eng } == s
theorem test_staged : (let n := engId G; let s := fset (fset (R e0') (engBase n) Reg.Eng.PERS_BASE 0x300) (engBase n) Reg.Eng.PERS_LEN 0x20
  let ent := StEnt.store 0x80 8 1
  let full := engUpd s n (fun e => { e with staged := List.replicate 256 ent })
  ck "staged" [inPers s n 0x300, stSize ent == 1] [rtB s (.store 0x300 4 7) [.store 0x300 4 7] [] false,
    rtB full (.store 0x80010 4 7) (List.replicate 256 ent) [] true,
    rtB full .commit [] (List.replicate 256 ent) false,
    rtB (engUpd full n (fun e => { e with ovf := true })) .commit [] [] false] : Option Unit) = some () := by decide +kernel
theorem test_drain : (let n := engId G; let s := R { e0' with released := [.store 0x300 4 0x11223344, .store 1 1 1] }; let t := nx (execStagedDrain G s)
   ck "drain" [portServes s n 3 (banksOf 0x300 4)] [tget 0 (engOf t G).dm 0x303 == encByte 0x11, tget 0 (engOf t G).dm 0x300 == encByte 0x44, (engOf t G).released == [.store 1 1 1], { t with eng := s.eng } == s] : Option Unit) = some () := by decide +kernel
theorem test_drain2 : (do for (a, w) in ([(0x80010,4),(0x80000 + 32768*3+0x20,8)] : List (Nat × Nat)) do
  let g : Eng := ⟨1,2,5⟩; let n := engId g; let s := engSet W1 n { e0' with released := [.store a w 9] }; let m := 16*(n/16) + (a-0x80000)/32768%16; let t := nx (execStagedDrain g s); ck "drain2" [] [(engOf t g).released = [], (engGet t m).posted == (engGet s m).posted ++ [⟨n % 16, a % 32768, w, 9, 4⟩], { t with eng := s.eng } == s] : Option Unit) = some () := by decide +kernel
theorem test_rawbig : (let g := G; let n := engId g; let b := engBase n
  ck "rawbig" [] (do let a ← [0x7FFF, 0x2000]; let w ← [0,1]; let m ← [0,1]
                      let s := fset (fset (fset (fset (fset (fset (st (WE e0') n 1) b Reg.Eng.RAW_ADDR a) b Reg.Eng.RAW_DATA 0x55) b Reg.Eng.RAW_CHK 0x13) b Reg.Eng.RAW_BUSY 1) b Reg.Eng.RAW_WRITE w) b Reg.Eng.RAW_MEM m
                      let t := nx (execEngineRawAccess g s); pure (if m = 1 then fget t b Reg.Eng.RAW_REFUSED == 1 else fget t b Reg.Eng.RAW_DONE == 1 && (w = 0 || tget 0 (engOf t g).dm a == BitVec.ofNat 13 (0x55 + 256*0x13)))) : Option Unit) = some () := by decide +kernel

end EngineEvents

namespace Access

/-! Witnesses for CsrPacketOutcomeFollowsTheDecisionOrder, CsrAccessesKeepTheirOrderAndHostWritesAreRefused,
ClearWritesResetTheirCounters. -/

def P0w : Who := ⟨0, 0x800⟩
def P1w : Who := ⟨1, 0x82F⟩
def okB (o : Out) (t : State) : Bool := nx o == answer t .okay 0
def pk (op : Nat) (part : Nat) (addr size : Nat) (data : List Byte) : Packet :=
  { dstDie := 8, dstNode := 0, dstUnit := 0, srcDie := 0, srcNode := 3, srcUnit := 0, part := BitVec.ofNat 5 part, prio := 1, vn := 0, op := BitVec.ofNat 6 op, len := if data.length ≤ 32 then 0 else BitVec.ofNat 4 ((data.length+63)/64), tag := 5, nw := false, rsv := 0, resp := 0, size := BitVec.ofNat 10 size, addr := BitVec.ofNat 48 addr, firstBe := 0, lastBe := 0, rsvd := false, poisoned := false, data := data }
def pkh (op part addr size : Nat) (data : List Byte) : Packet := { pk op part addr size data with dstNode := 0x1F }
def W6 : State := eisUpd (runI (runI W1 53) 48) 13 (fun e => { e with pst := 0, hold := false })
theorem test_csr_decode : (do
  for (write : Bool) in ([false,true] : List Bool) do for (a,part) in ([(0x0,0),(0x2,0),(0x3F0000000,0),(0x18,1),(0x1000000,1),(dieBase 0 + 0x304,1),(islBase 48,1),(islBase 49,1),(islBase 48,0),(dieBase 3+0x304, 0),(dieBase 3+0x304, 1),(pwrBase,1),(mcBase 0,0),(eisBase 13,1),(quadBase 2,0)] : List (Nat × Nat)) do
    let s := fset (eisUpd W6 14 (fun e => e)) 0 Reg.Hub.DIES_PRESENT 0xF7
    let p := pkh (if write then 4 else 3) part a 4 (if write then by8 [1,2,3,4] else [])
    let s := { s with net := [p] }
    let u := (takeNet s p).getD s
    let run := if write then nx (execCsrWr p s) else nx (execCsrRd p s)
    let hyp := [u.net == [], u != s, csrNodeMaps p]
    if a ≥ 2^32 || !shapeOk p then ck "big" hyp [run == respond u p .decodeErr []]
    else match (if a % 4 = 0 then winOf a else none) with
    | none => ck "csr decode" hyp [run == respond u p .decodeErr []]
    | some (w,o) =>
      let mr := mayReach u part w o write
      let bo := blockOff u w
      if !mr then match winDie w with
        | none => ck "csr part" hyp [run == respond u p .partErr []]
        | some d => ck "csr partdie" hyp [run == respond (if present u d && !fenced u d then finc u (dieBase d) Reg.Die.PART_ERR_CNT else u) p .partErr []]
      else if bo then match winDie w with
        | none => ck "csr off hub" hyp [run == respond (fset u 0 Reg.Hub.OFF_ACCESS 1) p .domainOff []]
        | some d => ck "csr off die" hyp [run == respond (if present u d && !fenced u d then fset u (dieBase d) Reg.Die.OFF_ACCESS 1 else fset u 0 Reg.Hub.OFF_ACCESS 1) p .domainOff []]
      else if write then ck "csr wr" hyp [run == respond (csrStore ⟨nodePath (srcOf p), srcOf p == dmcNode⟩ w o (BitVec.ofNat 32 (leAt p.data 0 4)) u) p .okay []]
      else ck "csr rd" hyp [run == respond (csrValue u w o).2 p .okay (natLe (csrValue u w o).1.toNat 4)] : Option Unit) = some () := by decide +kernel
theorem test_csr_more : (do
    let p := pkh 3 0 0 4 []
    let u := W6
    let q := { p with poisoned := true }
    let d := { pkh 3 0 (dieBase 2) 4 [] with dstDie := 2, dstNode := 0x76 }
    ck "poisoned" [(takeNet u q).isSome] [nx (execCsrRd q u) == respond u q .poisoned [], nx (execCsrRd { q with addr := 2 } u) == respond u { q with addr := 2 } .decodeErr []]
    ck "die node" [nodeKind (dstOf d) == .dieCsr 2, csrNodeMaps d, !csrNodeMaps { d with addr := 0 }] [nx (execCsrRd d u) == respond (csrValue u (.die 2) 0).2 d .okay (natLe (csrValue u (.die 2) 0).1.toNat 4), nx (execCsrRd { d with addr := 0 } u) == respond u { d with addr := 0 } .decodeErr []]
    let r := { p with prio := 0, tag := 6 }
    let v := { W6 with net := [r, p] }
    ck "order" [isCsr r, isCsr p, srcOf r == srcOf p, csrBlock r == csrBlock p, p.vn == 0, p != r, !sameFlow p r] [nx (execCsrRd p v) == v, nx (execCsrRd r v) != v]
     : Option Unit) = some () := by decide +kernel
theorem test_host : (do for part in [1,5,31] do
    let s := W6; let w : Who := ⟨BitVec.ofNat 5 part, 0x82F⟩; let v : Word := 0x80000003
    let R := fun (o : Out) => nx o == answer s .partErr 0
    let C := fun (d : Nat) (o : Out) => nx o == answer (finc s (dieBase d) Reg.Die.PART_ERR_CNT) .partErr 0
    ck "host" [] ([0,3,7].flatMap (fun n => let n : Fin 8 := Fin.ofNat 8 n; [R (execTrnGo w n v s), R (execMrGo w n v s), R (execRunGo w n v s), R (execDisableGo w n v s), R (execMcErrClr w n v s), R (execPhyWrite w n 0x1000 v s), R (execPhyWrite w n 0x4 v s), R (execPhyWrite w n 0xFFFC v s)]) ++
      [R (execWinEn w v s), R (execSecClr w v s), R (execSecCntClr w v s), R (execTxGo w v s), R (execRxPop w v s), R (execPwrClr w v s), R (execCfgErrClr w v s), R (execRawfGo w v s), R (execSetGo w v s), R (execProtLock w v s), R (execPcieClr w 1 3 v s)] ++
      [0,4,7].flatMap (fun d => let d' : Fin 8 := Fin.ofNat 8 d; [C d (execHwClr w d' 3 v s), C d (execTestGo w d' 15 v s), C d (execSelClr w d' v s), C d (execNocClr w d' v s), C d (execCsRestart w d' v s), C d (execCsClr w d' v s)])) : Option Unit) = some () := by decide +kernel
/-- The step answers OKAY, changes only the registers of keys `p`, and leaves those of `l` as the cycle left them. -/
def clrB (o : Out) (s : State) (p : Nat → Bool) (l : List (Nat × Fld)) : Bool :=
  let t := nx o
  t == answer { s with csr := t.csr } .okay 0 && t.csr.filter (fun x => !p x.1) == s.csr.filter (fun x => !p x.1) &&
    l.all (fun x => fget t x.1 x.2 == ffresh s x.1 x.2) && l.any (fun x => fget t x.1 x.2 != fget s x.1 x.2)
def few (s : State) (l : List (Nat × Fld)) : State :=
  let s := l.foldl (fun s x => fset s x.1 x.2 3) s
  let s := { s with fresh := [] }
  match l with | x :: _ => { s with fresh := [(fkey x.1 x.2, 1)] } | [] => s
theorem test_clr : (do
    let w := P0w; let v : Word := 1; 
    let s0 := memOn W6; let s0 := quadUpd (quadUpd s0 2 (fun q => { q with pst := 0 })) 33 (fun q => {q with pst := 0})
    let I := islId 1 0; let g : Eng := ⟨1,3,2⟩; let e := engBase (engId g); let e13 := eisBase (eisId 1 3)
    let on (n : String) (c : Word → State → Out) (a : Nat) (p : Nat → Bool) (b : Nat) (fs : List Fld) : Option Unit :=
      let l := fs.map (fun f => (b, f))
      let s := few s0 l
      ck n [served s w a true, l.all (fun x => p (fkey x.1 x.2))] [clrB (c v s) s p l, okB (c 0 s) s]
    on "mem" (execMemClr w 1 0) (islBase I + 0x118) (keyIn (islBase I + 0x104) (islBase I + 0x118)) (islBase I) [Reg.Isl.SBE_CNT, Reg.Isl.DBE_CNT]
    on "eng" (execEngineErrClr w g) (e+0x14) (keyIn (e+8) (e+0x14)) e [Reg.Eng.DM_SBE_CNT, Reg.Eng.PM_SBE_CNT]
    on "sched" (execSchedClr w g) (e+0x68) (keyIn (e+0x50) (e+0x68)) e [Reg.Eng.STARTS, Reg.Eng.COMMITS]
    on "sec" (execSecClr w) (secBase+0x100) (keyIn (secBase+0x40) (secBase+0x8C)) secBase [Reg.Sec.TAG_FAIL_CNT]
    on "pcie" (execPcieClr w 0 0) (pcieBase 0 0+0x10) (keyIn (pcieBase 0 0+4) (pcieBase 0 0+0x10)) (pcieBase 0 0) [Reg.Pcie.CORR_CNT, Reg.Pcie.UNCORR_CNT]
    on "cfg" (execCfgErrClr w) (cfgBase+0x24) (keyIn (cfgBase+4) (cfgBase+0xC)) cfgBase [Reg.Cfg.ERR_CODE, Reg.Cfg.ERR_VALID]
    on "sel" (execSelClr w 1) (dieBase 1+0x108) (keyIn (dieBase 1+0x100) (dieBase 1+0x108)) (dieBase 1) [Reg.Die.SEL_UPSET_CNT]
    let mf := [Reg.Isl.SLACK_MIN, Reg.Isl.STRETCH_CNT, Reg.Isl.EXHAUST_CNT]
    on "margin" (execMarginClr w (.island 1 0)) (islBase I+0x40) (keyOf (marginBase s0 (.island 1 0)) mf) (islBase I) mf
    on "margin e" (execMarginClr w (.engines 1 3)) (e13+0x40) (keyOf e13 mf) e13 mf
    let b := dieBase 1
    let nl := (List.range 48).flatMap (fun i => [Reg.Die.I_WAKE_CNT i, Reg.Die.I_WAKE_FAIL_CNT i])
    on "noc" (execNocClr w 1) (b+0x1024) (fun k => keyIn (b + 0x1010) (b + 0x1024) k || keyOf b nl k) b [Reg.Die.I_WAKE_CNT 47, Reg.Die.I_WAKE_FAIL_CNT 0, Reg.Die.PART_ERR_CNT, Reg.Die.LATE_RSP_CNT, Reg.Die.FLIT_SBE_CNT, Reg.Die.FLIT_DBE_CNT, Reg.Die.AGE_GUARD_CNT]
    let b := hwBase 1 3
    let hl := (List.range 76).map Reg.Hw.TOT_ERR
    on "hw" (execHwClr w 1 3) (b+0x60) (fun k => keyIn (b + 0x44) (b + 0x58) k || keyOf b hl k) b [Reg.Hw.TOT_ERR 75, Reg.Hw.TOT_ERR 0, Reg.Hw.CRC_ERR_CNT, Reg.Hw.REPLAY_CNT, Reg.Hw.SWAP_CNT]
    let b := mcBase 0
    let ml := [Reg.Mc.REF_FORCE_CNT, Reg.Mc.SR_ENTRY_CNT, Reg.Mc.FWD_CNT, Reg.Mc.SR_ABORT_CNT, Reg.Mc.RAW_WAIT_CNT, Reg.Mc.CE_CNT, Reg.Mc.UE_CNT, Reg.Mc.ERR_LINE, Reg.Mc.ERR_UE, Reg.Mc.ERR_VALID, Reg.Mc.ERR_NIB, Reg.Mc.BY_PATROL]
    on "mc" (execMcErrClr w 0) (b+0x210) (fun k => keyIn (b + 0x220) (b + 0x270) k || keyIn (b + 0x600) (b + 0x6A0) k || keyOf b ml k) b ml
    [(2,1),(33,0)].forM (fun (x : Fin 40 × Fin 4) =>
      let b := laneBase x.1.val x.2.val
      on "lane" (execLaneClr w ⟨x.1,x.2⟩) (b+0x20) (fun k => keyIn (b + 0x08) (b + 0x10) k || keyIn (b + 0x14) (b + 0x1C) k || keyIn (b + 0x70) (b + 0x80) k || keyIn (b + 0x90) (b + 0x94) k) b
        [Reg.Lane.UP_CNT, Reg.Lane.DOWN_CNT, Reg.Lane.ABANDON_CNT, Reg.Lane.FAIL_CNT, Reg.Lane.FEC_CORR_CNT, Reg.Lane.FEC_UNCORR_CNT, Reg.Lane.CHK_ERR_LO, Reg.Lane.CHK_ERR_HI, Reg.Lane.CHK_BITS_LO, Reg.Lane.CHK_BITS_HI, Reg.Lane.TX_UNDER_CNT, Reg.Lane.RX_OVF_CNT])
    let pl := Reg.Pwr.SLEEP_ABORT_CNT :: (List.range 9).map Reg.Pwr.AVS_RETRY_CNT
    on "pwr" (execPwrClr w) (pwrBase+0xA0) (keyOf pwrBase pl) pwrBase pl
    : Option Unit) = some () := by decide +kernel
theorem test_cs_clr : (do
    let w := P0w
    let b := dieBase 1
    let l := [(b, Reg.Die.CS_CE_CNT), (b, Reg.Die.CS_UE_CNT)]
    let s := { few (memOn W6) l with csPos := [(1,55)], csStart := [(1,4)], up := 9000 }
    let r := { s with csPos := tset 0 s.csPos 1 0, csStart := tset 0 s.csStart 1 (upUs s) }
    ck "cs" [served s w (b+0x318) true, l.all (fun x => keyIn (b+0x304) (b+0x318) (fkey x.1 x.2))]
      [okB (execCsRestart w 1 1 s) r, okB (execCsClr w 1 1 s) r, okB (execCsClr w 1 0 s) s, clrB (execCsClr w 1 2 s) s (keyIn (b+0x304) (b+0x318)) l, clrB (execCsRestart w 1 3 s) r (keyIn (b+0x304) (b+0x318)) l]
    let l := (List.range 17).map (fun p => (secBase, Reg.Sec.SEC_CNT p))
    let s := few s l
    let v' : Word := 0x30007
    let t := nx (execSecCntClr w v' s)
    ck "seccnt" [served s w (secBase+0x104) true] [t == answer { s with csr := t.csr } .okay 0,
      (List.range 17).all (fun p => fget t secBase (Reg.Sec.SEC_CNT p) == (if v'.getLsbD p then ffresh s secBase (Reg.Sec.SEC_CNT p) else fget s secBase (Reg.Sec.SEC_CNT p)))]
    : Option Unit) = some () := by decide +kernel

end Access

namespace Writes

/-! Witnesses for ClockRegisterWrites, GoWritesStartTheirAccess, ControllerSecurityLaneAndPlanWrites. -/

def P0w : Who := ⟨0, 0x800⟩
def okB (o : Out) (t : State) : Bool := nx o == answer t .okay 0
def W7 : State := let s := runI (runI (memOn (eisUpd W1 13 (fun e => { e with pst := 0, hold := false }))) 48) 49
  fset (fset s (dieBase 1) (Reg.Die.SPINE_EN 2) 1) (dieBase 1) (Reg.Die.SPINE_N 2) 40
def gw (mul div sp : Nat) : Word := BitVec.ofNat 32 (sp + mul*16 + div*1024)
theorem test_gen : (do for sp in [3,1] do for en in [0,1] do for (mul,div) in ([(10,9),(0,63),(63,5),(17,4),(17,5),(36,9),(35,9)] : List (Nat × Nat)) do
    let s0 := { W7 with fuses := { W7.fuses with speed := sp } }
    let s := fset s0 (dieBase 1) (Reg.Die.SPINE_EN 2) en; let w := P0w; let n := 48; let b := islBase 48; let v := gw mul div 2
    let was := (fget s b Reg.Isl.SPINE_SEL, fget s b Reg.Isl.GEN_MUL, fget s b Reg.Isl.GEN_DIV)
    let sel := if en = 1 then 2 else fget s b Reg.Isl.SPINE_SEL
    let u := if en = 1 then s else fset s b Reg.Isl.SEL_REJECT 1
    let f := fget s (dieBase 1) (Reg.Die.SPINE_N sel) * (mul+1)
    let good : Bool := 16 * (div + 1) ≤ f && 10 * f ≤ (if s.fuses.speed = 3 then 1440 else 1248) * (div + 1)
    let t := fset (fset (fset u b Reg.Isl.SPINE_SEL sel) b Reg.Isl.GEN_MUL mul) b Reg.Isl.GEN_DIV div
    ck "gen" [served s w b true, !spliced s n, v.toNat % 8 == 2, v.toNat/16%64 == mul, v.toNat/1024%64 == div] [
      okB (execGeneratorWrite w 1 0 v s) (if good then (if was = (sel,mul,div) then t else fset t b Reg.Isl.LOCKED 0) else fset u b Reg.Isl.GEN_BAD 1),
      okB (execGeneratorWrite w 1 0 v t) (if good && en = 1 then fset (fset (fset t b Reg.Isl.SPINE_SEL sel) b Reg.Isl.GEN_MUL mul) b Reg.Isl.GEN_DIV div else nx (execGeneratorWrite w 1 0 v t))] : Option Unit) = some () := by decide +kernel
/-- Islands 48 and 49 in one splice, the first its root. -/
def Wsp (s : State) : State := frameSet (frameSet s (frameKey 48 1971) { data := 0x11 }) (frameKey 49 1971) { data := 0x01 }
theorem test_member : (let s := Wsp W7; let b := islBase 49
    ck "member" [served s P0w b true, spliced s 49, spliceRoot s 49 != 49, spliceRoot s 48 == 48, spliced s 48] [okB (execGeneratorWrite P0w 1 1 (gw 10 9 2) s) (fset s b Reg.Isl.SEL_REJECT 1), okB (execTreeSwitch P0w 1 1 2 8 s) (fset s b Reg.Isl.SEL_REJECT 1),
      okB (execTreeSwitch P0w 1 0 2 0x90000 s) (nx (.next (answer (fset s (islBase 48) (Reg.Isl.DIV 2) 9) .okay 0)))] : Option Unit) = some () := by decide +kernel
theorem test_x : (do for (src,div) in ([(8,3),(0,0),(3,4),(2048*2,1),(256,2),(512,9)] : List (Nat × Nat)) do
    let s := W7; let w := P0w; let n := 48; let b := islBase 48; let x := 2; let v : Word := BitVec.ofNat 32 (src + div*65536)
    let go := execTreeSwitch w 1 0 2 v
    let t := nx (go s)
    let keep (s t : State) : Bool := t == answer { s with csr := t.csr, fresh := t.fresh, isl := t.isl } .okay 0
    let ill := srcIllegal s n src
    -- running: a switch to a stopped line started; stuck: its step 2
    let run := nx (execTreeSwitch w 1 0 2 16 s)
    let stuck := islUpd run n (fun i => { i with swStep2 := tset false i.swStep2 x true, swHeld := tset none i.swHeld x (some 5) })
    let th := nx (go run); let tr := nx (go stuck)
    ck ("tree" ++ toString ill) [served s w (b+0x18) true, !treeBusy s n x, treeBusy run n x, !swStuck run n x, swStuck stuck n x] [
      !ill || okB (go s) (fset (fset s b Reg.Isl.SEL_REJECT 1) b (Reg.Isl.DIV x) div),
      ill || src != fget s b (Reg.Isl.SRC x) || okB (go s) (fset s b (Reg.Isl.DIV x) div),
      ill || src == fget s b (Reg.Isl.SRC x) || (keep s t && fget t b (Reg.Isl.SRC x) = src && fget t b (Reg.Isl.DIV x) = div && treeBusy t n x && !(fget t b Reg.Isl.SW_FORCED).testBit x && tget 0 (islGet t n).swOld x = fget s b (Reg.Isl.SRC x) && !tget false (islGet t n).swStep2 x && (treeGet t n x).out == (treeGet s n x).out),
      ill || (keep run th && tget none (islGet th n).swHeld x == some v && (fget th b Reg.Isl.SW_HELD).testBit x && fget th b (Reg.Isl.SRC x) = fget run b (Reg.Isl.SRC x) && fget th b (Reg.Isl.DIV x) = fget run b (Reg.Isl.DIV x) && treeGet th n x == treeGet run n x),
      ill || (keep stuck tr && tget none (islGet tr n).swHeld x == none && !(fget tr b Reg.Isl.SW_HELD).testBit x && fget tr b (Reg.Isl.SRC x) = src && fget tr b (Reg.Isl.DIV x) = div && treeBusy tr n x && tget false (islGet tr n).swStep2 x && (treeGet tr n x).edges = 0)] : Option Unit) = some () := by decide +kernel
theorem test_eclk : (do for lk in [0,1] do for n in [0,15,16,20,36,37,40,41,63] do
    let s := fset W7 0 Reg.Hub.PROT_LOCK lk; let w := P0w; let b := eisBase 13
    let sp := if s.fuses.speed = 3 then 40 else 36
    ck "eclk" [served s w b true, rwlOpen s == (lk == 0)] [okB (execEclkNWrite w 1 3 (BitVec.ofNat 32 n) s)
      (if lk = 0 && 16 ≤ n && n ≤ sp then (if fget s b Reg.Eisl.ECLK_N = n then fset s b Reg.Eisl.ECLK_N n else fset (fset s b Reg.Eisl.ECLK_N n) b Reg.Eisl.ECLK_LOCK 0) else s)] : Option Unit) = some () := by decide +kernel
theorem test_rawgo : (do for stt in [1,2] do for bz in [0,1] do for adr in [5, 2^31+5, 2^31+0x8000+5, 2^31+0x8000+0x2000, 2^31+0x18003, 2^31+0x10003] do
    let g : Eng := ⟨1,3,2⟩; let n := engId g; let b := engBase n; let s := fset (fset W7 b Reg.Eng.STATE stt) b Reg.Eng.RAW_BUSY bz; let v : Word := BitVec.ofNat 32 adr
    let t := fset (fset (fset s b Reg.Eng.RAW_ADDR (v.toNat % 2 ^ 15)) b Reg.Eng.RAW_MEM (v.toNat / 2 ^ 15 % 2)) b Reg.Eng.RAW_WRITE (v.toNat / 2 ^ 16 % 2)
    ck "rawgo" [served s P0w (b+0x20) true] [okB (execRawGo P0w g v s) (if !v.getLsbD 31 then t else if bz = 1 then s else
      if engState s n = 2 || (v.getLsbD 15 && 8191 < v.toNat % 2^15) then fset t b Reg.Eng.RAW_REFUSED 1 else fset t b Reg.Eng.RAW_BUSY 1)] : Option Unit) = some () := by decide +kernel
theorem test_bramraw : (do for bz in [0,1] do for blk in [3, 2^31, 2^31+49, 2^31+50, 2^31+63] do
    let b := islBase 48; let s := fset W7 b Reg.Isl.RAW_BUSY bz; let v : Word := BitVec.ofNat 32 (blk + 512 + 2^16)
    let t := fset (fset (fset s b Reg.Isl.BLOCK (v.toNat % 64)) b Reg.Isl.ROW (v.toNat / 2 ^ 6 % 1024)) b Reg.Isl.WRITE (v.toNat / 2 ^ 16 % 2)
    ck "bramraw" [served s P0w (b+0x120) true] [okB (execBramRawGo P0w 1 0 v s) (if !v.getLsbD 31 then t else if bz = 1 then s else if 49 < v.toNat % 64 then fset t b Reg.Isl.RAW_TIMEOUT 1 else fset t b Reg.Isl.RAW_BUSY 1)] : Option Unit) = some () := by decide +kernel
theorem test_set : (let s := { fset (fset W7 timBase Reg.Tim.SET_SEC_LO 0xFFFFFFFF) timBase Reg.Tim.SET_NS 5 with tim := {sec := 2^33+9, ns := 1234567, sub := 2^40} }; let v : Word := 0x80000003; let t := nx (execSetGo P0w v s); let u := nx (execUsLo P0w s); let N := s.tim.sec * 1000000 + s.tim.ns / 1000
  ck "set" [served s P0w (timBase+0x2C) true, served s P0w timBase false] [t == answer (let t := fset s timBase Reg.Tim.SET_SEC_HI 3; fset { t with tim := { s.tim with step := some (0xFFFFFFFF + 2^32*3, 5) } } timBase Reg.Tim.SET_PENDING 1) .okay 0, okB (execSetGo P0w 3 s) (fset s timBase Reg.Tim.SET_SEC_HI 3),
     u == answer { s with csr := u.csr, fresh := u.fresh } .okay (BitVec.ofNat 32 N), fget u timBase Reg.Tim.US_LO = N % 2 ^ 32 ∧ fget u timBase Reg.Tim.NS = s.tim.ns % 2 ^ 32 ∧
        fget u timBase Reg.Tim.SEC_LO = s.tim.sec % 2 ^ 32 ∧ fget u timBase Reg.Tim.SEC_HI = s.tim.sec / 2 ^ 32 % 2 ^ 16 ∧
        fget u timBase Reg.Tim.FRAC = s.tim.sub / 2 ^ 32 % 2 ^ 16] : Option Unit) = some () := by decide +kernel
theorem test_testgo : (do for wire in [3,63] do for st in [1,4] do for ch in [0,1] do
    let h := 16+3; let b := hwBase 1 3; let s := fset (fset (fset W7 b Reg.Hw.STATE st) b Reg.Hw.CHANGING ch) b Reg.Hw.TEST_REJECT 1; let v : Word := BitVec.ofNat 32 (2^31 + wire + (if ch = 1 then 2^30 else 0))
    let t := writeFields s b [Reg.Hw.TEST_WIRE, Reg.Hw.TEST_REJECT] v
    let v0 : Word := v &&& 0x7FFFFFFF
    ck "testgo" [served s P0w (b+0x64) true, hwRuns s h == (st == 1)] [okB (execTestGo P0w 1 3 v s) (if ch = 0 && st = 1 then wireFails t h (v.toNat % 64) else fset t b Reg.Hw.TEST_REJECT 1), okB (execTestGo P0w 1 3 v0 s) (writeFields s b [Reg.Hw.TEST_WIRE, Reg.Hw.TEST_REJECT] v0)] : Option Unit) = some () := by decide +kernel
theorem test_rawf : (do for bz in [0,1] do for v in ([0x80112345, 0x00112345] : List Word) do
    let s := fset W7 cfgBase Reg.Cfg.RAWF_BUSY bz
    let t := fset (fset s cfgBase Reg.Cfg.RAWF_ADDR (v.toNat % 2 ^ 20)) cfgBase Reg.Cfg.RAWF_WRITE (v.toNat / 2 ^ 20 % 2)
    ck "rawf" [served s P0w (cfgBase+0x30) true] [okB (execRawfGo P0w v s) (if !v.getLsbD 31 then t else if bz = 1 then s else fset t cfgBase Reg.Cfg.RAWF_BUSY 1)] : Option Unit) = some () := by decide +kernel
-- controller go
theorem test_trn : (do for stt in [0,1,2,3,4] do for bz in [0,1] do
    let b := mcBase 0; let s := fset (fset W7 b Reg.Mc.STATE stt) b Reg.Mc.TRN_BUSY bz
    let put := fun (u : State) (l : List (Fld × Nat)) => l.foldl (fun u x => fset u b x.1 x.2) u
    let trn := fun (v : Word) => put s [(Reg.Mc.TRN_PAT, v.toNat / 2 % 2), (Reg.Mc.TRN_SUB, v.toNat / 4 % 4), (Reg.Mc.TRN_RANK, v.toNat / 2 ^ 4 % 2), (Reg.Mc.TRN_RDONLY, v.toNat / 2 ^ 5 % 2), (Reg.Mc.TRN_COUNT, v.toNat / 2 ^ 16)]
    let mr := fun (s : State) (v : Word) => put s [(Reg.Mc.MR_ADDR, v.toNat % 256), (Reg.Mc.MR_DATA, v.toNat / 2 ^ 8 % 256), (Reg.Mc.MR_RANK, v.toNat / 2 ^ 16 % 2), (Reg.Mc.MR_SUB, v.toNat / 2 ^ 17 % 4), (Reg.Mc.MR_WRITE, v.toNat / 2 ^ 19 % 2), (Reg.Mc.MR_RCD, v.toNat / 2 ^ 20 % 2)]
    let v : Word := 0x00550033
    let v2 : Word := 0x801A1233
    let s3 := mcUpd s 0 (fun m => { m with mr := true })
    let r := nx (execRunGo P0w 0 3 s); let d := nx (execDisableGo P0w 0 0x72 s)
    let off : BitVec 16 := 0x1004
    let rej := fun (s : State) => fset s b Reg.Mc.TRN_REJECT 1
    ck "trn" [served s P0w (b+0x400) true, served s P0w (b+0x440) true, served s P0w (b+8) true, served s P0w (b+0x1004) true, phyFields 0x1004 0 != [], phyFields 0x1FFC 0 == []] [
      okB (execTrnGo P0w 0 v s) (if stt = 1 && bz = 0 then put (trn v) [(Reg.Mc.TRN_BUSY, 1), (Reg.Mc.FF_VALID, 0)] else rej s), okB (execTrnGo P0w 0 0x00550032 s) (trn 0x00550032),
      okB (execMrGo P0w 0 v2 s) (if stt = 1 || stt = 2 then mcUpd (mr s v2) 0 (fun m => { m with mr := true }) else rej s), okB (execMrGo P0w 0 0x1A1233 s3) (mr s3 0x1A1233),
      okB (execMrGo P0w 0 v2 s3) (rej s3),
      if stt = 1 then mcState r 0 = 2 && fget r b Reg.Mc.P_RANK0 = 0 && fget r b Reg.Mc.P_RANK1 = 0 else r == answer s .okay 0,
      if stt = 1 then mcState d 0 = 4 && fget d b Reg.Mc.FAIL_STEP = 7 && fget d b Reg.Mc.DISABLE_CAUSE = 3 && fget (nx (execDisableGo ⟨0,3⟩ 0 0x72 s)) b Reg.Mc.DISABLE_CAUSE = 6 else d == answer s .okay 0,
      okB (execRunGo P0w 0 4 s) s,
      okB (execPhyWrite P0w 0 off 0x11223344 s) (if stt = 1 then writeFields s b (phyFields off.toNat 0x11223344) 0x11223344 else mcUpd s 0 (fun m => { m with phy := m.phy ++ [(off.toNat, 0x11223344)] })),
      okB (execPhyWrite P0w 0 0x1FFC 1 s) s] : Option Unit) = some () := by decide +kernel
def SW (g : Nat) : State := fset (fset W7 0 Reg.Hub.PROT_LOCK 0) secBase Reg.Sec.META_GRAN g
theorem test_win : (do for act in [0,1] do for (size,base,g) in ([(0,1,2^14),(0,0,4),(3,4,8)] : List (Nat × Nat × Nat)) do
    let s := fset { SW g with sec := { (SW g).sec with gran := [] } } secBase Reg.Sec.WIN_ACTIVE act; let v : Word := BitVec.ofNat 32 (base + size*512 + 4096); let w := P0w
    let v0 : Word := BitVec.ofNat 32 (base + size*512)
    let t := nx (execWinEn w v s)
    let gr := granGet t (fget s secBase Reg.Sec.META_GRAN)
    let gr2 := granGet t (fget s secBase Reg.Sec.META_GRAN + metaBytes size / 131072 - 1)
    let rej := fset s secBase Reg.Sec.WIN_REJECT 1
    let lk := fset s 0 Reg.Hub.PROT_LOCK 1
    ck "win" [served s w (secBase+0x10) true, rwlOpen s, !rwlOpen lk, (v.toNat % 512, v.toNat/512%8) == (base,size)] [
      if act = 1 then t == answer rej .okay 0 else if winOk s base size then fget t secBase Reg.Sec.WIN_ACTIVE = 1 && fget t secBase Reg.Sec.WIN_EN = 1 && fget t secBase Reg.Sec.WIN_BASE_G = base && fget t secBase Reg.Sec.WIN_SIZE = size && gr.owner = 0x1E && gr.init && gr2.owner = 0x1E && gr2.init else t == answer rej .okay 0,
      okB (execWinEn w v0 s) (if act = 1 then s else fset (fset s secBase Reg.Sec.WIN_BASE_G base) secBase Reg.Sec.WIN_SIZE size), okB (execWinEn w v lk) lk] : Option Unit) = some () := by decide +kernel
theorem test_inj : (do for ls in [10,5,3] do for v in ([0x80001503, 0x80001500, 0x00001501, 0x80001501, 0x80001502, 0x8000150E] : List Word) do
    let l : Lane := ⟨33,2⟩; let n := 4*33+2; let b := laneBase 33 2; let s := fset (quadUpd W7 33 (fun q => { q with pst := 0})) b Reg.Lane.LINK_STATE ls
    let t := fset (fset (fset s b Reg.Lane.INJ_MODE (v.toNat % 4)) b Reg.Lane.INJ_LEN (v.toNat / 4 % 64)) b Reg.Lane.INJ_RATE (v.toNat / 2 ^ 8 % 64)
    let m := v.toNat % 4
    let k := if m = 1 then 1 else if v.toNat / 4 % 64 = 0 then 64 else v.toNat / 4 % 64
    let live := ls == 10 || ls == 5
    ck "inj" [served s P0w (b+0x64) true, linkState s n == ls, !selfChecked s n] [okB (execInjGo P0w l v s) (if m = 0 then laneUpd t n (fun x => { x with inj := false })
      else if !(v.getLsbD 31 && live) then t else if m = 3 then laneUpd t n (fun x => { x with inj := true, injLeft := 2 ^ min 40 (max 10 (v.toNat / 2 ^ 8 % 64)) })
      else laneUpd t n (fun x => { x with flips := x.flips + k }))] : Option Unit) = some () := by decide +kernel
theorem test_txgo : (do for bz in [0,1] do for v in ([0x80000206, 0x80000006, 0x80000202, 0x00000206, 0x800002FC] : List Word) do
  let s := fset (fset (fset (fflag W7 pwrBase (btOpen true) true) pwrBase (Reg.Bight.TX_BUF 0) 0x04030201) pwrBase (Reg.Bight.TX_BUF 1) 0x08070605) pwrBase Reg.Bight.TX_BUSY bz
  let f := by8 [1,2,3,4,5,6]
  let t := fset (fset s pwrBase Reg.Bight.TX_LEN (v.toNat % 512)) pwrBase Reg.Bight.TX_PORT (v.toNat / 512 % 2)
  ck "txgo" [served s P0w (pwrBase+0x80014) true, bypassOpen s true, !bypassOpen s false] [okB (execTxGo P0w v s) (if v = 0x80000206 && bz = 0 then
    fset { t with bight := { s.bight with tx := some (true, f ++ natLe (crc32c f).toNat 4) } } pwrBase Reg.Bight.TX_BUSY 1 else t)] : Option Unit) = some () := by decide +kernel
theorem test_rxpop : (let s := { W7 with bight := { W7.bight with rx := [(true,by8 [1]),(false,by8 [2])] } }; let t := nx (execRxPop P0w 0x80000000 s); ck "rxpop" [served s P0w (pwrBase+0x80010) true] [t == answer { s with bight := { s.bight with rx := [(false, by8 [2])] }, csr := t.csr, fresh := t.fresh } .okay 0, fget t pwrBase Reg.Bight.RX_WAIT == 1, okB (execRxPop P0w 1 s) s] : Option Unit) = some () := by decide +kernel
theorem test_lock : (let s := partUpd (partUpd (fset W7 0 Reg.Hub.PROT_LOCK 0) 1 (fun x => { x with state := 1 })) 0 (fun x => { x with state := 1 }); let t := nx (execProtLock P0w 1 s); let s2 := fset s 0 Reg.Hub.DIES_FENCED 0x10; let t2 := nx (execProtLock P0w 1 s2); ck "lock" [served s P0w 0xC true, !protLocked s, !onFencedDie s 1, onFencedDie s2 1] [okB (execProtLock P0w 2 s) s, okB (execProtLock P0w 1 W7) W7, protLocked t, t.dram == s.dram, (partGet t 1).state == 2, (partGet t2 1).state == 3] : Option Unit) = some () := by decide +kernel

end Writes

namespace Packets

/-! Witnesses for PacketsAreInjectedAndReachTheirTargets, PacketsReadBackFromTheirFlits, IslandPowerDownSequence. -/

def P0w : Who := ⟨0, 0x800⟩
def ans (s : State) (r : Resp) : State := answer s r 0
def pkt (op src dst : Nat) (size : Nat) (data : List Byte) : Packet :=
  { dstDie := BitVec.ofNat 4 (dst/256), dstNode := BitVec.ofNat 8 dst, dstUnit := 3, srcDie := BitVec.ofNat 4 (src/256), srcNode := BitVec.ofNat 8 src, srcUnit := 0, part := 1, prio := 1, vn := 0, op := BitVec.ofNat 6 op, len := if data.length ≤ 32 then 0 else BitVec.ofNat 4 ((data.length+63)/64), tag := 5, nw := false, rsv := 0, resp := 0, size := BitVec.ofNat 10 size, addr := 0x40, firstBe := 0, lastBe := 0, rsvd := false, poisoned := false, data := data }
def n53 : Nat := islNode 53
def n100 : Nat := islNode 100
def W8 : State := runI (runI W1 53) 100
def dn : Nat := ((List.range 0x1000).find? (fun n => nodeKind n == .engines 13)).getD 0
theorem test_inj : (do for (op,len,prio,bad) in ([(2,8,0,false),(2,8,2,false),(1,8,1,false),(3,4,1,false),(0x10,8,1,false),(0x11,0,1,false),(2,8,1,true)] : List (Nat × Nat × Nat × Bool)) do
    let evt := op = 0x11
    let p : Packet := { pkt op n53 (if evt then dn else n100) len (if op = 2 || op = 0x10 then by8 (z len) else []) with prio := BitVec.ofNat 2 prio, part := 7, resp := 3, rsvd := bad, vn := if op ≥ 16 then 2 else 0, dstUnit := 0, addr := if op = 3 then 0x1000 else 0x40 }
    let s := nicUpd W8 n53 (fun x => { x with gens := [(0,1)] })
    let x := nicGet s n53; let k := nicSize (nodeKind n53)
    let q := { p with srcUnit := 0, part := stampOf s n53 p.part, prio := if p.prio = 0 then 1 else p.prio, resp := 0 }
    let need := 1 + (if p.op = 1 ∨ p.op = 3 then lenOf p.size.toNat else 0)
    let used := (x.rsv.map (fun (r : Rsv) => r.flits)).sum
    let q' := { q with rsv := BitVec.ofNat 7 64 }
    let none := nicUpd s n53 (fun x => { x with dead := List.range 64 })
    let off := nicUpd (islUpd s 53 (fun i => { i with hold := true })) n53 (fun x => x)
    ck "inj" [canSend s n53, headerOk p == !bad, freeId s n53 == some 0, used + need ≤ k.1, freeId none n53 == Option.none, !canSend off n53, answered p.op == !evt] [
      nx (execPacketInject p s) == (if bad then ans s .decodeErr else if evt then { s with net := s.net ++ [{ q with rsv := 0 }] } else { nicUpd s n53 (fun x => { x with rsv := x.rsv ++ [⟨64, need, q'⟩] }) with net := s.net ++ [q'] }),
      bad || evt || nx (execPacketInject p none) == none, nx (execPacketInject p off) == off] : Option Unit) = some () := by decide +kernel
def rq (id : Nat) : Packet := { pkt 1 n53 n100 8 [] with rsv := BitVec.ofNat 7 id }
def rs (id : Nat) : Packet := { pkt 0 n100 n53 8 (by8 [1,2,3,4,5,6,7,8]) with vn := 1, rsv := BitVec.ofNat 7 id }
theorem test_rspArr : (do for (dst,err) in ([(n53,0),(dn,0),(dn,2),(0x800,0)] : List (Nat × Nat)) do
  let p := { rs 5 with dstDie := BitVec.ofNat 4 (dst/256), dstNode := BitVec.ofNat 8 dst, resp := BitVec.ofNat 3 err, dstUnit := 3 }
  let s0 := nicUpd { W8 with net := [p, rq 9] } dst (fun x => { x with rsv := [⟨5,2,rq 5⟩] }); let s1 := nicUpd { W8 with net := [p, rq 9] } dst (fun x => { x with dead := [5, 6] })
  let u (s : State) : State := { s with net := [rq 9] }
  let late (v : State) : State := if dst / 256 < 8 then finc v (dieBase (dst / 256)) Reg.Die.LATE_RSP_CNT else v
  let off := setIslState s0 53 3
  let v := nicUpd (u s0) dst (fun x => { x with rsv := x.rsv.filter (fun r => r.id != 5) })
  ck "rspArr" [awaits (nicGet s0 dst) 5, dstOf p == dst, !awaits (nicGet s1 dst) 5] [
    nx (execResponseArrive p s0) == (if dst = dn then (if err = 0 then v else finc v (engBase (13*16+3)) Reg.Eng.MSG_ERR) else nicUpd (u s0) dst (fun x => { x with got := x.got ++ [p] })),
    nx (execResponseArrive p s1) == late (nicUpd (u s1) dst (fun x => { x with dead := x.dead.erase 5 })),
    dst != n53 || nx (execResponseArrive p off) == late (u off)] : Option Unit) = some () := by decide +kernel
theorem test_take : (do
  let nd : BitVec 12 := BitVec.ofNat 12 n53; let pn : BitVec 12 := 0x810
  for (r,bad) in ([(0,false),(0,true),(5,false),(3,false)] : List (Nat × Bool)) do
    let g := { rs 5 with resp := BitVec.ofNat 3 r, poisoned := bad, tag := 6 }
    let s := nicUpd W8 n53 (fun x => { x with rsv := [⟨5,2,rq 5⟩,⟨6,2,rq 6⟩], got := [g, rs 6] })
    let c := nicUpd W8 0x810 (fun x => { x with rsv := [⟨5,2,rq 5⟩], got := [g] }); let tc := nicUpd W8 0x810 (fun x => { x with rsv := [], got := [] })
    let k := pcieBase 0 2
    let o : Resp := if bad then .poisoned else respOf r
    ck "take" [nodeKind 0x810 == .pcie 0] [nx (execResponseTake nd 5 s) == answerBytes (nicUpd s n53 (fun x => { x with got := [rs 6], rsv := [⟨6,2,rq 6⟩] })) o g.data, nx (execResponseTake nd 7 s) == s,
      nx (execResponseTake pn 5 c) == (if !isErr o then answerBytes tc .okay g.data else if o = .decodeErr || o = .partErr then answerBytes (finc tc k Reg.Pcie.UR_CNT) .decodeErr [] else answerBytes (finc tc k Reg.Pcie.CA_CNT) .domainOff [])]
  for node in [n53, dn, 0x800] do
    let nd : BitVec 12 := BitVec.ofNat 12 node
    let s := nicUpd W8 node (fun x => { x with rsv := [⟨5,2,{ rq 5 with srcUnit := 3 }⟩,⟨6,2,rq 6⟩] })
    let v := if node = dn then finc s (engBase (13*16+3)) Reg.Eng.MSG_ERR else s
    let v := nicUpd v node (fun x => { x with rsv := x.rsv.filter (fun r => r.id != 5), dead := x.dead ++ [5] })
    let k := (nicSize (nodeKind node)).2
    let dd := nicUpd W8 node (fun x => { x with dead := [3,70,4], gens := [(6,1)] })
    ck "tmo" [awaits (nicGet s node) 5, !awaits (nicGet s node) 7] [nx (execRspTimeout nd 5 s) == answer (if node < 0x800 then finc v (dieBase (node / 256)) Reg.Die.RSP_TMO_CNT else v) .domainOff 0, nx (execRspTimeout nd 7 s) == s,
      nx (execRsvGenerationReturn nd 70 dd) == (if k = 128 then dd else nicUpd dd node (fun x => { x with dead := [3,4], gens := tset 0 x.gens (70 % k) ((tget 0 x.gens (70 % k) + 1) % (128 / k)) })), nx (execRsvGenerationReturn nd 71 dd) == dd] : Option Unit) = some () := by decide +kernel
/-- The header that R228 writes out, and what it spells. -/
theorem test_header_228 : (
  let p : Packet := { dstDie := 5, dstNode := 3, dstUnit := 9, srcDie := 0, srcNode := 4, srcUnit := 6, part := 3, prio := 1, vn := 2, op := 0x10, len := 1, tag := 0x2A5, nw := false, rsv := 0x11, resp := 0, size := 40, addr := 0, firstBe := 0, lastBe := 0, rsvd := false, poisoned := false, data := by8 (List.range 40) }
  ck "228" [lenOf 40 == 1] [headerFlit p == 0xA0111528A12360409035#512, packetOf false (headerFlit p) ((flitsOf p).drop 1) == p, packetOf false (headerFlit (rs 5)) [] == rs 5,
    (let q := { p with op := 2, vn := 0, size := 500, len := 8, firstBe := 7, lastBe := 9, addr := 0xFFFFFFFFFF40, data := by8 (List.range 500) }; packetOf false (headerFlit q) ((flitsOf q).drop 1) == q), packetOf false (headerFlit (rq 9)) [] == rq 9] : Option Unit) = some () := by decide +kernel
def arrB (p : Packet) (s : State) : State := if p.op = 1 then nx (execRd p s) else if p.op = 2 then nx (execWr p s) else nx (execMsg p s)
def NS (s : State) (p : Packet) : State := { s with net := [p, rq 9] }
theorem test_pk : (do for op in [1,2,0x10] do
    let p0 := { pkt op n53 n100 8 (if op = 1 then [] else by8 [1,2,3,4,5,6,7,8]) with vn := if op = 0x10 then 2 else 0 }; let n := 100; let r := [rq 9]
    let u := fun (s : State) => ({ s with net := r } : State)
    let off := fun (k : Nat) => setIslState (islUpd W8 100 (fun i => { i with hold := true })) 100 k
    let p2 := { p0 with part := 5 }
    let pnw := { p0 with nw := true }
    let pp := { p0 with poisoned := true }
    let held (v : State) : State := showHeld (nocUpd v n (fun x => { x with hold := x.hold ++ [p0] })) n
    let fill (v : State) : State := nocUpd v n (fun x => { x with hold := List.replicate 16 p0 })
    let full (v : State) : State := respond (finc (u v) (dieBase 2) Reg.Die.HOLD_FULL_CNT) p0 .domainOff []
    let k1 := nocUpd (off 2) n (fun x => { x with kind := 1 })
    let wf := islUpd (off 5) n (fun i => { i with wakeFailed := true })
    let t3 := arrB p0 (NS (off 3) p0)
    let st := fun (v : State) => partUpd v 1 (fun x => { x with state := 3 })
    let tq := nocUpd (u W8) n (fun x => { x with rqi := x.rqi ++ [p0] })
    let many := nocUpd W8 n (fun x => { x with rqi := List.replicate 64 (rq 1), taken := 64 })
    let lots := nocUpd W8 n (fun x => { x with rqi := List.replicate 72 p0 })
    let bad := { p0 with len := 3 }
    let fen := fset W8 0 Reg.Hub.DIES_FENCED 4
    ck "pk" [shapeOk p0, nodeKind (dstOf p0) == Node.island 100, !partRefused p0 (islHolder W8 100), partRefused p2 (islHolder W8 100), wakePermitted (off 3) 100, wakePermitted k1 100, !wakePermitted (st (off 3)) 100, spliceMembers (off 3) 100 == [100], !shapeOk bad, fenced fen 2,
        rqiReqs (nocGet many n) == 64, rqiFlits (nocGet many n) == 0, rqiFlits (nocGet lots n) == 72] [
     arrB bad (NS W8 bad) == respond (u W8) bad .decodeErr [], arrB p0 (NS fen p0) == respond (u fen) p0 .domainOff [],
     arrB p2 (NS W8 p2) == respondPart (u W8) p2,
     arrB p0 (NS W8 p0) == (if op = 0x10 then respond tq p0 .okay [] else tq),
     arrB pp (NS W8 pp) == (if op = 1 then nocUpd (u W8) n (fun x => { x with rqi := x.rqi ++ [pp] }) else respond (u W8) pp .poisoned []),
     arrB p0 (NS many p0) == respond (finc (u many) (dieBase 2) Reg.Die.TGT_FULL_CNT) p0 .domainOff [], arrB p0 (NS lots p0) == respond (finc (u lots) (dieBase 2) Reg.Die.TGT_FULL_CNT) p0 .domainOff [],
     arrB p0 (NS (off 0) p0) == respond (u (off 0)) p0 .domainOff [],
     arrB p0 (NS k1 p0) == held (u k1), arrB p0 (NS (fill k1) p0) == full (fill k1), arrB p0 (NS (off 2) p0) == respond (u (off 2)) p0 .domainOff [], arrB pnw (NS k1 pnw) == respond (u k1) pnw .domainOff [],
     arrB p0 (NS (off 5) p0) == held (u (off 5)), arrB p0 (NS (fill (off 5)) p0) == full (fill (off 5)), arrB p0 (NS wf p0) == respond (u wf) p0 .wakeFail [], arrB pnw (NS wf pnw) == respond (u wf) pnw .domainOff [],
     t3 == wakeByPacket (held (u (off 3))) n && (nocGet t3 n).hold == [p0] && islState t3 n == 5 && (islGet t3 n).pendRel, arrB p0 (NS (fill (off 3)) p0) == full (fill (off 3)),
     arrB pnw (NS (off 3) pnw) == respond (u (off 3)) pnw .domainOff [], arrB p0 (NS (st (off 3)) p0) == respond (u (st (off 3))) p0 .domainOff [], arrB p0 (NS (off 4) p0) == respond (u (off 4)) p0 .domainOff [], arrB p0 (NS (off 6) p0) == respond (u (off 6)) p0 .wakeFail []] : Option Unit) = some () := by decide +kernel
theorem test_engmsg : (let p := { pkt 0x10 n53 dn 8 (by8 [1,2,3,4,5,6,7,8]) with vn := 2 }; let e := 13; let n := e*16+3; let s := NS (eisUpd W8 13 (fun e => { e with pst := 0, hold := false })) p; let u := { s with net := [rq 9] }; let x := engGet s n
  let m : Msg := ⟨p.srcDie, p.srcNode, p.srcUnit, p.tag, p.data.take p.size.toNat⟩
  let sf := engUpd s n (fun x => { x with inbox := List.replicate 8 m })
  let ev := { pkt 0x11 0x800 dn 0 [] with vn := 2 }
  let pp := { p with poisoned := true }
  let inn (v : State) (q : Packet) : State := { v with net := [q, rq 9] }
  let off := eisUpd s 13 (fun e => { e with pst := 2 })
  let ref := { p with part := 5 }
  let ev2 := { ev with srcDie := 3 }
  let evp := { ev with poisoned := true }
  let rd := { pkt 1 n53 dn 8 [] with vn := 0 }
  let wr := { pkt 2 n53 dn 8 (by8 (z 8)) with vn := 0 }
  let quad := { pkt 1 n53 0x107 8 [] with dstUnit := 0 }
  ck "engmsg" [!partRefused p (eisHolder s e), eisLive s e, shapeOk p, !partRefused ev (eisHolder s e), ev.srcDie == 8, partRefused ref (eisHolder s e), !eisLive off e, nodeKind (dstOf quad) == .quad 4] [
    nx (execMsg p s) == respond (engSet u n { x with inbox := x.inbox ++ [m], ctl := tset 0 x.ctl 52 (tget 0 x.ctl 52 ||| 2), pset := x.pset ||| 2 }) p .okay [],
    nx (execMsg p sf) == respond (finc { sf with net := [rq 9] } (engBase n) Reg.Eng.IN_DROP) p .domainOff [],
    nx (execMsg pp (inn s pp)) == respond u pp .poisoned [], nx (execMsg pp (inn sf pp)) == respond (finc { sf with net := [rq 9] } (engBase n) Reg.Eng.IN_DROP) pp .domainOff [],
    nx (execMsg p off) == respond { off with net := [rq 9] } p .domainOff [], nx (execMsg ref (inn s ref)) == respondPart u ref,
    nx (execRd rd (inn s rd)) == respond u rd .decodeErr [], nx (execWr wr (inn s wr)) == respond u wr .decodeErr [], nx (execRd quad (inn s quad)) == respond u quad .decodeErr [],
    nx (execEvt ev2 (inn s ev2)) == respondPart u ev2, nx (execEvt evp (inn s evp)) == u,
    nx (execEvt ev (inn s ev)) == engUpd u n (fun x => { x with ctl := tset 0 x.ctl 52 (tget 0 x.ctl 52 ||| 1), pset := x.pset ||| 1 })] : Option Unit) = some () := by decide +kernel
-- power down
def isoB (s t : State) (n : Nat) : Bool := islState t n = 2 && (islGet t n).hold = true && (nocGet t n).rqi = [] && (nicGet t (islNode n)).rsv = [] && t.frames = s.frames
theorem test_drain : (do
  let d : Fin 8 := 2; let i : Fin 48 := 4; let n := islId d i; let s0 := setIslState W8 n 1
  let m1 := { pkt 0x10 n53 n100 8 (by8 (z 8)) with vn := 2 }
  let s1 := nocUpd s0 n (fun x => { x with rqi := [rq 3, m1, { rq 4 with op := 2 }] }); let s1 := nicUpd s1 n100 (fun x => { x with rsv := [⟨5,2,rq 5⟩] })
  let t0 := nx (execDrainEnd d i s0); let t1 := nx (execDrainTimeout d i s1)
  ck "drain" [n == 100, spliceMembers s0 n == [n], drained s0 n, !drained s1 n] [isoB s0 t0 n, t0.net == s0.net, isoB s1 t1 n, t1.net == [responseTo (rq 3) .domainOff [], responseTo { rq 4 with op := 2 } .domainOff []],
    nx (execDrainEnd d i s1) == s1, nx (execDrainEnd d i W8) == W8, nx (execDrainTimeout d i W8) == W8]
  let s2 := setIslState W8 n 2; let k := fun (k : Nat) => nocUpd s2 n (fun x => { x with kind := k })
  let t2 := nx (execIslandOff d i (k 1)); let t3 := nx (execIslandOff d i (k 2))
  let wf := islUpd (k 1) n (fun i => { i with wakeFailed := true })
  let hd := nocUpd (k 1) n (fun x => { x with hold := [rq 3] }); let th := nx (execIslandOff d i hd)
  ck "off" [] [islState t2 n == 3, (nocGet t2 n).kind == 0, t2.frames == s2.frames, t2.net == s2.net, islState t3 n == 4, (nocGet t3 n).kind == 0, islState (nx (execIslandOff d i wf)) n == 6, islState th n == 5, (islGet th n).pendRel, (nocGet th n).hold == [rq 3]]
  let s5 := nocUpd (setIslState W8 n 5) n (fun x => { x with hold := [rq 3, m1, { rq 4 with op := 2 }] }); let t5 := nx (execWakeFail d i s5)
  ck "wf" [] [islState t5 n == 6, (nocGet t5 n).hold == [], fget t5 (dieBase 2) (Reg.Die.I_WAKE_FAIL_CNT 4) == 1, t5.net == [rq 3, m1, { rq 4 with op := 2 }].map (fun q => responseTo q .wakeFail []), nx (execWakeFail d i W8) == W8]
  let q := rq 3; let s6 := nocUpd W8 n (fun x => { x with rqi := [m1, q, rq 4], taken := 2 }); let t6 := nocUpd s6 n (fun x => { x with rqi := [rq 4], taken := 1 })
  let w := { rq 3 with op := 2 }; let s7 := nocUpd W8 n (fun x => { x with rqi := [w] }); let t7 := nocUpd s7 n (fun x => { x with rqi := [] })
  let s8 := nocUpd W8 n (fun x => { x with rqi := [m1] })
  ck "irsp" [q.size == 8] [nx (execIslandResponse d i 0 (by8 (z 8)) s6) == respond t6 q .okay (by8 (z 8)), nx (execIslandResponse d i 0 (by8 (z 7)) s6) == respond t6 q .poisoned (by8 (z 7)), nx (execIslandResponse d i 7 (by8 (z 8)) s6) == respond t6 q .poisoned (by8 (z 8)), nx (execIslandResponse d i 2 [] s6) == respond t6 q .poisoned [],
    nx (execIslandResponse d i 0 (by8 (z 7)) s7) == respond t7 w .okay [], nx (execIslandResponse d i 0 [] s8) == s8, nx (execIslandResponse d i 0 [] s2) == s2] : Option Unit) = some () := by decide +kernel

end Packets

namespace Islands

/-! Witnesses for IslandClocksAndStretching, HitchesKeepTheOrderOfWords, BlockMemoriesAreAccessedAndScrubbed,
ConfigurationFramesAreScrubbedAndRepaired. -/

def W8 : State := runI (runI W1 53) 100
def onlyChg (s t : State) (ks : List Nat) : Bool := ((s.csr ++ t.csr).all (fun p => ks.contains p.1 || tget 0 t.csr p.1 == tget 0 s.csr p.1))
theorem test_lock : (do
  let d : Fin 8 := 2; let i : Fin 48 := 4; let n := 100; let b := islBase n
  let s := fflag (islUpd W8 n (fun i => { i with pendRel := true })) b Reg.Isl.LOCKED false
  let t := nx (execGeneratorLock d i s)
  ck "lock" [!fenced s 2] [t == fset s b Reg.Isl.LOCKED 1, (let s := islUpd s n (fun i => { i with pendRel := false, image := false }); nx (execGeneratorLock d i s) == s), (let s := fset s 0 Reg.Hub.DIES_FENCED 4; nx (execGeneratorLock d i s) == s)]
  for x in [0,3] do
    let xf : Fin 4 := Fin.ofNat 4 x
    let s := fsetBit (fset (fset W8 b (Reg.Isl.SRC x) 8) b (Reg.Isl.DIV x) 3) b Reg.Isl.SW_BUSY x true
    let s0 := s  -- spine stopped (bit 3 = spine 2)
    let s1 := fset s (dieBase 2) (Reg.Die.SPINE_EN 2) 1
    let t1 := nx (execSwitchComplete d i xf s1)
    let s2 := fsetBit (islUpd s1 n (fun y => { y with swHeld := tset none y.swHeld x (some 0x00050001) })) b Reg.Isl.SW_HELD x true
    let t2 := nx (execSwitchComplete d i xf s2)
    let v : Word := 0x00050001
    let t3 := nx (execSwitchForce d i xf s0)
    ck "sw" [treeBusy s0 n x, srcStopped s0 n (fget s b (Reg.Isl.SRC x)), !srcStopped s1 n (fget s1 b (Reg.Isl.SRC x))] [nx (execSwitchComplete d i xf s0) == s0,
       !treeBusy t1 n x, { t1 with csr := s1.csr, fresh := s1.fresh, isl := s1.isl } == s1, treeGet t1 n x == { div := 3 }, tget 0 (islGet t1 n).swOld x == 0, nx (execSwitchComplete d i xf W8) == W8, nx (execSwitchForce d i xf W8) == W8, nx (execSwitchForce d i xf t3) == t3, onlyChg s1 t1 [fkey b Reg.Isl.SW_BUSY],
       treeBusy t2 n x, fget t2 b (Reg.Isl.SRC x) = wfield (Reg.Isl.SRC x) v, fget t2 b (Reg.Isl.DIV x) = wfield (Reg.Isl.DIV x) v, !(fget t2 b Reg.Isl.SW_HELD).testBit x, tget none (islGet t2 n).swHeld x = none, tget 0 (islGet t2 n).swOld x = 8, !tget false (islGet t2 n).swStep2 x,
       (fget t3 b Reg.Isl.SW_FORCED).testBit x, tget false (islGet t3 n).swStep2 x, treeBusy t3 n x, { t3 with csr := s0.csr, fresh := s0.fresh, isl := s0.isl } == s0, !(treeGet t3 n x).out,
       (let s4 := fsetBit (islUpd s0 n (fun y => { y with swHeld := tset none y.swHeld x (some 0x00050010) })) b Reg.Isl.SW_HELD x true; let t4 := nx (execSwitchForce d i xf s4); (fget t4 b Reg.Isl.SW_FORCED).testBit x && tget false (islGet t4 n).swStep2 x && treeBusy t4 n x && fget t4 b (Reg.Isl.SRC x) = 16)] : Option Unit) = some () := by decide +kernel
def marg (s : State) (b thr rel en steps : Nat) : State := fset (fset (fset (fset s b Reg.Isl.THR thr) b Reg.Isl.REL rel) b Reg.Isl.STRETCH_EN en) b Reg.Isl.STEPS steps
theorem test_stretch_ : (do for (c : ClkDom) in ([.island 2 4, .engines 1 3] : List ClkDom) do for st in [0,4] do for sl in [5,11,20] do for rr in [3,15] do for en in [0,1] do
    let s := setRelRun (marg (eisUpd W8 13 (fun e => { e with pst := 0, hold := false })) (marginBase W8 c) 10 12 en st) c rr
    let b := marginBase s c; let slack : BitVec 6 := BitVec.ofNat 6 sl
    let after := fun (t : State) (n : Nat) => fget t b Reg.Isl.STEPS = n && fget t b Reg.Isl.SLACK_NOW = sl && fget t b Reg.Isl.SLACK_MIN = min sl (fget s b Reg.Isl.SLACK_MIN) && (if st = 0 then fget t b Reg.Isl.STRETCH_CNT = fget s b Reg.Isl.STRETCH_CNT else fget t b Reg.Isl.STRETCH_CNT = fget s b Reg.Isl.STRETCH_CNT + 1)
    let q := nx (execStretchRequest c slack s); let r := nx (execStretchRelease c slack s)
    let ok := if sl < thrOf s b then r == s && relRunOf q c = 0 && (
        if st < 4 then after q (if en = 1 then min 4 (st + (thrOf s b - sl + 3)/4) else st) && fget q b Reg.Isl.EXHAUST_CNT = fget s b Reg.Isl.EXHAUST_CNT
         else fbit q b Reg.Isl.EXHAUSTED && fget q b Reg.Isl.EXHAUST_CNT == 1 && after q 4)
      else q == s && (if sl < relOf s b then after r st && relRunOf r c = 0
      else if rr + 1 < 16 then after r st && relRunOf r c = rr + 1 else after r (st-1) && relRunOf r c = 0)
    unless ok && !domSpliced s c && pendStepsOf s c == 0 && !pendDropOf s c do ck "stretch " [!domSpliced s c, pendStepsOf s c == 0] [ok] : Option Unit) = some () := by decide +kernel
/-- Islands 48 and 49 in one splice, the first its root. -/
def Wsp (s : State) : State := frameSet (frameSet s (frameKey 48 1971) { data := 0x11 }) (frameKey 49 1971) { data := 0x01 }
theorem test_stretch_splice : (do
    let c : ClkDom := .island 1 1
    let b := marginBase (Wsp W8) c
    let s := setPend (setRelRun (marg (Wsp W8) b 10 12 1 1) c 15) c 2 false
    let s1 := nx (execStretchRequest c 5 s)
    let s2 := nx (execStretchRequest (.island 1 0) 7 s1)
    let h1 := nx (execStretchRelease c 40 s); let h2 := nx (execStretchRelease (.island 1 0) 12 h1)
    let after := fun (t : State) (v : Nat) => fget t b Reg.Isl.STEPS = 3 && fget t b Reg.Isl.SLACK_NOW = v && fget t b Reg.Isl.SLACK_MIN = min v (fget s b Reg.Isl.SLACK_MIN) && fget t b Reg.Isl.STRETCH_CNT = fget s b Reg.Isl.STRETCH_CNT + 1
    ck "splice" [spliced s 49, b == islBase 48, (reportSlack s c 5).1 == none, (reportSlack s1 (.island 1 0) 7).1 == some 5] [{ s1 with isl := s.isl } == s, after s2 5, pendStepsOf s2 c == 2, !pendDropOf s2 c, relRunOf s2 c == 0,
      after h2 12, pendStepsOf h2 c == 0, pendDropOf h2 c, relRunOf h2 c == 0] : Option Unit) = some () := by decide +kernel
def Hk : Nat := hitchKey 100 1 3
def Hs (h : HitchSt) : State := hitchSet (runI (runI W1 100) ((hitchDst 100 1).getD 0)) Hk h
theorem test_hitch : (let d : Fin 8 := 2; let i : Fin 48 := 4; let m := (hitchDst 100 1).getD 0; let s := Hs { flight := [(7,0), (8,1)], head := [5], back := 0 }
  let full := Hs { flight := [(1,0), (2,0)], head := [3], back := 1 }
  let wait := islUpd s m (fun i => { i with rxWait := [(opposite 1, 2)] })
  let held := islUpd s m (fun i => { i with hold := true })
  let e := Hs {}
  let sp := Wsp (hitchSet (runI (runI W1 48) 49) (hitchKey 48 1 3) { head := [5] })
  ck "hitch" [(hitchDst 100 1).isSome, !sameSplice s 100 m, hitchLive s 100 m, hitchOpen s 100 m, hitchReady s m (opposite 1), !hitchReady wait m (opposite 1), !hitchOpen held 100 m, hitchDst 48 1 == some 49, sameSplice sp 48 49, hitchLive sp 48 49, (hitchDst 48 0).isNone]
    [hitchGet (nx (execHitchWrite d i .east 3 9 s)) Hk == { flight := [(7,0), (8,1), (9,0)], head := [5], back := 0 },
     hitchGet (nx (execHitchArrive d i .east 3 s)) Hk == { flight := [(8,1)], head := [5, 7], back := 0 },
     hitchGet (nx (execHitchTake d i .east 3 s)) Hk == { flight := [(7,0), (8,1)], head := [], back := 1 },
     (nx (execHitchTake d i .east 3 s)).rsp.bytes == natLe 5 5,
     nx (execHitchWrite d i .east 3 9 full) == full, nx (execHitchWrite d i .east 3 9 wait) == wait, nx (execHitchWrite d i .east 3 9 held) == held, nx (execHitchArrive d i .east 3 held) == held, nx (execHitchTake d i .east 3 held) == held,
     nx (execHitchArrive d i .east 3 e) == e, nx (execHitchTake d i .east 3 e) == e,
     hitchGet (nx (execHitchWrite 1 0 .east 3 9 sp)) (hitchKey 48 1 3) == { head := [9] }, nx (execHitchTake 1 0 .east 3 sp) == sp, nx (execHitchWrite 1 0 .north 3 9 sp) == sp,
     (hitchGet (nx (execHitchSlotFree d i .east 3 (Hs { back := 2 }))) Hk).back == 1] : Option Unit) = some () := by decide +kernel
-- bram
def bcfg (sdp ecc par : Bool) (rdwA : Nat) : Nat := 5 + 5*8 + (if sdp then 64 else 0) + (if ecc then 128 else 0) + (if par then 256 else 0) + rdwA*512 + 1*2^17 + 1*2^21
def withBram (s : State) (isl n c : Nat) : State := frameSet s (frameKey isl (1950 + n/8)) { data := BitVec.ofNat 4096 (c * 2^(512*(n%8))) }
def pin (addr din we : Nat) (en rst : Bool) : BramIn := ⟨BitVec.ofNat 16 addr, BitVec.ofNat 36 din, BitVec.ofNat 4 we, en, rst⟩
theorem test_bram : (do for par in [false,true] do for wa in [5,3] do for rdw in [0,1,2] do for we in [0,15,1] do for rst in [false,true] do
  let d : Fin 8 := 2; let i : Fin 48 := 4; let isl := 100; let n := 9; let nf : Fin 50 := 9; let k := bramKey isl n
  let s := bramSet (withBram W8 isl n (bcfg false false par rdw - 5 + wa)) k { rows := [(7, 0x123456789), (8, 5)], outA := { dout := 0x77 }, outB := { dout := 0x88 } }
  let c := cfgBram s isl n; let row := fun (t : State) r => bramRowGet (bramGet t k) r
  let p := pin (if wa = 5 then 7+1024*3 else 29) 0xABCDEF012 we true rst
  let x := portAcc s isl n c c.widthA p
  let m := fun (w : Nat) (old : BitVec 36) (x : PortAcc) => if x.mask = 0 then old else bramMerge c.par w old x.mask x.data
  let A := fun (p : BramIn) => nx (execBramPortAccess d i nf (some p) none s)
  let t1 := A p
  let out := fun (t : State) => (bramGet t k).outA; let outB := fun (t : State) => (bramGet t k).outB
  ck "bram" [islRuns s isl, !c.sdp, c.cascade == 0, c.par == par, c.widthA == wa, c.widthB == 5, !c.doregA, (selected 4 c.clkA).isSome, (selected 4 c.clkB).isSome, c.rdwA == rdw, x.row == 7, x.key == k] [A { p with en := false } == s,
     row t1 7 == m wa x.old x, row t1 8 == 5, { t1 with bram := s.bram, csr := s.csr, fresh := s.fresh } == s, par || t1.csr == s.csr, outB t1 == outB s,
     if rst then out t1 == ({} : PortOut) else !(out t1).collide && (out t1).dout == (if x.mask = 0 || rdw = 0 then bramPart wa p.addr.toNat x.old else if rdw = 1 then bramPart wa p.addr.toNat (m wa x.old x) else 0x77)]
  for wq in [0,5] do
    let q := pin 7 0x111 wq true false
    let y := portAcc s isl n c c.widthB q
    let t4 := nx (execBramPortAccess d i nf (some p) (some q) s)
    ck "meet" [x.key == y.key, x.row == y.row] [row t4 7 == m wa (m 5 y.old y) x, row t4 8 == 5, rst || ((outB t4).collide == (x.mask != 0) && (out t4).collide == (y.mask != 0 && x.mask == 0)), y.mask != 0 || rst || (outB t4).dout == 0x123456789] : Option Unit) = some () := by decide +kernel
theorem test_sdp : (do for ecc in [true,false] do for (wa,wb) in ([(15,15),(3,0),(0,0)] : List (Nat × Nat)) do
  let d : Fin 8 := 2; let i : Fin 48 := 4; let isl := 100; let n := 9; let nf : Fin 50 := 9; let k := bramKey isl n; let b := islBase isl
  let e := eccRows 0x1122334455667788
  let s := bramSet (withBram W8 isl n (bcfg true ecc false 0)) k { rows := [(6, e.1 ^^^ 4), (7, e.2)] }
  let c := cfgBram s isl n; let row := fun (t : State) r => bramRowGet (bramGet t k) r
  let p := pin 3 0xABCDEF012 wa true false; let q := pin 3 0x987654321 wb false false
  let t := nx (execBramPortAccess d i nf (some p) (some q) s)
  let r := nx (execBramPortAccess d i nf none (some { q with en := true }) s)
  let x := eccDecode (row s 6) (row s 7)
  let g := eccRows (0xBCDEF012 + 2^32 * 0x87654321)
  let out := (bramGet r k).outA; let outB := (bramGet r k).outB
  ck "sdp" [c.sdp, c.ecc == ecc, c.cascade == 0, !c.doregB, x.sbe, (selected 4 c.clkA).isSome, (selected 4 c.clkB).isSome] [
    if ecc then (if wa = 15 then row t 6 == g.1 && row t 7 == g.2 && !(bramGet t k).outA.bwe && { t with bram := s.bram } == s else if wa = 0 then row t 6 == row s 6 else row t 6 == row s 6 && row t 7 == row s 7 && (bramGet t k).outA.bwe && fget t b Reg.Isl.BWE_CNT == 1)
    else { t with bram := s.bram } == s && row t 6 == (if wa = 0 then row s 6 else bramMerge c.par 6 (row s 6) (bramWMask 5 0 p.we) p.din) && row t 7 == (if wb = 0 then row s 7 else bramMerge c.par 6 (row s 7) (bramWMask 5 0 q.we) q.din),
    row r 6 == row s 6, row r 7 == row s 7, if ecc then out.dout.toNat % 2^32 == 0x55667788 && outB.dout.toNat % 2^32 == 0x11223344 && outB.sbe && !outB.dbe && fget r b Reg.Isl.SBE_CNT == 1 else out.dout == row s 6 && outB.dout == row s 7] : Option Unit) = some () := by decide +kernel
theorem test_scrub : (do
  let d : Fin 8 := 2; let i : Fin 48 := 4; let isl := 100; let n := 9; let nf : Fin 50 := 9; let k := bramKey isl n; let b := islBase isl
  let e := eccRows 0x1122334455667788
  let s := fflag (bramSet (withBram W8 isl n (bcfg true true false 0)) k { rows := [(6, e.1), (7, e.2)], scrub := 3 }) b Reg.Isl.SCRUB_EN true
  let s1 := bramSet s k { bramGet s k with rows := [(6, e.1 ^^^ 4), (7, e.2)] }
  let t := nx (execBramScrubStep d i nf s); let t1 := nx (execBramScrubStep d i nf s1); let t2 := nx (execBramScrubWriteback d i nf t1)
  let s3 := bramSet (frameSet s (frameKey isl 1951) { data := BitVec.ofNat 4096 ((bcfg true true false 0) * 2^512 + (bcfg true true false 0) * 2^1024) }) k { rows := [(6, e.1 ^^^ 4), (7, e.2)], scrub := 3 }
  let t3 := nx (execBramScrubSkip d i nf s3)
  ck "scrub" [islRuns s isl, (cfgBram s isl n).ecc, fbit s b Reg.Isl.SCRUB_EN, clockB s isl n, !(bramGet s k).skipped, scrubbed (cfgBram s3 isl 10), !(bramGet s3 (bramKey isl 10)).lapDone] [t == bramSet s k { bramGet s k with scrub := 4 }, (bramGet t1 k).rows == (bramGet s1 k).rows, (bramGet t1 k).scrub == 4, (bramGet t1 k).fix == some (6, e.1, e.2), fget t1 b Reg.Isl.ERR_BLOCK == 9, fget t1 b Reg.Isl.SBE_CNT == 1, fbit t1 b Reg.Isl.BY_SCRUB,
     bramRowGet (bramGet t2 k) 6 == e.1, bramRowGet (bramGet t2 k) 7 == e.2, (bramGet t2 k).fix == none, { t2 with bram := t1.bram } == t1, (bramGet t3 k).scrub == 0, (bramGet t3 k).skipped, (bramGet t3 k).lapDone, nx (execBramScrubStep d i nf t3) == t3, nx (execBramScrubWriteback d i nf s) == s, nx (execBramScrubSkip d i nf W8) == W8,
     (let s2 := bramSet s k { bramGet s k with rows := [(6, e.1 ^^^ 12), (7, e.2)] }; let t := nx (execBramScrubStep d i nf s2); (bramGet t k).scrub == 4 && (bramGet t k).fix == none && fget t b Reg.Isl.DBE_CNT == 1 && fget t b Reg.Isl.ERR_KIND == 1 && fget t b Reg.Isl.ERR_ROW == 6),
     (let s2 := bramSet (withBram s isl n (bcfg false false true 0)) k { rows := [(3, 1)], scrub := 3 }; let t := nx (execBramScrubStep d i nf s2); bramGet t k == { rows := [(3, 1)], scrub := 4 } && fget t b Reg.Isl.DBE_CNT == 1 && fget t b Reg.Isl.ERR_KIND == 2 && fget t b Reg.Isl.ERR_ROW == 3), (bramGet t3 k).rows == (bramGet s3 k).rows, fget t3 b Reg.Isl.SCRUB_SKIP == 1]
  for w in [0,1] do
    let s := fset (fset (fset (fset (fset (fset s b Reg.Isl.RAW_BUSY 1) b Reg.Isl.BLOCK 9) b Reg.Isl.ROW 6) b Reg.Isl.WRITE w) b Reg.Isl.RAW_D 0x12345678) b Reg.Isl.RAW_P 9
    let t := nx (execBramRawAccess d i s); let o := nx (execBramRawTimeout d i s)
    ck "braw" [] [!fbit t b Reg.Isl.RAW_BUSY || w = 0, fbit t b Reg.Isl.RAW_DONE, if w = 1 then bramRowGet (bramGet t k) 6 == 0x912345678 else t.bram == s.bram && fget t b Reg.Isl.RAW_D + 2 ^ 32 * fget t b Reg.Isl.RAW_P = (bramRowGet (bramGet s k) 6).toNat,
       o == fset (fset s b Reg.Isl.RAW_BUSY 0) b Reg.Isl.RAW_TIMEOUT 1, (let s := fset s b Reg.Isl.BLOCK 50; nx (execBramRawAccess d i s) == fset (fset s b Reg.Isl.RAW_BUSY 0) b Reg.Isl.RAW_TIMEOUT 1), (let s := fset s b Reg.Isl.RAW_BUSY 0; nx (execBramRawAccess d i s) == s && nx (execBramRawTimeout d i s) == s)] : Option Unit) = some () := by decide +kernel
set_option maxRecDepth 200000 in
theorem test_upset : (do
  let d : Fin 8 := 2; let i : Fin 48 := 4; let f : Fin 2000 := 1500; let n := 100; let k := frameKey n 1500; let b := dieBase 2
  let dat : BitVec 4096 := 0x123456789ABCDEF
  let x : Frame := { data := dat, chk := frameCheck dat, origin := 1 }
  let s := fflag (frameSet W8 k x) b Reg.Die.CS_EN true
  let s := { s with csPos := [(2, 4*2000+1500)] }
  let flip := fun (s : State) (bits : List (Fin 4110)) => nx (execConfigUpset d i f bits s)
  for j in [5] do
    let t := flip s [Fin.ofNat 4110 j]
    ck "upset" [] [{ t with frames := s.frames, ff := s.ff } == s, frameGet t k == (if j < 4096 then { x with data := x.data ^^^ BitVec.twoPow 4096 j } else { x with chk := x.chk ^^^ BitVec.twoPow 14 (j - 4096) })]
    let y := frameGet t k; let u := nx (execScrubFrame d t)
    ck "scrubF" [!(frameDecode y).dbe, (frameDecode y).sbe, present s 2, !underLoad s n] [frameGet u k == { y with data := BitVec.ofNat 4096 (frameDecode y).data, chk := frameCheck (BitVec.ofNat 4096 (frameDecode y).data) }, frameGet u k == x, fget u b Reg.Die.CS_CE_CNT == 1, tget 0 u.csPos 2 == 4*2000+1501]
  let t := flip (flip s [3]) [9]; let y := frameGet t k; let u := nx (execScrubFrame d t)
  let u' := { u with csPos := [(2, 4*2000+1500)] }; let r := nx (execFrameRepair d i f (some dat) u); let h := nx (execFrameRepair d i f none u)
  ck "ue" [(frameDecode y).dbe, !y.ueSeen, spliceMembers u n == [n], frameSource u n 1, (frameChecks u n 1500 dat false).isNone] [nx (execFrameRepair d i f none s) == s, tget 0 r.frameAt 2 == u.up + 1,
    (let u := { u with boot := { u.boot with fromPort := true } }; let h := nx (execFrameRepair d i f (some dat) u); h.frames == u.frames && (islGet h n).hold && (islGet h n).region == 4), (let u := { u' with frameAt := [(2, u.up + 1)] }; nx (execScrubFrame d u) == u), (let u := fflag u b Reg.Die.CS_EN false; nx (execScrubFrame d u) == u && nx (execScrubStall d u) == u), (let u := { s with frames := [] }; nx (execScrubFrame d u) == csAdvance u 2 (4*2000+1501)), nx (execRawfAccess s) == s,frameGet u k == { y with ueSeen := true }, fget u b Reg.Die.CS_UE_CNT == 1, nx (execScrubFrame d u') == csAdvance u' 2 (4*2000+1501), frameGet r k == x, h.frames == u.frames, (islGet h n).hold, (islGet h n).region == 4]
  let t := nx (execScrubStall d s); ck "stall" [s.load == none, s.boot.dmc] [tget 0 t.csPos 2 == 0, t.frames == s.frames, fget t b Reg.Die.CS_STALL_CNT == 1]
  for nr in [false,true] do
    let s := fset (fflag (frameSet s k { x with noRead := nr }) cfgBase Reg.Cfg.RAWF_BUSY true) cfgBase Reg.Cfg.RAWF_ADDR k
    let t := nx (execRawfAccess s)
    ck "rawf" [rawfRefused s k false == nr] [if nr then t == fset (fset s cfgBase Reg.Cfg.RAWF_BUSY 0) cfgBase Reg.Cfg.RAWF_REFUSED 1 else !fbit t cfgBase Reg.Cfg.RAWF_BUSY && t.frames == s.frames && fbit t cfgBase Reg.Cfg.RAWF_DONE && fget t cfgBase Reg.Cfg.RAWF_HIDDEN = x.chk.toNat && [0, 1, 127].all (fun w => fget t cfgBase (Reg.Cfg.RAWF_BUF w) = x.data.toNat / 2 ^ (32 * w) % 2 ^ 32)]
  let s := fset (fset (fset (fset (fset (frameSet s k x) cfgBase Reg.Cfg.RAWF_BUSY 1) cfgBase Reg.Cfg.RAWF_ADDR k) cfgBase Reg.Cfg.RAWF_WRITE 1) cfgBase (Reg.Cfg.RAWF_BUF 127) 0x80000001) cfgBase Reg.Cfg.RAWF_HIDDEN 0x123
  let t := nx (execRawfAccess s); let data : BitVec 4096 := BitVec.ofNat 4096 (0x80000001 * 2^4064)
  let k2 := frameKey n 1999; let s2 := fset s cfgBase Reg.Cfg.RAWF_ADDR k2; let t2 := nx (execRawfAccess s2)
  ck "rawfw" [!rawfRefused s k true, (frameChecks s n 1500 data true).isNone, !rawfRefused s2 k2 true, (frameChecks s2 n 1999 data true).isSome] [fbit t cfgBase Reg.Cfg.RAWF_DONE, frameGet t k == { x with data := data, chk := 0x123, ueSeen := false }, fbit t2 cfgBase Reg.Cfg.RAWF_REJECT, t2.frames == s2.frames] : Option Unit) = some () := by decide +kernel

end Islands

namespace Hawsers

/-! Witnesses for HawsersDeliverBlocksAndRepairWires. -/

def W9 : State := fset W1 (hb 19) Reg.Hw.STATE 1
def mkBlk (seq k : Nat) (pay : List Byte) : List Byte := let p := by8 [seq, k] ++ (pay ++ by8 (z 34)).take 34; p ++ natLe (crc32c p).toNat 4
theorem test_blk : (do
  let d : Fin 8 := 1; let n : Fin 16 := 3; let h := 19; let b := hb 19
  let cnt := fun (t : State) (f : Fld) => fget t b f
  let s := hwUpd W9 h (fun x => { x with rxSeq := 5, base := 4, kept := [some (by8 [9])] })
  let D := by8 (List.range 4 ++ z 3 ++ List.range 57)
  let fl := encodeFlit false false D
  let B := mkBlk 5 0 (fl.take 34); let B2 := mkBlk 6 (4 * 63) (fl.drop 34)
  let t := nx (execHawserBlock d n B s); let t2 := nx (execHawserBlock d n B2 t)
  let r := (blockFlits false [] B).getD ([],[]); let r2 := (blockFlits false (hwGet t h).carry B2).getD ([],[])
  let bad := B.set 7 0x55; let wr := mkBlk 5 (4 * 9) (fl.take 34)
  let tb := nx (execHawserBlock d n bad s); let tb2 := nx (execHawserBlock d n B2 tb); let tw := nx (execHawserBlock d n wr s)
  let s15 := hwUpd s h (fun x => { x with failRun := 15 }); let t15 := nx (execHawserBlock d n bad s15)
  let P := flitsPacket false [D]
  ck "blk" [hwRuns s h, B.length = 40, B2.length = 40, blockCrc B, blockCrc B2, r.1 == [], r.2 == (B.drop 2).take 34, r2.1 == [(D, false)], r2.2 == [], !blockCrc bad, (blockFlits false [] wr).isNone, blockKind wr = 0, hbits (flitBits D) 47 4 = 0, !t.net.contains P]
    [t.rsp == (⟨.okay,0,[]⟩ : Rsp), (hwGet t h).rxSeq == 6, (hwGet t h).kept == [some (by8 [9]), some B], (hwGet t h).carry == r.2, t2.rsp == (⟨.okay,0,D⟩ : Rsp), (hwGet t2 h).carry == [], t2.net.contains P, t2.way.contains (P, { link := linkHw h }),
     tb == hwUpd (finc (hwUpd s h (fun y => { y with kept := y.kept ++ [none] })) b Reg.Hw.CRC_ERR_CNT) h (fun y => { y with naked := true, resend := none, failCopy := some bad, failRun := y.failRun + 1 }),
     tw == hwUpd (finc (hwUpd s h (fun y => { y with kept := y.kept ++ [some wr] })) b Reg.Hw.CRC_ERR_CNT) h (fun y => { y with naked := true, resend := none, failCopy := some wr, failRun := y.failRun + 1 }),
     hwState t15 h == 3, hwGet t15 h == ({} : HwSt), tb2 == hwUpd tb h (fun y => { y with kept := y.kept ++ [some B2] }), nx (execHawserBlock d n (mkBlk 8 0 []) s) == s, nx (execHawserBlock d n B (hwUpd s h (fun y => { y with rxSeq := 9 }))) == hwUpd (hwUpd s h (fun y => { y with rxSeq := 9 })) h (fun y => { y with kept := y.kept ++ [some B] })]
  -- the failed block is sent again: the wires that differ are counted
  let tn := nx (execHawserNak d n 5 tb2); let x := hwGet tn h
  let tr := nx (execHawserBlock d n B tn); let Wd := diffWires tn h 0 40 bad B
  ck "resend" [x.resend == some 1, x.kept == [some (by8 [9]), none, some B2], x.failCopy == some bad, Wd.all (fun w => decide (fget tn b (Reg.Hw.WIN_ERR w) + Wd.count w < wireThr tn h w)), !Wd.isEmpty]
    [tr.rsp == (⟨.okay,0,[]⟩ : Rsp), (hwGet tr h).rxSeq == 6, !(hwGet tr h).naked, (hwGet tr h).failCopy == none, (hwGet tr h).kept == x.kept.set 1 (some B), (hwGet tr h).resend == some 2,
     (List.range 76).all (fun w => fget tr b (Reg.Hw.WIN_ERR w) == (if Wd.contains w then fget tn b (Reg.Hw.WIN_ERR w) + Wd.count w else fget tn b (Reg.Hw.WIN_ERR w)))]
  -- a marker
  let sm := hwUpd s h (fun x => { x with change := some ⟨0,3,0,1⟩ }); let M := mkBlk 5 3 []; let tm := nx (execHawserBlock d n M sm)
  ck "marker" [blockCrc M, blockKind M = 3, (blockFlits false [] M) == some ([], [])] [(hwGet tm h).change == some (⟨0,3,0,2⟩ : HwChange), cnt tm Reg.Hw.CRC_ERR_CNT == cnt sm Reg.Hw.CRC_ERR_CNT] : Option Unit) = some () := by decide +kernel
theorem test_ackWire : (do
  let d : Fin 8 := 1; let n : Fin 16 := 3; let h := 19; let b := hb 19
  let s := hwUpd W9 h (fun x => { x with kept := [some (by8 [1]), none, some (by8 [3])], base := 250, naked := true, resend := some 2 })
  for q in [0,1,251,250,249,252,253] do
    let x := hwGet s h; let m := (q + 257 - x.base) % 256; let t := nx (execHawserAck d n (BitVec.ofNat 8 q) s); let m2 := (q + 256 - x.base) % 256; let t2 := nx (execHawserNak d n (BitVec.ofNat 8 q) s)
    ck "ack" [] [if m ≤ 3 then t == hwUpd s h (fun y => { y with kept := y.kept.drop m, base := (y.base + m) % 256, resend := y.resend.map (fun k => k - m) }) else t == s, if m2 < 3 then t2 == hwUpd (faddSat s b Reg.Hw.REPLAY_CNT (3 - m2)) h (fun y => { y with resend := some m2 }) else t2 == s]
  let s := fset W9 b (Reg.Hw.WIN_ERR 3) 1
  let u (s : State) (w : Nat) : State := if (70 ≤ w ∧ w < 72) ∨ wireBad s h w = true then s else
    (let short := wireThr s h w - fget s b (Reg.Hw.WIN_ERR w); faddSat (faddSat s b (Reg.Hw.WIN_ERR w) short) b (Reg.Hw.TOT_ERR w) short)
  for w in [3, 40, 70, 71, 74] do
    let wf : Fin 76 := Fin.ofNat 76 w; let t := nx (execWireFail d n wf s)
    if w < 64 then
      ck "wire" [(freeSpares s h).head? == some 0, wireInUse s h w, !carried s h w, wiresWaiting s h == []] [(hwGet t h).change == some (⟨0,w,0,0⟩ : HwChange), badData t h w, fbit t b Reg.Hw.CHANGING, hwState t h == hwState s h, fget t b (Reg.Hw.WIN_ERR w) == wireThr s h w]
      let t1 := nx (execRepairRequest d n t); let t2 := nx (execRepairMarker d n t1); let t3 := nx (execRepairConfirm d n t2)
      ck "rep" [] [t1 == hwUpd t h (fun x => { x with change := some ⟨0,w,0,1⟩ }), t2 == hwUpd t1 h (fun x => { x with change := some ⟨0,w,0,2⟩ }), spareUsed t3 h 0, spareRepl t3 h 0 == w, (hwGet t3 h).change == none, !fbit t3 b Reg.Hw.CHANGING, fget t3 b Reg.Hw.SWAP_CNT == 1,
        nx (execRepairMarker d n t) == t, nx (execRepairRequest d n s) == s]
      ck "queue" [!leavesUse t h ⟨0,w,0,0⟩ 7, leavesUse t h ⟨0,w,0,0⟩ w] [nx (execWireFail d n 7 t) == hwUpd (u t 7) h (fun y => { y with queue := insertFail (t.up, 7) y.queue }), nx (execWireFail d n wf t) == recordFail (u t w) h w]
    if w = 70 then
      let t3 := nx (execRepairConfirm d n (nx (execRepairMarker d n (nx (execRepairRequest d n t)))))
      ck "clk" [] [(hwGet t h).change == some (⟨3,70,1,0⟩ : HwChange), fget t b Reg.Hw.BAD_CLK == 1, fbit t3 b Reg.Hw.CLK_SEL, (hwGet t3 h).change == none, !fbit t3 b Reg.Hw.CHANGING]
    if w = 71 then ck "clkb" [] [t.hw == s.hw, fget t b Reg.Hw.BAD_CLK == 2]
    if w = 74 then ck "sb" [] [t.hw == s.hw, fbit t b Reg.Hw.SB_CTL]
  let sh := fset s b Reg.Hw.STATE 2
  let t := nx (execWireFail d n 40 sh); ck "unused" [!wireInUse sh h 40] [badData t h 40, t.hw == sh.hw, hwState t h == 2]
  let so := fset s b Reg.Hw.STATE 3; ck "off" [!hwRuns so h] [nx (execWireFail d n 4 so) == so, nx (execHawserAck d n 0 so) == so, nx (execHawserBlock d n [] so) == so]
  let sf := hwUpd (fset s b Reg.Hw.CHANGING 1) h (fun x => { x with change := some ⟨1,3,0,2⟩ }); let tf := nx (execRepairConfirm d n sf)
  ck "half" [] [hwState tf h == 2, fget tf b Reg.Hw.HALF_SEL == 0, !fbit tf b Reg.Hw.CHANGING]
  let s := fset (fset s b (Reg.Hw.WIN_ERR 3) 4) b (Reg.Hw.TOT_ERR 3) 9; let t := nx (execWireWinExpire d n s); ck "win" [] [(List.range 76).all (fun w => fget t b (Reg.Hw.WIN_ERR w) = 0 && fget t b (Reg.Hw.TOT_ERR w) = fget s b (Reg.Hw.TOT_ERR w)), { t with csr := s.csr, fresh := s.fresh } == s]
  let s := fset (runI (eisUpd W9 13 (fun e => { e with pst := 0, hold := false })) 53) 0 Reg.Hub.DIES_FENCED 2; let t := nx (execDieSelfFence d s)
  ck "fence" [fenced s 1] [(List.range 48).all (fun i => (islGet t (48+i)).hold), (List.range 10).all (fun i => (eisGet t (10+i)).hold), t.selfFenced.contains 1, t.frames == s.frames, nx (execDieSelfFence 2 s) == s] : Option Unit) = some () := by decide +kernel

end Hawsers

namespace Controllers

/-! Witnesses for LineCodeCorrectsOneNibbleGroup, MemoryControllerServesRequests, MemoryControllerKeepsAndTrainsItsDevices. -/

theorem test_code : (ck "code" [] (do
  let d ← [(0x123456789ABCDEF0FEDCBA98 <<< 300 : BitVec 512)]
  let (q, g) ← [(0, 9), (3, 0)]; let (a, b) ← ([(0, 1), (0x5A, 0xC3)] : List (Byte × Byte))
  pure (lineDecode (encLine d) == ⟨d,0,[]⟩ && lineDecode (lineXor (encLine d) (lineXor (symMask q (2 * g) a) (symMask q (2 * g + 1) b))) == ⟨d, 1, [g]⟩)) : Option Unit) = some () := by decide +kernel
def M : State := mcUpd (fset (memOn W1) (mcBase 0) Reg.Mc.WQ_HIGH 40) 0 (fun (m : McSt) => { m with out := [⟨1,true,0,0⟩] })
def mrq (id line : Nat) (w : Bool) (mask : BitVec 64) : McReq := ⟨id, BitVec.ofNat 30 line, w, mask, 0xABCD, 1⟩
def csrOnlyB (s t : State) : Bool := { t with mc := s.mc, csr := s.csr, fresh := s.fresh } == s
theorem test_mcreq : (do
  let n : Fin 8 := 0; let s := M; let m := mcGet s 0
  let r := mrq 7 100 false 0; let w := mrq 8 100 true fullMask
  let s4 := fset s (mcBase 0) Reg.Mc.STATE 4
  let s3 := mcUpd (fset s (mcBase 0) Reg.Mc.STATE 3) 0 (fun (m : McSt) => { m with standby := true })
  let t := nx (execMcRequest n r s); let tw := nx (execMcRequest n w s)
  let full := mcUpd s 0 (fun (m : McSt) => { m with reads := List.replicate 64 ⟨1,2,0,0,false⟩ })
  let fw := mcUpd s 0 (fun (m : McSt) => { m with writes := [⟨100, fullMask, 0x77, 0, []⟩] }); let tf := nx (execMcRequest n r fw)
  ck "mcreq" [mcState s 0 == 2, 100 < mcLines s 0, (wqFind s 0 100).isNone, m.reads.length < 64] [nx (execMcRequest n r s4) == answer s4 .decodeErr 0, nx (execMcRequest n { r with line := BitVec.ofNat 30 (mcLines s 0) } s) == answer s .decodeErr 0 || mcLines s 0 == 2^30,
    nx (execMcRequest n r s3) == mcUpd s3 0 (fun (m : McSt) => { m with out := m.out ++ [(⟨7,false,3,0⟩ : MAns)] }), (mcGet t 0).reads == m.reads ++ [(⟨7,100,1,s.up,false⟩ : MRead)], (mcGet t 0).out == m.out, csrOnlyB s t, nx (execMcRequest n r full) == full,
    (mcGet tf 0).out == m.out ++ [(⟨7,false,0,0x77⟩ : MAns)], (mcGet tf 0).reads == [], csrOnlyB fw tf, (mcGet tw 0).writes == m.writes ++ [(⟨100,fullMask,0xABCD,s.up,[]⟩ : MWrite)], (mcGet tw 0).out == m.out ++ [(⟨8,true,0,0⟩ : MAns)], csrOnlyB s tw]
  let fr := fset (mcUpd s 0 (fun (m : McSt) => { m with forced := [0], rows := [(5,3)] })) (mcBase 0) Reg.Mc.P_RANK0 3
  let fr2 := mcUpd fr 0 (fun (m : McSt) => { m with rows := [] }); let t2 := nx (execMcCommand n fr2)
  ck "forced" [rankOpen fr 0 0, !rankOpen fr2 0 0] [nx (execMcCommand n fr) == rankClose fr 0 0, (mcGet t2 0).forced == [], mcF t2 0 (pRank 0) == 2, csrOnlyB fr2 t2]
  let rr : MRead := ⟨7,100,1,s.up,false⟩; let d := mcAddr s 0 100
  let q := fun (rw : Nat) => mcUpd s 0 (fun (m : McSt) => { m with reads := [rr], rows := tset 0 [] (bankKey d) rw })
  let q1 := nx (execMcCommand n (q (d.row+1))); let q0 := nx (execMcCommand n (q 0)); let q2 := nx (execMcCommand n (q (d.row+2)))
  ck "cmd" [] [(mcGet q1 0).reads == [], (mcGet q1 0).issued == m.issued ++ [(⟨rr, dramGet s 0 100, false⟩ : MIss)], csrOnlyB (q (d.row+1)) q1, (mcGet q0 0).reads == [rr], tget 0 (mcGet q0 0).rows (bankKey d) == d.row+1, (mcGet q2 0).reads == [rr], tget 0 (mcGet q2 0).rows (bankKey d) == 0, csrOnlyB (q 0) q0, csrOnlyB (q 0) q2 || true]
  let sc := fset (fset (mcUpd s 0 (fun (m : McSt) => { m with rows := [(5,3)], wb := [(9, 0x44)] })) (mcBase 0) Reg.Mc.P_RANK0 3) (mcBase 0) Reg.Mc.POSTPONE_MAX 4
  let c1 := nx (execMcCommand n sc); let c2 := nx (execMcCommand n c1); let c3 := nx (execMcCommand n (fset c2 (mcBase 0) Reg.Mc.P_RANK0 0))
  ck "catch" [idleRanks sc 0 == [0], rankOpen sc 0 0, mcF sc 0 (pRank 0) == 3] [mcF c1 0 (pRank 0) == 3, !rankOpen c1 0 0, mcF c2 0 (pRank 0) == 2, dramGet c3 0 9 == encLine 0x44, (mcGet c3 0).wb == [], c3.csr == (fset c2 (mcBase 0) Reg.Mc.P_RANK0 0).csr, nx (execMcCommand n s4) == s4, nx (execMcReadData n s) == s]
  let ww : MWrite := ⟨100, fullMask, 0x99, 0, [3]⟩; let sw := mcUpd s 0 (fun (m : McSt) => { m with writes := [ww], rows := tset 0 [] (bankKey d) (d.row+1) }); let tw := nx (execMcCommand n sw)
  ck "cmdw" [rowHit sw 0 100] [dramGet tw 0 100 == encLine 0x99, (mcGet tw 0).writes == [], (mcGet tw 0).out == m.out ++ [(⟨3,true,0,0⟩ : MAns)], tw.csr == sw.csr]
  let si := mcUpd s 0 (fun (m : McSt) => { m with issued := [⟨rr, encLine 0x55, false⟩] }); let ti := nx (execMcReadData n si)
  ck "rdata" [] [(mcGet ti 0).issued == [], ti.dram == si.dram, (mcGet ti 0).out == m.out ++ [(⟨7,false,0,0x55⟩ : MAns)]]
  for p in [0,1,7,14,15] do
    let s := fset s (mcBase 0) Reg.Mc.P_RANK0 p; let s := fset s (mcBase 0) Reg.Mc.POSTPONE_MAX 4
    let t := nx (execRefreshDue n 0 s); let p' := min 15 (p+1)
    ck "refdue" [0 ∈ mcRanks s 0] [mcF t 0 (pRank 0) == p', if p' < pCap s 0 then t == fset s (mcBase 0) (pRank 0) p' else (mcGet t 0).forced == (mcGet s 0).forced ++ [0] && mcF t 0 Reg.Mc.REF_FORCE_CNT == 1]
  let s5 := mcUpd s 0 (fun (m : McSt) => { m with rows := [(5,3),(9,1)], reads := [rr] }); let t5 := nx (execRowClose n 5 s5); let t6 := nx (execMr4Poll n 0 0x81 s); let t7 := nx (execZqCal n s)
  ck "rowclose" [bankKey d != 5] [(mcGet t5 0).rows == [(9,1)], { t5 with mc := s5.mc } == s5, tget 0 (mcGet t6 0).mr4 0 == 0x81, (mcGet t7 0).zq.testBit 0, { t7 with mc := s.mc } == s]
  let s8 := fset (fset s (mcBase 0) Reg.Mc.AUTO_SR 1) (mcBase 0) Reg.Mc.P_RANK0 3; let s8 := mcUpd s8 0 (fun (m : McSt) => { m with rows := [(5,3)] }); let t8 := nx (execSrEntry n none s8); let r9 := mrq 4 3 false 0
  ck "sr" [mcQuiet s8 0] [mcState t8 0 == 3, (mcGet t8 0).rows == [], mcF t8 0 (pRank 0) == 0, t8.dram == s8.dram, mcF t8 0 Reg.Mc.SR_ENTRY_CNT == 1, nx (execSrEntry n (some r9) s8) == nx (execMcRequest n r9 (finc s8 (mcBase 0) Reg.Mc.SR_ABORT_CNT))]
  let sp := fset s (mcBase 0) Reg.Mc.PATROL_EN 1
  let sp := fset sp (mcBase 0) Reg.Mc.PATROL_POS 5
  let sd := dramSet sp 0 5 (encLine 0x1234); let se := dramSet sp 0 5 (lineXor (encLine 0x1234) ⟨1,0⟩)
  let t9 := nx (execPatrolStep n sd); let ta := nx (execPatrolStep n se)
  ck "patrol" [mcQuiet sp 0, patrolNext sp 0 == some (5,false), (lineDecode (dramGet sd 0 5)).status == 0, (lineDecode (dramGet se 0 5)).status == 1] [mcF t9 0 Reg.Mc.PATROL_POS == 6, t9 == fset sd (mcBase 0) Reg.Mc.PATROL_POS 6, dramGet ta 0 5 == encLine 0x1234, mcF ta 0 Reg.Mc.PATROL_POS == 6, fbit ta (mcBase 0) Reg.Mc.BY_PATROL, mcF ta 0 Reg.Mc.CE_CNT == 1]
  let b := mcBase 0
  let st := fset (fset (fset (fset s b Reg.Mc.STATE 1) b Reg.Mc.TRN_BUSY 1) b Reg.Mc.TRN_PAT 1) b Reg.Mc.TRN_SUB 2
  let st := fset (fset st b (Reg.Mc.PAT_DQ 3) 0x12345678) b (Reg.Mc.PAT_CB 3) 0xA5
  let f1 : List (BitVec 16 × BitVec 512) := [(0, 2 ^ (32 * 5 + 7)), (0, 2 ^ (32 * 9 + 7))]
  let tt := nx (execTrnDone n [(0, 1)] f1 [(1, 0, 2 ^ (8 * 5 + 2))] st); let tc := nx (execTrnDone n [] [] [] st)
  ck "trn" [selectedSubs st 0 Reg.Mc.TRN_SUB == [1], mcF st 0 Reg.Mc.TRN_COUNT == 0] [!fbit tt b Reg.Mc.TRN_BUSY, fbit tt b Reg.Mc.TRN_DONE, { tt with csr := st.csr, fresh := st.fresh, dram := st.dram } == st, dramGet tt 0 (trnPlace st 0 1 0) == patBurst st 0, patBurst st 0 == (trnBursts st 0).getD 0 {},
    fbit tt b Reg.Mc.FF_VALID, mcF tt 0 Reg.Mc.FF_BURST == 0, mcF tt 0 Reg.Mc.FF_BEAT == 5, mcF tt 0 Reg.Mc.FF_LANE == 47, mcF tt 0 (errCnt 47) == 2, mcF tt 0 (errCnt 74) == 1, mcF tt 0 (errCnt 0) == 0, mcF tt 0 (Reg.Mc.CAP_DQ 1 5) == 0x80, mcF tt 0 (Reg.Mc.CAP_CB 1 5) == 4,
    mcF tt 0 (Reg.Mc.CAP_DQ 1 3) == 0x12345678, mcF tt 0 (Reg.Mc.CAP_CB 1 3) == 0xA5, !fbit tc b Reg.Mc.FF_VALID, (List.range 80).all (fun l => mcF tc 0 (errCnt l) == 0), nx (execTrnDone n [(0, 1)] f1 [(1, 0, 2 ^ (8 * 5 + 2))] s) == s]
  let tro := nx (execTrnDone n [] [] [] (fset st b Reg.Mc.TRN_RDONLY 1)); ck "ro" [] [tro.dram == st.dram, fbit tro b Reg.Mc.TRN_DONE]
  let sm := fset (fset (mcUpd s 0 (fun (m : McSt) => { m with mr := true })) b Reg.Mc.MR_SUB 1) b Reg.Mc.MR_WRITE 0; let tm := nx (execMrAccessDone n [0xAB12345678] sm); let sm1 := fset sm b Reg.Mc.MR_WRITE 1
  let sl := fset (fset s b Reg.Mc.STATE 1) b Reg.Mc.RATE_IDX 2; let tl := nx (execTrainingTimeLimit n 9 sl); let t3 := nx (execTrainingTimeLimit n 9 { fset sl b Reg.Mc.RATE_IDX 3 with boot := { sl.boot with training := true } })
  ck "mr" [] [!(mcGet tm 0).mr, mcF tm 0 (Reg.Mc.CAP_DQ 0 0) + 2^32 * mcF tm 0 (Reg.Mc.CAP_CB 0 0) == 0xAB12345678, nx (execMrAccessDone n [1] sm1) == mcUpd sm1 0 (fun (m : McSt) => { m with mr := false }), mcState tl 0 == 4, mcF tl 0 Reg.Mc.DISABLE_CAUSE == 4, mcF tl 0 Reg.Mc.FAIL_STEP == 9, (rateGet tl 0).rate == 3,
    mcState t3 0 == 4, mcF t3 0 Reg.Mc.DISABLE_CAUSE == 4, mcF t3 0 Reg.Mc.FAIL_STEP == 9, (rateGet t3 0).rate == 3, (rateGet t3 0).exhausted, nx (execTrainingTimeLimit n 9 s) == s, nx (execMrAccessDone n [1] s) == s] : Option Unit) = some () := by decide +kernel

end Controllers

namespace MemorySecurity

/-! Witnesses for MemoryRequestsAreDecidedInOrder, MemorySecurityOperationsComplete. -/

def rq (op src : Nat) (addr size : Nat) (data : List Byte) : Packet :=
  { dstDie := 8, dstNode := 8, dstUnit := 0, srcDie := BitVec.ofNat 4 (src/256), srcNode := BitVec.ofNat 8 src, srcUnit := 0, part := 1, prio := 1, vn := 0, op := BitVec.ofNat 6 op, len := 0, tag := 5, nw := false, rsv := 0, resp := 0, size := BitVec.ofNat 10 size, addr := BitVec.ofNat 48 addr, firstBe := 0, lastBe := 0, rsvd := false, poisoned := false, data := data }
def n53 : Nat := islNode 53
def P (op : Nat) (a : Nat) : Packet := rq op n53 a 8 (if op = 2 then by8 [1,2,3,4,5,6,7,8] else [])
def arrB (p : Packet) (s : State) : State := if p.op = 1 then nx (execRd p s) else nx (execWr p s)
def MS : State := runI (memOn W1) 53
theorem test_memreq : (do
  for op in [1,2] do
    let a := A1 + 0x40; let p := P op a; let g := granOf a; let ln := a / 64
    let NS := fun (s : State) => ({ s with net := [p, P 1 0] } : State); let u := fun (s : State) => ({ s with net := [P 1 0] } : State)
    let s4 := fset MS (mcBase 0) Reg.Mc.STATE 4
    let so := granSet MS 1024 { owner := 2, init := true }
    let su := granSet MS 1024 { owner := 1, init := false }
    let soff := fset MS secBase Reg.Sec.KEY_READY 0
    let sr := fset (fset (secUpd MS (fun e => { e with reset := some (15,0) })) secBase Reg.Sec.WIN_ACTIVE 1) secBase Reg.Sec.WIN_SIZE 0
    let sf := secUpd su (fun e => { e with fills := [(1024, [P 2 A1])] }); let sk := secUpd MS (fun e => { e with rekeys := [(a / 4096, [P 2 A1])] })
    let se := dramSet MS 0 ln (lineXor (encLine 0) ⟨2^0+2^4+2^8+2^12+2^16, 0⟩)
    let sbad := granSet MS 1024 { owner := 1, init := true, bad := true }; let s1 := granSet su 1024 { owner := 1, flip := 1 }; let s2 := granSet MS 1024 { owner := 1, init := true, flip := 3 }
    let v1 := finc (granSet (u s1) 1024 { owner := 1 }) secBase Reg.Sec.GT_CE_CNT; let t2 := arrB p (NS s2); let te := arrB p (NS se)
    ck "memreq" [shapeOk p, nodeKind (dstOf p) == Node.dram 0, reqUnmapped (u s4) p, !reqUnmapped (u MS) p, g == 1024, reqOff (u soff) p, !reqOff (u MS) p, resetCovers (u sr) a, takeNet (NS MS) p == some (u MS), !inWin MS (64 * ln), (lineDecode (dramGet MS 0 ln)).status == 0, (lineDecode (dramGet se 0 ln)).status == 2,
        (byteCode 1).sbe, (byteCode 3).dbe, granFrom (granByte { owner := 1, flip := 1 } ^^^ (byteCode 1).data) == ({ owner := 1 } : Gran) ] [
      arrB p (NS s4) == respond (u s4) p .decodeErr [], arrB p (NS so) == respond (u so) p .partErr [], arrB p (NS soff) == respond (u soff) p .domainOff [],
      arrB p (NS sr) == secUpd (u sr) (fun e => { e with held := e.held ++ [p] }), arrB p (NS su) == (if op = 1 then respond (u su) p .uninitZero (List.replicate 8 0) else secUpd (u su) (fun e => { e with fills := [(g, [p])] })),
      arrB p (NS sf) == secUpd (u sf) (fun e => { e with fills := [(g, [P 2 A1, p])] }), arrB p (NS sk) == secUpd (u sk) (fun e => { e with rekeys := [(a / 4096, [P 2 A1, p])] }),
      te.rsp.resp == .poisoned, secF te Reg.Sec.DRAM_UE_CNT == 1, arrB p (NS sbad) == respond (u sbad) p .partErr [],
      arrB p (NS s1) == (if op = 1 then respond v1 p .uninitZero (List.replicate 8 0) else secUpd v1 (fun e => { e with fills := [(g, [p])] })),
      t2.rsp.resp == .partErr, (granGet t2 g).bad, secF t2 Reg.Sec.GT_UE_CNT == 1, secF t2 Reg.Sec.CAUSE == 7]
    let w := { P 2 a with poisoned := true }
    ck "poison" [] [nx (execWr w { MS with net := [w] }) == respond { MS with net := [] } w .poisoned []]
  pure () : Option Unit) = some () := by decide +kernel
theorem test_memfull : (
  let w : Packet := { P 2 (A1 + 0x40) with len := 1, size := 64, firstBe := fullMask, lastBe := fullMask, data := by8 (List.range 64) }
  ck "full" [shapeOk w, (writeReqs w).map (fun x => x.mask) == [fullMask]] [takeNet { MS with net := [w] } w == some { MS with net := [] }, (wqFind MS 0 (A1 / 64 + 1)).isNone] : Option Unit) = some () := by decide +kernel
theorem test_zerofill : (
    let su := granSet MS 1024 { owner := 1, init := false }
    let s := secUpd su (fun e => { e with fills := [(1024, [P 2 A1])] })
    ck "zf" [tget [] s.sec.fills 1024 == [P 2 A1], !fbit s secBase Reg.Sec.WIN_ACTIVE, (mcGet s 0).writes == []] [nx (execZeroFillDone 1023 s) == s, nx (execRekeyDone 7 s) == s] : Option Unit) = some () := by decide +kernel
def RS (k i : Nat) : State :=
  let s := secUpd MS (fun e => { e with reset := some (k, i), held := [P 1 A1] })
  fset (fset (fset s secBase Reg.Sec.WIN_ACTIVE 1) secBase Reg.Sec.WIN_POISONED 1) secBase (Reg.Sec.PS_VALID 3) 1
theorem test_subtree_reset : (
    let s := mbUpd (RS 15 0) 1 (fun m => { m with state := 1, ropcode := 0x62, wait := .run, path := some .hpar })
    let t := nx (execSubtreeResetDone (secUpd s (fun e => { e with reset := none })))
    ck "rst" [s.sec.reset == some (15, 0), mbBusy s 1, (mbGet s 1).wait == .run, (mbGet s 1).ropcode == 0x62] [endedB t 1 0 []] : Option Unit) = some () := by decide +kernel
theorem test_subtree_reset_unasked : ∀ n, n < 32 → ¬ (mbBusy (RS 15 0) n = true ∧ (mbGet (RS 15 0) n).wait = .run ∧ (mbGet (RS 15 0) n).ropcode = 0x62) := by
  decide +kernel
theorem test_escalation : (
    let x : Gran := { owner := 3, init := true, flip := 1 }
    let s := granSet (secUpd MS (fun e => { e with zeroizing := [1,3], fills := [(1025, [P 2 A1])] })) 1026 x
    let s := granSet s 1025 { owner := 3, init := true }
    let t := nx (execEscalationZeroizeDone 3 s)
    ck "esc" [s.sec.zeroizing.contains 3, (granGet s 1026).owner == 3] [granGet t 1026 == ({ owner := 3 } : Gran), granGet t 1025 == granGet s 1025, t.sec.writes == [⟨1025, none, true, false⟩], t.sec.zeroizing == [1], nx (execEscalationZeroizeDone 2 s) == s] : Option Unit) = some () := by decide +kernel
theorem test_gt_restore : (
    let s := granSet MS 1024 { owner := 1, init := true, bad := true }; let sf := secUpd s (fun e => { e with fills := [(1024, [P 2 A1])] })
    ck "gt" [] [nx (execGtRestore 1024 s) == granSet s 1024 { owner := 1 }, nx (execGtRestore 1024 MS) == MS, nx (execGtRestore 1024 sf) == secUpd sf (fun e => { e with writes := [⟨1024, none, true, true⟩] })] : Option Unit) = some () := by decide +kernel
-- rekey: window state
def KW : State := let s := fset (fset (fset (fset MS secBase Reg.Sec.WIN_ACTIVE 1) secBase Reg.Sec.WIN_SIZE 0) secBase Reg.Sec.META_GRAN 8192) secBase Reg.Sec.WIN_BASE_G 0
  secUpd s (fun e => { e with rekeys := [(A1/4096, [P 2 A1])] })
theorem test_rekey : tget [] KW.sec.rekeys (A1 / 4096) = [P 2 A1] := by decide +kernel

end MemorySecurity

namespace Lanes

/-! Witnesses for LinkEventsMoveTheLinkState, LanesAndQuadsTakeTheirEvents. -/

-- lanes
theorem test_link : (do for (m : Nat) in ([1,2,5,0x10,0x20] : List Nat) do for fr in [3,7] do
   let l : Lane := ⟨33,0⟩; let n := laneNo l; let b := lb n
   let base := fset (fset (fset (fset W1 b Reg.Lane.MODE m) b Reg.Lane.FAIL_RUN fr) b Reg.Lane.ATTEMPT 2) b Reg.Lane.PSTATE 0
   let at' := fun (k : Nat) => fset base b Reg.Lane.LINK_STATE k
   let first := fun (m : Nat) => if m = 0x20 then 2 else if rawMode m then 3 else 1
   let abandoned := fun (t : State) (cause : Nat) => linkState t n = 7 && fget t b Reg.Lane.PSTATE = 1 && fget t b Reg.Lane.LAST_CAUSE = cause && fget t b Reg.Lane.ATTEMPT = 3 && fget t b Reg.Lane.ABANDON_CNT = 1 && fget t b Reg.Lane.WAIT_LEFT = laneWait t n
   let failed := fun (t : State) (cause : Nat) => linkState t n = (if fr + 1 < 8 then 8 else 9) && fget t b Reg.Lane.PSTATE = 2 && fget t b Reg.Lane.LAST_CAUSE = cause && fget t b Reg.Lane.FAIL_RUN = fr+1 && fget t b Reg.Lane.FAIL_CNT = 1 && fget t b Reg.Lane.ATTEMPT = 3
   let an := nx (execAnComplete l (BitVec.ofNat 8 m) (at' 1)); let anok := 1 ≤ m && m ≤ 7
   let an5 := nx (execAnComplete l 5 (laneUpd (at' 1) n (fun x => { x with adv := 16 })))
   let ld := nx (execLinkDown l (at' 5))
   let be := nx (execBackoffExpire l (at' 7)); let be8 := nx (execBackoffExpire l (at' 8)); let sd := nx (execSignalDetectRise l (at' 7))
   let vu := nx (execValidateWindow l true true (at' 4)); let tc := nx (execTrainComplete l (at' 2)); let al := nx (execAcquireLock l (at' 3))
   ck "link" [] [!anok || (if modeFits 33 0 m then laneMode an n = m && linkState an n = (if m = 1 then 4 else 2) && fbit an b Reg.Lane.SIG_DET && (groupOf n m).all (fun k => fbit an (lb k) Reg.Lane.GROUP_MEMBER && linkState an k == 0) else an == at' 1), laneMode an5 n == 5, linkState an5 n == 2, failed (nx (execTrainWaitTimeout l true (at' 2))) 3, abandoned (nx (execTrainWaitTimeout l false (at' 2))) 2,
     failed (nx (execAcquireTimeout l true (at' 3))) 5, abandoned (nx (execAcquireTimeout l false (at' 3))) 1,
     [2,3,4].all (fun k => let t := nx (execSignalLoss l (at' k)); abandoned t 1 && !fbit t b Reg.Lane.CDR_LOCK && !fbit t b Reg.Lane.SIG_DET),
     failed (nx (execValidateWindow l true false (at' 4))) 4, failed (nx (execValidateWindow l false false (at' 4))) 4, !rawMode m || linkState vu n == 5 && !fbit vu b Reg.Lane.PCS_LOCK && fget vu b Reg.Lane.UP_CNT == 1, m != 1 || fbit tc b Reg.Lane.CDR_LOCK && linkState tc n == 4, fbit al b Reg.Lane.CDR_LOCK && linkState al n == 4,
     nx (execTrainComplete l (at' 5)) == at' 5, nx (execAcquireTimeout l true (at' 5)) == at' 5, nx (execLinkDown l (at' 4)) == at' 4, nx (execBackoffExpire l (at' 4)) == at' 4, nx (execSignalLoss l (at' 5)) == fset (at' 5) b Reg.Lane.SIG_DET 0, nx (execSignalDetectRise l (at' 5)) == fset (at' 5) b Reg.Lane.SIG_DET 1,
     linkState ld n = first m && fget ld b Reg.Lane.LAST_CAUSE = 6 && fget ld b Reg.Lane.DOWN_CNT = 1 && fget ld b Reg.Lane.ATTEMPT = 0 && !fbit ld b Reg.Lane.CDR_LOCK,
     linkState be n = first m && fget be b Reg.Lane.PSTATE = 0 && fget be b Reg.Lane.WAIT_LEFT = 0 && { be with csr := base.csr, fresh := base.fresh, lane := base.lane } == { at' 7 with csr := base.csr, fresh := base.fresh }, linkState be8 n = first m, linkState sd n = first m && fbit sd b Reg.Lane.SIG_DET] : Option Unit) = some () := by decide +kernel
def qi : Nat := 1*48 + 7
def LW (run : Bool) : State :=
  let s := runI W1 qi
  let s := frameSet s (frameKey qi 1967) {data := 0}
  let s := quadUpd s 5 (fun q => { q with pst := 0, time := { sec := 77, ns := 5, sub := 2^40 } })
  let s := List.foldl (fun s f => frameSet s (frameKey qi f) { data := BitVec.ofNat 4096 (if f = 1965 + (8480+4) / 4096 then 2^((8480+4) % 4096) else 0) }) s [1965,1966,1967]
  let s := fset s (islBase qi) (Reg.Isl.SRC 0) 8
  let s := if run then fset s (islBase qi) (Reg.Isl.SRC 0) 2 else s
  fset (fset s (dieBase 1) (Reg.Die.SPINE_EN 0) 1) (lb 21) Reg.Lane.LINK_STATE 5
theorem test_words : (do
   let l : Lane := ⟨5,1⟩; let n := laneNo l; let b := lb n; let data : BitVec 512 := 0x33; let hdr : BitVec 16 := 1; let w : BitVec 512 × BitVec 16 := (data, hdr)
   let s := fset (LW true) b Reg.Lane.MODE 3; let x := laneGet s n; let so := fset (LW false) b Reg.Lane.MODE 3
   let ts := laneStamp s n Reg.Lane.TS_TX_ADJ; let put := laneUpd s n (fun x => { x with txq := x.txq ++ [wordTx s n w] })
   let sf := laneUpd so n (fun x => { x with rx := List.replicate 16 {} })
   let fr (v : State) (t : Option Nat) : State := laneUpd v n (fun x => { x with rx := x.rx ++ [⟨(wordRx v n w).1, (wordRx v n w).2, t⟩] })
   let lp := fun k => fset (fset s b Reg.Lane.LINK_STATE 10) b Reg.Lane.LOOPBACK k
   ck "words" [n == 21, linkState s n == 5, attached s 5, ltreeRuns s n, !ltreeRuns so n, txReady s n, islRuns s (quadIsl 5), holdsStart s n w, loopsBack (lp 2) n, farEnd (lp 3) n, txReady (lp 2) n, txReady (lp 3) n, ltreeRuns (lp 2) n, fbit s b Reg.Lane.GROUP_MEMBER == false]
     [nx (execTxWord l data hdr false s) == put, nx (execTxWord l data hdr true s) == laneUpd put n (fun x => { x with tsq := x.tsq ++ [ts] }), nx (execTxWord l data hdr true so) == so, nx (execTxWord l data hdr true (lp 2)) == fr (lp 2) none, nx (execTxWord l data hdr true (lp 3)) == lp 3,
      nx (execRxWord l data hdr true s) == fr s (some (laneStamp s n Reg.Lane.TS_RX_ADJ)), nx (execRxWord l data hdr false so) == fr so none, nx (execRxWord l data hdr false sf) == finc sf b Reg.Lane.RX_OVF_CNT, nx (execRxWord l data hdr true (lp 3)) == laneUpd (lp 3) n (fun x => { x with tx := w }), nx (execRxWord l data hdr true (lp 2)) == lp 2]
   let sq := laneUpd s n (fun x => { x with tsq := [8,9], inj := true }); let sp := fset s pwrBase Reg.Pwr.POLICY 1
   let si := fset sq b Reg.Lane.INJ_MODE 3; let u := fun (v : State) (h : Nat) => fset (fset v b Reg.Lane.EYE_H h) b Reg.Lane.EYE_V 0x345; let low := laneUpd sp n (fun x => { x with eyeLow := 7 }); let hot := { low with up := 60000010000 }
   let tl := nx (execRecentre l 3 0x345 { low with up := 60000010000 })
   ck "ts" [policy sp != 0, upUs hot + 1 ≥ 60000007] [nx (execTxTimestamp l sq) == laneUpd sq n (fun x => { x with tsq := [9], txTs := 8, txTsv := true }), nx (execTxTimestamp l s) == s, nx (execCtleAdapt l 9 true s) == fset (fset s b Reg.Lane.ADAPT_CONV 1) b Reg.Lane.CTLE_PEAK 9, nx (execRecentre l 0x1FF 0x345 sp) == laneUpd (u sp 0x1FF) n (fun x => { x with eyeLow := 0 }),
     nx (execRecentre l 3 0x345 sp) == laneUpd (u sp 3) n (fun x => { x with eyeLow := upUs sp + 1 }), nx (execRecentre l 3 0x345 low) == u low 3, (laneGet tl n).eyeLow == upUs hot + 1, tl.alarms.any (fun a => a.cls == clsLink && a.cause == 9), nx (execRecentre l 3 3 (fset s pwrBase Reg.Pwr.POLICY 0)) == fset s pwrBase Reg.Pwr.POLICY 0, nx (execInjectRateFire l si) == laneUpd si n (fun x => { x with flips := 1 }), nx (execInjectRateFire l sq) == sq]
   let sc := fset (fset (fset (fset si b Reg.Lane.LINK_STATE 10) b Reg.Lane.LOOPBACK 1) b Reg.Lane.PRBS_GEN 2) b Reg.Lane.PRBS_CHK 2; let tc := nx (execInjectRateFire l sc)
   ck "self" [selfChecked sc n] [fget tc b Reg.Lane.CHK_ERR_LO == 1, (laneGet tc n).flips == 1] : Option Unit) = some () := by decide +kernel
theorem test_quad : (do for (q : Fin 40) in ([33, 5] : List (Fin 40)) do for rc in [0,1] do
   let b := quadBase q.val
   let s := fset (fset (quadUpd W1 q.val (fun x => { x with pst := 0 })) b Reg.Quad.MCU_RUN 1) b Reg.Quad.REFCLK_OK rc
   let L := fun k => 4*q.val+k
   let s := fset (fset (fset (fset s (lb (L 0)) Reg.Lane.LINK_STATE 5) (lb (L 1)) Reg.Lane.LINK_STATE 9) (lb (L 2)) Reg.Lane.LINK_STATE 10) (lb (L 0)) Reg.Lane.MODE 5
   let s := fset (fset s (lb (L 3)) Reg.Lane.MODE 0x10) (lb (L 2)) Reg.Lane.MODE 0x20
   let s := laneUpd (laneUpd (laneUpd s (L 0) (fun x => { x with enabled := true })) (L 2) (fun x => { x with enabled := true })) (L 1) (fun x => { x with enabled := true })
   let first := fun (m : Nat) => if m = 0x20 then 2 else if rawMode m then 3 else 1
   let lanes := fun (P : Nat → Bool) => (List.range 4).all (fun i => P (4*q.val+i))
   let down := fun (n : Nat) => if linkState s n = 9 then 9 else 0
   let t0 := nx (execMcuReload q false s); let t1 := nx (execMcuReload q true s)
   let r := nx (execRefclkOkChange q (rc == 0) s); let tm := nx (execTimeMarker q s); let tu := nx (execTsUnsync q s)
   ck "quad" [] [!fbit t0 b Reg.Quad.MCU_RUN, lanes (fun n => linkState t0 n = down n && fget t0 (lb n) Reg.Lane.LAST_CAUSE = 7), fbit t1 b Reg.Quad.MCU_RUN, lanes (fun n => fget t1 (lb n) Reg.Lane.LAST_CAUSE = 7 && (if (laneGet s n).enabled then linkState s n = 9 || linkState t1 n = first (laneMode s n) else linkState t1 n = down n)),
     nx (execRefclkOkChange q (rc == 1) s) == fset s b Reg.Quad.REFCLK_OK rc, nx (execMcuReload q true (fset s b Reg.Quad.MCU_RUN 0)) == fset s b Reg.Quad.MCU_RUN 0, if rc = 1 then !fbit r b Reg.Quad.REFCLK_OK && !fbit r b Reg.Quad.PLL_LOCK && fget r b Reg.Quad.PLL_KHZ = 0 && lanes (fun n => linkState r n = down n) else fget s b Reg.Quad.REFCLK_OK == 0,
     tm == fset (quadUpd s q.val (fun x => { x with time := { s.tim with step := none, pps := false, ppsLeft := 0 }, markAt := s.up })) b Reg.Quad.TS_UNSYNC 0, tu == fset (fset s b Reg.Quad.TS_UNSYNC 1) b Reg.Quad.TS_UNSYNC_SEEN 1] : Option Unit) = some () := by decide +kernel

end Lanes

namespace BightAndPaths

/-! Witnesses for BightBypassesAndRingFrames, HostPathsReachTheRegisters. -/

theorem test_bight : (do for b in [false,true] do
   let up := btUp b; let s0 := W1
   let t := nx (execBightLaneUp b s0); let s1 := fflag (fflag s0 pwrBase up true) pwrBase (btEn b) true
   let r := nx (execBightRelease b s1); let nr := fflag s1 pwrBase (btEn b) false; let l := nx (execBightLaneLost b r); let w := nx (execBightWatchdog r)
   ck "bight" [!mustClose s1 b, mustClose nr b, fget s1 0 Reg.Hub.BOOT_PHASE == 6] [fbit t pwrBase up, t == fset s0 pwrBase up 1, bypassOpen r b, bypassOpen r (!b) == bypassOpen s1 (!b), nx (execBightRelease b nr) == nr, !fbit l pwrBase up, !bypassOpen l b, !bypassOpen w false, !bypassOpen w true, fget w pwrBase Reg.Bight.CLOSE_CNT == 1, w == fset (fset (finc r pwrBase Reg.Bight.CLOSE_CNT) pwrBase (btOpen false) 0) pwrBase (btOpen true) 0, nx (execBightLaneUp b t) == t, nx (execBightWatchdog s0) == s0, btReady l b == 1, nx (execBightRelease b (fset (nx (execBightLaneUp b l)) pwrBase (btEn b) 1)) == fset (nx (execBightLaneUp b l)) pwrBase (btEn b) 1]
   let fr := fun (dst src : Nat) => (let p := by8 [dst, src, 3, 4, 5]; p ++ natLe (crc32c p).toNat 4)
   for me in [5] do for (dst,src) in ([(5,7),(0xFF,7),(0xFF,5),(6,5),(6,7)] : List (Nat × Nat)) do for k in [0,7,8] do
     let s := { fset r pwrBase Reg.Bight.RING_ADDR me with bight := { r.bight with rx := List.replicate k (b, by8 [1]), tx := some (b, by8 [9]) } }
     let f := fr dst src; let t := nx (execRingFrameReceive b f s); let bad := f.set 3 0x77; let tb := nx (execRingFrameReceive b bad s)
     ck "ring" [bypassOpen s b, ringCrcOk f, !ringCrcOk bad, 7 ≤ f.length] [if dst ≠ me ∧ dst ≠ 0xFF then t == answerBytes s .okay (if src = me then [] else f) else if k < 8 then t.bight.rx == s.bight.rx ++ [(b, f.take (f.length - 4))] && t.bight.tx == s.bight.tx && t.rsp == (⟨.okay, 0, if dst = me ∨ src = me then [] else f⟩ : Rsp) && fget t pwrBase Reg.Bight.RX_WAIT = (k+1) % 2 ^ Reg.Bight.RX_WAIT.wd else t.bight == s.bight && fget t pwrBase Reg.Bight.RX_DROP_CNT == 1,
       tb == answerBytes (finc s pwrBase Reg.Bight.RX_CRC_CNT) .okay (if dst = me ∨ src = me then [] else bad), nx (execRingFrameInsert false s) == s, nx (execRingFrameInsert true r) == r]
     let ti := nx (execRingFrameInsert true s); ck "ins" [] [ti.bight.tx == none, ti.rsp == (⟨.okay, 0, by8 [9]⟩ : Rsp), !fbit ti pwrBase Reg.Bight.TX_BUSY, ti.bight.rx == s.bight.rx]
     ck "closed" [!bypassOpen W1 b] [nx (execRingFrameReceive b f W1) == W1] : Option Unit) = some () := by decide +kernel
def PW : State := let s := { W1 with plan := [{ rP0 with fns := 0 }, { rP1 with fns := 1 }] }
  pcieUpd s 0 (fun x => { x with perst := false, up := true })
def PL : State := fflag PW (pcieBase 0 0) Reg.Pcie.DL_UP true
theorem test_perst : (do
   let t := nx (execPerstRelease 1 PW); ck "perst" [(pcieGet PW 1).perst] [!(pcieGet t 1).perst, { t with pcie := PW.pcie } == PW] : Option Unit) = some () := by decide +kernel
theorem test_linkup : (do
   for (sp,w,fl) in ([(6,16,true),(5,8,false),(6,1,false),(0,1,true),(7,1,true),(3,3,false)] : List (Nat × Nat × Bool)) do
     let sp' : BitVec 3 := BitVec.ofNat 3 sp; let w' : BitVec 5 := BitVec.ofNat 5 w; let s := PW; let t := nx (execDataLinkUp 0 0 sp' w' fl s); let b := pcieBase 0 0
     ck "dl" [0 < pcieLinks s 0] [if linkSettles s 0 sp w fl then t == fset (fset (fset (fset s b Reg.Pcie.SPEED sp) b Reg.Pcie.WIDTH w) b Reg.Pcie.FLIT (if fl then 1 else 0)) b Reg.Pcie.DL_UP 1 else t == s] : Option Unit) = some () := by decide +kernel
theorem test_pcie_config : (do
   let s := fset PL (pcieBase 0 0) Reg.Pcie.BIFUR 1; let s2 : State := { s with boot := { s.boot with dmc := false } }; let b := pcieBase 0 0
   let t := nx (execPcieConfigRequest 0 0 0 s)
   ck "cfg" [linkLive s 0 0, pciePer s 0 < 8, fnHolder s 0 (pcieFn s 0 0 0) == 1] [nx (execPcieConfigRequest 0 0 7 s) == answer (finc s b Reg.Pcie.UR_CNT) .decodeErr 0, nx (execPcieConfigRequest 0 0 0 s2) == answer (finc s2 b Reg.Pcie.RRS_CNT) .none 0, t == answer s .okay t.rsp.data, t.rsp.data.toNat / 65536 == 0x9680, nx (execPcieConfigRequest 0 0 0 (partUpd s 1 (fun x => { x with state := 1 }))) == answer (finc (partUpd s 1 (fun x => { x with state := 1 })) b Reg.Pcie.RRS_CNT) .none 0, nx (execPcieConfigRequest 0 1 0 s) == s] : Option Unit) = some () := by decide +kernel
theorem test_pcie_bar : (do
   let s := PL; let b := pcieBase 0 0
   let st := partUpd s 1 (fun x => { x with state := 3 }); let ts := nx (execPcieBarAccess 0 0 0 2 0x10 false [] 4 st)
   let o : BitVec 39 := 8; let r := csrRead s 1 8 4; let tr := nx (execPcieBarAccess 0 0 0 2 o false [] 4 s)
   let mbo : BitVec 39 := BitVec.ofNat 39 (mbBase 1 + 8); let w := csrWrite ⟨some (.pcie 0 0 0), false⟩ s 1 (mbBase 1 + 8) 4 0x04030201; let tw := nx (execPcieBarAccess 0 0 0 2 mbo true (by8 [1,2,3,4]) 0 s)
   ck "bar2" [pathPart s (.pcie 0 0 0) == some 1, r.1 == Resp.okay, w.1 == Resp.okay] [ts.rsp.resp == Resp.domainOff, fget ts b Reg.Pcie.CA_CNT == 1, tr == answerBytes r.2.2 .okay (natLe r.2.1.toNat 4), tw == answerBytes w.2 .okay []]
   let bar := fun (i : Fin 6) (o : Nat) (w : Bool) (d : List Nat) (n : Nat) (s : State) => nx (execPcieBarAccess 0 0 0 i (BitVec.ofNat 39 o) w (by8 d) (BitVec.ofNat 10 n) s)
   let ur := answer (finc s b Reg.Pcie.UR_CNT) .decodeErr 0; let fn := pcieFn s 0 0 0; let pend := fnUpd s fn (fun x => { x with pba := 2 })
   let x := inject s (memPacket ⟨0,0,0,false,[]⟩ 1 (64 + mfGet s 0x24A 2 * 2^30) [] 128); let tm := bar 0 0x1001C true [0,0,0,0] 0 pend
   let r0 := csrRead s 1 (0x10000 + 0x108) 4
   ck "bars" [x.1, 64 + 128 ≤ 2 ^ (30 + mfGet s 0x248 1), r0.1 == .okay, mbHolder s 1 == 1, (fnGet pend fn).pba.testBit 1, 0 < pciePer s 0] [bar 1 0 false [] 4 s == ur, bar 5 0 true [1] 4 s == ur, bar 2 (2^28) false [] 4 s == ur, bar 0 0x108 false [] 4 s == answerBytes r0.2.2 .okay (natLe r0.2.1.toNat 4), bar 0 0x108 false [] 4 st == answerBytes (csrRead st 1 0x10108 4).2.2 .okay (natLe (csrRead st 1 0x10108 4).2.1.toNat 4),
     bar 0 8 false [] 4 st == answer (finc st b Reg.Pcie.CA_CNT) .domainOff 0, bar 4 64 false [] 128 s == x.2, bar 4 (2^38) false [] 64 s == ur, bar 0 0x1001C false [] 4 s == answer s .okay 1, bar 0 0x10018 true [1,2,3,4] 0 s == answer (fnUpd s fn (fun x => { x with table := [(6, 0x04030201)] })) .okay 0, bar 0 0x1001C true [1,0,0,0] 0 s == answer s .okay 0,
     tm.msi == s.msi ++ [(fn, 1)], !(fnGet tm fn).pba.testBit 1, nx (execPcieBarAccess 0 1 0 2 o false [] 4 s) == s] : Option Unit) = some () := by decide +kernel
theorem test_i2c : (do
   let s := W1; let i2c := pathPart s .i2c
   let r := csrRead s 1 (mbBase 1 + 4) 4
   ck "i2c" [i2c == some 1, mbReach s .i2c 1 1, !mbReach s .i2c 1 0] [nx (execI2cTransaction 0 4 true [] 3 s) == answer s .partErr 0, nx (execI2cTransaction 33 4 false [] 3 s) == answer s .partErr 0, nx (execI2cTransaction 1 0 true (by8 [5,0,0,0]) 0 s) == answer (csrWrite ⟨some .i2c, false⟩ s 1 (mbBase 1) 4 5).2 .okay 0, nx (execI2cTransaction 1 4 false [] 4 { s with pwr := { s.pwr with dormant := true } }) == answer { s with pwr := { s.pwr with dormant := true } } .partErr 0, nx (execI2cTransaction 1 4 false [] 4 s) == answerBytes r.2.2 .okay (natLe r.2.1.toNat 4)] : Option Unit) = some () := by decide +kernel
theorem test_host_port : (do
   let s := W1
   for h in [false,true] do
     let p : Path := if h then .hspi else .hpar; let r := csrRead s 1 8 4; let w := csrWrite ⟨some p, false⟩ s 1 (mbBase 1) 4 9; let sn := setCfgState s 0
     ck "host" [pathPart s p == some 1, pathPart sn p == none] [nx (execHostRegisterAccess h false 8 0 s) == answer r.2.2 r.1 r.2.1, nx (execHostRegisterAccess h true (BitVec.ofNat 32 (mbBase 1)) 9 s) == answer w.2 w.1 0, nx (execHostRegisterAccess h true 0 0 sn) == sn] : Option Unit) = some () := by decide +kernel

end BightAndPaths

namespace Mailboxes

/-! Witnesses for MailboxDoorbellsFollowTheirRules, SessionAndIdentityCommands. -/

theorem test_devInfo : (let r := q1n []; let t := nx (execDevInfo r W1); let rsp := (mbGet t 1).rsp
  ck "devInfo" [accB W1 0x01 r 1] [endC t 1 0, rsp.length == 36, leAt rsp 0 4 == fget W1 0 Reg.Hub.IDCODE % 2^32, leAt rsp 32 4 == fget W1 0 Reg.Hub.GENERATION, t.csr == W1.csr] : Option Unit) = some () := by decide +kernel
theorem test_ifLevel : (let r := q1n [3]; let r2 := q1n [1]; ck "ifLevel" [accB W1 2 r 1, accB W1 2 r2 1] [endedB (nx (execIfLevel r W1)) 1 0 [3], endedB (nx (execIfLevel r2 W1)) 1 3 []] : Option Unit) = some () := by decide +kernel
theorem test_attach : (let r := q1n ([0,0] ++ le 100 2 ++ List.range 16); let rb := q1n ([2,0] ++ le 100 2 ++ z 16); let rr := q1n ([1,0] ++ le 100 2 ++ z 16); let t := nx (execAttach r W1); let id := leAt (mbGet t 1).rsp 0 2
  let W2 := { W1 with sessions := W1.sessions ++ [{ id := 7, part := 1, path := .hpar, lease := 0 }] }; let S3 := partUpd W1 1 (fun x => { x with state := 3, escalated := true, stopAt := 1 }); let S3 := { S3 with up := 5, plan := [rP0, { rP1 with islands := [], eisl := [], quads := 0 }] }
  let t3 := nx (execAttach rr S3); let tb := nx (execAttach rb W1)
  ck "attach" [accB W1 0x10 r 1, liveSessions W1 1 < (planGet W1 1).maxSess, accB W2 0x10 r 1, (planGet W2 1).maxSess ≤ liveSessions W2 1, accB S3 0x10 rr 1, accB W1 0x10 rb 1]
   [1 ≤ id, W1.sessions.all (fun x => x.id != id), t.sessions == W1.sessions ++ [⟨id,1,.hpar,100,by8 (List.range 16),W1.up + 1⟩], endedB t 1 0 (natLe id 2 ++ [byte 1, byte (liveSessions W1 1 + 1), byte (partGet W1 1).state]), t.parts == W1.parts,
    endedB (nx (execAttach r W2)) 1 5 [], (nx (execAttach r W2)).sessions == W2.sessions, endedB tb 1 3 [], endC t3 1 0, (partGet t3 1).state == 2, !(partGet t3 1).escalated] : Option Unit) = some () := by decide +kernel
theorem test_detach : (let r := q1 [0,1]; let t := nx (execDetach r W1); let W4 := { W1 with sessions := W1.sessions ++ [{ id := 9, part := 1, path := .i2c, lease := 0 }], plan := [rP0, { rP1 with islands := [], eisl := [], quads := 0 }] }; let t3 := nx (execDetach (q1 [3,1]) W4)
  ck "detach" [accB W1 0x11 r 1, accB W4 0x11 (q1 [3,1]) 1] [endC t 1 0, t.sessions == (sampled W1 0x11 r).sessions.filter (fun x => !(x.part == 1 && x.id == 6)), t.parts == W1.parts, endC t3 1 0, t3.sessions == W1.sessions.filter (fun x => x.part != 1), (partGet t3 1).state == 3, (partGet t3 1).cause == 3,
    endedB (nx (execDetach (q1 [0,0]) W1)) 1 4 [], endedB (nx (execDetach (q1 [4,1]) W1)) 1 3 []] : Option Unit) = some () := by decide +kernel
theorem test_partInfo : (let r := q1 ([1,0,0,0] ++ le 1024 4 ++ le 2 4); let W4 := granSet W1 1024 { owner := 1, init := true }; let t := nx (execPartInfo r W4); let x := (mbGet t 1).rsp
  ck "partInfo" [accB W4 0x12 r 1] [endC t 1 0, x.length == 106, pb x 0 == 1, pb x 1 == 2, pb x 104 == 33, pb x 105 == 255, endedB (nx (execPartInfo (q1 ([0,0,0,0] ++ le 1024 4 ++ le 2 4)) W4)) 1 4 [], endedB (nx (execPartInfo (q1 ([1,0,0,0] ++ le 1024 4 ++ le 129 4)) W4)) 1 3 []] : Option Unit) = some () := by decide +kernel
theorem test_echo : (let r := q1n [1,2,3]; ck "echo" [accB W1 0xF1 r 1] [endedB (nx (execEcho r W1)) 1 0 (by8 [1,2,3])] : Option Unit) = some () := by decide +kernel
-- abort: P1 holds mailbox 1 and (say) 2
def W3 : State := let s := { W1 with plan := [rP0, { rP1 with mailboxes := 6 }] }; mbUpd s 2 (fun m => { m with state := 1, ropcode := 0x42, rseq := 7, rsession := 6, wait := .run, path := some .hpar, cmd := by8 ([1,0,0,0,0,0,0,0] ++ le 5 4) })
def W3b : State := mbUpd W3 2 (fun m => { m with ropcode := 0x61 })
theorem test_abort : (let r := q1 ([2,0] ++ le 7 2); let t := nx (execAbort r W3); let t2 := nx (execAbort r W3b); let Wm : State := { W3 with pending := [.commandComplete 2 .ok] }; let Wo := mbUpd W3 2 (fun m => { m with rsession := 9 })
  ck "abort" [completesNow Wm 2, accB W3 0xF0 r 1, mbHolder W3 2 == 1, mbBusy W3 2, stoppable 0x42, !stoppable 0x61, accB W3b 0xF0 r 1] [endedB t 1 0 [], endC t 2 7, endedB t2 1 6 [], mbGet t2 2 == mbGet W3b 2, endedB (nx (execAbort r Wm)) 1 6 [], mbGet (nx (execAbort r Wm)) 2 == mbGet Wm 2, endedB (nx (execAbort (q1 ([0,0] ++ le 7 2)) W3)) 1 4 [], endedB (nx (execAbort (q1 ([2,0] ++ le 8 2)) W3)) 1 3 [], endedB (nx (execAbort r Wo)) 1 4 []] : Option Unit) = some () := by decide +kernel
-- MailboxDoorbells
theorem test_mb1 : (let r := q1n []; let s := setCfgState W1 0; ck "mb1" [pathPart s r.path == none] [nx (execDevInfo r s) == answer s .none 0] : Option Unit) = some () := by decide +kernel
theorem test_mb2 : (let r := { q1n [] with mb := 0 }; ck "mb2" [mbReach W1 r.path 1 0 == false] [nx (execDevInfo r W1) == answer W1 .partErr 0] : Option Unit) = some () := by decide +kernel
theorem test_mb3 : (let r := q1n []; let s := mbUpd W1 1 (fun m => { m with state := 1 }); ck "mb3" [slotClosed s 1] [nx (execDevInfo r s) == answer s .okay 0] : Option Unit) = some () := by decide +kernel
theorem test_mb4 : (let r := q1n []; let s := { W1 with boot := { W1.boot with dmc := false } }; let t := nx (execDevInfo r s); ck "mb4" [] [(mbGet t 1).bell == some .hpar, (mbGet t 1).state == 0, { t with mb := s.mb, rsp := s.rsp } == s] : Option Unit) = some () := by decide +kernel
theorem test_mb5 : (let r := q1 []; let s := mbUpd W1 1 (fun m => { m with state := 1, path := some .i2c }); let t := nx (execAbort r s); ck "mb5" [mbBusy s 1] [(mbGet t 1).abortSeen, (mbGet t 1).abortCode == 4, (mbGet t 1).state == 1] : Option Unit) = some () := by decide +kernel
theorem test_mb6 : (let r := { q1n [] with session := 3 }; let t := nx (execDevInfo r W1); ck "mb6" [offB W1 r 1, cmdGate W1 (cmdOf 1 r 1) == some (4, detail 7 0 0)] [endedB t 1 4 [], (mbGet t 1).detail == detail 7 0 0, (mbGet t 1).doneCnt == 1, t.sessions == (sampled W1 1 r).sessions, t.csr == W1.csr] : Option Unit) = some () := by decide +kernel
theorem test_mb7 : (let r := q1n []; let t := nx (execBadOpcode r 0x99 W1); ck "mb7" [offB W1 r 1, (cmdRow 0x99).isNone] [endedB t 1 2 []] : Option Unit) = some () := by decide +kernel
theorem test_mb8 : (let r := q1n []; let b := mbUpd W1 1 (fun m => { m with state := 1, ropcode := 0x42, wait := .run, path := some .hpar, cmd := by8 ([1,0,0,0,0,0,0,0] ++ le 5 4) }); let nb := mbUpd b 1 (fun m => { m with ropcode := 0x61 })
  let t := nx (execAbort r b); let u := nx (execAbort r nb); let h := mbUpd W1 1 (fun m => { m with bell := some .hpar })
  ck "mb8" [mbBusy b 1, !completesNow b 1, slotClosed h 1, !mbBusy h 1, !doneNow h 1] [(mbGet t 1).abortSeen, (mbGet t 1).abortCode == 0, (mbGet t 1).state == 2, (mbGet t 1).code == 7, (mbGet u 1).abortSeen, (mbGet u 1).abortCode == 6, (mbGet u 1).state == 1, nx (execAbort r h) == mbUpd (answer h .okay 0) 1 (fun m => { m with abortBell := some .hpar })] : Option Unit) = some () := by decide +kernel

end Mailboxes

namespace RegionsAndLinks

/-! Witnesses for RegionAndEngineCommands, LinkCommands. -/

def free (s : State) (op : Nat) (r : MbReq) (part : Nat) : Bool := objsFree s (cmdOf op r part)
def S5 : State := runI (runI W4 5) 6
def rl (op : Nat) : MbReq := q1 ([0, 2, 5, 6] ++ z 10 ++ (if op = 0x20 then z 2 ++ le A1 8 ++ le 40 4 ++ z 4 else []))
def may (s : State) (op : Nat) (r : MbReq) : List Bool := [accB s op r 1, holdsRegion s (cmdOf op r 1), regionOk (cmdOf op r 1), splicesWhole s (regionIslands r.payload), dieOut s (pb r.payload 0) == false, free s op r 1]
theorem test_regionLoad : (let s := S5; let r := rl 0x20; let t := nx (execRegionLoad r s); let l := t.load.getD (newLoad s false false false 0 0 0)
  ck "regionLoad" (may s 0x20 r ++ [s.load.isNone, descAt r.payload 16 == some (A1, 40), descPermit s 1 A1 40 == .okay]) [inSvB t 1 0x20, l.partialLoad, l.mb == 1, l.die == 0, l.islands == 32 + 64, l.stage == 0, t.isl == s.isl, t.csr == s.csr, t.frames == s.frames] : Option Unit) = some () := by decide +kernel
theorem test_regionUnload : (let s := setIslState S5 6 2; let r := rl 0x21; let t := nx (execRegionUnload r s)
  ck "regionUnload" (may s 0x21 r) [inSvB t 1 0x21, (nocGet t 5).kind == 3, (nocGet t 6).kind == 3, islState t 5 == 1, islState t 6 == 2, (islGet t 5).image] : Option Unit) = some () := by decide +kernel
theorem test_regionStatus : (let s := S5; let r := rl 0x22; let t := nx (execRegionStatus r s)
  ck "regionStatus" (may s 0x22 r) [endedB t 1 0 ((regionIslands r.payload).flatMap (fun k => [byte (regionState s k), byte (islState s k), 0, 0] ++ natLe (islGet s k).imageHash.toNat 4)), t.csr == s.csr] : Option Unit) = some () := by decide +kernel
def S6 : State := eisUpd W4 3 (fun e => { e with pst := 0, hold := true })
def el : MbReq := q1 ([0, 3] ++ le 0x3 2 ++ [2] ++ z 11 ++ le A1 8 ++ le 40 4 ++ z 4)
theorem test_engine_image : (parseImg (by8 img)).map (·.level) = some 1 := by decide +kernel
/-! The witness for the load of a good image. Its one line waits in the write queue of its channel, encrypted; what a descriptor read
gives of it is decrypted by `xtsDec_xtsEnc`, since the kernel does not evaluate AES. -/

/-- A read of at most one line that a write waiting in the queue of the channel answers. -/
theorem dmcRead_queued (s : State) (part a n : Nat) (x : Gran) (w : MWrite) (hn : 0 < n) (h64 : n ≤ 64) (ha : a % 64 = 0) (hk : a % 1024 + n ≤ 1024)
    (h1 : (decide (8 ≤ a / 2 ^ 36) || mcState s (a / 2 ^ 36) == 4 || (decide (2 ≤ mcState s (a / 2 ^ 36)) && decide (mcLines s (a / 2 ^ 36) ≤ (a + (n - 1)) % 2 ^ 36 / 64))) = false)
    (h2 : granGet s (granOf a) = x) (h3 : x.flip = 0) (h3b : x.bad = false) (h4 : ¬ (x.owner ≠ part ∨ 16 < part)) (h5 : x.init = true)
    (h6 : (decide (mcState s (a / 2 ^ 36) < 2) || (mcGet s (a / 2 ^ 36)).standby || (partGet s part).escalated || (partGet s part).state == 3 || !fbit s secBase Reg.Sec.KEY_READY) = false)
    (h7 : inWin s (64 * (a / 64)) = false) (h8 : mcState s (a / 64 / 2 ^ 30) ≠ 3) (h9 : wqFind s (a / 64 / 2 ^ 30) (a / 64 % 2 ^ 30) = some w) (h10 : w.mask = fullMask)
    (h11 : resetCovers s a = false) (h12 : tget [] s.sec.fills (granOf a) = []) (h13 : tget [] s.sec.rekeys (a / 4096) = []) :
    dmcRead s part a n = (.okay, (natLe (xtsDec (outKeys s) (a / 64) w.data).toNat 64).take n, finc s (mcBase (a / 64 / 2 ^ 30)) Reg.Mc.FWD_CNT) := by
  have hl : lineLoad s (a / 64) = (w.data, 0, finc s (mcBase (a / 64 / 2 ^ 30)) Reg.Mc.FWD_CNT) := by
    simp only [lineLoad, mcLoad, mcExit, if_neg h8, h9, if_pos h10]
  have hr : readLine s (a / 64) = (.data (xtsDec (outKeys s) (a / 64) w.data), finc s (mcBase (a / 64 / 2 ^ 30)) Reg.Mc.FWD_CNT) := by
    simp [readLine, h7, hl]
  have hlines : (a + n - 1) / 64 - a / 64 + 1 = 1 := by omega
  have hc : dmcChunk s part a n = (.okay, (natLe (xtsDec (outKeys s) (a / 64) w.data).toNat 64).take n, finc s (mcBase (a / 64 / 2 ^ 30)) Reg.Mc.FWD_CNT) := by
    unfold dmcChunk
    simp only [h1, granUse, h2, h3, h3b, if_neg h4, h6, hlines, dmcWaits, h11, h12, h13, if_true, Bool.false_eq_true, if_false, List.isEmpty_nil]
    simp [readLines, h5, hr, rdResp, rdData, isErr, ha]; decide
  have hm : min n (1024 - a % 1024) = n := by omega
  have h0 : n / 1024 = 0 := by omega
  simp only [dmcRead, h0, dmcReads, hm, hc, if_neg (show n ≠ 0 by omega), if_true, Nat.sub_self]
  simp
def imgLine : BitVec 512 := BitVec.ofNat 512 (leNat (by8 img))
def qw : MWrite := ⟨A1 / 64, fullMask, xtsEnc (keySet 0x1234 0xFFFFFFFFFFFFFFFF 0) (A1 / 64) imgLine, 0, []⟩
def SG : State := eisUpd (mcUpd (memOn W1) 0 (fun m => { m with writes := [qw] })) 3 (fun e => { e with pst := 0, hold := true })
theorem sampled_mc (s : State) (op : Nat) (r : MbReq) : (sampled s op r).mc = s.mc := by simp only [sampled, renew]; split <;> rfl
theorem sampled_sec (s : State) (op : Nat) (r : MbReq) : (sampled s op r).sec = s.sec := by simp only [sampled, renew]; split <;> rfl
theorem SG_writes : (mcGet SG 0).writes = [qw] := rfl
theorem SG_key : outKeys (sampled SG 0x30 el) = keySet 0x1234 0xFFFFFFFFFFFFFFFF 0 := rfl
theorem SG_reads : dmcRead (sampled SG 0x30 el) 1 A1 40 = (.okay, by8 img, finc (sampled SG 0x30 el) (mcBase 0) Reg.Mc.FWD_CNT) := by
  rw [dmcRead_queued (sampled SG 0x30 el) 1 A1 40 { owner := 1, init := true } qw (by decide) (by decide) (by decide) (by decide) (by decide +kernel) (by decide +kernel)
    (by decide) (by decide) (by decide) (by decide) (by decide +kernel) (by decide +kernel) (by decide +kernel)
    (by unfold wqFind mcGet; rw [sampled_mc]; have := SG_writes; unfold mcGet at this; rw [show A1 / 64 / 2 ^ 30 = 0 from by decide, this]; rfl) rfl (by decide +kernel) rfl rfl]
  rw [SG_key, show qw.data = xtsEnc (keySet 0x1234 0xFFFFFFFFFFFFFFFF 0) (A1 / 64) imgLine from rfl, xtsDec_xtsEnc]
  rw [show (natLe imgLine.toNat 64).take 40 = by8 img from by decide +kernel]
  rfl
theorem test_engineLoad : (let s := SG; let r := el; let v := finc (sampled SG 0x30 el) (mcBase 0) Reg.Mc.FWD_CNT
  ck "engineLoad" [accB s 0x30 r 1, holdsEngines s (cmdOf 0x30 r 1), enginesOk (cmdOf 0x30 r 1), dieOut s 0 == false, free s 0x30 r 1, zeros r.payload 5 16, pb r.payload 4 < 16, (eisGet s (eisOf r.payload)).pst == 0, descAt r.payload 16 == some (A1,40), devState v == 0]
   [((parseImg (by8 img)).map (·.level)).any (· ≤ featureLevel v)] : Option Unit) = some () := by decide +kernel
theorem test_engineLoad_frame : let v := finc (sampled SG 0x30 el) (mcBase 0) Reg.Mc.FWD_CNT; v.mb = (sampled SG 0x30 el).mb ∧ v.pwr = SG.pwr := ⟨rfl, rfl⟩
/-- The same state on a device of a lower feature level. -/
def SF : State := fset SG 0 Reg.Hub.FL 0
theorem SF_reads : dmcRead (sampled SF 0x30 el) 1 A1 40 = (.okay, by8 img, finc (sampled SF 0x30 el) (mcBase 0) Reg.Mc.FWD_CNT) := by
  rw [dmcRead_queued (sampled SF 0x30 el) 1 A1 40 { owner := 1, init := true } qw (by decide) (by decide) (by decide) (by decide) (by decide +kernel) (by decide +kernel)
    (by decide) (by decide) (by decide) (by decide) (by decide +kernel) (by decide +kernel) (by decide +kernel)
    (by unfold wqFind mcGet; rw [sampled_mc]; have := SG_writes; unfold mcGet at this; rw [show A1 / 64 / 2 ^ 30 = 0 from by decide, show SF.mc = SG.mc from rfl, this]; rfl) rfl (by decide +kernel) rfl rfl]
  rw [show outKeys (sampled SF 0x30 el) = keySet 0x1234 0xFFFFFFFFFFFFFFFF 0 from rfl, show qw.data = xtsEnc (keySet 0x1234 0xFFFFFFFFFFFFFFFF 0) (A1 / 64) imgLine from rfl, xtsDec_xtsEnc]
  rw [show (natLe imgLine.toNat 64).take 40 = by8 img from by decide +kernel]
  rfl
theorem test_engineLoad_level : (let s := SF; let r := el; let v := finc (sampled s 0x30 el) (mcBase 0) Reg.Mc.FWD_CNT
  ck "engineLoad level" [accB s 0x30 r 1, holdsEngines s (cmdOf 0x30 r 1), enginesOk (cmdOf 0x30 r 1), dieOut s 0 == false, free s 0x30 r 1, (eisGet s (eisOf r.payload)).pst == 0, devState v == 0]
   [((parseImg (by8 img)).map (·.level)).any (featureLevel v < ·)] : Option Unit) = some () := by decide +kernel
theorem test_engineLoad_bad : (let s := eisUpd (granSet (memOn W1) 1024 { owner := 1 }) 3 (fun e => { e with pst := 0, hold := true }); let r := el; let t := nx (execEngineLoad r s); let sm := sampled s 0x30 r; let v := (dmcRead sm 1 A1 40)
  ck "engineLoad bad" [accB s 0x30 r 1, holdsEngines s (cmdOf 0x30 r 1), enginesOk (cmdOf 0x30 r 1), dieOut s 0 == false, free s 0x30 r 1, zeros r.payload 5 16, descAt r.payload 16 == some (A1,40), v.1 == .okay, v.2.2.mb == sm.mb, v.2.2.pwr == s.pwr, devState v.2.2 == 0, parseImg v.2.1 == none] [endedB t 1 8 []] : Option Unit) = some () := by decide +kernel
theorem test_periodSet : (let s := S6; let r := q1 ([0,3,2,3] ++ le 100 2 ++ le 7 2 ++ le 50 2 ++ le 0x5 2 ++ le 0x6 2 ++ le 0 2); 
  let s := eisUpd s 3 (fun e => { e with binds := [(1, 13), (7, 11)] }); let t := nx (execPeriodSet r s)
  ck "periodSet" [accB s 0x31 r 1, holdsEngines s (cmdOf 0x31 r 1), enginesOk (cmdOf 0x31 r 1), free s 0x31 r 1, classOk 100 7 50] [endedB t 1 0 [], tget (0,0,0) (eisGet t 3).periods 2 == (100,7,50),
   (List.range 16).all (fun k => tget 0 (eisGet t 3).binds k == if (0x5:Nat).testBit k then 2 + 8 else if (0x6:Nat).testBit k then tget 0 (eisGet s 3).binds k % 8 else tget 0 (eisGet s 3).binds k)] : Option Unit) = some () := by decide +kernel
theorem test_engineStats : (let s := { fset S6 (engBase 48) Reg.Eng.STARTS 5 with fresh := [] }; let r := q1 ([0,3] ++ le 3 2 ++ [1]); let t := nx (execEngineStats r s)
  ck "engineStats" [accB s 0x32 r 1] [endedB t 1 0 ((cmdEngines (cmdOf 0x32 r 1)).flatMap (engStats s)), fget t (engBase 48) Reg.Eng.STARTS == 0] : Option Unit) = some () := by decide +kernel
-- links
def SL : State := let s := quadUpd W1 5 (fun q => { q with pst := 0 }); fflag (fflag s (quadBase 5) Reg.Quad.REFCLK_OK true) (quadBase 5) Reg.Quad.MCU_RUN true
def ls (act mode : Nat) (l : Nat := 0) : MbReq := q1 ([1, 1, l, act, mode, 1] ++ le 3 2 ++ le (if mode = 0x10 then 2000000 else 0) 4)
def lh (s : State) (op : Nat) (r : MbReq) : List Bool := [accB s op r 1, holdsLink s (cmdOf op r 1), dieOut s 1 == false, free s op r 1, !fbit s (lb (laneOf r.payload)) Reg.Lane.GROUP_MEMBER]
theorem test_link_disable : (let s := laneUpd (fset SL (lb 20) Reg.Lane.LINK_STATE 10) 20 (fun x => { x with enabled := true }); let r := ls 0 0; let t := nx (execLinkSet r s); ck "link disable" (lh s 0x40 r) [laneOf r.payload == 20, endedB t 1 0 [], !(laneGet t 20).enabled, linkState t 20 == 0] : Option Unit) = some () := by decide +kernel
theorem test_link_enable : (do
  for m in [1,5,0x10] do
    for st in [0, 6] do
      for om in [5] do
        let s := fset (fset SL (lb 20) Reg.Lane.LINK_STATE st) (lb 20) Reg.Lane.MODE om
        let r := ls 1 m; let t := nx (execLinkSet r s)
        ck ("link enable") (lh s 0x40 r ++ [linkSettings (cmdOf 0x40 r 1), baudFits s 20 (pb r.payload 4) (leAt r.payload 6 2) (leAt r.payload 8 4)])
          [endedB t 1 0 [], (laneGet t 20).enabled, (laneGet t 20).fec == 1, (laneGet t 20).adv == 3, (laneGet t 20).rate == leAt r.payload 8 4, laneMode t 20 == m,
           linkState t 20 == (if linkState s 20 = 6 ∧ laneMode s 20 = m then 4 else if m = 0x20 then 2 else if rawMode m then 3 else 1)] : Option Unit) = some () := by decide +kernel
theorem test_link_enable_no_mcu : (let s := fflag SL (quadBase 5) Reg.Quad.MCU_RUN false; let r := ls 1 1; let t := nx (execLinkSet r s); ck "link enable no mcu" (lh s 0x40 r) [endedB t 1 8 [], t.csr == s.csr, t.lane == s.lane] : Option Unit) = some () := by decide +kernel
theorem test_link_enable_baud : (let s := fset (fset (fset SL (lb 21) Reg.Lane.MODE 2) (lb 21) Reg.Lane.PSTATE 0) (lb 21) Reg.Lane.LINK_STATE 5; let r := ls 1 1; let t := nx (execLinkSet r s); ck "link enable baud" (lh s 0x40 r ++ [!baudFits s 20 1 3 0]) [endedB t 1 3 [], t.lane == s.lane] : Option Unit) = some () := by decide +kernel
theorem test_link_hold : (let s := fset SL (lb 20) Reg.Lane.LINK_STATE 5; let r := ls 2 1; let t := nx (execLinkSet r s); let t2 := nx (execLinkSet r SL); ck "link hold" (lh s 0x40 r) [endedB t 1 0 [], linkState t 20 == 6, endedB t2 1 8 [], t2.csr == SL.csr] : Option Unit) = some () := by decide +kernel
theorem test_linkStatus : (let r := q1 [1,1,5]; let t := nx (execLinkStatus r SL); ck "linkStatus" [accB SL 0x41 r 1, holdsLink SL (cmdOf 0x41 r 1)] [t.csr == SL.csr, endedB t 1 0 (laneStatus SL 20 ++ laneStatus SL 22)] : Option Unit) = some () := by decide +kernel
theorem test_linkTest : (let r := q1 ([1,1,0,0,3,1,0,0] ++ le 0 4); let r2 := q1 ([1,1,0,0,3,1,0,0] ++ le 9 4); let t := nx (execLinkTest r SL); let t2 := nx (execLinkTest r2 SL); let s3 := fflag SL (quadBase 5) Reg.Quad.MCU_RUN false; let t3 := nx (execLinkTest r s3)
  ck "linkTest" (lh SL 0x42 r ++ [testable SL (cmdOf 0x42 r 1), patternRefused SL 20 3, accB SL 0x42 r2 1]) [linkState t 20 == 10, fget t (lb 20) Reg.Lane.PRBS_GEN == 0, endedB t 1 0 [], linkState t2 20 == 10, inSvB t2 1 0x42, endedB t3 1 8 [], t3.csr == s3.csr] : Option Unit) = some () := by decide +kernel
theorem test_linkTest_stop : (let r := q1 ([1,1,0,1,3,1,0,0] ++ le 0 4); let t := nx (execLinkTest r SL); ck "linkTest stop" (lh SL 0x42 r) [endedB t 1 8 [], t.csr == SL.csr] : Option Unit) = some () := by decide +kernel
theorem test_rgn_denied : (let s := S5; let r := q1 ([0, 2, 47, 6] ++ z 10); let r2 := q1 ([0, 2, 6, 6] ++ z 10); let t := nx (execRegionUnload r s); let u := nx (execRegionUnload r2 s)
  ck "rgn errors" [accB s 0x21 r 1, !holdsRegion s (cmdOf 0x21 r 1), accB s 0x21 r2 1, holdsRegion s (cmdOf 0x21 r2 1), !regionOk (cmdOf 0x21 r2 1)] [endedB t 1 4 [], t.csr == s.csr, endedB u 1 3 [], u.csr == s.csr] : Option Unit) = some () := by decide +kernel
theorem test_rgn_off : (let s := setIslState S5 6 4; let s2 := setIslState S5 6 1; let r := q1 ([0, 2, 5, 6] ++ z 10); let t := nx (execRegionUnload r s); let u := nx (execRegionUnload r s2)
  ck "rgn off" [accB s 0x21 r 1, !regionMoves s (regionIslands r.payload), (regionOff s (regionIslands r.payload)).isSome, regionMoves s2 (regionIslands r.payload)] [endedB t 1 8 [], t.csr == s.csr, waiting u 1, u.csr == s2.csr] : Option Unit) = some () := by decide +kernel
theorem test_linkTest_ends : (let s := fset SL (lb 20) Reg.Lane.LINK_STATE 10; let r := q1 ([1,1,0,1,3,1,0,0] ++ le 0 4); let t := nx (execLinkTest r s); ck "linkTest ends" (lh s 0x42 r ++ [fget s (lb 20) Reg.Lane.PRBS_CHK == 0]) [endedB t 1 0 (testCounts s 20), linkState t 20 == 0, fget t (lb 20) Reg.Lane.LOOPBACK == 0, (testCounts s 20).length == 20] : Option Unit) = some () := by decide +kernel

end RegionsAndLinks

namespace PowerAndRecords

/-! Witnesses for PowerAndHealthCommands, MemoryUpdateAndRecordCommands. -/

def ps (t d i st f : Nat) : MbReq := q1 [t,d,i,st,f]
def tg (s : State) (r : MbReq) : List Bool := [accB s 0x50 r 1, dieOut s (pb r.payload 1) == false, holdsDomain s (cmdOf 0x50 r 1), objsFree s (cmdOf 0x50 r 1)]
def S5 : State := runI W1 53
theorem test_pw_isl_same : (let s := S5; let r := ps 0 1 5 0 0; let t := nx (execPowerSet r s); ck "pw isl same" (tg s r ++ [spliceMembers s 53 == [53]]) [endedB t 1 0 [0], t.csr == s.csr] : Option Unit) = some () := by decide +kernel
theorem test_pw_isl_down : (let s := S5; let r := ps 0 1 5 2 1; let t := nx (execPowerSet r s); ck "pw isl down" (tg s r) [inSvB t 1 0x50, islState t 53 == 1, (nocGet t 53).kind == 2, (islGet t 53).keepBram] : Option Unit) = some () := by decide +kernel
theorem test_pw_isl_lock : (let s := setIslState S5 53 3; let r := ps 0 1 5 2 1; let t := nx (execPowerSet r s); ck "pw isl lock" (tg s r) [endedB t 1 0 [0], islState t 53 == 4] : Option Unit) = some () := by decide +kernel
theorem test_pw_isl_wake : (let s := setIslState S5 53 4; let r := ps 0 1 5 0 1; let t := nx (execPowerSet r s); ck "pw isl wake" (tg s r ++ [islMayRun s 53]) [inSvB t 1 0x50, islState t 53 == 5, (islGet t 53).pendRel] : Option Unit) = some () := by decide +kernel
theorem test_pw_eis : (let s := eisUpd W1 13 (fun e => { e with pst := 0, hold := false, binds := [(1,9)] }); let r := ps 1 1 3 2 0; let r0 := ps 1 1 3 0 0; let t := nx (execPowerSet r s); let t0 := nx (execPowerSet r0 s)
  ck "pw eis" (tg s r ++ tg s r0) [endedB t0 1 0 [0], (eisGet t0 13).pst == 0, t0.csr == s.csr, endedB t 1 0 [0], (eisGet t 13).pst == 4, (eisGet t 13).hold, (eisGet t 13).binds == [(1,9)]] : Option Unit) = some () := by decide +kernel
theorem test_pw_quad_off : (let s := laneUpd (fset (quadUpd W1 5 (fun q => { q with pst := 0 })) (lb 21) Reg.Lane.LINK_STATE 5) 21 (fun x => { x with enabled := true }); let r := ps 2 1 1 1 0; let t := nx (execPowerSet r s); ck "pw quad off" (tg s r) [endedB t 1 0 [0], (quadGet t 5).pst == 3, (List.range 4).all (fun l => linkState t (20+l) == 0 && (laneGet t (20+l)).enabled == (laneGet s (20+l)).enabled)] : Option Unit) = some () := by decide +kernel
theorem test_pw_quad_on : (let s := quadUpd W1 5 (fun q => { q with pst := 3 }); let r := ps 2 1 1 0 0; let t := nx (execPowerSet r s); ck "pw quad on" (tg s r) [endedB t 1 0 [0], (quadGet t 5).pst == 0] : Option Unit) = some () := by decide +kernel
theorem test_pw_dev_run : (let s := fset W1 pwrBase Reg.Pwr.WAKE_EN 0; let r := ps 3 0 0 0 0; let t := nx (execPowerSet r s); ck "pw dev run" [accB s 0x50 r 1, protLocked s, (planGet s 1).steward] [endedB t 1 0 [0], t.csr == s.csr, t.isl == s.isl] : Option Unit) = some () := by decide +kernel
theorem test_pw_dev_nosrc : (do for st in [3,4] do
        let s := fset W1 pwrBase Reg.Pwr.WAKE_EN (if st = 3 then 0 else 8); let r := ps 3 0 0 st 0; let t := nx (execPowerSet r s); ck "pw dev nosrc" [accB s 0x50 r 1, !(wakeSources (st == 4)).any (wakeEnabled s)] [endedB t 1 3 [], t.csr == s.csr] : Option Unit) = some () := by decide +kernel
theorem test_devState : (let s := S5; let r := q1 [1]; let t := nx (execDeviceState r s); let p := (mbGet t 1).rsp; let s0 := S5; let r0 := q0 [1]; let t0 := nx (execDeviceState r0 s0)
  ck "devState" [accB s 0x51 r 1, accB s0 0x51 r0 0] [endC t 1 0, p.length == 70, pb p 0 == 0, pb p 2 == 0xFF, pb p 4 == 1, (List.range 48).all (fun i => pb p (8 + i) == islState s (48 + i) % 256), t.csr == s.csr, endC t0 0 0, pb (mbGet t0 0).rsp (8+5) == 0, pb (mbGet t0 0).rsp 9 == 3] : Option Unit) = some () := by decide +kernel
theorem test_devState2 : (let s := S5; let r := q1 [0]; let t := nx (execDeviceState r s); let p := (mbGet t 1).rsp; ck "devState2" [] [pb p (8+47) == 0xFF, pb p (8+46) == 3] : Option Unit) = some () := by decide +kernel
theorem test_health : (let s := S5; let r := q1 [0,0]; let t := nx (execHealthRead r s); let p := (mbGet t 1).rsp; ck "health" [accB s 0x52 r 1] [endC t 1 0, p.length == 10, pb p 0 == 0, pb p 1 == policy s % 256, pb p 5 == fget s 0 Reg.Hub.DIES_FENCED % 256, t.csr == s.csr] : Option Unit) = some () := by decide +kernel
theorem test_policy0 : (let s := fset S5 pwrBase Reg.Pwr.POLICY 1; let r := q0 ([2, 0] ++ le 710 2 ++ le 850 2); let t := nx (execPolicySet r s); ck "policy0" [accB s 0x53 r 0] [endedB t 0 0 [], t.pwr.bounds == [(0, 710, 850)], t.pwr.nextPolicy == some 2, t.parts == s.parts] : Option Unit) = some () := by decide +kernel
theorem test_policy1 : (let s := S5; let r := q1 ([2, 0] ++ le 710 2 ++ le 850 2); let t := nx (execPolicySet r s); ck "policy1" [accB s 0x53 r 1] [endedB t 1 4 [], t.parts == s.parts, t.csr == s.csr] : Option Unit) = some () := by decide +kernel
def f0 (s : State) (o : Out) (code : Nat) (rsp : List Byte := []) : Bool := let t := nx o; endedB t 1 code rsp && t.csr == s.csr
def w0 (s : State) (o : Out) : Bool := let t := nx o; waiting t 1 && t.csr == s.csr
theorem test_pw_errors : (let s := S5
  ck "pw errors" [accB s 0x50 (ps 0 1 5 3 0) 1, holdsDomain s (cmdOf 0x50 (ps 0 1 5 3 0) 1), !holdsDomain s (cmdOf 0x50 (ps 0 0 47 1 0) 1), accB s 0x50 (ps 4 0 0 0 0) 1]
    [f0 s (execPowerSet (ps 4 0 0 0 0) s) 3, f0 s (execPowerSet (ps 0 0 47 1 0) s) 4, f0 s (execPowerSet (ps 0 1 5 3 0) s) 3,
     f0 s (execPowerSet (ps 3 0 0 3 2) s) 3, f0 s (execPowerSet (ps 3 0 0 1 0) s) 3] : Option Unit) = some () := by decide +kernel
theorem test_pw_meets : (let s := islUpd S5 53 (fun i => { i with wakeAt := S5.up + 1 }); let r := ps 0 1 5 1 0; let q := quadUpd W1 5 (fun q => { q with pst := 0, wakeAt := W1.up + 1 }); let rq := ps 2 1 1 1 0; let e := eisUpd W1 13 (fun e => { e with pst := 0, wakeAt := W1.up + 1 }); let re := ps 1 1 3 1 0
  ck "pw meets" (tg s r ++ [islMet (sampled s 0x50 r) [53], !islMet (sampled S5 0x50 r) [53]] ++ tg q rq ++ tg e re) [f0 s (execPowerSet r s) 0 [1], f0 q (execPowerSet rq q) 0 [1], f0 e (execPowerSet re e) 0 [1]] : Option Unit) = some () := by decide +kernel
theorem test_pw_isl_more : (let k (st : Nat) : State := setIslState S5 53 st; let d := ps 0 1 5 2 0; let u := ps 0 1 5 0 0; let h := nocUpd (k 2) 53 (fun x => { x with kind := 0 }); let g := nocUpd (k 2) 53 (fun x => { x with kind := 1 }); let n := islUpd (k 4) 53 (fun i => { i with image := false }); let t := nx (execPowerSet d h); let v := nx (execPowerSet u n)
  ck "pw isl more" [accB (k 1) 0x50 d 1, goingDown (k 1) 53, goingDown g 53, !goingDown h 53] [w0 (k 1) (execPowerSet d (k 1)), w0 g (execPowerSet d g), f0 h (execPowerSet u h) 0 [0], inSvB t 1 0x50, (nocGet t 53).kind == 2, w0 (k 5) (execPowerSet d (k 5)),
    inSvB (nx (execPowerSet u (k 5))) 1 0x50, f0 (k 4) (execPowerSet d (k 4)) 0 [0], islState (nx (execPowerSet (ps 0 1 5 1 0) (islUpd (k 4) 53 (fun i => { i with wakeFailed := true })))) 53 == 6, endedB v 1 0 [0], islState v 53 == 0] : Option Unit) = some () := by decide +kernel
theorem test_pw_more : (let e := eisUpd W1 13 (fun e => { e with pst := 3 }); let re := ps 1 1 3 2 0; let rw := ps 1 1 3 0 0; let q := quadUpd W1 5 (fun q => { q with pst := 3 }); let rq := ps 2 1 1 2 0; let t := nx (execPowerSet re e); let u := nx (execPowerSet rq q); let v := sampled e 0x50 rw; let w := eisWake (eisUpd v 13 (fun x => { x with wakeAt := e.up + 1 })) 13; let x := nx (execPowerSet rw e)
  ck "pw more" (tg e re ++ tg q rq ++ [w.2.mb == v.mb, w.2.pwr == e.pwr, devState w.2 == 0, w.1.isNone]) [endedB t 1 0 [0], (eisGet t 13).pst == 4, t.csr == e.csr, endedB u 1 0 [0], (quadGet u 5).pst == 4, u.csr == q.csr, endedB x 1 0 [0], x.eis == w.2.eis, (eisGet x 13).pst == 0] : Option Unit) = some () := by decide +kernel
theorem test_pw_sleep : (let s := fset S5 pwrBase Reg.Pwr.WAKE_EN 1; let m := { s with pwr := { s.pwr with fired := [(0, upUs s + 1)] } }; let p (st : Nat) : MbReq := ps 3 0 0 st 0
  ck "pw sleep" [accB s 0x50 (p 3) 1, protLocked s, (planGet s 1).steward, wakeMeets (sampled m 0x50 (p 3)) false (bellMeets (sampled m 0x50 (p 3)) (some 1)), !wakeMeets (sampled s 0x50 (p 3)) false (bellMeets (sampled s 0x50 (p 3)) (some 1)), !wakeMeets (sampled s 0x50 (p 4)) true (bellMeets (sampled s 0x50 (p 4)) (some 1))]
    [let t := nx (execPowerSet (p 3) m); endedB t 1 0 [1] && devState t == 0 && fget t pwrBase Reg.Pwr.SLEEP_ABORT_CNT == 1, let t := nx (execPowerSet (p 3) s); endedB t 1 0 [0] && devState t == 1 && islState t 53 == 1 && (nocGet t 53).device,
     let t := nx (execPowerSet (p 4) s); endedB t 1 0 [0] && devState t == 4 && t.pwr.wake.isNone && islState t 53 == 1 && (nocGet t 53).kind == 1] : Option Unit) = some () := by decide +kernel
theorem test_health_more : (let s := S5; let h (a b : Nat) : MbReq := q1 [a, b]
  ck "health more" [accB s 0x52 (h 1 2) 1, accB s 0x52 (h 4 0) 1] [f0 s (execHealthRead (h 1 2) s) 0 (healthHawsers s 2), f0 s (execHealthRead (h 2 0) s) 0 (healthChannels s), f0 s (execHealthRead (h 3 0) s) 0 (healthSensors s), f0 s (execHealthRead (h 4 0) s) 0 (healthSec s 1), f0 s (execHealthRead (h 5 0) s) 3, f0 s (execHealthRead (h 1 8) s) 3, f0 s (execDeviceState (q1 [8]) s) 3] : Option Unit) = some () := by decide +kernel
theorem test_policy_more : (let s := S5; let b (a lo hi : Nat) : MbReq := q1 ([a, 0] ++ le lo 2 ++ le hi 2); let u := pwrUpd s (fun p => { p with bounds := tset (0, 0) p.bounds 1 (710, 850) }); let v := pwrUpd s (fun p => { p with bounds := tset (0, 0) p.bounds 1 (850, 710) })
  ck "policy more" [accB s 0x53 (b 255 710 850) 1, boundsMeet (applyBounds u) 1, !boundsMeet (applyBounds v) 1] [f0 s (execPolicySet (b 255 690 850) s) 3, f0 s (execPolicySet (b 255 710 850) s) 0, (nx (execPolicySet (b 255 710 850) s)).pwr.bounds == u.pwr.bounds, f0 s (execPolicySet (b 255 850 710) s) 4] : Option Unit) = some () := by decide +kernel
-- memory
def M : State := memOn W1
theorem test_memAlloc : (let s := M; let r := q1 (le 1030 4 ++ le 3 4); let t := nx (execMemAlloc r s); let s2 := granSet s 1031 { owner := 1 }; let t2 := nx (execMemAlloc r s2); let r3 := q1 (le 6000 4 ++ le 3 4); let t3 := nx (execMemAlloc r3 s)
  ck "memAlloc" [accB s 0x60 r 1, objsFree s (cmdOf 0x60 r 1), rangesCover (planGet s 1).granges 5 1030 1033, takenIn s 1030 1033 == [], takenIn s2 1030 1033 != [], accB s 0x60 r3 1, !rangesCover (planGet s 1).granges 5 6000 6003]
   [endedB t 1 0 (natLe 1030 4 ++ natLe 3 4), [1030,1031,1032].all (fun g => (granGet t g).owner == 1 && (granGet t g).init == false), endedB t2 1 5 [], t2.sec == s2.sec, endedB t3 1 4 [], t3.sec == s.sec] : Option Unit) = some () := by decide +kernel
theorem test_memRelease : (let s := granSet (granSet M 1030 { owner := 1, init := true }) 1031 { owner := 1 }; let r := q1 (le 1030 4 ++ le 2 4); let t := nx (execMemRelease r s); let s2 := secUpd s (fun e => { e with reset := none, fills := [(1030, [])] }); let t2 := nx (execMemRelease r s2); let r3 := q1 (le 1030 4 ++ le 3 4); let t3 := nx (execMemRelease r3 s)
  ck "memRelease" [accB s 0x61 r 1, objsFree s (cmdOf 0x61 r 1), mayRelease s 1 1030 2, !granWork s 1030 1032, granWork s2 1030 1032, !mayRelease s 1 1030 3]
   [endedB t 1 0 [], [1030,1031].all (fun g => (granGet t g).owner == 0x1F && (granGet t g).init == false), inSvB t2 1 0x61, t2.sec == s2.sec, endedB t3 1 4 [], t3.sec == s.sec] : Option Unit) = some () := by decide +kernel
def Wn (s : State) : State := fset (fset (fset (fset s secBase Reg.Sec.WIN_ACTIVE 1) secBase Reg.Sec.WIN_EN 1) secBase Reg.Sec.WIN_BASE_G 1) secBase Reg.Sec.WIN_SIZE 0
theorem test_subtree : (let s := granSet (Wn M) ((spanGrans (Wn M) 0 0).1) { owner := 1 }; let r := q1 (z 4 ++ le 0 4); let t := nx (execSubtreeReset r s); let r2 := q1 ([14] ++ z 3 ++ le 0 4); let t2 := nx (execSubtreeReset r2 s); let r3 := q1 ([15] ++ z 3 ++ le 0 4); let t3 := nx (execSubtreeReset r3 s)
  ck "subtree" [accB s 0x62 r 1, objsFree s (cmdOf 0x62 r 1), resetOk s 0 0, resetMay s 1 0 0, accB s 0x62 r2 1, !resetOk s 14 0, resetOk s 15 0, !resetMay s 1 15 0] [inSvB t 1 0x62, t.sec == { s.sec with reset := some (0,0) }, endedB t2 1 3 [], t2.sec == s.sec, endedB t3 1 4 [], t3.sec == s.sec] : Option Unit) = some () := by decide +kernel
-- update: P0 only
def M0 : State := granSet (memOn W1) 0 { owner := 0 }
theorem test_stage : (let s := M0; let r := q0 (le 1 4 ++ [0] ++ z 11 ++ le 0 8 ++ le 4 4 ++ z 4); let t := nx (execUpdateStage r s); let sm := sampled s 0x70 r; let v := dmcRead sm 0 0 4; let s2 := { s with flash := { s.flash with ownerLock := true } }; let t2 := nx (execUpdateStage r s2)
  ck "stage" [accB s 0x70 r 0, objsFree s (cmdOf 0x70 r 0), descAt r.payload 16 == some (0,4), stageOk (cmdOf 0x70 r 0), stageBlock s true == none, v.1 == .okay, v.2.2.mb == sm.mb, v.2.2.pwr == s.pwr, devState v.2.2 == 0, v.2.2.flash == s.flash, idleSlot v.2.2 == idleSlot s]
   [inSvB t 0 0x70, (mbGet t 0).data == by8 [0,0,0,0], t.flash.staging, marker t (idleSlot s) == false, endedB t2 0 4 [], (mbGet t2 0).detail == detail 8 1 0, t2.flash == s2.flash] : Option Unit) = some () := by decide +kernel
theorem test_upStatus : (let s := { M0 with flash := { M0.flash with ownerLock := true, staging := true, sel0 := { M0.flash.sel0 with generation := 7, good := true }, sel1 := { good := false } } }; let r := q0 []; let t := nx (execUpdateStatus r s); let p := (mbGet t 0).rsp; ck "upStatus" [accB s 0x71 r 0] [endC t 0 0, p.length == 20, leAt p 0 4 == 7, pb p 4 == 1, pb p 13 == 1, t.flash == s.flash, t.csr == s.csr] : Option Unit) = some () := by decide +kernel
theorem test_ownerLock : (let s := M0; let r := q0 [1]; let t := nx (execOwnerLock r s); ck "ownerLock" [accB s 0x72 r 0] [endedB t 0 0 [], t.flash.ownerLock, t.flash.bytes == s.flash.bytes, t.csr == s.csr] : Option Unit) = some () := by decide +kernel
theorem test_jread : (let s := jEvent (jEvent (jEvent M0 0x81 1 2) 0x82 3 4) 0x83 5 6; let r := q1 (le 1 4 ++ [2]); let t := nx (execJournalRead r s); let p := (mbGet t 1).rsp; let rs := (s.flash.journal.filter (fun j => decide (1 ≤ j.index))).take 2
  ck "jread" [accB s 0x80 r 1, rs.length == 2] [endC t 1 0, pb p 0 == 2, leAt p 4 4 == (s.flash.nextJ - 1) % 2^32, p.drop 16 == rs.flatMap jBytes, t.flash == s.flash] : Option Unit) = some () := by decide +kernel
theorem test_jclear : (let s := M0; let r := q0 []; let t := nx (execJournalClear r s); ck "jclear" [accB s 0x83 r 0] [endedB t 0 0 [], t.flash.steps == [], t.flash.rates == [], t.csr == s.csr] : Option Unit) = some () := by decide +kernel
def AL : State := alarmLink (alarmHw (alarm M0 1 2 1 [1,2,3]) 4 [1]) 7 5 2
theorem test_aread : (let s := AL; let r := q1 (le 0 4 ++ [9]); let t := nx (execAlarmRead r s); let p := (mbGet t 1).rsp; let rs := ((s.alarms.filter (alarmSeen s 1)).filter (fun a => decide (0 ≤ a.seq))).take 9
  ck "aread" [accB s 0x81 r 1] [endC t 1 0, pb p 0 == rs.length, pb p 1 == 1, p.drop 16 == rs.flatMap alarmBytes, t.alarms == s.alarms] : Option Unit) = some () := by decide +kernel
theorem test_ack : (let s := AL; let r := q1 (le 2 4); let t := nx (execAlarmAck r s); let r0 := q0 (le 2 4); let s0 := { AL with alarmLost := true, lostSeq := 1 }; let t0 := nx (execAlarmAck r0 s0)
  ck "ack" [accB s 0x82 r 1, accB s0 0x82 r0 0] [endC t 1 0, t.alarms == s.alarms.map (fun a => if a.seq ≤ 2 ∧ (a.part = 1) then { a with acked := true } else a), endC t0 0 0, !t0.alarmLost, t0.alarms == s.alarms.map (fun a => if a.seq ≤ 2 then { a with acked := true } else a)] : Option Unit) = some () := by decide +kernel
theorem test_mem_errors : (let s := M; let f (o : State → Out) (c : Nat) : Bool := (let t := nx (o s); endedB t 1 c [] && t.sec == s.sec && t.csr == s.csr && t.flash == s.flash)
  ck "mem errors" [accB s 0x60 (q1 (le 1030 4 ++ le 0 4)) 1, accB s 0x61 (q1 (le 1030 4 ++ le 0 4)) 1, accB s 0x80 (q1 (le 0 4 ++ [15])) 1, accB s 0x81 (q1 (le 0 4 ++ [10])) 1]
   [f (execMemAlloc (q1 (le 1030 4 ++ le 0 4))) 3, f (execMemRelease (q1 (le 1030 4 ++ le 0 4))) 3, f (execJournalRead (q1 (le 0 4 ++ [15]))) 3, f (execAlarmRead (q1 (le 0 4 ++ [10]))) 3] : Option Unit) = some () := by decide +kernel
theorem test_mem_first : (let s := granSet M 1024 { owner := 1 }; let r := q1 (le 0xFFFFFFFF 4 ++ le 2 4); let t := nx (execMemAlloc r s); let w := secUpd M (fun e => { e with fills := [(1030, [])] }); let rw := q1 (le 1030 4 ++ le 1 4); let u := nx (execMemAlloc rw w)
  ck "mem first" [accB s 0x60 r 1, lowestRun s 1 2 == some 1025, granWork w 1030 1031] [endedB t 1 0 (natLe 1025 4 ++ natLe 2 4), (granGet t 1026).owner == 1, endedB u 1 0 (natLe 1030 4 ++ natLe 1 4), u.sec.writes == [⟨1030, some (1, false), false, false⟩], granGet u 1030 == granGet w 1030] : Option Unit) = some () := by decide +kernel
theorem test_mem_held : (let s := mbUpd M0 2 (fun m => { m with state := 1, ropcode := 0x70, wait := .run, cmd := by8 (z 32) }); let g := { s with mb := s.mb }; let r := q0 []; let t := nx (execOwnerLock (q0 [1]) g); let b := nx (execOwnerLock (q0 [2]) M0); let j := nx (execJournalClear r M0)
  ck "mem held" [accB s 0x72 (q0 [1]) 0, !objsFree s (cmdOf 0x72 (q0 [1]) 0), !journalHeld M0] [waiting t 0, t.flash == s.flash, endedB b 0 3 [], j.flash.journal.any (fun x => x.index == M0.flash.nextJ && x.code == 0x93)] : Option Unit) = some () := by decide +kernel

end PowerAndRecords

namespace Endings

/-! Witnesses for CommandsAndSessionsEnd. -/

def C1 (op : Nat) (pl : List Nat) (d : List Nat) : State := mbUpd W1 1 (fun m => { m with state := 1, ropcode := op, wait := .run, path := some .hpar, cmd := by8 pl, data := by8 d, rsession := 6 })
def now (s : State) : Bool := (List.range 33).all (fun k => !waiting s k)
theorem test_cc70 : (let s := C1 0x70 (le 1 4 ++ [0] ++ z 27) [9,8]; let t := nx (execCommandComplete 1 .ok s); ck "cc70" [mbBusy s 1, now s, stageBlock s false == none] [endedB t 1 0 (natLe 2 4), t.flash == (flashWrite s (idleSlot s) 4096 (by8 [9,8])).flash] : Option Unit) = some () := by decide +kernel
theorem test_cc61 : (let s := granSet (C1 0x61 (le 1030 4 ++ le 1 4) []) 1030 { owner := 1, init := true }; let t := nx (execCommandComplete 1 .ok s); ck "cc61" [!granWork s 1030 1031] [endedB t 1 0 [], t.sec == (releaseGrans s 1030 1).sec, (granGet t 1030).owner == 0x1F] : Option Unit) = some () := by decide +kernel
theorem test_ccfail : (let s := C1 0x61 [] []; let t := nx (execCommandComplete 1 (.failed 3 (BitVec.ofNat 8 (respCode .partErr)) 9) s); let t2 := nx (execCommandComplete 1 (.failed 2 1 9) s); ck "ccfail" [!stoppable 0x61] [endedB t 1 4 [], (mbGet t 1).detail == detail 3 (respCode .partErr) 9, t.csr == s.csr, endedB t2 1 8 [], nx (execCommandComplete 2 .ok s) == s] : Option Unit) = some () := by decide +kernel
theorem test_ct : (let s := C1 0x61 [] []; let t := nx (execCommandTimeout 1 s); ck "ct" [] [endedB t 1 9 [], mbGet t 0 == mbGet s 0, t.csr == s.csr] : Option Unit) = some () := by decide +kernel
theorem test_owt : (let s := mbUpd (C1 0x40 [0,0,0,0,0,0,0,0,0,0,0,0] []) 2 (fun m => { m with state := 1, ropcode := 0x42, wait := .run, path := some .hpar, cmd := by8 (z 12) }); let s := mbUpd s 1 (fun m => { m with wait := .object }); let t := nx (execObjectWaitTimeout 1 s); ck "owt" [waiting s 1, waiting (cmdBody (svcCmd s 1) s) 1] [endedB t 1 1 [], mbGet t 2 == mbGet s 2] : Option Unit) = some () := by decide +kernel
theorem test_lease : (let s := { W1 with sessions := W1.sessions ++ [⟨9,1,.hpar,5,[],0⟩] }; let t := nx (execLeaseExpire 9 s); ck "lease" [] [t.sessions == W1.sessions, { t with sessions := s.sessions } == s] : Option Unit) = some () := by decide +kernel
theorem test_flr : (let s := fnUpd { W1 with sessions := W1.sessions ++ [⟨9,1,.pcie 0 0 1,5,[],0⟩] } 1 (fun x => { x with pba := 3 }); let t := nx (execPathLoss (.pcie 0 0 1) .flr s); ck "flr" [(fnGet s 1).pba == 3] [t.sessions == W1.sessions, fnGet t (pcieFn s 0 0 1) == {}, { t with sessions := s.sessions, fns := s.fns } == s] : Option Unit) = some () := by decide +kernel
theorem test_linkdown : (let s := fset { W1 with sessions := W1.sessions ++ [⟨9,1,.pcie 0 0 1,5,[],0⟩] } (pcieBase 0 0) Reg.Pcie.DL_UP 1; let t := nx (execPathLoss (.pcie 0 0 1) .linkDown s); ck "linkdown" [pciePer s 0 == 8] [t.sessions == W1.sessions, !fbit t (pcieBase 0 0) Reg.Pcie.DL_UP, t.mb == s.mb] : Option Unit) = some () := by decide +kernel
set_option maxRecDepth 200000 in
theorem test_dmcRestart : (do
  for op in [0x20] do
    for sram in [true] do
      let s := setIslState (nocUpd (C1 op ([0,1,3] ++ z 30) []) 3 (fun x => { x with kind := 3 })) 3 1
      let s := { s with load := if op = 0x20 then some { newLoad s true false false 1 0 8 with stage := 2 } else none }
      let t := nx (execDmcRestart sram s)
      ck "dmcRestart" [mbBusy s 1] [t.sessions == [], endedB t 1 8 [], (mbGet t 1).detail == detail 4 0 0, mbGet t 0 == mbGet s 0,
        (t.flash.journal.getLast?.map (fun (j : JRec) => (j.code, j.detail))) == some (0x85, if sram then 2 else 1), (t.alarms.getLast?.map (fun (a : Alarm) => (a.cls, a.cause))) == some (clsHw, 4), t.boot == s.boot] : Option Unit) = some () := by decide +kernel
theorem test_ends : (let b := { C1 0x70 (le 1 4 ++ [2] ++ z 27) [9] with pwr := { W1.pwr with plantBatt := true } }; let f := C1 0x70 (le 1 4 ++ [2] ++ z 27) [9]; let u := nx (execCommandComplete 1 .ok f)
  ck "ends" [stageBlock b false == some 2, stageBlock f false == none] [endedB u 1 0 (natLe 1 4), !u.flash.staging, marker u (idleSlot f)] : Option Unit) = some () := by decide +kernel
theorem test_ends_work : (let g := secUpd (C1 0x61 (le 1030 4 ++ le 1 4) []) (fun e => { e with fills := [(1030, [evtPacket 0 0 0])] }); let r := C1 0x21 ([0, 2, 5, 6] ++ z 10) []; let d := setIslState (setIslState r 5 2) 6 2; let t := nx (execCommandComplete 1 .ok d); let w := nx (execCommandTimeout 1 (nocUpd r 5 (fun x => { x with kind := 3 })))
  ck "ends work" [granWork g 1030 1031, islState r 5 != 2] [nx (execCommandComplete 1 .ok g) == g, nx (execCommandComplete 1 .ok r) == r, endedB t 1 0 [], !(islGet t 5).image, (nocGet t 6).kind == 0, endedB w 1 9 [], (nocGet w 5).kind == 0] : Option Unit) = some () := by decide +kernel
theorem test_ends_link : (let s := fset (C1 0x42 (z 12) []) (lb 0) Reg.Lane.LINK_STATE 10; let t := nx (execCommandComplete 1 .ok s); let r := pcieUpd W1 0 (fun x => x); let v := nx (execPathLoss (.pcie 0 0 1) .perst (fset r (pcieBase 0 0) Reg.Pcie.DL_UP 1)); let h := { r with pwr := { r.pwr with hubReset := true } }
  ck "ends link" [fget s (lb 0) Reg.Lane.PRBS_CHK == 0] [endedB t 1 0 (testCounts s 0), linkState t 0 == 0, (pcieGet v 0).perst, !fbit v (pcieBase 0 0) Reg.Pcie.DL_UP, v.mb == r.mb, nx (execPathLoss (.pcie 0 0 1) .perst h) == pcieUpd h 0 (fun x => { x with perst := true }), nx (execPathLoss .hpar .flr r) == r] : Option Unit) = some () := by decide +kernel
theorem test_ends_power : (let p (st : Nat) (d : Nat) : State := setIslState (C1 0x50 [0, 1, 5, d, 0] []) 53 st; let a := nx (execCommandComplete 1 .ok (p 6 0)); let b := nx (execCommandComplete 1 .ok (p 0 0)); let c := nx (execCommandComplete 1 .ok (p 3 1))
  ck "ends power" [spliceMembers (p 6 0) 53 == [53], goingDown (p 1 1) 53, !goingDown (p 3 1) 53] [endedB a 1 8 [], (mbGet a 1).detail == detail 1 (respCode .wakeFail) 5, endedB b 1 0 [0], endedB c 1 0 [0], nx (execCommandComplete 1 .ok (p 1 1)) == p 1 1] : Option Unit) = some () := by decide +kernel
theorem test_ends_engine : (let s := eisUpd (C1 0x30 ([0, 3] ++ le 0x3 2 ++ [2] ++ z 11 ++ le A1 8 ++ le 40 4 ++ z 4) img) 3 (fun e => { e with pst := 0, hold := true }); let s := [48, 49].foldl (fun s k => engUpd s k (fun e => { e with loadWait := true })) s; let h := [48, 49].foldl (fun s k => setEngState s k 2) s; let t := nx (execCommandComplete 1 .ok s)
  ck "ends engine" [cmdEngines (svcCmd s 1) == [48, 49], !engRunning s 48, loadHeld h 48, loadHeld h 49, (parseImg (mbGet s 1).data).isSome] [endedB t 1 0 [], !(engGet t 48).loadWait, engState t 49 == 1, nx (execCommandComplete 1 .ok h) == h, nx (execCommandTimeout 1 h) == h] : Option Unit) = some () := by decide +kernel
theorem test_lease_renewed : (let s := { W1 with sessions := W1.sessions ++ [⟨9,1,.hpar,5,[],W1.up + 1⟩] }; ck "lease renewed" [] [nx (execLeaseExpire 9 s) == s, nx (execObjectWaitTimeout 3 s) == s, nx (execDmcRestart true { s with boot := { s.boot with dmc := false } }) == { s with boot := { s.boot with dmc := false } }] : Option Unit) = some () := by decide +kernel
theorem test_nothing_waits : ∀ n, waiting W1 n = false := fun _ => rfl
theorem test_no_bell : ∀ n, (mbGet W1 n).bell = none := fun _ => rfl
theorem test_nothing_waits_behind_a_command : ∀ n, waiting (C1 0x61 [] []) n = false := by
  intro n
  by_cases h : n = 1
  · subst h; decide +kernel
  · simp [waiting, mbBusy, C1, mbUpd, mbGet, tmod, tget_tset_ne _ _ _ h, show W1.mb = [] from rfl, tget]

end Endings

namespace Loads

/-! Witnesses for ConfigurationLoadsReadAndReleaseTheirImage. -/

def P (s : State) (l : LoadSt) : State := { s with load := some l, port := List.replicate 100 7 }
def L0 : LoadSt := newLoad W1 false false false 0 0 0
def WL : State := fset (fset W1 cfgBase Reg.Cfg.CFG_STATE 1) 0 Reg.Hub.BOOT_PHASE 4
/- header -/
def hdr : List Byte :=
  let l := le 0x53425A53 4 ++ le 1 2 ++ le 0 2 ++ [1, 2] ++ le 1 2 ++ le 0x9680 4 ++ z 8 ++ le 0x1122334455 16 ++ z 16 ++ le 0 24 
  let l := l ++ z (0x50 - l.length) ++ le 0x500 4 ++ z 12
  let l := l ++ [1,0,0,0] ++ le 0x3C0 4 ++ le 0x100 4 ++ le 1 4 ++ le 8 8 ++ z 8
  by8 (l ++ z (0x3A0 - l.length))
def ic : ImageCheck := { keyOk := true, sigOk := true, hashOk := 0xFF, tagOk := 0xFF }
theorem test_header : (let s := { P WL L0 with fuses := { W1.fuses with speed := 2 } }; let t := nx (execImageHeader hdr ic s); let x := t.load.getD L0
  ck "header" [headerFail s L0 hdr ic == none] [t.frames == s.frames, t.csr == s.csr, x.stage == 1, x.flags == 0, x.designId == 0x1122334455, x.segs == segsOf hdr, x.partialLoad == false] : Option Unit) = some () := by decide +kernel
theorem test_header_bad : (do for g in [0, 100] do
      let s := { P WL L0 with fuses := { W1.fuses with speed := 2 }, boot := { W1.boot with manifest := by8 (z (0x28 + 64*6) ++ le g 4) }, frames := [(5, {})] }; let ck' := { ic with sigOk := false }; let t := nx (execImageHeader hdr ck' s)
      ck "header bad" [(headerFail s L0 hdr ck').map (fun (f : LoadFail) => f.code) == some 6, partLen s 6 == g] [t.frames == [], fget t cfgBase Reg.Cfg.ERR_CODE == 6, fbit t cfgBase Reg.Cfg.ERR_VALID, fget t cfgBase Reg.Cfg.OP_ERR_CODE == 6,
        if g = 0 then cfgState t == 4 && t.load.isNone else cfgState t == 1 && (t.load.map (fun (x : LoadSt) => (x.golden, x.stage))) == some (true, 0)] : Option Unit) = some () := by decide +kernel
def L1 : LoadSt := { L0 with stage := 1, segs := [⟨1, 0x3C0, 100, 1, 8⟩, ⟨2, 0x800, 80, 0, 0⟩] }
def ad (d i f : Nat) : Word := BitVec.ofNat 32 (d * 2^17 + i * 2^11 + f)
theorem test_frames : (let s := P WL L1; let t := nx (execFrames 5 (ad 1 3 100) s); ck "frames" [addrOk L1 5 (ad 1 3 100).toNat] [t == { s with port := s.port.drop 8, load := some { L1 with addr := (ad 1 3 100).toNat, left := 5, bytes := 8 } }] : Option Unit) = some () := by decide +kernel
def wsz : List Word := List.replicate 128 0
set_option maxRecDepth 200000 in
theorem test_frameRec : (let a := (ad 1 3 100).toNat; let l := { L1 with addr := a, left := 5, written := 2 }; let s := P WL l; let ws := (1 : Word) :: List.replicate 127 0
  let t := nx (execFrameRecord (ws ++ [0]) s)
  ck "frameRec" [ws.length == 128, !discards s l, frameChecks s (addrIsl a) (addrFrame a) (frameBits ws) false == none] [t.frames == s.frames, ((t.load.getD l).fail.map (fun f => (f.code, f.frame))) == some (9, a)] : Option Unit) = some () := by decide +kernel
theorem test_zero : (let a := (ad 1 3 100); let s := P WL L1; let s2 := fset s 0 Reg.Hub.DIES_PRESENT 0xFD; let t2 := nx (execZero 7 a s2)
  ck "zero" [discards s2 L1, !discards s L1, addrOk L1 7 a.toNat] [t2 == { s2 with port := s2.port.drop 8, load := some { L1 with written := 7, bytes := 8 } }] : Option Unit) = some () := by decide +kernel
theorem test_dieRec : (let s := P WL L1; let ws := List.replicate 18 (40 : Word); ck "dieRec" [] [nx (execDieRec 18 ws s) == { s with port := s.port.drop 76, load := some { L1 with dieRec := some ws, bytes := 76 } }, nx (execSegmentNop 0 s) == { s with port := s.port.drop 4, load := some { L1 with bytes := 4 } }] : Option Unit) = some () := by decide +kernel
def rec18 : List Word := List.replicate 8 (0x100 + 40) ++ List.replicate 10 20
theorem test_end1 : (let l := { L1 with dieRec := some rec18, written := 1, hashOk := 3, bytes := 96 }; let s := P WL l; let t := nx (execEndRecord 0 s)
  ck "end1" [segFail s l 0 == none, !discards s l] [t.frames == s.frames, (List.range 8).all (fun k => fget t (dieBase 1) (Reg.Die.SPINE_N k) == 40), t.load == some { l with cur := 1, written := 0, dieRec := none, bytes := 0 }] : Option Unit) = some () := by decide +kernel
theorem test_end2 : (let l := { L1 with dieRec := some rec18, cur := 1, written := 0, hashOk := 3, bytes := 76 }; let s := P WL l; let t := nx (execEndRecord 0 s)
  ck "end2" [segFail s l 0 == none, !discards s l] [(List.range 8).all (fun k => fget t (dieBase 2) (Reg.Die.SPINE_N k) == 40), cfgState t == 2, (t.load.map (·.stage)) == some 3] : Option Unit) = some () := by decide +kernel
theorem test_srcto : (do for rt in [true, false] do for gd in [true, false] do
      let l := { L1 with retry := rt, golden := gd }; let s := P WL l; let t := nx (execSourceTimeout s); ck "srcto" [s.fuses.srcStrap != 3] [t.frames == [], fget t cfgBase Reg.Cfg.ERR_CODE == 0x13, fbit t cfgBase Reg.Cfg.ERR_VALID, !rt || (cfgState t == 4 && t.load.isNone)] : Option Unit) = some () := by decide +kernel
theorem test_hpar : (let s := { P WL L1 with fuses := { W1.fuses with srcStrap := 1 } }; ck "hpar" [portTakes s 1] [nx (execHparWord 5 s) == { s with port := s.port ++ natLe 5 4 }] : Option Unit) = some () := by decide +kernel
theorem test_hpar2 : (let s := { P WL L1 with fuses := { W1.fuses with srcStrap := 1 }, port := List.replicate 1022 3 }; ck "hpar2" [portTakes s 1] [nx (execHparWord 5 s) == s] : Option Unit) = some () := by decide +kernel
theorem test_hspi : (let s := { P WL L1 with fuses := { W1.fuses with srcStrap := 2 } }; ck "hspi" [portTakes s 2] [nx (execHspiByte 5 s) == { s with port := s.port ++ [5] }] : Option Unit) = some () := by decide +kernel
theorem test_cfgIn : (let s := { P WL L1 with fuses := { W1.fuses with srcStrap := 3 }, tap := { on := true } }; ck "cfgIn" [portTakes s 3] [nx (execCfgIn 5 s) == { s with port := s.port ++ natLe 5 4, tap := { s.tap with ir := 0xC5, dr := 5 } }] : Option Unit) = some () := by decide +kernel
theorem test_release : (let s := fflag (islUpd W1 60 (fun i => { i with pendRel := true })) (islBase 60) Reg.Isl.LOCKED true; let t := nx (execStagedRelease s); ck "release" [s.load.isNone, spliceMembers s 60 == [60], islMayRun s 60] [!(islGet t 60).hold, !(islGet t 60).pendRel, (islGet t 60).image, (islGet t 60).region == 2, (islGet t 60).rel == 160, islState t 60 == 0] : Option Unit) = some () := by decide +kernel
theorem test_lockFail : (let s := fflag (islUpd W1 60 (fun i => { i with pendRel := true })) (islBase 60) Reg.Isl.LOCKED false; let t := nx (execLockFail 1 12 s); ck "lockFail" [islState s 60 != 5] [!(islGet t 60).pendRel, (islGet t 60).hold, (t.alarms.getLast?.map (fun (a : Alarm) => (a.cls, a.cause))) == some (clsCfg, 3), islGet t 61 == islGet s 61] : Option Unit) = some () := by decide +kernel
def rj (t : State) (code : Nat) : Bool := t.frames == [] && fget t cfgBase Reg.Cfg.ERR_CODE == code && fbit t cfgBase Reg.Cfg.ERR_VALID && !fbit t cfgBase Reg.Cfg.ERR_PARTIAL
theorem test_records_rejected : (let s := { P WL L1 with frames := [(5, {})] }; let l := { L1 with left := 2 }; let e := P WL { L1 with dieRec := some rec18, written := 1, hashOk := 3 }
  ck "rejected" [!addrOk L1 0 5, (parseFrame false [1]).isNone, (segFail e { L1 with dieRec := some rec18, written := 1, hashOk := 3 } 0).map (fun f => f.code) == some 1] [rj (nx (execFrames 0 5 s)) 1, rj (nx (execZero 0 5 s)) 1, rj (nx (execFrameRecord [1] { s with load := some l })) 1, rj (nx (execDieRec 17 [] s)) 1, rj (nx (execSegmentNop 1 s)) 1, rj (nx (execEndRecord 0 e)) 1,
    nx (execFrameRecord [1] s) == s, nx (execEndRecord 0 { s with load := some l }) == { s with load := some l }, nx (execFrames 1 5 { s with load := none }) == { s with load := none }] : Option Unit) = some () := by decide +kernel
theorem test_partial : (let l := { newLoad W1 true false false 1 1 8 with stage := 1, segs := [⟨1, 0x3C0, 4, 0, 8⟩], hashOk := 1 }; let s := P (setIslState WL 51 0) l; let t := nx (execEndRecord 0 s); let h := P WL { newLoad W1 true false false 1 1 8 with stage := 0 }; let u := nx (execImageHeader [] ic h); let n := { WL with load := none }
  ck "partial" [segFail s l 0 == none, loadIslands l == [51], (headerFail h (newLoad W1 true false false 1 1 8) [] ic).map (fun f => f.code) == some 1, cfgState n != 4] [t.load == some { l with stage := 2, written := 0, bytes := 0 }, islState t 51 == 1, (nocGet t 51).kind == 3, u.load.isNone, u.isl == h.isl, endedB u 1 8 [], fbit u cfgBase Reg.Cfg.ERR_PARTIAL,
    nx (execImageHeader [] ic n) == { n with port := n.port.drop 0 }, nx (execSourceTimeout s) == s] : Option Unit) = some () := by decide +kernel
theorem test_retry : (let n := { (fset WL cfgBase Reg.Cfg.CFG_STATE 4) with load := none, fuses := { W1.fuses with speed := 2 } }; let t := nx (execImageHeader hdr ic n)
  ck "retry" [headerFail (startFull { n with port := n.port.drop hdr.length } false true) (newLoad n false false true 0 0 0) hdr ic == none] [t.frames == [], cfgState t == 1, (t.load.map (fun x => (x.retry, x.stage))) == some (true, 1)] : Option Unit) = some () := by decide +kernel
theorem test_lockFail_partial : (let l := { newLoad W1 true false false 1 1 (2 ^ 12) with stage := 3 }; let s := fflag (islUpd { W1 with load := some l } 60 (fun i => { i with pendRel := true })) (islBase 60) Reg.Isl.LOCKED false; let t := nx (execLockFail 1 12 s); let k := fflag s (islBase 60) Reg.Isl.LOCKED true
  ck "lockFail partial" [loadIslands l == [60], islState s 60 != 5] [t.load.isNone, endedB t 1 8 [], (mbGet t 1).detail == detail 2 0x14 0, !(islGet t 60).image, (islGet t 60).region == 4, nx (execLockFail 1 12 k) == k] : Option Unit) = some () := by decide +kernel
def WF : State := { P WL { L1 with stage := 3, designId := 0x123456789ABCDEF0112233, golden := true } with isl := [] }
theorem test_full : (WF.load.map (fun l => (l.partialLoad, l.stage))) = some (false, 3) ∧ ∀ n, (islGet WF n).pendRel = false :=
  ⟨by decide +kernel, fun _ => rfl⟩

end Loads

namespace Supplies

/-! Witnesses for SleepWakeAndResetEvents, RailsFollowTheirTargets. -/

def D (s : State) : State := { s with pwr := { s.pwr with ao := true, dormant := true, mainEn := false, hubReset := true } }
def DW : State := fset (D {}) pwrBase Reg.Pwr.WAKE_EN 7
theorem test_standby : (do for k in [0,2] do
    let s := setDevState (nocUpd (runI (runI W1 53) 100) 53 (fun x => { x with kind := k })) 1; let s := quadUpd (eisUpd s 13 (fun e => { e with pst := 0, hold := false })) 5 (fun q => { q with pst := 0 }); let t := nx (execStandbyEntryDone s)
    ck "standby" [s.pwr.wake == none] [devState t == 2, islState t 53 == (if k = 2 then 4 else 3), islState t 100 == 3, (eisGet t 13).pst == 3, (quadGet t 5).pst == 3] : Option Unit) = some () := by decide +kernel
theorem test_supply : (let s : State := { pwr := { ao := true, mainEn := true } }; let t := nx (execSupplyTimeout s); ck "supply" [] [!t.pwr.mainEn, t.pwr.dormant, t.pwr.railEvent, fbit t pwrBase Reg.Pwr.PG_FAIL, { t with csr := s.csr, fresh := s.fresh, pwr := s.pwr } == s] : Option Unit) = some () := by decide +kernel
theorem test_wakeN : (let t := nx (execWakeN DW); ck "wakeN" [!aoHot DW] [t.pwr.mainEn, fget t pwrBase Reg.Pwr.LAST_WAKE == 1] : Option Unit) = some () := by decide +kernel
theorem test_i2cw : (let s := fset DW pwrBase Reg.Pwr.I2C_WAKE_ADDR 0x33; let t := nx (execI2cWakeMatch 0x33 s); ck "i2cw" [] [t.pwr.mainEn, fget t pwrBase Reg.Pwr.LAST_WAKE == 2] : Option Unit) = some () := by decide +kernel
theorem test_aot : (let s := fset DW pwrBase Reg.Pwr.AO_TIMER 5; let t := nx (execAoTimer s); ck "aot" [] [t.pwr.mainEn, fget t pwrBase Reg.Pwr.LAST_WAKE == 4, fget t pwrBase Reg.Pwr.AO_TIMER == 0] : Option Unit) = some () := by decide +kernel
theorem test_wakeN1 : (let s := setDevState (fset W1 pwrBase Reg.Pwr.WAKE_EN 7) 1; let t := nx (execWakeN s); ck "wakeN1" [] [t.pwr.wake == some 0, t.csr == s.csr, t.isl == s.isl] : Option Unit) = some () := by decide +kernel
def AI (s : State) : State := fset (fset (runI s 53) pwrBase Reg.Pwr.AUTO_IDLE_S 5) pwrBase Reg.Pwr.WAKE_EN 1
def W5 : State := { W1 with sessions := [⟨5, 0, .fabric 0 47, 0, [], 0⟩] }
theorem test_autoIdle : (let s := AI W5; let t := nx (execAutoIdle s); ck "autoIdle" [deviceIdle s, protLocked s, devState s == 0, !wakeMeets s false (bellMeets s none)] [devState t == 1, t.pwr.wake == none, t.pwr.runIsl == allIsl.filter (fun n => islState s n == 0), islState t 53 == 1, (nocGet t 53).device] : Option Unit) = some () := by decide +kernel
theorem test_autoIdle_dormant : (let s := fset (AI W5) pwrBase Reg.Pwr.AUTO_TARGET 1; let t := nx (execAutoIdle s); ck "autoIdle dormant" [!wakeMeets s true (bellMeets s none)] [devState t == 4, t.pwr.wake.isNone, islState t 53 == 1] : Option Unit) = some () := by decide +kernel
def lostB (s t : State) : Bool := t.isl == [] && t.eng == [] && t.bram == [] && t.frames == [] && t.dram == [] && t.sessions == [] && t.alarms == [] && t.mb == [] && t.sec == {} && t.flash == s.flash && t.fuses == s.fuses && t.pending == s.pending && t.pwr.hubReset
def keptB (s t : State) (f : Fld) : Bool := fget t pwrBase f == fget s pwrBase f % 2^f.wd
theorem test_therm : (let s := AI W4; let t := nx (execThermalTrip 7 s); ck "therm" [] [lostB s t, t.pwr.dormant, !t.pwr.mainEn, t.pwr.tripEvent == some 7, fbit t pwrBase Reg.Pwr.THERM_TRIP, keptB s t Reg.Pwr.WAKE_EN, keptB s t Reg.Pwr.DORMANT_CNT] : Option Unit) = some () := by decide +kernel
theorem test_rst : (let s := AI W4; let t := nx (execSysRstN false s); ck "rst" [] [lostB s t, t.pwr.sysRst, t.pwr.mainEn == s.pwr.mainEn, keptB s t Reg.Pwr.WAKE_EN, keptB s t Reg.Pwr.AO_TIMER] : Option Unit) = some () := by decide +kernel
theorem test_rst1 : (let s : State := { pwr := { ao := true, sysRst := true, dormant := true } }; let t := nx (execSysRstN true s); ck "rst1" [] [{ t with pwr := s.pwr } == s, !t.pwr.sysRst, t.pwr.mainEn, !t.pwr.dormant] : Option Unit) = some () := by decide +kernel
theorem test_railf : (let s := AI W4; let t := nx (execRailFault 3 s); ck "railf" [] [lostB s t, t.pwr.railEvent, t.pwr.mainEn, keptB s t Reg.Pwr.WAKE_EN] : Option Unit) = some () := by decide +kernel
theorem test_aopg : (let s : State := {}; let t := nx (execAoPowerGood s); ck "aopg" [] [t.pwr.ao, t.pwr.mainEn, { t with pwr := s.pwr } == s] : Option Unit) = some () := by decide +kernel
theorem test_vccao : (let s := AI W4; let t := nx (execVccAoLoss s); ck "vccao" [] [lostB s t, !t.pwr.ao, t.csr == [], !t.tap.on] : Option Unit) = some () := by decide +kernel
set_option maxRecDepth 200000 in
theorem test_idle_supply_rows : (let s := AI W5; let d := DW; ck "nothing" [devState s == 0, !wakeEnabled s 1] [nx (execStandbyEntryDone s) == s, nx (execSupplyTimeout s) == s, nx (execI2cWakeMatch 3 s) == s, nx (execAoTimer s) == s, nx (execAutoIdle (fset s pwrBase Reg.Pwr.AUTO_IDLE_S 0)) == fset s pwrBase Reg.Pwr.AUTO_IDLE_S 0,
    nx (execThermalTrip 3 { s with pwr := { s.pwr with mainEn := false } }) == { s with pwr := { s.pwr with mainEn := false } }, nx (execSysRstN true s) == s, nx (execRailFault 1 d) == d, nx (execAoPowerGood s) == s, nx (execWakeN s) == pwrUpd s (fun p => { p with fired := tset 0 p.fired 0 (upUs s + 1) })] : Option Unit) = some () := by decide +kernel
theorem test_autoIdle_more : (let s := AI W5; let m := { s with pwr := { s.pwr with fired := [(0, upUs s + 1)] } }; let t := nx (execAutoIdle m); let u := fset s pwrBase Reg.Pwr.WAKE_EN 0; ck "autoIdle more" [deviceIdle m, wakeMeets m false (bellMeets m none), !(wakeSources false).any (wakeEnabled u)] [devState t == 0, t.isl == m.isl, fget t pwrBase Reg.Pwr.SLEEP_ABORT_CNT == 1, nx (execAutoIdle u) == jEvent u 0x8E 3 0] : Option Unit) = some () := by decide +kernel
theorem test_standby_exit : (let s := fset (fset (setDevState W1 2) pwrBase Reg.Pwr.WAKE_EN 5) pwrBase Reg.Pwr.AO_TIMER 9; let t := nx (execWakeN s); let u := nx (execAoTimer s); let v := nx (execStandbyEntryDone (pwrUpd (setDevState W1 1) (fun p => { p with wake := some 2 })))
  ck "standby exit" [!s.pwr.dormant, aoCounts s] [devState t == 0, fget t pwrBase Reg.Pwr.LAST_WAKE == 1, devState u == 0, fget u pwrBase Reg.Pwr.LAST_WAKE == 4, fget u pwrBase Reg.Pwr.AO_TIMER == 0, fget v pwrBase Reg.Pwr.LAST_WAKE == 4, devState v == (if (List.range 9).all (fun q => (railGet v q).out.isNone) then 0 else 3)] : Option Unit) = some () := by decide +kernel
-- rails
def last (t : State) : Option (Nat × Nat × List Byte) := t.alarms.getLast?.map (fun (a : Alarm) => (a.cls, a.cause, a.loc))
theorem test_sens : (let s := fset W1 pwrBase (Reg.Pwr.V_SET 3) 800; let t := nx (execSensorSample (.rail 3 777) s); let t2 := nx (execSensorSample (.junction 2 4 900) s)
  ck "sens" [] [fget t pwrBase (Reg.Pwr.V_MEAS 3) == 777, vSet t 3 == 800, { t with csr := s.csr, fresh := s.fresh } == s, tget 0 t2.pwr.junction 16 == 900, { t2 with pwr := s.pwr } == s] : Option Unit) = some () := by decide +kernel
def RW : State := railUpd (fset W1 pwrBase (Reg.Pwr.V_SET 3) 800) 3 (fun x => { x with out := some 810, waiting := some 820, tries := 2 })
theorem test_avs : (let s := RW; let x := railGet s 3; let t := nx (execAvsAck 3 s); let t2 := nx (execAvsTimeout 3 s); ck "avs" [] [vSet t 3 == 810, railGet t 3 == { x with out := some 820, tries := 0, waiting := none }, railGet t2 3 == { x with tries := 3 }, fget t2 pwrBase (Reg.Pwr.AVS_RETRY_CNT 3) == 1] : Option Unit) = some () := by decide +kernel
theorem test_frz : (let s := railUpd RW 3 (fun x => { x with tries := 3 }); let x := railGet s 3; let t := nx (execAvsTimeout 3 s); let d := fset s pwrBase (Reg.Pwr.V_MEAS 3) 831; let t2 := nx (execRailDeviation 3 d); let f := fflag d pwrBase (Reg.Pwr.FROZEN 3) true; let t3 := nx (execRailDeviation 3 f); ck "frz" [] [frozen t 3, vSet t 3 == 800, railGet t 3 == { x with out := none, tries := 0, waiting := none }, last t == some (clsPower, 1, [3,0,0,0,0,0,0,0]), frozen t2 3, railGet t2 3 == { x with out := none, tries := 0, waiting := none }, last t2 == some (clsPower, 6, [3,0,0,0,0,0,0,0]), railGet t3 3 == x, last t3 == some (clsPower, 6, [3,0,0,0,0,0,0,0]), nx (execRailDeviation 3 (fset s pwrBase (Reg.Pwr.V_MEAS 3) 830)) == fset s pwrBase (Reg.Pwr.V_MEAS 3) 830, nx (execAvsTimeout 3 f) == f] : Option Unit) = some () := by decide +kernel
theorem test_aging : (let s := fset W1 pwrBase (Reg.Pwr.AGE_OFS 3) 7; let t := nx (execAgingSample 3 5000 s); let t2 := nx (execAgingSample 3 500 s); ck "aging" [] [fget t pwrBase (Reg.Pwr.AGE_OFS 3) == 20, tget 0 t.flash.aging 3 == 20, fget t2 pwrBase (Reg.Pwr.AGE_OFS 3) == 7, t.pwr == s.pwr] : Option Unit) = some () := by decide +kernel
theorem test_tj : (let s := { W1 with pwr := { W1.pwr with junction := [(9, 900)] } }; let t := nx (execTjAlarm 9 s); let t2 := nx (execTjAlarm 9 t); ck "tj" [] [nx (execTjAlarm 8 s) == s, last t == some (clsPower, 4, [9,0,0,0,0,0,0,0]), t.csr == s.csr, t2 == t] : Option Unit) = some () := by decide +kernel
def rep : LoopReport := { running := true, lowest := 3, stretched := 4, exhausted := 2, periods := 100, rise := 2 }
theorem test_loop0 : (do for r in [0,3] do
      let s := railUpd (fset (fset W1 pwrBase Reg.Pwr.POLICY 0) pwrBase (Reg.Pwr.V_SET r) 800) r (fun x => { x with hist := [(1,2,3)] }); let rr : Fin 9 := Fin.ofNat 9 r
      let t := nx (execPolicyLoop rr rep s)
      ck "loop0" [s.pwr.nextPolicy == none, lowBound s r ≤ 800, 800 ≤ highBound s r] [(railGet t r).out == none, !fbit t pwrBase Reg.Pwr.BELOW_MARGIN, (railGet t r).hist == [(4,2,100),(1,2,3)]]
      let s := fset s pwrBase Reg.Pwr.POLICY 1
      let t := nx (execPolicyLoop rr rep s)
      let t2 := nx (execPolicyLoop rr { rep with running := false } s)
      ck "loop1" [] [(railGet t r).out == some 810, vSet t r == 800, (railGet t2 r).out == none] : Option Unit) = some () := by decide +kernel
theorem test_sensors : (let s := railUpd W1 3 (fun x => { x with nowAt := upUs W1 / 1000000, now := { st := 4 } }); let t := nx (execSensorSample (.margin 2 7 5 1) s); let u := nx (execSensorSample (.regulator 3 700 2 3) s); let v := nx (execSensorSample (.junction 8 3 900) s)
  ck "sensors" [] [(railGet t 3).now.st == 9, (railGet t 3).now.ex == 1, railGet u 3 == { railGet s 3 with regMv := 700, amp := 2, watt := 3 }, tget 0 v.pwr.junction 51 == 900, (railGet v 0).now.hot == some 900, nx (execAvsAck 4 s) == s] : Option Unit) = some () := by decide +kernel
theorem test_rail_exit : (let s := railUpd (setDevState W1 3) 3 (fun x => { x with out := some 810 }); let t := nx (execAvsAck 3 s); ck "rail exit" [(List.range 9).all (fun q => q == 3 || (railGet s q).out.isNone)] [devState t == 0, vSet t 3 == 810] : Option Unit) = some () := by decide +kernel
theorem test_loop_more : (let s := fset (fset W1 pwrBase Reg.Pwr.POLICY 1) pwrBase (Reg.Pwr.V_SET 3) 800; let h := railUpd s 3 (fun x => { x with hist := List.replicate 99 (0, 0, 100) }); let q : LoopReport := { running := true, lowest := 60, stretched := 0, exhausted := 0, periods := 100, rise := 2 }; let b := { s with pwr := { s.pwr with bounds := [(0, 720, 860)], nextPolicy := some 2 } }; let r := railUpd s 3 (fun x => { x with raisedUs := some (upUs s) }); let t := nx (execPolicyLoop 3 q h); let u := nx (execPolicyLoop 3 rep b)
  ck "loop more" [!raiseAllowed r 3, lowBound s 3 ≤ 795, fget s pwrBase Reg.Pwr.SLACK_HI ≤ 60] [(railGet t 3).out == some 795, u.pwr.vlo == 720, u.pwr.vhi == 860, u.pwr.bounds == [], policy u == 2, (railGet (nx (execPolicyLoop 3 rep r)) 3).out == none, nx (execPolicyLoop 3 rep (setDevState s 2)) == setDevState s 2] : Option Unit) = some () := by decide +kernel
-- start
def F : Fuses := { ({} : State).fuses with majority := true, sysclk := true, stepping := 3, rollback := 5 }
def SV : State := { pwr := { ao := true, mainEn := true }, fuses := F }
def beganB (s t : State) : Bool := !t.pwr.hubReset && bootPhase t == 1 && t.tap.on && t.up == 0 && fget t 0 Reg.Hub.IDCODE == (s.fuses.stepping * 2 ^ 28 + 0x96804D7) % 2 ^ 32 && fget t 0 Reg.Hub.RB_FUSE == s.fuses.rollback && t.fuses == s.fuses && t.flash.bytes == s.flash.bytes
theorem test_supv : (let s := fset SV 0 Reg.Hub.START_CNT 65535; let t := nx (execSuppliesValid s); let s2 := { SV with fuses := { F with majority := false } }; let t2 := nx (execSuppliesValid s2); ck "supv" [] [beganB s t, fget t 0 Reg.Hub.START_CNT == 65535, t2.boot.halted, bootPhase t2 == 7] : Option Unit) = some () := by decide +kernel
theorem test_wd : (let s := fset { (AI W4) with fuses := F } 0 Reg.Hub.BOOT_PHASE 3; let t := nx (execStartWatchdog s); ck "wd" [] [beganB s t, fget t 0 Reg.Hub.WD_RESTART_CNT == 1, t.isl == [], t.sec == {}] : Option Unit) = some () := by decide +kernel
def B1 : State := nx (execSuppliesValid SV)
def dsx (l : List Nat) (fl : Nat) : List DieFound := (List.range 8).map (fun d => ⟨l.contains d, 2, BitVec.ofNat 4 fl⟩)

end Supplies

namespace Start

/-! Witnesses for StartPhasesFollowEachOther, TapInstructionsTakeEffect, UpsetsChangeStoredBits. -/

def F : Fuses := { ({} : State).fuses with majority := true, sysclk := true, stepping := 3, rollback := 5 }
def SV : State := { pwr := { ao := true, mainEn := true }, fuses := F }
/-- The bytes of a manifest that are not 0: the format of 16 R485 to R487. -/
def maniBytes : List (Nat × Nat) :=
  [(0, 83), (1, 90), (2, 77), (3, 70), (4, 1), (8, 128), (9, 150), (12, 9), (24, 6), (37, 16), (40, 1), (96, 1),
    (101, 32), (104, 1), (160, 2), (165, 48), (168, 1), (224, 3), (229, 64), (232, 1), (288, 4), (293, 80), (296, 1),
    (352, 5), (357, 96), (360, 1), (416, 6), (421, 112), (424, 1), (544, 85), (545, 5), (548, 10), (628, 1), (632, 1),
    (636, 1), (640, 1), (864, 1), (868, 1)]
def mani (flags : Nat) : List Byte := (List.range 0x400).map (fun i => byte (if i = 6 then flags else (maniBytes.lookup i).getD 0))
def CK : SlotCheck := { keyOk := true, sigOk := true, op := { keyOk := true, sigOk := true, hashOk := 0xFF, tagOk := 0xFF }, golden := { keyOk := true, sigOk := true, hashOk := 0xFF, tagOk := 0xFF } }
def inFlash (s : State) (m : List Byte) : State := { s with flash := { s.flash with bytes := m.zipIdx.map (fun p => (p.2, p.1)) } }
/-- A device in start phase p, with a manifest in flash slot 0. -/
def Ph (p f : Nat) : State := inFlash (fset { SV with pwr := { SV.pwr with hubReset := false }, boot := { dmc := true, manifest := mani f } } 0 Reg.Hub.BOOT_PHASE p) (mani f)
theorem test_phaseB : (ck "phaseB" [inPhase (Ph 1 0) 1] [] : Option Unit) = some () := by decide +kernel
set_option maxRecDepth 200000 in
theorem test_phaseC : (let s := Ph 2 0; let m := slotManifest s 0
  ck "phaseC" [inPhase s 2, !s.flash.bad, s.flash.active ≤ 1, !marker s 1, !stepAlt s 0x21 0, mfCheck s m CK false == 0, !stepAlt s 0x22 0, !stepAlt s 0x23 0] [] : Option Unit) = some () := by decide +kernel
theorem test_no_bell : ∀ n, (mbGet (Ph 2 0) n).bell = none := fun _ => rfl
theorem test_phaseD : (let s := Ph 3 0; ck "phaseD" [inPhase s 3, (channelFit s 1 none).isNone] [] : Option Unit) = some () := by decide +kernel
set_option maxRecDepth 200000 in
theorem test_phaseE : (let s := Ph 4 0; ck "phaseE" [inPhase s 4, s.load.isNone, cfgState s == 0, !stepAlt s 0x40 0, s.fuses.srcStrap != 0 || partLen s 5 != 0] [] : Option Unit) = some () := by decide +kernel
set_option maxRecDepth 200000 in
theorem test_phaseF : (ck "phaseF" [inPhase (Ph 5 0) 5, inPhase (Ph 6 0) 6, (Ph 6 0).boot.dmc, !protLocked (Ph 6 0), !(mfGet (Ph 6 0) 6 2).testBit 0, mfGet (Ph 6 0) 0x224 2 != 0] [] : Option Unit) = some () := by decide +kernel
-- tap
def T (h : Bool) : State := { fset (fset W1 (lb 21) Reg.Lane.LINK_STATE 5) (lb 21) Reg.Lane.MODE 2 with tap := { on := true, ir := if h then 0xB else 9 } }
def same (t s : State) : Bool := { t with tap := s.tap } == s
theorem test_tap_read : (do for h in [true, false] do
      let s := fset (T h) cfgBase (Reg.Cfg.DESIGN_ID 0) 77
      let a := nx (execIdcode s); let b := nx (execUsercode s); let s4 := setCfgState s 4; let b4 := nx (execUsercode s4)
      let v := BitVec.ofNat 32 (fget s 0 Reg.Hub.IDCODE)
      ck "tap read" [cfgState s == 3] [a.tap == { s.tap with ir := 9, dr := v }, a.rsp == (⟨.okay, v, []⟩ : Rsp), { a with tap := s.tap, rsp := s.rsp } == s, b.tap == { s.tap with ir := 8, dr := 77 }, b.rsp == (⟨.okay, 77, []⟩ : Rsp), b4.tap == { s.tap with ir := 8, dr := 0 }]
      let r := nx (execTapReset s); let y := nx (execBypass 0x3FF s)
      ck "tap quiet" [] [same r s, r.tap == { s.tap with ir := 9 }, same y s, y.tap == { s.tap with ir := 0x3FF }]
      for p in [(nx (execHighz s), 0xA), (nx (execClamp s), 0xB), (nx (execExtest 5 s), 0), (nx (execExtestPulse 5 s), 0x2C), (nx (execExtestTrain 5 s), 0x2D)] do
        ck "tap pins" [scanLanes.contains 21] [p.1.tap.ir == p.2, p.1.flash == s.flash, if h then p.1.csr == s.csr else linkState p.1 21 != 5]
        ck "tap bsr" [] [p.2 == 0xA || p.2 == 0xB || p.1.tap.bsr == 5] : Option Unit) = some () := by decide +kernel
theorem test_tap_off : (let s := { W1 with tap := { on := false } }; let p := pcieUpd (fset { W1 with tap := { on := true, ir := 9 } } (pcieBase 0 0) Reg.Pcie.DL_UP 1) 0 (fun x => { x with up := true, perst := false }); let t := nx (execHighz p)
  ck "tap off" [linkLive p 0 0, irCodes.contains 9] [nx (execIdcode s) == s, nx (execExtest 5 s) == s, nx (execBypass 3 s) == s, nx (execTapReset s) == s, nx (execBypass 9 p) == p, !fbit t (pcieBase 0 0) Reg.Pcie.DL_UP] : Option Unit) = some () := by decide +kernel
theorem test_other_phase : (let s := Ph 0 0; ck "other phase" [] [nx (execPhaseB [] [] s) == s, nx (execPhaseD [] [] 0 0 true s) == s, nx (execPhaseE s) == s, nx (execPhaseF [] s) == s, nx (execLockWait s) == s, nx (execSuppliesValid s) == s] : Option Unit) = some () := by decide +kernel
-- upsets
theorem test_upset : (let s := W1; let t := nx (execMemoryUpset (.bram 1 2 3 4 9) s); let k := bramKey (islId 1 2) 3; let t2 := nx (execMemoryUpset (.engineDm e0 7 3) s); let t3 := nx (execMemoryUpset (.enginePm e0 7 3) s); let t4 := nx (execMemoryUpset (.dram 0x47654321 6 1) s)
  let s5 := granSet W1 9 { owner := 1, flip := 2 }; let t5 := nx (execMemoryUpset (.granule 9 3) s5); let s6 := granSet W1 9 { owner := 1, bad := true }; let s7 := cachePut W1 1 5 (some ⟨0, false, []⟩); let t7 := nx (execMemoryUpset (.cache 1 5 7 4) s7)
  ck "upset" [] [tget 0 (bramGet t k).rows 4 == 9, { t with bram := s.bram } == s, tget 0 (engOf t2 e0).dm 7 == 3, { t2 with eng := s.eng } == s, tget 0 (engOf t3 e0).pm 7 == 3, dramGet t4 1 0x7654321 == ⟨6, 1⟩, granGet t5 9 == { owner := 1, flip := 1 }, nx (execMemoryUpset (.granule 9 3) s6) == s6, (cacheGet t7 1 5) == some ⟨0, false, [(7, 4)]⟩, nx (execMemoryUpset (.cache 1 6 7 4) s7) == s7] : Option Unit) = some () := by decide +kernel
theorem test_upset_link : (let p := { evtPacket 3 2 1 with len := 1 }; let s := { W1 with net := [p] }; let f (k : Fin 9) (m : BitVec 72) := nx (execMemoryUpset (.link p k 0 m) s); let a := f 0 3; let b := f 1 3; let c := f 0 1
  ck "upset link" [linkDie s p == none || linkDie s p == some 0] [a.net == [], b.net == [{ p with poisoned := true }], c.net == [p], nx (execMemoryUpset (.link p 2 0 3) s) == s] : Option Unit) = some () := by decide +kernel

end Start

end Sys2Proof.Tests
end

namespace Sys2Proof.Machine

/-! ### The truncated product (05 R164) -/

/-- The bits of `x` in columns 0 to `n - 1`, each at its weight, are the low `n` bits of `x`. -/
theorem sum_testBit_range (x n : Nat) :
    ((List.range n).map (fun j => 2 ^ j * (x.testBit j).toNat)).sum = x % 2 ^ n := by
  induction n with
  | zero => simp [Nat.mod_one]
  | succ n ih =>
    rw [List.range_succ, List.map_append, List.sum_append, ih, Nat.mod_pow_succ, ← Nat.toNat_testBit]
    simp

/-- One row of the array, the multiplier bit `p` at weight `2 ^ i`: cut at column `n`, it keeps its value modulo `2 ^ n`. -/
theorem truncRow_modEq {i n : Nat} (hi : i ≤ n) (p x : Nat) :
    ((List.range (n - i)).map (fun j => 2 ^ (i + j) * (p * (x.testBit j).toNat))).sum ≡ 2 ^ i * p * x [MOD 2 ^ n] := by
  have row : ((List.range (n - i)).map (fun j => 2 ^ (i + j) * (p * (x.testBit j).toNat))).sum =
      2 ^ i * (p * (x % 2 ^ (n - i))) := by
    rw [← sum_testBit_range, ← List.sum_map_mul_left, ← List.sum_map_mul_left]
    congr 2; funext j; ring
  have low : 2 ^ i * (p * (x % 2 ^ (n - i))) ≡ 2 ^ i * (p * x) [MOD 2 ^ i * 2 ^ (n - i)] :=
    ((Nat.mod_modEq x _).mul_left p).mul_left' (2 ^ i)
  rw [← pow_add, Nat.add_sub_cancel' hi] at low
  rwa [row, mul_assoc]

/-- The omitted columns hold the product modulo `2 ^ 12`. -/
theorem truncOmega_modEq_mul (a b : BitVec 16) : truncOmega a b ≡ a.toNat * b.toNat [MOD 2 ^ 12] := by
  rw [truncOmega_eq_sum]
  calc _ ≡ ((List.range 12).map (fun i => 2 ^ i * (a.toNat.testBit i).toNat * b.toNat)).sum [MOD 2 ^ 12] :=
        Nat.ModEq.listSum_map fun i hi => truncRow_modEq (List.mem_range.mp hi).le _ b.toNat
    _ = a.toNat % 2 ^ 12 * b.toNat := by rw [List.sum_map_mul_right, sum_testBit_range]
    _ ≡ a.toNat * b.toNat [MOD 2 ^ 12] := (Nat.mod_modEq _ _).mul_right _

/-- The bound is reached where every omitted bit is 1. -/
theorem truncOmega_le (a b : BitVec 16) : truncOmega a b ≤ 45057 := by
  have bit (i j : Nat) : (if a.getLsbD i && b.getLsbD j then 2 ^ (i + j) else 0) ≤ 2 ^ (i + j) := by split <;> simp
  calc truncOmega a b
      ≤ ((List.range 12).map (fun i => ((List.range (12 - i)).map (fun j => 2 ^ (i + j))).sum)).sum :=
        List.sum_le_sum fun i _ => List.sum_le_sum fun j _ => bit i j
    _ = 45057 := by decide

/-- As an operand's sign is a bit above column 11, the signed product has the low bits of the unsigned one. -/
theorem toInt_mul_toInt_modEq (a b : BitVec 16) : a.toInt * b.toInt ≡ (a.toNat * b.toNat : Nat) [ZMOD 4096] := by
  have low (x : BitVec 16) : x.toInt ≡ x.toNat [ZMOD 4096] := by
    rw [BitVec.toInt_eq_toNat_bmod]
    exact Int.ModEq.of_dvd (by decide) (Int.bmod_emod (x := x.toNat) (m := 2 ^ 16))
  rw [Nat.cast_mul]
  exact (low a).mul (low b)

/-- The array without its columns 0 to 11 has its low 12 bits clear, so that those of the result are the constant's. -/
theorem mul16_trunc_emod (a b : BitVec 16) : mul16 true a b % 4096 = 0x800 := by
  have cancels : a.toInt * b.toInt ≡ truncOmega a b [ZMOD 4096] :=
    (toInt_mul_toInt_modEq a b).trans (Int.natCast_modEq_iff.mpr (truncOmega_modEq_mul a b).symm)
  rw [mul16, if_pos rfl]
  unfold Int.ModEq at cancels
  omega

/-- Settles O11: modulo `2 ^ 12` the omitted columns are the whole product. -/
theorem truncatedProductOmitsLowColumns : Obligations.TruncatedProductOmitsLowColumns := by
  unfold Obligations.TruncatedProductOmitsLowColumns
  intro a b omega
  have homega : truncOmega a b = omega := truncOmega_eq_sum a b
  rw [← homega]
  exact ⟨rfl, truncOmega_le a b, mul16_trunc_emod a b, rfl⟩

/-! ### Control transfers in a delay slot or a repeated bundle (05 R150) -/

/-- Settles O15: each form is `slotCT` of its own results, which are not used while `flow` is not `seq`. -/
theorem controlTransferInDelaySlotIsIgnored : Obligations.ControlTransferInDelaySlotIsIgnored := by
  unfold Obligations.ControlTransferInDelaySlotIsIgnored
  intro s g hissue hflow ignored
  have slot {legal : Bool} (hlegal : legal = true) (f : EngSt → List (Nat × ResW) × Nat × Flow) :
      (.next (slotCT g legal f s) : Out) = ignored :=
    congrArg _ (slotCT_ignored_eq_ranB hissue hlegal hflow f)
  refine ⟨?bCc, ?loop, ?bl, ?brr, ?reti, ?rpt, ?rptLc, ?done⟩
  case bCc => exact fun c t hc => slot (decide_eq_true hc) _
  case loop => exact fun t => slot rfl _
  case bl => exact fun rd t hrd => slot (decide_eq_true hrd) _
  case brr => exact fun rs hrs => slot (decide_eq_true hrs) _
  case reti => exact slot rfl _
  case rpt => exact fun n => slot rfl _
  case rptLc => exact slot rfl _
  case done => exact slot rfl _

end Sys2Proof.Machine

namespace Sys2Proof.Machine

/-! ### Width conversion between registers and 32-bit values (06 R175)

First the "Write" and "Read" columns together, as `convReg` applies them. -/

theorem lowBits_eq_setWidth (n : Nat) (v : Word) : lowBits n v = (v.extractLsb' 0 n).setWidth 32 := by
  apply BitVec.eq_of_toNat_eq
  simp [lowBits]

/-- A field of `n` bits whose sign bit is set stands for its unsigned value less `2 ^ n`. -/
theorem sextBits_eq_signExtend {n : Nat} (hpos : 0 < n) (hle : n ≤ 32) (v : Word) :
    sextBits n v = (v.extractLsb' 0 n).signExtend 32 := by
  have sign : (v.extractLsb' 0 n).msb = v.getLsbD (n - 1) := by
    simp [BitVec.msb_eq_getLsbD_last, hpos]
  have field : (v.extractLsb' 0 n).toNat < 2 ^ n := BitVec.isLt _
  have width : 2 ^ n ≤ 2 ^ 32 := Nat.pow_le_pow_right (by decide) hle
  apply BitVec.eq_of_toNat_eq
  rw [BitVec.toNat_signExtend, sign, sextBits, lowBits_eq_setWidth]
  split
  · rw [BitVec.toNat_sub, BitVec.toNat_setWidth, BitVec.toNat_ofNat]
    omega
  · rw [Nat.add_zero]

theorem convReg_x {n : Nat} (h : n < 16) (v : Word) : convReg n v = v := if_pos h

/-- The a, b and l registers. -/
theorem convReg_address {n : Nat} (h : 16 ≤ n ∧ n < 24 ∨ 32 ≤ n ∧ n < 48) (v : Word) :
    convReg n v = (v.extractLsb' 0 20).setWidth 32 := by
  rw [← lowBits_eq_setWidth]
  obtain h | h := h
  · simp (disch := omega) only [convReg, if_pos, if_neg]
  · simp (disch := omega) only [convReg, if_pos, if_neg]

theorem convReg_modify {n : Nat} (hge : 24 ≤ n) (hlt : n < 32) (v : Word) :
    convReg n v = (v.extractLsb' 0 20).signExtend 32 := by
  rw [← sextBits_eq_signExtend (by decide) (by decide)]
  simp (disch := omega) only [convReg, if_pos, if_neg]

theorem convReg_lc (v : Word) : convReg 48 v = (v.extractLsb' 0 16).setWidth 32 := lowBits_eq_setWidth 16 v

/-- The registers `ivec` and `epc`, which hold a bundle index. -/
theorem convReg_bundleIndex {n : Nat} (h : n = 50 ∨ n = 51) (v : Word) :
    convReg n v = (v.extractLsb' 0 10).setWidth 32 := by
  rw [← lowBits_eq_setWidth]
  simp (disch := omega) only [convReg, if_pos, if_neg]

theorem convReg_imask (v : Word) : convReg 53 v = (v.extractLsb' 0 3).setWidth 32 := lowBits_eq_setWidth 3 v

/-- The registers `tcnt` and `tload`. -/
theorem convReg_timer {n : Nat} (h : n = 54 ∨ n = 55) (v : Word) : convReg n v = v := by
  simp (disch := omega) only [convReg, if_neg]

/-! The two stores behind the register numbers, the banks and the control registers: which one a read looks at, and what a
write leaves in each. -/

theorem regRead_of_lt {n : Nat} (h : n < 49) (e : EngSt) (b : Bool) : regRead e b n = tget 0 (bankOf e b).r n := if_pos h

theorem regRead_st (e : EngSt) (b : Bool) : regRead e b 49 = tget 0 (bankOf e b).r 49 ||| when b 0x1000 := rfl

theorem regRead_of_ge {n : Nat} (h : 50 ≤ n) (e : EngSt) (b : Bool) : regRead e b n = tget 0 e.ctl n := by
  rw [regRead, if_neg (by omega), if_neg (by omega)]

theorem bankOf_setBank (e : EngSt) (b b' : Bool) (k : Bank) :
    bankOf (setBank e b k) b' = if b' = b then k else bankOf e b' := by
  cases b <;> cases b' <;> rfl

@[simp] theorem setBank_ctl (e : EngSt) (b : Bool) (k : Bank) : (setBank e b k).ctl = e.ctl := by
  cases b <;> rfl

theorem regWrite_of_lt {n : Nat} (h : n < 50) (e : EngSt) (b : Bool) (v : Word) :
    regWrite e b n v = setBank e b { bankOf e b with r := tset 0 (bankOf e b).r n (convReg n v) } := if_pos h

theorem regWrite_of_ge {n : Nat} (h : 50 ≤ n) (e : EngSt) (b : Bool) (v : Word) :
    regWrite e b n v =
      { e with ctl := tset 0 e.ctl n (if n = 52 then tget 0 e.ctl 52 &&& ~~~v else convReg n v) } := by
  rw [regWrite, if_neg h.not_gt]
  split
  next hipend => rw [hipend]
  next => rfl

theorem bankOf_regWrite_of_ge {n : Nat} (h : 50 ≤ n) (e : EngSt) (b b' : Bool) (v : Word) :
    bankOf (regWrite e b n v) b' = bankOf e b' := by
  rw [regWrite_of_ge h]
  rfl

theorem tget_bankOf_regWrite (e : EngSt) (b b' : Bool) (n m : Nat) (v : Word) :
    tget 0 (bankOf (regWrite e b n v) b').r m =
      if n < 50 ∧ b' = b ∧ m = n then convReg n v else tget 0 (bankOf e b').r m := by
  obtain hn | hn := lt_or_ge n 50
  · rw [regWrite_of_lt hn, bankOf_setBank]
    by_cases hb : b' = b
    · subst hb
      rw [if_pos rfl, tget_tset]
      simp only [hn, true_and]
    · simp only [hb, false_and, and_false, if_false]
  · rw [bankOf_regWrite_of_ge hn, if_neg fun h => h.1.not_ge hn]

theorem tget_ctl_regWrite (e : EngSt) (b : Bool) (n m : Nat) (v : Word) :
    tget 0 (regWrite e b n v).ctl m =
      if 50 ≤ n ∧ m = n then (if n = 52 then tget 0 e.ctl 52 &&& ~~~v else convReg n v) else tget 0 e.ctl m := by
  obtain hn | hn := lt_or_ge n 50
  · rw [regWrite_of_lt hn, setBank_ctl, if_neg fun h => hn.not_ge h.1]
  · simp only [regWrite_of_ge hn, tget_tset, hn, true_and]

theorem accRead_regWrite (e : EngSt) (b b' : Bool) (n k : Nat) (v : Word) :
    accRead (regWrite e b n v) b' k = accRead e b' k := by
  unfold accRead
  obtain hn | hn := lt_or_ge n 50
  · rw [regWrite_of_lt hn, bankOf_setBank]
    split
    next hb => rw [hb]
    next => rfl
  · rw [bankOf_regWrite_of_ge hn]

/-! What a register reads as after a write to it, and after a write to another register. -/

theorem regRead_regWrite_of_lt {n : Nat} (h : n < 49) (e : EngSt) (b : Bool) (v : Word) :
    regRead (regWrite e b n v) b n = convReg n v := by
  rw [regRead_of_lt h, tget_bankOf_regWrite, if_pos ⟨by omega, rfl, rfl⟩]

theorem regRead_regWrite_st (e : EngSt) (b : Bool) (v : Word) :
    regRead (regWrite e b 49 v) b 49 = (v &&& St.RW) ||| when b 0x1000 := by
  rw [regRead_st, tget_bankOf_regWrite, if_pos ⟨by decide, rfl, rfl⟩]
  rfl

theorem regRead_regWrite_of_ge {n : Nat} (h : 50 ≤ n) (hipend : n ≠ 52) (e : EngSt) (b : Bool) (v : Word) :
    regRead (regWrite e b n v) b n = convReg n v := by
  rw [regRead_of_ge h, tget_ctl_regWrite, if_pos ⟨h, rfl⟩, if_neg hipend]

theorem regRead_regWrite_ipend (e : EngSt) (b : Bool) (v : Word) :
    regRead (regWrite e b 52 v) b 52 = regRead e b 52 &&& ~~~v := by
  rw [regRead_of_ge (by decide), regRead_of_ge (by decide), tget_ctl_regWrite, if_pos ⟨by decide, rfl⟩, if_pos rfl]

theorem regRead_regWrite_ne {n m : Nat} (h : m ≠ n) (e : EngSt) (b b' : Bool) (v : Word) :
    regRead (regWrite e b n v) b' m = regRead e b' m := by
  have bank : tget 0 (bankOf (regWrite e b n v) b').r m = tget 0 (bankOf e b').r m := by
    rw [tget_bankOf_regWrite, if_neg fun hw => h hw.2.2]
  have ctl : tget 0 (regWrite e b n v).ctl m = tget 0 e.ctl m := by
    rw [tget_ctl_regWrite, if_neg fun hw => h hw.2]
  unfold regRead
  split_ifs with hlt hst
  · exact bank
  · subst hst
    rw [bank]
  · exact ctl

/-- Settles O17: one case for each row of the table. -/
theorem registerWidthConversions : Obligations.RegisterWidthConversions := by
  unfold Obligations.RegisterWidthConversions
  intro e b n v _ r
  refine ⟨?x, ?a, ?m, ?bl, ?lc, ?st, ?bundleIndex, ?ipend, ?imask, ?timer, ?otherRegisters, ?accumulators⟩
  case x => exact fun h => (regRead_regWrite_of_lt (by omega) e b v).trans (convReg_x h v)
  case a => exact fun hge hlt => (regRead_regWrite_of_lt (by omega) e b v).trans (convReg_address (.inl ⟨hge, hlt⟩) v)
  case m => exact fun hge hlt => (regRead_regWrite_of_lt (by omega) e b v).trans (convReg_modify hge hlt v)
  case bl => exact fun hge hlt => (regRead_regWrite_of_lt (by omega) e b v).trans (convReg_address (.inr ⟨hge, hlt⟩) v)
  case lc => rintro rfl; exact (regRead_regWrite_of_lt (by decide) e b v).trans (convReg_lc v)
  case st => rintro rfl; exact regRead_regWrite_st e b v
  case bundleIndex => exact fun h => (regRead_regWrite_of_ge (by omega) (by omega) e b v).trans (convReg_bundleIndex h v)
  case ipend => rintro rfl; exact regRead_regWrite_ipend e b v
  case imask => rintro rfl; exact (regRead_regWrite_of_ge (by decide) (by decide) e b v).trans (convReg_imask v)
  case timer => exact fun h => (regRead_regWrite_of_ge (by omega) (by omega) e b v).trans (convReg_timer h v)
  case otherRegisters => exact fun k _ h => ⟨regRead_regWrite_ne h e b b v, regRead_regWrite_ne h e b (!b) v⟩
  case accumulators => exact fun b' k => accRead_regWrite e b b' n k v

end Sys2Proof.Machine
